-- ==== Sys2Proof/Word.lean ====
section
/-! DEFINITION. The word types of the machine (R5, R48, R87). -/

namespace Sys2Proof

/-- A byte of memory (R5). -/
abbrev Byte := BitVec 8
/-- A halfword, the unit of the instruction stream (R86). -/
abbrev Half := BitVec 16
/-- A 32-bit register value (R48). -/
abbrev Word := BitVec 32
/-- A 64-bit register pair, program counter or instruction word (R49, R87, R94). -/
abbrev DWord := BitVec 64
/-- A lane mask: bit l stands for lane l (R5). -/
abbrev LaneMask := BitVec 32
/-- A lane number 0-31 (R5). -/
abbrev Lane := Fin 32
/-- One value per lane (R48). -/
abbrev Lanes (α : Type) := Vector α 32
/-- A register operand field (R89). -/
abbrev RegField := BitVec 7

end Sys2Proof
end

