-- ==== Sys2Proof/Config.lean ====
section
/-! DEFINITION. What the part fixes (R2, R13-R15, R25, R204, R242) and the free values: what the spec
leaves undefined or open, as opaque constants no proof can evaluate (notes/assumptions/2.md). -/

namespace Sys2Proof.Config

/-- Compute dies, columns, quads and cores (R14, R15). -/
abbrev numDies : Nat := 8
abbrev coresPerDie : Nat := 80
abbrev numCores : Nat := 640
abbrev numColumns : Nat := 40
/-- Banks of the L1/scratchpad array and their size in bytes (R2, R256). -/
abbrev numBanks : Nat := 20
abbrev bankBytes : Nat := 16384
/-- Words a FIFO bank holds (R181). -/
abbrev fifoWords : Nat := 4096
/-- Registers per lane on one scheduler (R25) and warps per scheduler (R26). -/
abbrev schedRegs : Nat := 1024
abbrev schedWarps : Nat := 16
/-- Operation records per core (R204). -/
abbrev opRecords : Nat := 256
/-- Sump entries (R242) and running places (R302). -/
abbrev sumpEntries : Nat := 4096
abbrev runningPlaces : Nat := 256
/-- Lines the resident blocks of a core may hold locked (R259). -/
abbrev lockLines : Nat := 512
/-- Entries of a quad TLB (R325). -/
abbrev tlbEntries : Nat := 8192
/-- Bytes of a vault stack open to tensors, 1 GiB - 160 MiB (R298). -/
abbrev vaultBytes : Nat := 2 ^ 30 - 160 * 2 ^ 20

/-- FREE VALUE: an undefined 32-bit value (R10), drawn with the counter State.fresh. -/
opaque freeWord : Nat → BitVec 32
/-- FREE VALUE: an undefined byte (R10), drawn with the counter State.fresh. -/
opaque freeByte : Nat → BitVec 8
/-- FREE VALUE: the byte a scratchpad offset holds at the start of a block (R252): block, offset. -/
opaque scratchInit : Nat → Nat → BitVec 8
/-- FREE VALUE: a tile element at the start of a block (R27): block, tile, row, column. -/
opaque tileInit : Nat → Nat → Nat → Nat → BitVec 32
/-- Memory requests a core may have outstanding (R2). -/
abbrev maxRequests : Nat := 2048
/-- Monitors of an L2 slice (R283). -/
abbrev sliceMonitors : Nat := 512
/-- Bytes the ranges of the CXL ports reach together, 16,384 GiB (R377). -/
abbrev cxlBytes : Nat := 2 ^ 44

/-- FREE VALUE: the bits of the handle of an engine operation (R53: the layout is not architectural). -/
opaque handleBits : Nat → BitVec 64
/-- FREE CHOICE: which of the values a halfword has held since the launch a fetch sees (R88). -/
opaque fetchSees : Nat → Nat
/-- FREE CHOICE: a choice among some, as a number: the line an L1 replaces (R259), the entry a quad TLB replaces (R325), the
fragment that takes a region overrun (R316), whether a write of a lost die was performed (R345), the slice that takes over
for a disabled one (R264). -/
opaque victim : Nat → Nat
/-- FREE VALUE: SHA-384 of bytes (R374 names the hash and does not define it). -/
opaque sha384 : List (BitVec 8) → List (BitVec 8)
/-- FREE VALUE: the bytes of the boot ROM (R374). -/
opaque rom : List (BitVec 8)
/-- FREE VALUE: the Ed25519 and the ML-DSA-65 signature of bytes by the device's identity keys, which are never exported (R374). -/
opaque signEd25519 : List (BitVec 8) → List (BitVec 8)
opaque signMlDsa : List (BitVec 8) → List (BitVec 8)

/-- FREE VALUE: a byte of another pod device's memory, by device, address and device time: what an engine, a fetch or a
command processor of this device reads there (R290; a lane's own accesses are answered by REMOTE_REQUEST events). -/
opaque remoteByte : Nat → Nat → Nat → BitVec 8
/-- FREE CHOICE: what comes of a request that an engine, a fetch or a LAUNCH sends to another device (R379, R380): performed, or
refused by the target's windows (1), or not answered (2). -/
opaque remoteOutcome : Nat → Nat
/-- FREE CHOICE: in how many banks the locked lines of an L1 lie (R257, R259). -/
opaque lockedBanks : List Nat → Nat
/-- FREE CHOICE: how long the walk of a translation takes (R325, R330). -/
opaque walkNs : Nat → Nat

end Sys2Proof.Config
end

