-- ==== Sys2Proof/Syntax.lean ====
section
/-! DEFINITION. The abstract syntax: the code points of R102, one structure per field layout (R90-R101 and the
layouts of the instruction chapters), the arguments of the device's events, and the one inductive `Instr` with a
constructor for every row of spec/opcode_table.json. -/

namespace Sys2Proof

/-! ### Code points -/

/-- Type code points 0x0-0xE (R102). -/
inductive Ty where
  | n32 | i32 | n64 | i64 | f32 | f16x2 | bf16x2 | e4m3x4 | e5m2x4 | e2m1x8 | n8x4 | i8x4 | n16x2 | i16x2 | b32
  deriving DecidableEq, Repr

/-- Guard condition codes (R60), in code order. -/
inductive Guard where
  | al | eq | ne | cs | cc | mi | pl | vs | vc | hi | ls | ge | lt | gt | le | nv
  deriving DecidableEq, Repr

/-- Rounding modes (R71). -/
inductive Rnd where
  | rne | rtz | rup | rdn
  deriving DecidableEq, Repr

/-- Scopes (R11, R102). -/
inductive Scope where
  | core | quad | die | dev | pod
  deriving DecidableEq, Repr

/-- Orders (R102). -/
inductive Ord where
  | rlx | acq | rel | acqrel
  deriving DecidableEq, Repr

/-- Access widths (R102). -/
inductive Width where
  | w8 | w16 | w32 | w64 | w128
  deriving DecidableEq, Repr

/-- Cache hints (R102). -/
inductive Hint where
  | default | evictFirst | evictLast | noL1
  deriving DecidableEq, Repr

/-- Branch prediction hints (R102). -/
inductive PredHint where
  | dynamic | uniform | never
  deriving DecidableEq, Repr

/-- Atomic operations (R183). -/
inductive AtomOp where
  | add | smin | smax | umin | umax | and | or | xor | exch | cas | fadd | fmin | fmax | incw | decw
  deriving DecidableEq, Repr

/-- WAITA comparisons (R187). -/
inductive WaitCmp where
  | eq | ne | ge | lt | hs | lo | any | none
  deriving DecidableEq, Repr

/-- SHFL modes (R150). -/
inductive ShflMode where
  | idx | up | down | xor
  deriving DecidableEq, Repr

/-- VOTE modes (R151). -/
inductive VoteMode where
  | all | any | ballot | eq
  deriving DecidableEq, Repr

/-- TRED operations (R152). -/
inductive TredOp where
  | add | min | max | and | or | xor
  deriving DecidableEq, Repr

/-- Operand spaces of engines and copies (R214, R222). -/
inductive Space where
  | global | scratch | vault
  deriving DecidableEq, Repr

/-- MMA K modes (R218). -/
inductive KMode where
  | slot0 | slot1 | both
  deriving DecidableEq, Repr

/-- MDR limiters (R219). -/
inductive Limiter where
  | none | relu | clamp
  deriving DecidableEq, Repr

/-- Reductions of a copy (R224). -/
inductive CopyRed where
  | none | add | fadd | smin | smax | umin | umax | fmin | fmax
  deriving DecidableEq, Repr

/-- Scan operators (R229). -/
inductive ScanOp where
  | add | mul | max | min | maxi | linrec | lse
  deriving DecidableEq, Repr

/-! ### Field layouts -/

/-- The 16-bit form (R90). -/
structure H2 where
  c : Bool
  s : BitVec 5
  d : BitVec 5
  deriving DecidableEq, Repr

/-- The N3 form (R92). -/
structure N3 where
  e : Bool
  b : RegField
  a : RegField
  d : RegField
  c : Bool
  deriving DecidableEq, Repr

/-- The NI form (R92). -/
structure NI where
  imm : BitVec 8
  a : RegField
  d : RegField
  c : Bool
  deriving DecidableEq, Repr

/-- The NM form (R92): D is the load destination or the store data. -/
structure NM where
  off : BitVec 8
  a : RegField
  d : RegField
  e : Bool
  deriving DecidableEq, Repr

/-- The NJ form (R92): a signed count of halfwords. -/
structure NJ where
  off : BitVec 23
  deriving DecidableEq, Repr

/-- The fields of REP, in NP or in imm32 (R106): step size code, step enables, count-1. -/
structure RepFields where
  size : BitVec 2
  stepC : Bool
  stepB : Bool
  stepA : Bool
  stepD : Bool
  count1 : BitVec 6
  deriving DecidableEq, Repr

/-- The common head of a 64-bit instruction without its register fields (R94). -/
structure Head where
  ccSet : Bool
  c : Bool
  gset : Bool
  guard : Guard
  stop : Bool
  deriving DecidableEq, Repr

/-- What the XR tail's variant makes of the C and B fields (R96): two registers, or a 14-bit immediate B. -/
inductive XrSrc where
  | regs (b c : RegField)
  | imm (i : BitVec 14)
  deriving DecidableEq, Repr

/-- The XR tail with the default layout of M (R96). -/
structure Xr where
  h : Head
  d : RegField
  a : RegField
  src : XrSrc
  eC : Bool
  eB : Bool
  eA : Bool
  absB : Bool
  absA : Bool
  negB : Bool
  negA : Bool
  sat : Bool
  rnd : Rnd
  ty : Ty
  deriving DecidableEq, Repr

/-- ISEL and FSEL (R134). -/
structure Sel where
  h : Head
  d : RegField
  a : RegField
  b : RegField
  eB : Bool
  eA : Bool
  absB : Bool
  absA : Bool
  negB : Bool
  negA : Bool
  set : Bool
  cond : Guard
  deriving DecidableEq, Repr

/-- LUT3 (R135). -/
structure Lut3 where
  h : Head
  d : RegField
  a : RegField
  b : RegField
  c : RegField
  eC : Bool
  eB : Bool
  eA : Bool
  table : BitVec 8
  deriving DecidableEq, Repr

/-- FSCALE, the one XK instruction (R98, R142): type 0x4 and saturate 0 are fixed. -/
structure Fscale where
  h : Head
  d : RegField
  a : RegField
  eA : Bool
  n : BitVec 24
  deriving DecidableEq, Repr

/-- CVT (R144). -/
structure Cvt where
  h : Head
  d : RegField
  a : RegField
  b : RegField
  half : Bool
  eB : Bool
  eA : Bool
  sat : Bool
  rnd : Rnd
  src : Ty
  dst : Ty
  deriving DecidableEq, Repr

/-- CVT8, WID8, CVT4, WID4 (R145): B names an s register. -/
structure Pack where
  h : Head
  d : RegField
  a : RegField
  b : RegField
  eB : Bool
  eA : Bool
  sat : Bool
  amax : Bool
  ty : Ty
  deriving DecidableEq, Repr

/-- MOVI (R146). -/
structure Movi where
  h : Head
  d : RegField
  imm : Word
  deriving DecidableEq, Repr

/-- The variants of MOVS (R146): v := s, s := immediate, s := s. -/
inductive MovsOp where
  | vFromS (a : RegField)
  | sImm (i : BitVec 14)
  | sFromS (a : RegField)
  deriving DecidableEq, Repr

/-- MOVS (R146). -/
structure Movs where
  h : Head
  d : RegField
  op : MovsOp
  deriving DecidableEq, Repr

/-- RDSR and WRSR (R148): `sreg` is M[48]. -/
structure Sr where
  h : Head
  d : RegField
  a : RegField
  sreg : Bool
  deriving DecidableEq, Repr

/-- SHFL (R150): the B field is a v register, or an immediate lane number with IB. -/
structure Shfl where
  h : Head
  d : RegField
  a : RegField
  b : RegField
  c : RegField
  eC : Bool
  eB : Bool
  eA : Bool
  ib : Bool
  ms : Bool
  mode : ShflMode
  deriving DecidableEq, Repr

/-- VOTE (R151). -/
structure Vote where
  h : Head
  d : RegField
  a : RegField
  c : RegField
  eC : Bool
  eA : Bool
  ms : Bool
  mode : VoteMode
  deriving DecidableEq, Repr

/-- TRED (R152). -/
structure Tred where
  h : Head
  d : RegField
  a : RegField
  c : RegField
  eC : Bool
  eA : Bool
  op : TredOp
  ty : Ty
  ms : Bool
  deriving DecidableEq, Repr

/-- PART (R153): the immediate B. -/
structure PartOp where
  h : Head
  p : BitVec 14
  deriving DecidableEq, Repr

/-- XRNG (R155). -/
structure Xrng where
  h : Head
  d : RegField
  a : RegField
  b : RegField
  eB : Bool
  eA : Bool
  f32 : Bool
  deriving DecidableEq, Repr

/-- XSORT (R156). -/
structure Xsort where
  h : Head
  d : RegField
  a : RegField
  b : RegField
  c : RegField
  eB : Bool
  eA : Bool
  desc : Bool
  ty : Ty
  deriving DecidableEq, Repr

/-- XQNT (R157): B names the s register that receives the scale. -/
structure Xqnt where
  h : Head
  d : RegField
  a : RegField
  b : RegField
  eA : Bool
  deriving DecidableEq, Repr

/-- XDQNT (R157). -/
structure Xdqnt where
  h : Head
  d : RegField
  a : RegField
  b : RegField
  eB : Bool
  eA : Bool
  ty : Ty
  deriving DecidableEq, Repr

/-- BR (R100, R159). -/
structure Br where
  h : Head
  hint : PredHint
  target : BitVec 24
  join : BitVec 14
  deriving DecidableEq, Repr

/-- BRU, JMP and CALL (R100, R158). -/
structure Jump where
  h : Head
  target : BitVec 24
  deriving DecidableEq, Repr

/-- JMPR, CALLR and RET (R158). -/
structure JumpReg where
  h : Head
  a : RegField
  eA : Bool
  deriving DecidableEq, Repr

/-- BRX (R104, R162). -/
structure Brx where
  h : Head
  a : RegField
  eA : Bool
  hint : PredHint
  join : BitVec 14
  deriving DecidableEq, Repr

/-- The 64-bit REP (R106). -/
structure Rep where
  h : Head
  f : RepFields
  deriving DecidableEq, Repr

/-- SLEEP, TRAP and BKPT: an XI tail with no register (R97). -/
structure Xi where
  h : Head
  imm : Word
  deriving DecidableEq, Repr

/-- The XM tail with a global address field (R99, R174, R175). -/
structure Xm where
  h : Head
  d : RegField
  a : RegField
  b : RegField
  off : BitVec 12
  e : Bool
  hint : Hint
  ord : Ord
  scope : Scope
  width : Width
  deriving DecidableEq, Repr

/-- The XM tail with a private address field (R175): `sreg` is bit [44]. -/
structure Xp where
  h : Head
  d : RegField
  a : RegField
  b : RegField
  off : BitVec 12
  e : Bool
  hint : Hint
  ord : Ord
  sreg : Bool
  width : Width
  deriving DecidableEq, Repr

/-- ATOM and RED (R99, R183). -/
structure Xa where
  h : Head
  d : RegField
  a : RegField
  b : RegField
  off : BitVec 8
  op : AtomOp
  e : Bool
  ord : Ord
  scope : Scope
  width : Width
  deriving DecidableEq, Repr

/-- ATOMS (R99, R175, R183). -/
structure Xas where
  h : Head
  d : RegField
  a : RegField
  b : RegField
  off : BitVec 8
  op : AtomOp
  e : Bool
  ord : Ord
  sreg : Bool
  width : Width
  deriving DecidableEq, Repr

/-- The address field of WAITA, as bit [49] selects (R187). -/
inductive WaitSpace where
  | global (scope : Scope)
  | scratch (sreg : Bool)
  deriving DecidableEq, Repr

/-- WAITA (R187): D names the timeout. -/
structure Waita where
  h : Head
  d : RegField
  a : RegField
  b : RegField
  off : BitVec 8
  cmp : WaitCmp
  e : Bool
  ord : Ord
  space : WaitSpace
  width : Width
  deriving DecidableEq, Repr

/-- BANK (R191): `fifo` is the mode. -/
structure Bank where
  h : Head
  a : RegField
  fifo : Bool
  deriving DecidableEq, Repr

/-- The synchronisation group (R192): `next` is BOEXP's bit [49]. -/
structure Xs where
  h : Head
  d : RegField
  a : RegField
  b : RegField
  e : Bool
  next : Bool
  ord : Ord
  scope : Scope
  deriving DecidableEq, Repr

/-- MLW (R217). -/
structure Mlw where
  h : Head
  a : RegField
  b : RegField
  c : RegField
  handle : BitVec 4
  sp : Bool
  slot : Bool
  space : Space
  fmt : Ty
  deriving DecidableEq, Repr

/-- MMA (R218): D names the shape register. -/
structure Mma where
  h : Head
  d : RegField
  a : RegField
  b : RegField
  c : RegField
  handle : BitVec 4
  tile : BitVec 3
  kmode : KMode
  sp : Bool
  space : Space
  fmt : Ty
  deriving DecidableEq, Repr

/-- MDR (R219): `sat` and `amax` are the static D field. -/
structure Mdr where
  h : Head
  sat : Bool
  amax : Bool
  a : RegField
  b : RegField
  c : RegField
  handle : BitVec 4
  tile : BitVec 3
  z : Bool
  lim : Limiter
  space : Space
  fmt : Ty
  deriving DecidableEq, Repr

/-- MZR (R220). -/
structure Mzr where
  h : Head
  tile : BitVec 3
  deriving DecidableEq, Repr

/-- MRS (R221): the B field is the row offset. -/
structure Mrs where
  h : Head
  d : RegField
  a : RegField
  row : RegField
  tile : BitVec 3
  col : Bool
  deriving DecidableEq, Repr

/-- MWS (R221): the type is the tag written. -/
structure Mws where
  h : Head
  a : RegField
  row : RegField
  c : RegField
  tile : BitVec 3
  col : Bool
  ty : Ty
  deriving DecidableEq, Repr

/-- COPY, COPYM and COPYL (R224-R226). -/
structure Copy where
  h : Head
  d : RegField
  a : RegField
  b : RegField
  c : RegField
  bo : Bool
  red : CopyRed
  deriving DecidableEq, Repr

/-- The transforms of COPYX with their formats (R227). -/
inductive CopyXf where
  | qnt (fmt : Ty) (amax : Bool)
  | dqnt (fmt : Ty)
  | cast (fmt : Ty)
  | tr
  deriving DecidableEq, Repr

/-- COPYX (R227). -/
structure Copyx where
  h : Head
  d : RegField
  a : RegField
  b : RegField
  c : RegField
  bo : Bool
  xf : CopyXf
  deriving DecidableEq, Repr

/-- HWAIT and HTEST (R208): `acq` is the scope when ACQ is 1. -/
structure Hw where
  h : Head
  d : RegField
  a : RegField
  acq : Option Scope
  deriving DecidableEq, Repr

/-- Instructions whose only operand is A: HCAN, CSEND, TRACE. -/
structure OpA where
  h : Head
  a : RegField
  deriving DecidableEq, Repr

/-- Instructions whose only operand is D: CRECV. -/
structure OpD where
  h : Head
  d : RegField
  deriving DecidableEq, Repr

/-- Instructions with operands D and A: HLD, TOPK, LQRY. -/
structure OpDA where
  h : Head
  d : RegField
  a : RegField
  deriving DecidableEq, Repr

/-- Instructions with operands A and B: HSAV, L1INV. -/
structure OpAB where
  h : Head
  a : RegField
  b : RegField
  deriving DecidableEq, Repr

/-- SCAN (R229). -/
structure Scan where
  h : Head
  d : RegField
  a : RegField
  chain : Bool
  seg : Bool
  excl : Bool
  ty : Ty
  op : ScanOp
  deriving DecidableEq, Repr

/-- SMAX and SAMP (R233, R234). -/
structure ChainOp where
  h : Head
  d : RegField
  a : RegField
  chain : Bool
  deriving DecidableEq, Repr

/-- CJOIN (R236). -/
structure Cjoin where
  h : Head
  a : RegField
  b : RegField
  ring : Bool
  deriving DecidableEq, Repr

/-- LAUNCH (R241): `now` is the mode. -/
structure Launch where
  h : Head
  d : RegField
  a : RegField
  wait : Bool
  now : Bool
  deriving DecidableEq, Repr

/-! ### Arguments of the device's events -/

/-- A warp: the block (by the model's name for it) and the warp's index in it (R22). -/
structure WarpRef where
  block : Nat
  warp : Nat
  deriving DecidableEq, Repr

/-- A fragment of a warp: a split-table entry (R28), or a path of its unconfirmed predicted branch (R169). -/
inductive FragSel where
  | entry (i : Fin 32)
  | path (i : Fin 32) (taken : Bool)
  deriving DecidableEq, Repr

/-- A fragment of the device. -/
structure FragRef where
  block : Nat
  warp : Nat
  sel : FragSel
  deriving DecidableEq, Repr

/-- The values the signed configuration blocks give (R372, R379, R320, R382): DEVID, NUMA pin mode, the columns' migration
thresholds in degrees, the PODWIN defaults, the vector of degraded operation, and the limits of the corrected-error rates. -/
structure ConfigBlock where
  devid : Fin 576
  numaPin : Bool
  thresholds : List Nat
  windows : List (DWord × DWord)
  vector : Nat
  errorLimits : List Nat := []
  deriving DecidableEq, Repr

/-- A firmware image as the checks of R372 see it, with what the measurements of R374 hash: its bytes and those of each of its
configuration blocks. (DESIGN CHOICE, safe: notes/assumptions/53.md). -/
structure FirmwareImage where
  edSigOk : Bool
  mlSigOk : Bool
  version : BitVec 16
  classOk : Bool
  config : ConfigBlock
  bytes : List Byte := []
  blocks : List (List Byte) := []
  deriving DecidableEq, Repr

/-- What training and self-test find at boot stages 3 and 4 (R370), and the range, its first address and its length, that firmware
programs into each CXL port's decoders (R377). (DESIGN CHOICE, safe: notes/assumptions/53.md). -/
structure Training where
  dies : BitVec 8
  badSlices : List Nat
  linkLanes : List Nat
  cxlUp : List Bool
  cxlRanges : List (Nat × Nat) := []
  deriving DecidableEq, Repr

/-- Traffic of the Edond link as this device sees it (R290, R379): a peer's request, or the answer to one of
this device's remote requests, with the lease on the line's bytes that a load may get. -/
inductive RemoteEvent where
  | peerRead (pa : Nat) (len : Nat) (lease : Option Nat)
  | peerWrite (pa : Nat) (bytes : List Byte)
  | peerAtomic (pa : Nat) (op : AtomOp) (width : Width) (b c : DWord)
  | peerRefused (pa : Nat)
  | answer (id : Nat) (data : BitVec 128) (wdie wdev : Nat) (lease : Option (Nat × List Byte) := none)
  | refused (id : Nat)
  deriving DecidableEq, Repr

/-- Every row of spec/opcode_table.json: the device's events and the instructions of all three lengths. -/
inductive Instr where
  /-- IADD_H2 (R91). -/
  | iaddH2 (o : H2)
  /-- ISUB_H2 (R91). -/
  | isubH2 (o : H2)
  /-- IMUL_H2 (R91). -/
  | imulH2 (o : H2)
  /-- AND_H2 (R91). -/
  | andH2 (o : H2)
  /-- OR_H2 (R91). -/
  | orH2 (o : H2)
  /-- XOR_H2 (R91). -/
  | xorH2 (o : H2)
  /-- SHL_H2 (R91). -/
  | shlH2 (o : H2)
  /-- SHR_H2 (R91). -/
  | shrH2 (o : H2)
  /-- SAR_H2 (R91). -/
  | sarH2 (o : H2)
  /-- MOV_H2 (R91). -/
  | movH2 (o : H2)
  /-- MOVI_H2 (R91). -/
  | moviH2 (o : H2)
  /-- FADD_H2 (R91). -/
  | faddH2 (o : H2)
  /-- FSUB_H2 (R91). -/
  | fsubH2 (o : H2)
  /-- FMUL_H2 (R91). -/
  | fmulH2 (o : H2)
  /-- FMAX_H2 (R91). -/
  | fmaxH2 (o : H2)
  /-- FMIN_H2 (R91). -/
  | fminH2 (o : H2)
  /-- IADD_N3 (R93). -/
  | iaddN3 (o : N3)
  /-- ISUB_N3 (R93). -/
  | isubN3 (o : N3)
  /-- IMUL_N3 (R93). -/
  | imulN3 (o : N3)
  /-- IMIN_N3 (R93). -/
  | iminN3 (o : N3)
  /-- IMAX_N3 (R93). -/
  | imaxN3 (o : N3)
  /-- AND_N3 (R93). -/
  | andN3 (o : N3)
  /-- OR_N3 (R93). -/
  | orN3 (o : N3)
  /-- XOR_N3 (R93). -/
  | xorN3 (o : N3)
  /-- ANDN_N3 (R93). -/
  | andnN3 (o : N3)
  /-- SHL_N3 (R93). -/
  | shlN3 (o : N3)
  /-- SHR_N3 (R93). -/
  | shrN3 (o : N3)
  /-- SAR_N3 (R93). -/
  | sarN3 (o : N3)
  /-- FADD_N3 (R93). -/
  | faddN3 (o : N3)
  /-- FSUB_N3 (R93). -/
  | fsubN3 (o : N3)
  /-- FMUL_N3 (R93). -/
  | fmulN3 (o : N3)
  /-- FMIN_N3 (R93). -/
  | fminN3 (o : N3)
  /-- FMAX_N3 (R93). -/
  | fmaxN3 (o : N3)
  /-- HADD2_N3 (R93). -/
  | hadd2N3 (o : N3)
  /-- HMUL2_N3 (R93). -/
  | hmul2N3 (o : N3)
  /-- BADD2_N3 (R93). -/
  | badd2N3 (o : N3)
  /-- BMUL2_N3 (R93). -/
  | bmul2N3 (o : N3)
  /-- MOV_N3 (R93). -/
  | movN3 (o : N3)
  /-- ICMP_N3 (R93). -/
  | icmpN3 (o : N3)
  /-- FCMP_N3 (R93). -/
  | fcmpN3 (o : N3)
  /-- IADDI (R93). -/
  | iaddi (o : NI)
  /-- SHLI (R93). -/
  | shli (o : NI)
  /-- SHRI (R93). -/
  | shri (o : NI)
  /-- SARI (R93). -/
  | sari (o : NI)
  /-- ANDI (R93). -/
  | andi (o : NI)
  /-- ORI (R93). -/
  | ori (o : NI)
  /-- XORI (R93). -/
  | xori (o : NI)
  /-- MOVI8 (R93). -/
  | movi8 (o : NI)
  /-- ICMPI (R93). -/
  | icmpi (o : NI)
  /-- LD32 (R93). -/
  | ld32 (o : NM)
  /-- ST32 (R93). -/
  | st32 (o : NM)
  /-- LDS32 (R93). -/
  | lds32 (o : NM)
  /-- STS32 (R93). -/
  | sts32 (o : NM)
  /-- JMP_NJ (R93). -/
  | jmpNJ (o : NJ)
  /-- REP_NP (R106). -/
  | repNP (o : RepFields)
  /-- IADD (R130). -/
  | iadd (o : Xr)
  /-- ISUB (R130). -/
  | isub (o : Xr)
  /-- IADDC (R131). -/
  | iaddc (o : Xr)
  /-- ISUBB (R131). -/
  | isubb (o : Xr)
  /-- INEG (R130). -/
  | ineg (o : Xr)
  /-- IABS (R130). -/
  | iabs (o : Xr)
  /-- IMUL (R130). -/
  | imul (o : Xr)
  /-- IMULH (R130). -/
  | imulh (o : Xr)
  /-- IMAD (R130). -/
  | imad (o : Xr)
  /-- IMADW (R130). -/
  | imadw (o : Xr)
  /-- IDIV (R133). -/
  | idiv (o : Xr)
  /-- IREM (R133). -/
  | irem (o : Xr)
  /-- IMIN (R130). -/
  | imin (o : Xr)
  /-- IMAX (R130). -/
  | imax (o : Xr)
  /-- ICMP (R134). -/
  | icmp (o : Xr)
  /-- ISEL (R134). -/
  | isel (o : Sel)
  /-- LEA (R130). -/
  | lea (o : Xr)
  /-- IADD64 (R130). -/
  | iadd64 (o : Xr)
  /-- ISUB64 (R130). -/
  | isub64 (o : Xr)
  /-- SHL (R130). -/
  | shl (o : Xr)
  /-- SHR (R130). -/
  | shr (o : Xr)
  /-- SAR (R130). -/
  | sar (o : Xr)
  /-- ROL (R130). -/
  | rol (o : Xr)
  /-- ROR (R130). -/
  | ror (o : Xr)
  /-- FSHL (R130). -/
  | fshl (o : Xr)
  /-- FSHR (R130). -/
  | fshr (o : Xr)
  /-- AND (R130). -/
  | and (o : Xr)
  /-- OR (R130). -/
  | or (o : Xr)
  /-- XOR (R130). -/
  | xor (o : Xr)
  /-- ANDN (R130). -/
  | andn (o : Xr)
  /-- NOT (R130). -/
  | not (o : Xr)
  /-- LUT3 (R135). -/
  | lut3 (o : Lut3)
  /-- POPC (R130). -/
  | popc (o : Xr)
  /-- CLZ (R130). -/
  | clz (o : Xr)
  /-- CTZ (R130). -/
  | ctz (o : Xr)
  /-- BREV (R130). -/
  | brev (o : Xr)
  /-- BFE (R136). -/
  | bfe (o : Xr)
  /-- BFI (R136). -/
  | bfi (o : Xr)
  /-- BYSEL (R136). -/
  | bysel (o : Xr)
  /-- FADD (R139). -/
  | fadd (o : Xr)
  /-- FSUB (R139). -/
  | fsub (o : Xr)
  /-- FMUL (R139). -/
  | fmul (o : Xr)
  /-- FFMA (R139). -/
  | ffma (o : Xr)
  /-- FMIN (R73). -/
  | fmin (o : Xr)
  /-- FMAX (R73). -/
  | fmax (o : Xr)
  /-- FMINM (R73). -/
  | fminm (o : Xr)
  /-- FMAXM (R73). -/
  | fmaxm (o : Xr)
  /-- FCMP (R140). -/
  | fcmp (o : Xr)
  /-- FSEL (R134). -/
  | fsel (o : Sel)
  /-- FRND (R141). -/
  | frnd (o : Xr)
  /-- FCLASS (R141). -/
  | fclass (o : Xr)
  /-- FSCALE (R142). -/
  | fscale (o : Fscale)
  /-- HADD2 (R139). -/
  | hadd2 (o : Xr)
  /-- HMUL2 (R139). -/
  | hmul2 (o : Xr)
  /-- HFMA2 (R139). -/
  | hfma2 (o : Xr)
  /-- BADD2 (R139). -/
  | badd2 (o : Xr)
  /-- BMUL2 (R139). -/
  | bmul2 (o : Xr)
  /-- BFMA2 (R139). -/
  | bfma2 (o : Xr)
  /-- FRCP (R74). -/
  | frcp (o : Xr)
  /-- FRSQ (R74). -/
  | frsq (o : Xr)
  /-- FSQRT (R74). -/
  | fsqrt (o : Xr)
  /-- FEXP2 (R74). -/
  | fexp2 (o : Xr)
  /-- FLOG2 (R74). -/
  | flog2 (o : Xr)
  /-- FDIV (R74). -/
  | fdiv (o : Xr)
  /-- CVT (R144). -/
  | cvt (o : Cvt)
  /-- CVT8 (R145). -/
  | cvt8 (o : Pack)
  /-- WID8 (R145). -/
  | wid8 (o : Pack)
  /-- CVT4 (R145). -/
  | cvt4 (o : Pack)
  /-- WID4 (R145). -/
  | wid4 (o : Pack)
  /-- MOV (R146). -/
  | mov (o : Xr)
  /-- MOVI (R146). -/
  | movi (o : Movi)
  /-- MOVS (R146). -/
  | movs (o : Movs)
  /-- RDL (R147). -/
  | rdl (o : Xr)
  /-- RDSR (R148). -/
  | rdsr (o : Sr)
  /-- WRSR (R148). -/
  | wrsr (o : Sr)
  /-- SHFL (R150). -/
  | shfl (o : Shfl)
  /-- VOTE (R151). -/
  | vote (o : Vote)
  /-- TRED (R152). -/
  | tred (o : Tred)
  /-- PART (R153). -/
  | part (o : PartOp)
  /-- XRNG (R155). -/
  | xrng (o : Xrng)
  /-- XSORT (R156). -/
  | xsort (o : Xsort)
  /-- XQNT (R157). -/
  | xqnt (o : Xqnt)
  /-- XDQNT (R157). -/
  | xdqnt (o : Xdqnt)
  /-- BR (R159). -/
  | br (o : Br)
  /-- BRU (R160). -/
  | bru (o : Jump)
  /-- JMP (R161). -/
  | jmp (o : Jump)
  /-- JMPR (R161). -/
  | jmpr (o : JumpReg)
  /-- BRX (R162). -/
  | brx (o : Brx)
  /-- CALL (R163). -/
  | call (o : Jump)
  /-- CALLR (R163). -/
  | callr (o : JumpReg)
  /-- RET (R163). -/
  | ret (o : JumpReg)
  /-- EXIT (R164). -/
  | exit (o : Head)
  /-- JOIN (R165). -/
  | join (o : Head)
  /-- YIELD (R165). -/
  | yield (o : Head)
  /-- NOP (R165). -/
  | nop (o : Head)
  /-- REP (R106). -/
  | rep (o : Rep)
  /-- SLEEP (R166). -/
  | sleep (o : Xi)
  /-- LD (R177). -/
  | ld (o : Xm)
  /-- ST (R178). -/
  | st (o : Xm)
  /-- LDS (R177). -/
  | lds (o : Xp)
  /-- STS (R178). -/
  | sts (o : Xp)
  /-- LDL (R180). -/
  | ldl (o : Xp)
  /-- STL (R180). -/
  | stl (o : Xp)
  /-- LDC (R180). -/
  | ldc (o : Xp)
  /-- LDA (R182). -/
  | lda (o : Xm)
  /-- ATOM (R184). -/
  | atom (o : Xa)
  /-- RED (R184). -/
  | red (o : Xa)
  /-- ATOMS (R184). -/
  | atoms (o : Xas)
  /-- LR (R185). -/
  | lr (o : Xm)
  /-- SC (R185). -/
  | sc (o : Xm)
  /-- FENCE (R186). -/
  | fence (o : Xm)
  /-- WAITA (R187). -/
  | waita (o : Waita)
  /-- PREF (R188). -/
  | pref (o : Xm)
  /-- LOCK (R189). -/
  | lock (o : Xm)
  /-- UNLOCK (R189). -/
  | unlock (o : Xm)
  /-- BANK (R191). -/
  | bank (o : Bank)
  /-- MST (R190). -/
  | mst (o : Xm)
  /-- BARV (R193). -/
  | barv (o : Xs)
  /-- BWAIT (R193). -/
  | bwait (o : Xs)
  /-- BGRP (R194). -/
  | bgrp (o : Xs)
  /-- BOINIT (R198). -/
  | boinit (o : Xs)
  /-- BOARV (R199). -/
  | boarv (o : Xs)
  /-- BOWAIT (R200). -/
  | bowait (o : Xs)
  /-- BOTEST (R200). -/
  | botest (o : Xs)
  /-- BOEXP (R198). -/
  | boexp (o : Xs)
  /-- MLW (R217). -/
  | mlw (o : Mlw)
  /-- MMA (R218). -/
  | mma (o : Mma)
  /-- MDR (R219). -/
  | mdr (o : Mdr)
  /-- MZR (R220). -/
  | mzr (o : Mzr)
  /-- MRS (R221). -/
  | mrs (o : Mrs)
  /-- MWS (R221). -/
  | mws (o : Mws)
  /-- COPY (R224). -/
  | copy (o : Copy)
  /-- COPYM (R225). -/
  | copym (o : Copy)
  /-- COPYL (R226). -/
  | copyl (o : Copy)
  /-- COPYX (R227). -/
  | copyx (o : Copyx)
  /-- HWAIT (R209). -/
  | hwait (o : Hw)
  /-- HTEST (R210). -/
  | htest (o : Hw)
  /-- HCAN (R211). -/
  | hcan (o : OpA)
  /-- HSAV (R212). -/
  | hsav (o : OpAB)
  /-- HLD (R212). -/
  | hld (o : OpDA)
  /-- SCAN (R229). -/
  | scan (o : Scan)
  /-- TOPK (R232). -/
  | topk (o : OpDA)
  /-- SMAX (R233). -/
  | smax (o : ChainOp)
  /-- SAMP (R234). -/
  | samp (o : ChainOp)
  /-- CJOIN (R236). -/
  | cjoin (o : Cjoin)
  /-- CSEND (R238). -/
  | csend (o : OpA)
  /-- CRECV (R238). -/
  | crecv (o : OpD)
  /-- CLEAVE (R240). -/
  | cleave (o : Head)
  /-- LAUNCH (R242). -/
  | launch (o : Launch)
  /-- LQRY (R244). -/
  | lqry (o : OpDA)
  /-- TRAP (R246). -/
  | trap (o : Xi)
  /-- RTE (R338). -/
  | rte (o : Head)
  /-- BKPT (R353). -/
  | bkpt (o : Xi)
  /-- TRACE (R247). -/
  | trace (o : OpA)
  /-- NOPRE (R248). -/
  | nopre (o : Head)
  /-- PREOK (R248). -/
  | preok (o : Head)
  /-- L1INV (R249). -/
  | l1inv (o : OpAB)
  /-- POWER_GOOD (R370). -/
  | powerGood (img : FirmwareImage) (tr : Training)
  /-- FUNCTION_LEVEL_RESET (R371). -/
  | functionLevelReset (tr : Training)
  /-- RECOVERY_IMAGE_LOAD (R373). -/
  | recoveryImageLoad (img : FirmwareImage) (tr : Training)
  /-- REGISTER_WRITE (R7). -/
  | registerWrite (off : Nat) (v : Word)
  /-- QWPTR_WRITE (R293). -/
  | qwptrWrite (q : Fin 64) (v : Word)
  /-- QCTL_WRITE (R293). -/
  | qctlWrite (q : Fin 64) (v : Word)
  /-- QSTAT_WRITE (R293). -/
  | qstatWrite (q : Fin 64) (v : Word)
  /-- EVENT_COUNTER_WRITE (R296). -/
  | eventCounterWrite (idx : Fin 4096) (v : DWord)
  /-- NOP_PACKET (R295). -/
  | nopPacket (q : Fin 64)
  /-- KLAUNCH (R294). -/
  | klaunch (q : Fin 64)
  /-- EVSIG (R295). -/
  | evsig (q : Fin 64)
  /-- EVWAIT (R295). -/
  | evwait (q : Fin 64)
  /-- EVWAIT_SATISFIED (R296). -/
  | evwaitSatisfied (q : Fin 64)
  /-- VDEF (R298). -/
  | vdef (q : Fin 64)
  /-- MAPFLUSH (R295). -/
  | mapflush (q : Fin 64)
  /-- MAPFLUSH_COMPLETE (R325). -/
  | mapflushComplete (q : Fin 64)
  /-- LAUNCH_START (R302). -/
  | launchStart (lid : Nat)
  /-- BLOCK_PLACE (R307). -/
  | blockPlace
  /-- COOP_LAUNCH_PLACE (R308). -/
  | coopLaunchPlace (lid : Nat)
  /-- CHAIN_LAUNCH_PLACE (R309). -/
  | chainLaunchPlace (lid : Nat)
  /-- COOP_HEAD_WAIT_EXPIRY (R308). -/
  | coopHeadWaitExpiry (lid : Nat)
  /-- ISSUE_CYCLE (R313). -/
  | issueCycle (core : Nat)
  /-- FAIRNESS_ROTATION (R39). -/
  | fairnessRotation (w : WarpRef)
  /-- JOIN_PARK (R32). -/
  | joinPark (f : FragRef)
  /-- BRANCH_CONFIRM (R171). -/
  | branchConfirm (f : FragRef)
  /-- REP_ITERATION (R109). -/
  | repIteration (w : WarpRef)
  /-- FRAGMENT_WAKE (R28). -/
  | fragmentWake (f : FragRef)
  /-- SLEEP_WAKE (R166). -/
  | sleepWake (f : FragRef)
  /-- WAITA_WAKE (R187). -/
  | waitaWake (f : FragRef)
  /-- WAITA_TIMEOUT (R187). -/
  | waitaTimeout (f : FragRef)
  /-- WAITA_REREAD (R283). -/
  | waitaReread (f : FragRef)
  /-- FENCE_RELEASE_END (R186). -/
  | fenceReleaseEnd (f : FragRef)
  /-- LOAD_RESULT (R62). -/
  | loadResult (id : Nat)
  /-- WRITE_TIMES_RETURN (R270). -/
  | writeTimesReturn (id : Nat)
  /-- TRANSFORM_PIPE_REPLY (R154). -/
  | transformPipeReply (w : WarpRef)
  /-- SLICE_LEASE_REQUEST (R268). -/
  | sliceLeaseRequest (id : Nat)
  /-- SLICE_WRITE (R268). -/
  | sliceWrite (id : Nat)
  /-- SLICE_READ (R268). -/
  | sliceRead (id : Nat)
  /-- SLICE_ATOMIC (R184). -/
  | sliceAtomic (id : Nat)
  /-- REMOTE_REQUEST (R379). -/
  | remoteRequest (r : RemoteEvent)
  /-- REMOTE_REQUEST_TIMEOUT (R380). -/
  | remoteRequestTimeout (id : Nat)
  /-- HOST_MEMORY_WRITE (R368). -/
  | hostMemoryWrite (off : Nat) (bytes : List Byte)
  /-- HOST_MEMORY_READ (R368). -/
  | hostMemoryRead (off len : Nat)
  /-- FAULT_RECORD_WRITE (R332). -/
  | faultRecordWrite
  /-- FRESUME_RETRY (R333). -/
  | fresumeRetry (id : Nat)
  /-- FRESUME_FAIL (R333). -/
  | fresumeFail (id : Nat)
  /-- BLOCK_END (R164). -/
  | blockEnd (b : Nat)
  /-- KERNEL_BOUNDARY (R284). -/
  | kernelBoundary (lid : Nat)
  /-- KERNEL_TREE_END (R305). -/
  | kernelTreeEnd (lid : Nat)
  /-- PREQ_GO (R315). -/
  | preqGo (q : Fin 64)
  /-- AUTO_PREEMPT (R315). -/
  | autoPreempt (lid : Nat)
  /-- NOPRE_WINDOW_EXPIRY (R316). -/
  | nopreWindowExpiry (w : WarpRef)
  /-- CONTEXT_SAVE_COMPLETE (R316). -/
  | contextSaveComplete (b : Nat)
  /-- BLOCK_RESTORE (R317). -/
  | blockRestore (b : Nat)
  /-- MIGRATION_START (R320). -/
  | migrationStart (b : Nat) (column : Fin 40)
  /-- MIGRATION_ABANDON (R322). -/
  | migrationAbandon (b : Nat)
  /-- MIGRATION_RESUME (R322). -/
  | migrationResume (b : Nat)
  /-- DIE_DROP (R345). -/
  | dieDrop (die : Fin 8)
  /-- DIE_FAILURE (R345). -/
  | dieFailure (die : Fin 8)
  /-- DROOP_STRETCH (R17). -/
  | droopStretch (column : Fin 40) (ratio : Nat)
  /-- POWER_LIMIT_STRETCH (R383). -/
  | powerLimitStretch (ratio : Nat)
  /-- COLUMN_OVERTEMP (R383). -/
  | columnOvertemp (column : Fin 40)
  /-- MODULE_OVERTEMP_SHUTDOWN (R383). -/
  | moduleOvertempShutdown
  /-- LINK_DEGRADE (R378). -/
  | linkDegrade (port : Fin 18) (lanes : Nat)
  /-- CXL_PORT_DOWN (R377). -/
  | cxlPortDown (port : Fin 4)
  /-- POD_SYNC_LOSS (R381). -/
  | podSyncLoss
  /-- ATTESTATION_REQUEST (R374). -/
  | attestationRequest
  /-- DEBUG_HALT (R351). -/
  | debugHalt (v : Word)
  /-- DEBUG_RESUME (R352). -/
  | debugResume (v : Word)
  /-- DEBUG_STEP (R352). -/
  | debugStep (v : Word)
  /-- DBGDATA_READ (R350). -/
  | dbgdataRead
  /-- DBGDATA_WRITE (R349). -/
  | dbgdataWrite (v : DWord)
  /-- FAULT_RING_CONTROL (R341). -/
  | faultRingControl (v : Word)
  /-- ERROR_RING_CONTROL (R341). -/
  | errorRingControl (v : Word)
  /-- PROFILING_RING_CONTROL (R341). -/
  | profilingRingControl (v : Word)
  /-- TRACE_CONTROL (R359). -/
  | traceControl (v : Word)
  /-- TGCTL_WRITE (R365). -/
  | tgctlWrite (n : Fin 4) (v : Word)
  /-- TRIGGER_STATE_CHANGE (R365). -/
  | triggerStateChange (core : Nat) (n : Fin 4)
  /-- PROFILE_SAMPLE (R358). -/
  | profileSample (core : Nat)
  /-- ENGINE_COMPLETE (R204). -/
  | engineComplete (id : Nat)
  /-- MLW_LOAD_COMPLETE (R217). -/
  | mlwLoadComplete (id : Nat)
  /-- MMA_ROW (R218). -/
  | mmaRow (id : Nat)
  /-- MDR_ROW (R219). -/
  | mdrRow (id : Nat)
  /-- MZR_ENGINE_ZERO (R220). -/
  | mzrEngineZero (id : Nat)
  /-- COPY_CHUNK (R223). -/
  | copyChunk (id chunk : Nat)
  /-- LDA_DELIVERY (R182). -/
  | ldaDelivery (id : Nat)
  /-- SCAN_ENGINE_RUN (R231). -/
  | scanEngineRun (id : Nat)
  /-- CHAIN_ENTRY_DELIVER (R237). -/
  | chainEntryDeliver (b : Nat)
  /-- BARRIER_ARRIVAL (R195). -/
  | barrierArrival (g : Nat) (b : Nat)
  /-- BARRIER_COMPLETE (R195). -/
  | barrierComplete (g : Nat)
  /-- LAUNCH_SUMP_ROOM (R242). -/
  | launchSumpRoom (f : FragRef)
  /-- CORRECTED_ERROR_RATE_LIMIT (R382). -/
  | correctedErrorRateLimit
  /-- HOST_WRITE_TAKES_EFFECT (R368). -/
  | hostWriteTakesEffect
  deriving DecidableEq, Repr

end Sys2Proof
end

