-- ==== Sys2Proof/Machine/Float.lean ====
section
/-! DEFINITION. Number formats and exact arithmetic rounded once (R68-R78). A finite value is a sign, a natural
significand and a binary exponent; every operation computes exactly on these and rounds at the end. -/

namespace Sys2Proof.Machine

/-- A number format (R68): exponent width, bias, mantissa width, and how the all-ones exponent is read. -/
inductive Special where
  | ieee | e4m3 | none
  deriving DecidableEq, Repr

structure Fmt where
  e : Nat
  b : Int
  m : Nat
  sp : Special
  deriving DecidableEq, Repr

def fp32 : Fmt := ⟨8, 127, 23, .ieee⟩
def fp16 : Fmt := ⟨5, 15, 10, .ieee⟩
def bf16 : Fmt := ⟨8, 127, 7, .ieee⟩
def e4m3 : Fmt := ⟨4, 7, 3, .e4m3⟩
def e5m2 : Fmt := ⟨5, 15, 2, .ieee⟩
def e2m1 : Fmt := ⟨2, 1, 1, .none⟩

/-- A decoded number: (−1)^neg × man × 2^exp when finite. -/
inductive Num where
  | nan
  | inf (neg : Bool)
  | fin (neg : Bool) (man : Nat) (exp : Int)
  deriving DecidableEq, Repr

/-- The width of a format without its sign bit. -/
def Fmt.low (f : Fmt) : Nat := f.e + f.m
/-- The exponent of the last place of a subnormal. -/
def Fmt.qmin (f : Fmt) : Int := 1 - f.b - f.m
/-- The magnitude code above every finite one. -/
def Fmt.topCode (f : Fmt) : Nat :=
  match f.sp with
  | .ieee => (2 ^ f.e - 1) * 2 ^ f.m
  | .e4m3 => 2 ^ f.low - 1
  | .none => 2 ^ f.low
/-- The magnitude code of the canonical NaN (R68); E2M1 has none and takes 0 (R76). -/
def Fmt.nanCode (f : Fmt) : Nat :=
  match f.sp with
  | .ieee => (2 ^ f.e - 1) * 2 ^ f.m + 2 ^ (f.m - 1)
  | .e4m3 => 2 ^ f.low - 1
  | .none => 0

/-- The bits of a magnitude code with a sign. -/
def Fmt.sign (f : Fmt) (neg : Bool) (code : Nat) : Nat := if neg then 2 ^ f.low + code else code

/-- The number a pattern encodes (R68). -/
def Fmt.decode (f : Fmt) (x : Nat) : Num :=
  let neg := x / 2 ^ f.low % 2 == 1
  let c := x % 2 ^ f.low
  let ex := c / 2 ^ f.m
  let mt := c % 2 ^ f.m
  if c ≥ f.topCode then
    (if f.sp == .ieee && mt == 0 then .inf neg else .nan)
  else if ex == 0 then .fin neg mt f.qmin
  else .fin neg (2 ^ f.m + mt) (f.qmin + (ex - 1))

/-- man × 2^exp (a little more, where `sticky`) rounded to the format's precision, with unbounded exponent above and
subnormal precision below: the significand and its exponent (R71). -/
def Fmt.quant (f : Fmt) (r : Rnd) (neg : Bool) (man : Nat) (exp : Int) (sticky : Bool) : Nat × Int :=
  if man == 0 && !sticky then (0, f.qmin)
  else
    let man := if sticky then 2 * man + 1 else man
    let exp := if sticky then exp - 1 else exp
    let q := max (exp + (man.log2 : Int) - f.m) f.qmin
    if q ≤ exp then (man * 2 ^ (exp - q).toNat, q)
    else
      let sh := (q - exp).toNat
      let n := man / 2 ^ sh
      let rem := man % 2 ^ sh
      let half := 2 ^ (sh - 1)
      let up := match r with
        | .rne => rem > half || (rem == half && n % 2 == 1)
        | .rtz => false
        | .rup => !neg && rem != 0
        | .rdn => neg && rem != 0
      (if up then n + 1 else n, q)

/-- The magnitude code of n × 2^q, which may lie above the finite codes. -/
def Fmt.code (f : Fmt) (n : Nat) (q : Int) : Nat :=
  if n ≥ 2 ^ (f.m + 1) then (q + 1 - f.qmin).toNat * 2 ^ f.m + n / 2
  else (q - f.qmin).toNat * 2 ^ f.m + n

/-- The rounding function (R71), for a format with infinities. -/
def Fmt.round (f : Fmt) (r : Rnd) (neg : Bool) (man : Nat) (exp : Int) (sticky : Bool := false) : Nat :=
  let p := f.quant r neg man exp sticky
  let c := f.code p.1 p.2
  if c < f.topCode then f.sign neg c
  else
    let toInf := match r with
      | .rne => true
      | .rtz => false
      | .rup => !neg
      | .rdn => neg
    f.sign neg (if toInf then f.topCode else f.topCode - 1)

/-- A number rounded to a format; a NaN gives the canonical NaN (R72). -/
def Fmt.ofNum (f : Fmt) (r : Rnd) : Num → Nat
  | .nan => f.nanCode
  | .inf neg => f.sign neg f.topCode
  | .fin neg man exp => f.round r neg man exp

/-! ### Exact operations -/

def Num.neg : Num → Num
  | .nan => .nan
  | .inf n => .inf !n
  | .fin n m e => .fin (!n) m e

def Num.isNan : Num → Bool
  | .nan => true
  | _ => false

/-- The signed significand at a lower exponent. -/
def scaled (neg : Bool) (man : Nat) (exp low : Int) : Int :=
  let x : Int := (man * 2 ^ (exp - low).toNat : Nat)
  if neg then -x else x

/-- The exact sum; the sign of an exact zero follows R71. -/
def Num.add (r : Rnd) : Num → Num → Num
  | .nan, _ | _, .nan => .nan
  | .inf a, .inf b => if a == b then .inf a else .nan
  | .inf a, _ => .inf a
  | _, .inf b => .inf b
  | .fin na ma ea, .fin nb mb eb =>
    let e := min ea eb
    let x := scaled na ma ea e + scaled nb mb eb e
    if x == 0 then
      .fin (if ma == 0 && mb == 0 && na == nb then na else r == .rdn) 0 e
    else .fin (decide (x < 0)) x.natAbs e

/-- The exact product. -/
def Num.mul : Num → Num → Num
  | .nan, _ | _, .nan => .nan
  | .inf a, .inf b => .inf (a != b)
  | .inf a, .fin nb mb _ => if mb == 0 then .nan else .inf (a != nb)
  | .fin na ma _, .inf b => if ma == 0 then .nan else .inf (na != b)
  | .fin na ma ea, .fin nb mb eb => .fin (na != nb) (ma * mb) (ea + eb)

/-- Comparison of numbers that are not NaN: −1, 0 or 1 as a is below, equal to or above b; −0 equals +0. -/
def Num.cmp : Num → Num → Int
  | .inf a, .inf b => if a == b then 0 else if a then -1 else 1
  | .inf a, _ => if a then -1 else 1
  | _, .inf b => if b then 1 else -1
  | .fin na ma ea, .fin nb mb eb =>
    let e := min ea eb
    let d := scaled na ma ea e - scaled nb mb eb e
    if d < 0 then -1 else if d > 0 then 1 else 0
  | _, _ => 0

/-- The sign bit of a number. -/
def Num.sign : Num → Bool
  | .nan => false
  | .inf n => n
  | .fin n _ _ => n

/-- a below b, with −0 below +0 (R73). -/
def Num.lt (a b : Num) : Bool :=
  let c := a.cmp b
  c < 0 || (c == 0 && a.sign && !b.sign)

/-! ### Operations on patterns of one format -/

def Fmt.add (f : Fmt) (r : Rnd) (a b : Nat) : Nat := f.ofNum r ((f.decode a).add r (f.decode b))
def Fmt.mul (f : Fmt) (r : Rnd) (a b : Nat) : Nat := f.ofNum r ((f.decode a).mul (f.decode b))
def Fmt.fma (f : Fmt) (r : Rnd) (a b c : Nat) : Nat :=
  f.ofNum r (((f.decode a).mul (f.decode b)).add r (f.decode c))
/-- The pattern with its sign bit flipped, and with it cleared (R96). -/
def Fmt.negate (f : Fmt) (a : Nat) : Nat := if a / 2 ^ f.low % 2 == 1 then a - 2 ^ f.low else a + 2 ^ f.low
def Fmt.abs (f : Fmt) (a : Nat) : Nat := a % 2 ^ f.low

/-- minimumNumber (R73): a NaN is ignored beside a number. -/
def Fmt.minNum (f : Fmt) (a b : Nat) : Nat :=
  match f.decode a, f.decode b with
  | .nan, .nan => f.nanCode
  | .nan, _ => b
  | _, .nan => a
  | x, y => if y.lt x then b else a

/-- maximumNumber (R73). -/
def Fmt.maxNum (f : Fmt) (a b : Nat) : Nat :=
  match f.decode a, f.decode b with
  | .nan, .nan => f.nanCode
  | .nan, _ => b
  | _, .nan => a
  | x, y => if x.lt y then b else a

/-- minimum and maximum (R73): any NaN gives NaN. -/
def Fmt.minimum (f : Fmt) (a b : Nat) : Nat :=
  if (f.decode a).isNan || (f.decode b).isNan then f.nanCode else f.minNum a b
def Fmt.maximum (f : Fmt) (a b : Nat) : Nat :=
  if (f.decode a).isNan || (f.decode b).isNan then f.nanCode else f.maxNum a b

/-- Clamp to [+0, 1.0]; NaN and −0 become +0 (R139). -/
def Fmt.satUnit (f : Fmt) (a : Nat) : Nat :=
  let one := f.ofNum .rne (.fin false 1 0)
  match f.decode a with
  | .nan => 0
  | x => if x.sign then 0 else if x.cmp (.fin false 1 0) > 0 then one else a

/-- A value rounded to an integer by a mode (R71). -/
def intRound (r : Rnd) (neg : Bool) (man : Nat) (exp : Int) : Int :=
  let mag : Nat :=
    if exp ≥ 0 then man * 2 ^ exp.toNat
    else
      let sh := (-exp).toNat
      let n := man / 2 ^ sh
      let rem := man % 2 ^ sh
      let half := 2 ^ (sh - 1)
      let up := match r with
        | .rne => rem > half || (rem == half && n % 2 == 1)
        | .rtz => false
        | .rup => !neg && rem != 0
        | .rdn => neg && rem != 0
      if up then n + 1 else n
  if neg then -(mag : Int) else mag

/-- FRND (R141). -/
def Fmt.rnd (f : Fmt) (r : Rnd) (a : Nat) : Nat :=
  match f.decode a with
  | .nan => f.nanCode
  | .inf _ => a
  | .fin neg man exp => f.round .rne neg (intRound r neg man exp).natAbs 0

/-- Floating point to an integer in [lo, hi]: the value and whether it was clamped or a NaN (R75). -/
def Fmt.toInt (f : Fmt) (r : Rnd) (lo hi : Int) (a : Nat) : Int × Bool :=
  match f.decode a with
  | .nan => (0, true)
  | .inf neg => (if neg then lo else hi, true)
  | .fin neg man exp =>
    let x := intRound r neg man exp
    if x < lo then (lo, true) else if x > hi then (hi, true) else (x, false)

/-- An integer to floating point (R75). -/
def Fmt.ofInt (f : Fmt) (r : Rnd) (x : Int) : Nat := f.round r (decide (x < 0)) x.natAbs 0

/-- FCLASS's bit (R141). -/
def Fmt.classBit (f : Fmt) (a : Nat) : Nat :=
  match f.decode a with
  | .nan => if a % 2 ^ f.m / 2 ^ (f.m - 1) == 1 then 9 else 8
  | .inf neg => if neg then 0 else 7
  | .fin neg man _ =>
    if man == 0 then (if neg then 3 else 4)
    else if man < 2 ^ f.m then (if neg then 2 else 5)
    else (if neg then 1 else 6)

/-- Narrowing to FP16 or BF16 (R75), with CVT's sat (R144): overflow and infinities give the largest finite. -/
def convert (src dst : Fmt) (r : Rnd) (sat : Bool) (a : Nat) : Nat :=
  let x := src.decode a
  let y := dst.ofNum r x
  if sat && !x.isNan && y % 2 ^ dst.low ≥ dst.topCode then dst.sign x.sign (dst.topCode - 1) else y

/-- narrow(x, k) (R76); `sat` is .sat, and E2M1 always saturates. -/
def narrow (f : Fmt) (sat : Bool) (x k : Nat) : Nat :=
  match (fp32.decode x).mul (fp32.decode k) with
  | .nan => f.nanCode
  | .inf neg => big neg
  | .fin neg man exp =>
    let p := f.quant .rne neg man exp false
    let c := f.code p.1 p.2
    if c ≥ f.topCode then big neg else f.sign neg c
where
  /-- What an overflow gives. -/
  big (neg : Bool) : Nat :=
    if sat || f.sp == .none then f.sign neg (f.topCode - 1) else f.sign neg f.topCode

/-- A narrow element times k (R77). -/
def widen (f : Fmt) (q k : Nat) : Nat := fp32.ofNum .rne ((f.decode q).mul (fp32.decode k))

/-- The largest finite value of a narrow format as FP32 (R227). -/
def Fmt.largest32 (f : Fmt) : Nat := fp32.ofNum .rne (f.decode (f.topCode - 1))

/-- The element format of a floating-point type (R70). -/
def fmtOf : Ty → Fmt
  | .f16x2 => fp16
  | .bf16x2 => bf16
  | .e4m3x4 => e4m3
  | .e5m2x4 => e5m2
  | .e2m1x8 => e2m1
  | _ => fp32

/-! ### The functions of R74 -/

/-- Newton's integer square root, on fuel. -/
def isqrtGo : Nat → Nat → Nat → Nat
  | 0, _, x => x
  | k + 1, n, x => if (x + n / x) / 2 < x then isqrtGo k n ((x + n / x) / 2) else x

/-- The integer square root, rounded down. -/
def isqrt (n : Nat) : Nat := if n = 0 then 0 else isqrtGo (n.log2 + 8) n (2 ^ (n.log2 / 2 + 1))

/-- FDIV: a ÷ b, RNE (R74). -/
def fdiv (a b : Nat) : Nat :=
  match fp32.decode a, fp32.decode b with
  | .nan, _ | _, .nan => fp32.nanCode
  | .inf _, .inf _ => fp32.nanCode
  | .inf na, y => fp32.sign (na != y.sign) fp32.topCode
  | x, .inf nb => fp32.sign (x.sign != nb) 0
  | .fin na ma ea, .fin nb mb eb =>
    if mb == 0 then (if ma == 0 then fp32.nanCode else fp32.sign (na != nb) fp32.topCode)
    else if ma == 0 then fp32.sign (na != nb) 0
    else fp32.round .rne (na != nb) (ma * 2 ^ 80 / mb) (ea - eb - 80) (ma * 2 ^ 80 % mb != 0)

/-- FRCP: 1 ÷ a (R74). -/
def frcp (a : Nat) : Nat := fdiv 0x3F800000 a

/-- FSQRT (R74). -/
def fsqrt (a : Nat) : Nat :=
  match fp32.decode a with
  | .nan => fp32.nanCode
  | .inf neg => if neg then fp32.nanCode else a
  | .fin neg man exp =>
    if man == 0 then a else if neg then fp32.nanCode
    else
      let sh : Nat := if exp % 2 == 0 then 80 else 81
      let n := man * 2 ^ sh
      let r := isqrt n
      fp32.round .rne false r ((exp - sh) / 2) (r * r != n)

/-- FRSQ: 1 ÷ √a (R74). -/
def frsq (a : Nat) : Nat :=
  match fp32.decode a with
  | .nan => fp32.nanCode
  | .inf neg => if neg then fp32.nanCode else 0
  | .fin neg man exp =>
    if man == 0 then fp32.sign neg fp32.topCode else if neg then fp32.nanCode
    else
      let sh : Nat := if exp % 2 == 0 then 160 else 161
      let r := isqrt (2 ^ sh / man)
      fp32.round .rne false r (-(exp + sh) / 2) (r * r * man != 2 ^ sh)

/-- 2^(0.f) with p fraction bits, from below: the product over the set bits of f (of `k` bits) of 2^(2^−i), each a
repeated square root. -/
def exp2Go (p : Nat) : Nat → Nat → Nat → Nat → Nat
  | 0, _, _, acc => acc
  | k + 1, f, root, acc =>
    let root := isqrt (root * 2 ^ p)
    exp2Go p k (f % 2 ^ k) root (if f / 2 ^ k % 2 == 1 then acc * root / 2 ^ p else acc)

/-- 2^(n + f/2^k) rounded, at the first precision that decides it. -/
def exp2Round (n : Int) (k f : Nat) : List Nat → Nat
  | [] => fp32.nanCode
  | p :: ps =>
    let lo := exp2Go p k f (2 * 2 ^ p) (2 ^ p)
    let a := fp32.round .rne false lo (n - p) true
    let b := fp32.round .rne false (lo + 1024) (n - p) true
    if a == b || ps.isEmpty then a else exp2Round n k f ps

/-- FEXP2 (R74). -/
def fexp2 (a : Nat) : Nat :=
  match fp32.decode a with
  | .nan => fp32.nanCode
  | .inf neg => if neg then 0 else a
  | .fin neg man exp =>
    if man == 0 || exp + (man.log2 : Int) < -28 then 0x3F800000
    else if exp + (man.log2 : Int) ≥ 9 then (if neg then 0 else fp32.topCode)
    else
      let k := (-exp).toNat
      let x : Int := scaled neg man exp (min exp 0)
      let n := x / 2 ^ k
      let f := (x % 2 ^ k).toNat
      if f == 0 then fp32.round .rne false 1 n else exp2Round n k f [128, 256, 512]

/-- Bits of log2 of y in [1, 2), an interval of p fraction bits, from the most significant; stops early where the
interval no longer decides. The bits and how many. -/
def log2Go (p : Nat) : Nat → Nat → Nat → Nat → Nat → Nat × Nat
  | 0, _, _, bits, n => (bits, n)
  | k + 1, lo, hi, bits, n =>
    let lo2 := lo * lo / 2 ^ p
    let hi2 := hi * hi / 2 ^ p + 1
    if lo2 ≥ 2 * 2 ^ p then log2Go p k (lo2 / 2) (hi2 / 2 + 1) (2 * bits + 1) (n + 1)
    else if hi2 < 2 * 2 ^ p then log2Go p k lo2 hi2 (2 * bits) (n + 1)
    else (bits, n)

/-- FLOG2 (R74). -/
def flog2 (a : Nat) : Nat :=
  match fp32.decode a with
  | .nan => fp32.nanCode
  | .inf neg => if neg then fp32.nanCode else a
  | .fin neg man exp =>
    if man == 0 then fp32.sign true fp32.topCode else if neg then fp32.nanCode
    else
      let l := man.log2
      let e : Int := exp + l
      if man == 2 ^ l then fp32.ofInt .rne e
      else
        let y := man * 2 ^ (320 - l)
        let g := log2Go 320 110 y y 0 0
        let x : Int := e * 2 ^ g.2 + g.1
        if x ≥ 0 then fp32.round .rne false x.toNat (-(g.2 : Int)) true
        else fp32.round .rne true (-x - 1).toNat (-(g.2 : Int)) true

/-- FSCALE: a × 2^n (R142). -/
def fscale (a : Nat) (n : Int) : Nat :=
  match fp32.decode a with
  | .nan => fp32.nanCode
  | .inf _ => a
  | .fin neg man exp =>
    if man == 0 then a
    else if n > 600 then fp32.sign neg fp32.topCode
    else fp32.round .rne neg man (exp + max n (-600))

/-- LSE (R230). -/
def flse (x y : Nat) : Nat :=
  let inf := fp32.topCode
  let ninf := fp32.sign true inf
  if (fp32.decode x).isNan || (fp32.decode y).isNan then fp32.nanCode
  else if x == inf || y == inf then inf
  else if x == ninf then y
  else if y == ninf then x
  else
    let m := fp32.maximum x y
    let d := fp32.add .rne (fp32.minimum x y) (fp32.negate m)
    fp32.add .rne m (flog2 (fp32.add .rne 0x3F800000 (fexp2 d)))

/-! ### 32-bit words -/

/-- An FP32 operation on words. -/
def f1 (g : Nat → Nat) (a : Word) : Word := BitVec.ofNat 32 (g a.toNat)
def f2 (g : Nat → Nat → Nat) (a b : Word) : Word := BitVec.ofNat 32 (g a.toNat b.toNat)

end Sys2Proof.Machine
end

