-- ==== Sys2Proof/Decode.lean ====
section
/-! DEFINITION. Code points, field layouts, the accepted attributes of each instruction, the decoder of all three
lengths with R112's orders 1 to 4 (R384), and the encoder, written from the layouts of R90-R101 and of the
instruction chapters. -/

namespace Sys2Proof

/-! ### Errors of orders 1-4 of R112 -/

/-- Why halfwords are no instruction, in R112's order; `short`: more halfwords are needed. -/
inductive DecErr where
  | zeroHalf
  | reservedOp
  | codePoint
  | mustBeZero (bit : Nat)
  | short
  deriving DecidableEq, Repr

/-- An order-3 check (R112). -/
def need (ok : Bool) : Except DecErr Unit := if ok then .ok () else .error .codePoint

/-- The lowest set bit of a word. -/
def lowBit {n : Nat} (w : BitVec n) : Nat := ((List.range n).find? w.getLsbD).getD 0

/-- The order-4 check (R112): no bit of the mask is set. -/
def zeroIn {n : Nat} (w m : BitVec n) : Except DecErr Unit :=
  if w &&& m = 0 then .ok () else .error (.mustBeZero (lowBit (w &&& m)))

/-- A mask of `len` bits from `lo`. -/
def bitsMask (n lo len : Nat) : BitVec n := BitVec.ofNat n ((2 ^ len - 1) * 2 ^ lo)

/-- A field's mask where the field must be zero. -/
def zmask (must : Bool) (lo len : Nat) : DWord := if must then bitsMask 64 lo len else 0

/-! ### Code points (R102, R60, R71, R183, R187) -/

def Ty.code : Ty → BitVec 4
  | .n32 => 0 | .i32 => 1 | .n64 => 2 | .i64 => 3 | .f32 => 4 | .f16x2 => 5 | .bf16x2 => 6 | .e4m3x4 => 7
  | .e5m2x4 => 8 | .e2m1x8 => 9 | .n8x4 => 10 | .i8x4 => 11 | .n16x2 => 12 | .i16x2 => 13 | .b32 => 14

def Ty.all : List Ty := [.n32, .i32, .n64, .i64, .f32, .f16x2, .bf16x2, .e4m3x4, .e5m2x4, .e2m1x8, .n8x4,
  .i8x4, .n16x2, .i16x2, .b32]

/-- The type of a code point that the instruction accepts (R102). -/
def tyIn (l : List Ty) (c : BitVec 4) : Except DecErr Ty :=
  match l.find? (·.code == c) with
  | some t => .ok t
  | none => .error .codePoint

def Guard.code : Guard → BitVec 4
  | .al => 0 | .eq => 1 | .ne => 2 | .cs => 3 | .cc => 4 | .mi => 5 | .pl => 6 | .vs => 7 | .vc => 8 | .hi => 9
  | .ls => 10 | .ge => 11 | .lt => 12 | .gt => 13 | .le => 14 | .nv => 15

def Guard.ofCode (c : BitVec 4) : Guard :=
  match c.toNat with
  | 0 => .al | 1 => .eq | 2 => .ne | 3 => .cs | 4 => .cc | 5 => .mi | 6 => .pl | 7 => .vs | 8 => .vc | 9 => .hi
  | 10 => .ls | 11 => .ge | 12 => .lt | 13 => .gt | 14 => .le | _ => .nv

def Rnd.code : Rnd → BitVec 2
  | .rne => 0 | .rtz => 1 | .rup => 2 | .rdn => 3

def Rnd.ofCode (c : BitVec 2) : Rnd :=
  match c.toNat with
  | 0 => .rne | 1 => .rtz | 2 => .rup | _ => .rdn

def Scope.code : Scope → BitVec 3
  | .core => 0 | .quad => 1 | .die => 2 | .dev => 3 | .pod => 4

def Scope.ofCode (c : BitVec 3) : Except DecErr Scope :=
  match c.toNat with
  | 0 => .ok .core | 1 => .ok .quad | 2 => .ok .die | 3 => .ok .dev | 4 => .ok .pod | _ => .error .codePoint

def Ord.code : Ord → BitVec 2
  | .rlx => 0 | .acq => 1 | .rel => 2 | .acqrel => 3

def Ord.ofCode (c : BitVec 2) : Ord :=
  match c.toNat with
  | 0 => .rlx | 1 => .acq | 2 => .rel | _ => .acqrel

def Width.code : Width → BitVec 3
  | .w8 => 0 | .w16 => 1 | .w32 => 2 | .w64 => 3 | .w128 => 4

def Width.ofCode (c : BitVec 3) : Except DecErr Width :=
  match c.toNat with
  | 0 => .ok .w8 | 1 => .ok .w16 | 2 => .ok .w32 | 3 => .ok .w64 | 4 => .ok .w128 | _ => .error .codePoint

/-- Bytes of an access width (R102). -/
def Width.bytes : Width → Nat
  | .w8 => 1 | .w16 => 2 | .w32 => 4 | .w64 => 8 | .w128 => 16

/-- Registers that hold data of a width (R102). -/
def Width.regs : Width → Nat
  | .w64 => 2 | .w128 => 4 | _ => 1

def Hint.code : Hint → BitVec 2
  | .default => 0 | .evictFirst => 1 | .evictLast => 2 | .noL1 => 3

def Hint.ofCode (c : BitVec 2) : Hint :=
  match c.toNat with
  | 0 => .default | 1 => .evictFirst | 2 => .evictLast | _ => .noL1

def PredHint.code : PredHint → BitVec 2
  | .dynamic => 0 | .uniform => 1 | .never => 2

def PredHint.ofCode (c : BitVec 2) : Except DecErr PredHint :=
  match c.toNat with
  | 0 => .ok .dynamic | 1 => .ok .uniform | 2 => .ok .never | _ => .error .codePoint

def AtomOp.code : AtomOp → BitVec 4
  | .add => 0 | .smin => 1 | .smax => 2 | .umin => 3 | .umax => 4 | .and => 5 | .or => 6 | .xor => 7
  | .exch => 8 | .cas => 9 | .fadd => 10 | .fmin => 11 | .fmax => 12 | .incw => 13 | .decw => 14

def AtomOp.ofCode (c : BitVec 4) : Except DecErr AtomOp :=
  match c.toNat with
  | 0 => .ok .add | 1 => .ok .smin | 2 => .ok .smax | 3 => .ok .umin | 4 => .ok .umax | 5 => .ok .and
  | 6 => .ok .or | 7 => .ok .xor | 8 => .ok .exch | 9 => .ok .cas | 10 => .ok .fadd | 11 => .ok .fmin
  | 12 => .ok .fmax | 13 => .ok .incw | 14 => .ok .decw | _ => .error .codePoint

/-- The atomic operations that exist at width 32 only (R183). -/
def AtomOp.only32 : AtomOp → Bool
  | .fadd | .fmin | .fmax | .incw | .decw => true
  | _ => false

def WaitCmp.code : WaitCmp → BitVec 4
  | .eq => 0 | .ne => 1 | .ge => 2 | .lt => 3 | .hs => 4 | .lo => 5 | .any => 6 | .none => 7

def WaitCmp.ofCode (c : BitVec 4) : Except DecErr WaitCmp :=
  match c.toNat with
  | 0 => .ok .eq | 1 => .ok .ne | 2 => .ok .ge | 3 => .ok .lt | 4 => .ok .hs | 5 => .ok .lo | 6 => .ok .any
  | 7 => .ok .none | _ => .error .codePoint

def ShflMode.code : ShflMode → BitVec 2
  | .idx => 0 | .up => 1 | .down => 2 | .xor => 3

def ShflMode.ofCode (c : BitVec 2) : ShflMode :=
  match c.toNat with
  | 0 => .idx | 1 => .up | 2 => .down | _ => .xor

def VoteMode.code : VoteMode → BitVec 2
  | .all => 0 | .any => 1 | .ballot => 2 | .eq => 3

def VoteMode.ofCode (c : BitVec 2) : VoteMode :=
  match c.toNat with
  | 0 => .all | 1 => .any | 2 => .ballot | _ => .eq

def TredOp.code : TredOp → BitVec 3
  | .add => 0 | .min => 1 | .max => 2 | .and => 3 | .or => 4 | .xor => 5

def TredOp.ofCode (c : BitVec 3) : Except DecErr TredOp :=
  match c.toNat with
  | 0 => .ok .add | 1 => .ok .min | 2 => .ok .max | 3 => .ok .and | 4 => .ok .or | 5 => .ok .xor
  | _ => .error .codePoint

def Space.code : Space → BitVec 2
  | .global => 0 | .scratch => 1 | .vault => 2

def Space.ofCode (c : BitVec 2) : Except DecErr Space :=
  match c.toNat with
  | 0 => .ok .global | 1 => .ok .scratch | 2 => .ok .vault | _ => .error .codePoint

def KMode.code : KMode → BitVec 2
  | .slot0 => 0 | .slot1 => 1 | .both => 2

def KMode.ofCode (c : BitVec 2) : Except DecErr KMode :=
  match c.toNat with
  | 0 => .ok .slot0 | 1 => .ok .slot1 | 2 => .ok .both | _ => .error .codePoint

def Limiter.code : Limiter → BitVec 2
  | .none => 0 | .relu => 1 | .clamp => 2

def Limiter.ofCode (c : BitVec 2) : Except DecErr Limiter :=
  match c.toNat with
  | 0 => .ok .none | 1 => .ok .relu | 2 => .ok .clamp | _ => .error .codePoint

def CopyRed.code : CopyRed → BitVec 4
  | .none => 0 | .add => 1 | .fadd => 2 | .smin => 3 | .smax => 4 | .umin => 5 | .umax => 6 | .fmin => 7
  | .fmax => 8

def CopyRed.ofCode (c : BitVec 4) : Except DecErr CopyRed :=
  match c.toNat with
  | 0 => .ok .none | 1 => .ok .add | 2 => .ok .fadd | 3 => .ok .smin | 4 => .ok .smax | 5 => .ok .umin
  | 6 => .ok .umax | 7 => .ok .fmin | 8 => .ok .fmax | _ => .error .codePoint

def ScanOp.code : ScanOp → BitVec 4
  | .add => 0 | .mul => 1 | .max => 2 | .min => 3 | .maxi => 4 | .linrec => 5 | .lse => 6

def ScanOp.ofCode (c : BitVec 4) : Except DecErr ScanOp :=
  match c.toNat with
  | 0 => .ok .add | 1 => .ok .mul | 2 => .ok .max | 3 => .ok .min | 4 => .ok .maxi | 5 => .ok .linrec
  | 6 => .ok .lse | _ => .error .codePoint

/-- The element types a scan operator takes (R229). -/
def ScanOp.types : ScanOp → List Ty
  | .add => [.n32, .i32, .f32]
  | .max | .min => [.i32, .f32]
  | _ => [.f32]

/-! ### What each instruction accepts -/

/-- Whether an instruction may, must or may not write CC (R95). -/
inductive CcRule where
  | may | must | never
  deriving DecidableEq, Repr

/-- What an instruction of the default XR layout accepts (R126): types, listed register fields (R125), the
immediate B, saturation, rounding, negation and absolute value, CC. `kC`: the C field is LEA's shift (R129);
`lane`: an immediate B is a lane number (R147). -/
structure XrRow where
  types : List Ty
  useD : Bool := true
  useB : Bool := true
  useC : Bool := false
  imm : Bool := false
  sat : Bool := false
  rnd : Bool := false
  neg : Bool := false
  cc : CcRule := .may
  kC : Bool := false
  lane : Bool := false
  deriving DecidableEq, Repr

/-- The tables of R129, R138, R143, R146 and R147, by op10. -/
def xrRow (op : Nat) : XrRow :=
  let packed := [Ty.n32, .i32, .n16x2, .i16x2, .n8x4, .i8x4]
  let ni := [Ty.n32, .i32]
  match op with
  | 0x000 | 0x001 => { types := packed, sat := true, imm := true }
  | 0x002 | 0x003 => { types := [.n32], imm := true }
  | 0x004 | 0x005 => { types := [.i32, .i16x2, .i8x4], useB := false, sat := true }
  | 0x006 => { types := ni, sat := true, imm := true }
  | 0x007 => { types := ni, imm := true }
  | 0x008 | 0x009 => { types := ni, useC := true }
  | 0x00A | 0x00B => { types := ni, imm := true }
  | 0x00C | 0x00D => { types := packed, imm := true }
  | 0x00E => { types := [.i32, .n32, .i64, .n64], useD := false, imm := true, cc := .must }
  | 0x010 => { types := [.n32, .n64, .i64], kC := true }
  | 0x011 | 0x012 => { types := [.n64, .i64], imm := true }
  | 0x013 | 0x014 => { types := [.n32, .n64], imm := true }
  | 0x015 => { types := [.i32, .i64], imm := true }
  | 0x016 | 0x017 => { types := [.n32], imm := true }
  | 0x018 | 0x019 => { types := [.n32], useC := true }
  | 0x01A | 0x01B | 0x01C | 0x01D => { types := [.n32], imm := true }
  | 0x01E | 0x020 | 0x021 | 0x022 | 0x023 => { types := [.n32], useB := false }
  | 0x024 => { types := ni, imm := true }
  | 0x025 | 0x026 => { types := [.n32], useC := true }
  | 0x080 | 0x081 | 0x082 => { types := [.f32], rnd := true, sat := true, neg := true, imm := true }
  | 0x083 => { types := [.f32], useC := true, rnd := true, sat := true, neg := true }
  | 0x084 | 0x085 | 0x086 | 0x087 => { types := [.f32], neg := true, imm := true }
  | 0x088 => { types := [.f32], useD := false, neg := true, imm := true, cc := .must }
  | 0x08A => { types := [.f32], useB := false, rnd := true, neg := true }
  | 0x08B => { types := [.f32], useB := false }
  | 0x08D | 0x08E => { types := [.f16x2], rnd := true, sat := true, neg := true, imm := true }
  | 0x08F => { types := [.f16x2], useC := true, rnd := true, sat := true, neg := true }
  | 0x090 | 0x091 => { types := [.bf16x2], rnd := true, sat := true, neg := true, imm := true }
  | 0x092 => { types := [.bf16x2], useC := true, rnd := true, sat := true, neg := true }
  | 0x100 | 0x101 | 0x102 | 0x103 | 0x104 => { types := [.f32], useB := false, neg := true }
  | 0x105 => { types := [.f32], neg := true, imm := true }
  | 0x140 => { types := [.n32, .n64], useB := false }
  | 0x143 => { types := [.n32, .n64], imm := true, cc := .never, lane := true }
  | _ => { types := [] }

/-- What an instruction of the XM form accepts (R174): widths, orders, hint; whether D is a register; what B is
(`some true` a register, `some false` the SX bit, none: zero); whether A and an offset exist; CC. -/
structure XmRow where
  widths : List Width
  ords : List Ord := [.rlx]
  hint : Bool := false
  useD : Bool := false
  useB : Option Bool := none
  useA : Bool := true
  cc : CcRule := .never
  mst : Bool := false
  deriving DecidableEq, Repr

/-- The table of R174, by op10. -/
def xmRow (op : Nat) : XmRow :=
  let ws := [Width.w8, .w16, .w32, .w64, .w128]
  match op with
  | 0x200 => { widths := ws, ords := [.rlx, .acq], hint := true, useD := true, useB := some false }
  | 0x201 => { widths := ws, ords := [.rlx, .rel], hint := true, useB := some true }
  | 0x202 => { widths := ws, ords := [.rlx, .acq], useD := true, useB := some false }
  | 0x203 => { widths := ws, ords := [.rlx, .rel], useB := some true }
  | 0x204 => { widths := ws, hint := true, useD := true, useB := some false }
  | 0x205 => { widths := ws, hint := true, useB := some true }
  | 0x206 => { widths := ws, useD := true, useB := some false }
  | 0x207 => { widths := [.w32, .w64, .w128], hint := true, useD := true, useB := some true }
  | 0x20B => { widths := [.w32, .w64], ords := [.rlx, .acq], useD := true }
  | 0x20C => { widths := [.w32, .w64], ords := [.rlx, .rel], useD := true, useB := some true, cc := .may }
  | 0x20D => { widths := [.w8], ords := [.acq, .rel, .acqrel], useA := false }
  | 0x20F => { widths := [.w8], hint := true }
  | 0x210 => { widths := [.w8], cc := .must }
  | 0x211 => { widths := [.w8] }
  | 0x213 => { widths := [.w32, .w64], ords := [.rlx, .rel], useD := true, useB := some true, mst := true }
  | _ => { widths := [] }

/-- What a synchronisation instruction accepts (R192): D and B registers, scopes, orders, CC, BOEXP's NEXT. -/
structure XsRow where
  useD : Bool := false
  useB : Bool := true
  scopes : List Scope := [.core]
  ords : List Ord := [.rlx]
  cc : CcRule := .never
  next : Bool := false
  deriving DecidableEq, Repr

/-- The table of R192, by op10. -/
def xsRow (op : Nat) : XsRow :=
  let any := [Scope.core, .quad, .die, .dev, .pod]
  match op with
  | 0x280 => { useD := true, useB := false, scopes := any, ords := [.rlx, .rel] }
  | 0x281 => { scopes := any, ords := [.rlx, .acq] }
  | 0x282 => { scopes := [.quad, .die, .dev, .pod] }
  | 0x283 => {}
  | 0x284 => { useD := true, useB := false, ords := [.rlx, .rel] }
  | 0x285 => { ords := [.rlx, .acq] }
  | 0x286 => { ords := [.rlx, .acq], cc := .must }
  | 0x287 => { next := true }
  | _ => { scopes := [] }

/-- A legal source and destination pair of CVT (R144): source, destination, whether B is read, whether sat is
accepted. -/
def cvtPairs : List (Ty × Ty × Bool × Bool) :=
  [(.f32, .f16x2, true, true), (.f32, .bf16x2, true, true), (.f16x2, .f32, false, false),
   (.bf16x2, .f32, false, false), (.f16x2, .bf16x2, false, true), (.bf16x2, .f16x2, false, true),
   (.f32, .n32, false, false), (.f32, .i32, false, false), (.f32, .n64, false, false), (.f32, .i64, false, false),
   (.n32, .f32, false, false), (.i32, .f32, false, false), (.n64, .f32, false, false), (.i64, .f32, false, false),
   (.n32, .n64, false, false), (.n32, .i64, false, false), (.i32, .n64, false, false), (.i32, .i64, false, false),
   (.n64, .n32, false, true), (.n64, .i32, false, true), (.i64, .n32, false, true), (.i64, .i32, false, true),
   (.n32, .i32, false, true), (.i32, .n32, false, true)]

/-- The row of a CVT pair. -/
def cvtRow (src dst : Ty) : Option (Bool × Bool) :=
  (cvtPairs.find? fun p => p.1 == src && p.2.1 == dst).map (·.2.2)

/-- The formats of MLW and MMA (R217). -/
def mmaTypes : List Ty := [.e4m3x4, .e5m2x4, .e2m1x8, .i8x4, .n8x4, .bf16x2]
/-- The formats of MDR (R219). -/
def mdrTypes : List Ty := [.f32, .f16x2, .bf16x2, .e4m3x4, .e5m2x4, .e2m1x8]
/-- The narrow formats (R76). -/
def narrowTypes : List Ty := [.e4m3x4, .e5m2x4, .e2m1x8]
/-- INT8 formats (R83). -/
def Ty.isInt8 : Ty → Bool
  | .i8x4 | .n8x4 => true
  | _ => false
/-- 64-bit types. -/
def Ty.is64 : Ty → Bool
  | .n64 | .i64 => true
  | _ => false
/-- Special registers RDSR reaches and those WRSR may write (R54). -/
def srReadable (i : RegField) : Bool := i.toNat ≤ 33
def srWritable (i : RegField) : Bool := (16 ≤ i.toNat && i.toNat ≤ 18) || (24 ≤ i.toNat && i.toNat ≤ 30)

/-! ### Field layouts by constructor -/

/-- The layout of an instruction with its operation code (R90-R104); `event` for the rows with no encoding. -/
inductive Layout where
  | event
  | h2 (op : BitVec 4) (o : H2)
  | n3 (op : BitVec 7) (o : N3)
  | ni (op : BitVec 7) (o : NI)
  | nm (op : BitVec 7) (o : NM)
  | nj (o : NJ)
  | np (o : RepFields)
  | xr (op : BitVec 10) (o : Xr)
  | sel (op : BitVec 10) (o : Sel)
  | lut3 (op : BitVec 10) (o : Lut3)
  | fscale (op : BitVec 10) (o : Fscale)
  | cvt (op : BitVec 10) (o : Cvt)
  | pack (op : BitVec 10) (o : Pack)
  | movi (op : BitVec 10) (o : Movi)
  | movs (op : BitVec 10) (o : Movs)
  | sr (op : BitVec 10) (o : Sr)
  | shfl (op : BitVec 10) (o : Shfl)
  | vote (op : BitVec 10) (o : Vote)
  | tred (op : BitVec 10) (o : Tred)
  | part (op : BitVec 10) (o : PartOp)
  | xrng (op : BitVec 10) (o : Xrng)
  | xsort (op : BitVec 10) (o : Xsort)
  | xqnt (op : BitVec 10) (o : Xqnt)
  | xdqnt (op : BitVec 10) (o : Xdqnt)
  | br (op : BitVec 10) (o : Br)
  | jump (op : BitVec 10) (o : Jump)
  | jumpReg (op : BitVec 10) (o : JumpReg)
  | brx (op : BitVec 10) (o : Brx)
  | bare (op : BitVec 10) (o : Head)
  | rep (op : BitVec 10) (o : Rep)
  | xi (op : BitVec 10) (o : Xi)
  | xm (op : BitVec 10) (o : Xm)
  | xp (op : BitVec 10) (o : Xp)
  | xa (op : BitVec 10) (o : Xa)
  | xas (op : BitVec 10) (o : Xas)
  | waita (op : BitVec 10) (o : Waita)
  | bank (op : BitVec 10) (o : Bank)
  | xs (op : BitVec 10) (o : Xs)
  | mlw (op : BitVec 10) (o : Mlw)
  | mma (op : BitVec 10) (o : Mma)
  | mdr (op : BitVec 10) (o : Mdr)
  | mzr (op : BitVec 10) (o : Mzr)
  | mrs (op : BitVec 10) (o : Mrs)
  | mws (op : BitVec 10) (o : Mws)
  | copy (op : BitVec 10) (o : Copy)
  | copyx (op : BitVec 10) (o : Copyx)
  | hw (op : BitVec 10) (o : Hw)
  | opA (op : BitVec 10) (o : OpA)
  | opD (op : BitVec 10) (o : OpD)
  | opDA (op : BitVec 10) (o : OpDA)
  | opAB (op : BitVec 10) (o : OpAB)
  | scan (op : BitVec 10) (o : Scan)
  | chainOp (op : BitVec 10) (o : ChainOp)
  | cjoin (op : BitVec 10) (o : Cjoin)
  | launch (op : BitVec 10) (o : Launch)
  deriving DecidableEq, Repr

/-- Every instruction's layout and operation code (R91, R93, R103). -/
def Instr.layout : Instr → Layout
  | .iaddH2 o => .h2 0 o
  | .isubH2 o => .h2 1 o
  | .imulH2 o => .h2 2 o
  | .andH2 o => .h2 3 o
  | .orH2 o => .h2 4 o
  | .xorH2 o => .h2 5 o
  | .shlH2 o => .h2 6 o
  | .shrH2 o => .h2 7 o
  | .sarH2 o => .h2 8 o
  | .movH2 o => .h2 9 o
  | .moviH2 o => .h2 10 o
  | .faddH2 o => .h2 11 o
  | .fsubH2 o => .h2 12 o
  | .fmulH2 o => .h2 13 o
  | .fmaxH2 o => .h2 14 o
  | .fminH2 o => .h2 15 o
  | .iaddN3 o => .n3 0 o
  | .isubN3 o => .n3 1 o
  | .imulN3 o => .n3 2 o
  | .iminN3 o => .n3 3 o
  | .imaxN3 o => .n3 4 o
  | .andN3 o => .n3 5 o
  | .orN3 o => .n3 6 o
  | .xorN3 o => .n3 7 o
  | .andnN3 o => .n3 8 o
  | .shlN3 o => .n3 9 o
  | .shrN3 o => .n3 10 o
  | .sarN3 o => .n3 11 o
  | .faddN3 o => .n3 12 o
  | .fsubN3 o => .n3 13 o
  | .fmulN3 o => .n3 14 o
  | .fminN3 o => .n3 15 o
  | .fmaxN3 o => .n3 16 o
  | .hadd2N3 o => .n3 17 o
  | .hmul2N3 o => .n3 18 o
  | .badd2N3 o => .n3 19 o
  | .bmul2N3 o => .n3 20 o
  | .movN3 o => .n3 21 o
  | .icmpN3 o => .n3 22 o
  | .fcmpN3 o => .n3 23 o
  | .iaddi o => .ni 0x40 o
  | .shli o => .ni 0x41 o
  | .shri o => .ni 0x42 o
  | .sari o => .ni 0x43 o
  | .andi o => .ni 0x44 o
  | .ori o => .ni 0x45 o
  | .xori o => .ni 0x46 o
  | .movi8 o => .ni 0x47 o
  | .icmpi o => .ni 0x48 o
  | .ld32 o => .nm 0x60 o
  | .st32 o => .nm 0x61 o
  | .lds32 o => .nm 0x62 o
  | .sts32 o => .nm 0x63 o
  | .jmpNJ o => .nj o
  | .repNP o => .np o
  | .iadd o => .xr 0x0 o
  | .isub o => .xr 0x1 o
  | .iaddc o => .xr 0x2 o
  | .isubb o => .xr 0x3 o
  | .ineg o => .xr 0x4 o
  | .iabs o => .xr 0x5 o
  | .imul o => .xr 0x6 o
  | .imulh o => .xr 0x7 o
  | .imad o => .xr 0x8 o
  | .imadw o => .xr 0x9 o
  | .idiv o => .xr 0xa o
  | .irem o => .xr 0xb o
  | .imin o => .xr 0xc o
  | .imax o => .xr 0xd o
  | .icmp o => .xr 0xe o
  | .isel o => .sel 0xf o
  | .lea o => .xr 0x10 o
  | .iadd64 o => .xr 0x11 o
  | .isub64 o => .xr 0x12 o
  | .shl o => .xr 0x13 o
  | .shr o => .xr 0x14 o
  | .sar o => .xr 0x15 o
  | .rol o => .xr 0x16 o
  | .ror o => .xr 0x17 o
  | .fshl o => .xr 0x18 o
  | .fshr o => .xr 0x19 o
  | .and o => .xr 0x1a o
  | .or o => .xr 0x1b o
  | .xor o => .xr 0x1c o
  | .andn o => .xr 0x1d o
  | .not o => .xr 0x1e o
  | .lut3 o => .lut3 0x1f o
  | .popc o => .xr 0x20 o
  | .clz o => .xr 0x21 o
  | .ctz o => .xr 0x22 o
  | .brev o => .xr 0x23 o
  | .bfe o => .xr 0x24 o
  | .bfi o => .xr 0x25 o
  | .bysel o => .xr 0x26 o
  | .fadd o => .xr 0x80 o
  | .fsub o => .xr 0x81 o
  | .fmul o => .xr 0x82 o
  | .ffma o => .xr 0x83 o
  | .fmin o => .xr 0x84 o
  | .fmax o => .xr 0x85 o
  | .fminm o => .xr 0x86 o
  | .fmaxm o => .xr 0x87 o
  | .fcmp o => .xr 0x88 o
  | .fsel o => .sel 0x89 o
  | .frnd o => .xr 0x8a o
  | .fclass o => .xr 0x8b o
  | .fscale o => .fscale 0x8c o
  | .hadd2 o => .xr 0x8d o
  | .hmul2 o => .xr 0x8e o
  | .hfma2 o => .xr 0x8f o
  | .badd2 o => .xr 0x90 o
  | .bmul2 o => .xr 0x91 o
  | .bfma2 o => .xr 0x92 o
  | .frcp o => .xr 0x100 o
  | .frsq o => .xr 0x101 o
  | .fsqrt o => .xr 0x102 o
  | .fexp2 o => .xr 0x103 o
  | .flog2 o => .xr 0x104 o
  | .fdiv o => .xr 0x105 o
  | .cvt o => .cvt 0x106 o
  | .cvt8 o => .pack 0x107 o
  | .wid8 o => .pack 0x108 o
  | .cvt4 o => .pack 0x109 o
  | .wid4 o => .pack 0x10a o
  | .mov o => .xr 0x140 o
  | .movi o => .movi 0x141 o
  | .movs o => .movs 0x142 o
  | .rdl o => .xr 0x143 o
  | .rdsr o => .sr 0x144 o
  | .wrsr o => .sr 0x145 o
  | .shfl o => .shfl 0x146 o
  | .vote o => .vote 0x147 o
  | .tred o => .tred 0x148 o
  | .part o => .part 0x149 o
  | .xrng o => .xrng 0x180 o
  | .xsort o => .xsort 0x181 o
  | .xqnt o => .xqnt 0x182 o
  | .xdqnt o => .xdqnt 0x183 o
  | .br o => .br 0x1c0 o
  | .bru o => .jump 0x1c1 o
  | .jmp o => .jump 0x1c2 o
  | .jmpr o => .jumpReg 0x1c3 o
  | .brx o => .brx 0x1c4 o
  | .call o => .jump 0x1c5 o
  | .callr o => .jumpReg 0x1c6 o
  | .ret o => .jumpReg 0x1c7 o
  | .exit o => .bare 0x1c8 o
  | .join o => .bare 0x1c9 o
  | .yield o => .bare 0x1ca o
  | .nop o => .bare 0x1cb o
  | .rep o => .rep 0x1cc o
  | .sleep o => .xi 0x1cd o
  | .ld o => .xm 0x200 o
  | .st o => .xm 0x201 o
  | .lds o => .xp 0x202 o
  | .sts o => .xp 0x203 o
  | .ldl o => .xp 0x204 o
  | .stl o => .xp 0x205 o
  | .ldc o => .xp 0x206 o
  | .lda o => .xm 0x207 o
  | .atom o => .xa 0x208 o
  | .red o => .xa 0x209 o
  | .atoms o => .xas 0x20a o
  | .lr o => .xm 0x20b o
  | .sc o => .xm 0x20c o
  | .fence o => .xm 0x20d o
  | .waita o => .waita 0x20e o
  | .pref o => .xm 0x20f o
  | .lock o => .xm 0x210 o
  | .unlock o => .xm 0x211 o
  | .bank o => .bank 0x212 o
  | .mst o => .xm 0x213 o
  | .barv o => .xs 0x280 o
  | .bwait o => .xs 0x281 o
  | .bgrp o => .xs 0x282 o
  | .boinit o => .xs 0x283 o
  | .boarv o => .xs 0x284 o
  | .bowait o => .xs 0x285 o
  | .botest o => .xs 0x286 o
  | .boexp o => .xs 0x287 o
  | .mlw o => .mlw 0x2c0 o
  | .mma o => .mma 0x2c1 o
  | .mdr o => .mdr 0x2c2 o
  | .mzr o => .mzr 0x2c3 o
  | .mrs o => .mrs 0x2c4 o
  | .mws o => .mws 0x2c5 o
  | .copy o => .copy 0x300 o
  | .copym o => .copy 0x301 o
  | .copyl o => .copy 0x302 o
  | .copyx o => .copyx 0x303 o
  | .hwait o => .hw 0x304 o
  | .htest o => .hw 0x305 o
  | .hcan o => .opA 0x306 o
  | .hsav o => .opAB 0x307 o
  | .hld o => .opDA 0x308 o
  | .scan o => .scan 0x340 o
  | .topk o => .opDA 0x341 o
  | .smax o => .chainOp 0x342 o
  | .samp o => .chainOp 0x343 o
  | .cjoin o => .cjoin 0x344 o
  | .csend o => .opA 0x345 o
  | .crecv o => .opD 0x346 o
  | .cleave o => .bare 0x347 o
  | .launch o => .launch 0x380 o
  | .lqry o => .opDA 0x381 o
  | .trap o => .xi 0x382 o
  | .rte o => .bare 0x383 o
  | .bkpt o => .xi 0x384 o
  | .trace o => .opA 0x385 o
  | .nopre o => .bare 0x386 o
  | .preok o => .bare 0x387 o
  | .l1inv o => .opAB 0x388 o
  | _ => .event

/-- The length of an instruction in bytes (R86); 0 for an event. -/
def Layout.len : Layout → Nat
  | .event => 0
  | .h2 _ _ => 2
  | .n3 _ _ | .ni _ _ | .nm _ _ | .nj _ | .np _ => 4
  | _ => 8

def Instr.len (i : Instr) : Nat := i.layout.len

/-! ### The 16-bit and 32-bit forms (R90-R93) -/

def h2Ctor (op : BitVec 4) : H2 → Instr :=
  match op.toNat with
  | 0 => .iaddH2
  | 1 => .isubH2
  | 2 => .imulH2
  | 3 => .andH2
  | 4 => .orH2
  | 5 => .xorH2
  | 6 => .shlH2
  | 7 => .shrH2
  | 8 => .sarH2
  | 9 => .movH2
  | 10 => .moviH2
  | 11 => .faddH2
  | 12 => .fsubH2
  | 13 => .fmulH2
  | 14 => .fmaxH2
  | _ => .fminH2

def n3Ctor (op : BitVec 7) : Option (N3 → Instr) :=
  match op.toNat with
  | 0x0 => some .iaddN3
  | 0x1 => some .isubN3
  | 0x2 => some .imulN3
  | 0x3 => some .iminN3
  | 0x4 => some .imaxN3
  | 0x5 => some .andN3
  | 0x6 => some .orN3
  | 0x7 => some .xorN3
  | 0x8 => some .andnN3
  | 0x9 => some .shlN3
  | 0xa => some .shrN3
  | 0xb => some .sarN3
  | 0xc => some .faddN3
  | 0xd => some .fsubN3
  | 0xe => some .fmulN3
  | 0xf => some .fminN3
  | 0x10 => some .fmaxN3
  | 0x11 => some .hadd2N3
  | 0x12 => some .hmul2N3
  | 0x13 => some .badd2N3
  | 0x14 => some .bmul2N3
  | 0x15 => some .movN3
  | 0x16 => some .icmpN3
  | 0x17 => some .fcmpN3
  | _ => none

def niCtor (op : BitVec 7) : Option (NI → Instr) :=
  match op.toNat with
  | 0x40 => some .iaddi
  | 0x41 => some .shli
  | 0x42 => some .shri
  | 0x43 => some .sari
  | 0x44 => some .andi
  | 0x45 => some .ori
  | 0x46 => some .xori
  | 0x47 => some .movi8
  | 0x48 => some .icmpi
  | _ => none

def nmCtor (op : BitVec 7) : Option (NM → Instr) :=
  match op.toNat with
  | 0x60 => some .ld32
  | 0x61 => some .st32
  | 0x62 => some .lds32
  | 0x63 => some .sts32
  | _ => none

/-- R90, R91: every op4 is assigned. -/
def decode16 (w : BitVec 16) : Except DecErr Instr :=
  if w = 0 then .error .zeroHalf
  else .ok (h2Ctor (w.extractLsb' 1 4) ⟨w.getLsbD 15, w.extractLsb' 10 5, w.extractLsb' 5 5⟩)

def decN3 (op : BitVec 7) (w : BitVec 32) : Except DecErr N3 := do
  need (!(op == 0x16 || op == 0x17) || w.getLsbD 9)
  zeroIn w ((if op == 0x15 then bitsMask 32 24 7 else 0) ||| (if op == 0x16 || op == 0x17 then bitsMask 32 10 7 else 0))
  return ⟨w.getLsbD 31, w.extractLsb' 24 7, w.extractLsb' 17 7, w.extractLsb' 10 7, w.getLsbD 9⟩

def decNI (op : BitVec 7) (w : BitVec 32) : Except DecErr NI := do
  need (!(op == 0x48) || w.getLsbD 9)
  zeroIn w ((if op == 0x41 || op == 0x42 || op == 0x43 then bitsMask 32 29 3 else 0)
    ||| (if op == 0x47 then bitsMask 32 17 7 else 0) ||| (if op == 0x48 then bitsMask 32 10 7 else 0))
  return ⟨w.extractLsb' 24 8, w.extractLsb' 17 7, w.extractLsb' 10 7, w.getLsbD 9⟩

def decNM (w : BitVec 32) : NM := ⟨w.extractLsb' 24 8, w.extractLsb' 17 7, w.extractLsb' 10 7, w.getLsbD 9⟩

/-- R106: the 32-bit REP. -/
def decNP (w : BitVec 32) : Except DecErr RepFields := do
  zeroIn w (bitsMask 32 21 11)
  return ⟨w.extractLsb' 19 2, w.getLsbD 18, w.getLsbD 17, w.getLsbD 16, w.getLsbD 15, w.extractLsb' 9 6⟩

/-- R92, R93: the form follows op7. -/
def decode32 (w : BitVec 32) : Except DecErr Instr :=
  let op := w.extractLsb' 2 7
  match n3Ctor op, niCtor op, nmCtor op with
  | some c, _, _ => (decN3 op w).map c
  | none, some c, _ => (decNI op w).map c
  | none, none, some c => .ok (c (decNM w))
  | none, none, none =>
    if op == 0x68 then .ok (.jmpNJ ⟨w.extractLsb' 9 23⟩)
    else if op == 0x70 then (decNP w).map .repNP
    else .error .reservedOp

/-! ### The 64-bit forms -/

/-- The common head (R94). -/
def headOf (w : DWord) : Head :=
  ⟨w.getLsbD 19, w.getLsbD 18, w.getLsbD 17, .ofCode (w.extractLsb' 13 4), w.getLsbD 12⟩

/-- The head bits that must be zero (R95). -/
def headZero (w : DWord) (cc : CcRule) : DWord :=
  zmask (w.extractLsb' 13 4 == 0) 17 1 ||| zmask (cc == .never) 18 1 |||
  zmask (cc == .never || !w.getLsbD 18) 19 1

/-- An instruction that must write CC has C = 1 (R384). -/
def needC (w : DWord) (cc : CcRule) : Except DecErr Unit := need (!(cc == .must) || w.getLsbD 18)

def fD (w : DWord) : RegField := w.extractLsb' 20 7
def fA (w : DWord) : RegField := w.extractLsb' 27 7
def fB (w : DWord) : RegField := w.extractLsb' 34 7
def fC (w : DWord) : RegField := w.extractLsb' 41 7
/-- Masks of the register fields. -/
def mD : DWord := bitsMask 64 20 7
def mA : DWord := bitsMask 64 27 7
def mB : DWord := bitsMask 64 34 7
def mC : DWord := bitsMask 64 41 7
/-- The M field of an XR or XE tail but for the bits from `lo`, `len` (R96). -/
def mRest (keep : DWord) : DWord := bitsMask 64 48 16 &&& ~~~keep

/-- A whole M of an XR form that must be zero, judged by the default layout (R384): variant, rounding and type are code points. -/
def needM0 (w : DWord) : Except DecErr Unit :=
  need (w.extractLsb' 62 2 == 0#2 && w.extractLsb' 52 2 == 0#2 && w.extractLsb' 48 4 == 0#4)

/-- The default layout of M (R96, R126). -/
def decXr (r : XrRow) (w : DWord) : Except DecErr Xr := do
  let imm := w.extractLsb' 62 2 == 1#2
  need (w.extractLsb' 62 2 == 0#2 || (r.imm && imm))
  let ty ← tyIn r.types (w.extractLsb' 48 4)
  need (r.rnd || w.extractLsb' 52 2 == 0#2)
  needC w r.cc
  need (!r.kC || w.extractLsb' 46 2 == 0#2)
  need (!(r.lane && imm) || w.extractLsb' 39 9 == 0#9)
  zeroIn w (headZero w r.cc ||| zmask (!r.useD) 20 7 ||| zmask (!imm && !r.useB) 34 7
    ||| zmask (!imm && !r.useC && !r.kC) 41 7 ||| zmask (!r.useC) 61 1 ||| zmask (!r.useB || imm) 60 1
    ||| zmask (!r.neg || !r.useB) 58 1 ||| zmask (!r.neg) 57 1 ||| zmask (!r.neg || !r.useB) 56 1
    ||| zmask (!r.neg) 55 1 ||| zmask (!r.sat) 54 1)
  return { h := headOf w, d := fD w, a := fA w,
           src := if imm then .imm (w.extractLsb' 41 7 ++ w.extractLsb' 34 7) else .regs (fB w) (fC w),
           eC := w.getLsbD 61, eB := w.getLsbD 60, eA := w.getLsbD 59, absB := w.getLsbD 58, absA := w.getLsbD 57,
           negB := w.getLsbD 56, negA := w.getLsbD 55, sat := w.getLsbD 54, rnd := .ofCode (w.extractLsb' 52 2),
           ty := ty }

/-- ISEL and FSEL (R134). -/
def decSel (fp : Bool) (w : DWord) : Except DecErr Sel := do
  zeroIn w (headZero w .may ||| mC ||| bitsMask 64 61 3 ||| zmask (!fp) 55 4 ||| bitsMask 64 53 2)
  return ⟨headOf w, fD w, fA w, fB w, w.getLsbD 60, w.getLsbD 59, w.getLsbD 58, w.getLsbD 57, w.getLsbD 56,
    w.getLsbD 55, w.getLsbD 52, .ofCode (w.extractLsb' 48 4)⟩

/-- LUT3 (R135). -/
def decLut3 (w : DWord) : Except DecErr Lut3 := do
  zeroIn w (headZero w .may ||| bitsMask 64 62 2 ||| bitsMask 64 56 3)
  return ⟨headOf w, fD w, fA w, fB w, fC w, w.getLsbD 61, w.getLsbD 60, w.getLsbD 59, w.extractLsb' 48 8⟩

/-- FSCALE (R98, R142): type 0x4, saturate 0. -/
def decFscale (w : DWord) : Except DecErr Fscale := do
  need (w.extractLsb' 34 4 == 4#4)
  zeroIn w (headZero w .may ||| bitsMask 64 38 1)
  return ⟨headOf w, fD w, fA w, w.getLsbD 39, w.extractLsb' 40 24⟩

/-- CVT (R144). -/
def decCvt (w : DWord) : Except DecErr Cvt := do
  let src ← tyIn Ty.all (w.extractLsb' 52 4)
  let dst ← tyIn Ty.all (w.extractLsb' 48 4)
  match cvtRow src dst with
  | none => .error .codePoint
  | some (useB, sat) =>
    zeroIn w (headZero w .may ||| mC ||| zmask (!useB) 34 7 ||| zmask (!useB) 60 1 ||| bitsMask 64 62 2
      ||| zmask (!(src == .f16x2 || src == .bf16x2)) 61 1 ||| zmask (!sat) 58 1)
    return ⟨headOf w, fD w, fA w, fB w, w.getLsbD 61, w.getLsbD 60, w.getLsbD 59, w.getLsbD 58,
      .ofCode (w.extractLsb' 56 2), src, dst⟩

/-- CVT8, WID8, CVT4 and WID4 (R145). -/
def decPack (eight cvt : Bool) (w : DWord) : Except DecErr Pack := do
  let ty ← tyIn (if eight then [.e4m3x4, .e5m2x4] else [.e2m1x8]) (w.extractLsb' 48 4)
  zeroIn w (headZero w (if cvt then .may else .never) ||| mC ||| bitsMask 64 61 3 ||| bitsMask 64 55 4
    ||| zmask (!(eight && cvt)) 54 1 ||| bitsMask 64 53 1 ||| zmask (!cvt) 52 1)
  return ⟨headOf w, fD w, fA w, fB w, w.getLsbD 60, w.getLsbD 59, w.getLsbD 54, w.getLsbD 52, ty⟩

/-- MOVI (R97, R146). -/
def decMovi (w : DWord) : Except DecErr Movi := do
  zeroIn w (headZero w .may ||| bitsMask 64 27 5)
  return ⟨headOf w, fD w, w.extractLsb' 32 32⟩

/-- MOVS (R146). -/
def decMovs (w : DWord) : Except DecErr Movs := do
  let v := w.extractLsb' 62 2
  need (!(v == 3#2))
  need (w.extractLsb' 48 4 == 0#4 && w.extractLsb' 52 2 == 0#2)
  zeroIn w (headZero w .never ||| bitsMask 64 54 8 ||| zmask (v == 1#2) 27 7 ||| zmask (!(v == 1#2)) 34 14)
  return ⟨headOf w, fD w, if v == 0#2 then .vFromS (fA w)
    else if v == 1#2 then .sImm (w.extractLsb' 41 7 ++ w.extractLsb' 34 7) else .sFromS (fA w)⟩

/-- RDSR and WRSR (R54, R148). -/
def decSr (write : Bool) (w : DWord) : Except DecErr Sr := do
  need (if write then srWritable (fD w) else srReadable (fA w) && !(fA w == 0#7 && w.getLsbD 48))
  zeroIn w (headZero w .never ||| mB ||| mC ||| bitsMask 64 49 15)
  return ⟨headOf w, fD w, fA w, w.getLsbD 48⟩

/-- SHFL (R150). -/
def decShfl (w : DWord) : Except DecErr Shfl := do
  let ib := w.getLsbD 51
  let ms := w.getLsbD 50
  zeroIn w (headZero w .may ||| bitsMask 64 62 2 ||| bitsMask 64 52 7 ||| zmask ib 39 2 ||| zmask ib 60 1
    ||| zmask (!ms) 41 7 ||| zmask (!ms) 61 1)
  return ⟨headOf w, fD w, fA w, fB w, fC w, w.getLsbD 61, w.getLsbD 60, w.getLsbD 59, ib, ms,
    .ofCode (w.extractLsb' 48 2)⟩

/-- VOTE (R151). -/
def decVote (w : DWord) : Except DecErr Vote := do
  let ms := w.getLsbD 50
  zeroIn w (headZero w .may ||| mB ||| bitsMask 64 62 2 ||| bitsMask 64 60 1 ||| bitsMask 64 51 8
    ||| zmask (!ms) 41 7 ||| zmask (!ms) 61 1)
  return ⟨headOf w, fD w, fA w, fC w, w.getLsbD 61, w.getLsbD 59, ms, .ofCode (w.extractLsb' 48 2)⟩

/-- TRED (R152). -/
def decTred (w : DWord) : Except DecErr Tred := do
  let ms := w.getLsbD 50
  let op ← TredOp.ofCode (w.extractLsb' 56 1 ++ w.extractLsb' 48 2)
  let ty ← tyIn (match op with | .and | .or | .xor => [.n32] | _ => [.n32, .i32, .f32]) (w.extractLsb' 52 4)
  zeroIn w (headZero w .may ||| mB ||| bitsMask 64 62 2 ||| bitsMask 64 60 1 ||| bitsMask 64 57 2
    ||| bitsMask 64 51 1 ||| zmask (!ms) 41 7 ||| zmask (!ms) 61 1)
  return ⟨headOf w, fD w, fA w, fC w, w.getLsbD 61, w.getLsbD 59, op, ty, ms⟩

/-- PART (R153): variant 0b01, an immediate from 1 to 5. -/
def decPart (w : DWord) : Except DecErr PartOp := do
  let p : BitVec 14 := w.extractLsb' 41 7 ++ w.extractLsb' 34 7
  need (w.extractLsb' 62 2 == 1#2)
  need (1 ≤ p.toNat && p.toNat ≤ 5)
  need (w.extractLsb' 48 4 == 0#4 && w.extractLsb' 52 2 == 0#2)
  zeroIn w (headZero w .never ||| mD ||| mA ||| bitsMask 64 54 8)
  return ⟨headOf w, p⟩

/-- XRNG (R155). -/
def decXrng (w : DWord) : Except DecErr Xrng := do
  zeroIn w (headZero w .never ||| mC ||| bitsMask 64 61 3 ||| bitsMask 64 49 10)
  return ⟨headOf w, fD w, fA w, fB w, w.getLsbD 60, w.getLsbD 59, w.getLsbD 48⟩

/-- XSORT (R156): C must differ from D. -/
def decXsort (w : DWord) : Except DecErr Xsort := do
  let ty ← tyIn [.n32, .i32, .f32] (w.extractLsb' 48 4)
  need (!(fC w == fD w))
  zeroIn w (headZero w .never ||| bitsMask 64 61 3 ||| bitsMask 64 53 6)
  return ⟨headOf w, fD w, fA w, fB w, fC w, w.getLsbD 60, w.getLsbD 59, w.getLsbD 52, ty⟩

/-- XQNT (R157). -/
def decXqnt (w : DWord) : Except DecErr Xqnt := do
  zeroIn w (headZero w .never ||| mC ||| bitsMask 64 60 4 ||| bitsMask 64 48 11)
  return ⟨headOf w, fD w, fA w, fB w, w.getLsbD 59⟩

/-- XDQNT (R157). -/
def decXdqnt (w : DWord) : Except DecErr Xdqnt := do
  let ty ← tyIn [.e4m3x4, .e5m2x4] (w.extractLsb' 48 4)
  zeroIn w (headZero w .never ||| mC ||| bitsMask 64 61 3 ||| bitsMask 64 52 7)
  return ⟨headOf w, fD w, fA w, fB w, w.getLsbD 60, w.getLsbD 59, ty⟩

/-- BR (R100, R159): hint 0b11 is reserved. -/
def decBr (w : DWord) : Except DecErr Br := do
  let hint ← PredHint.ofCode (w.extractLsb' 58 2)
  zeroIn w (headZero w .never ||| bitsMask 64 60 4)
  return ⟨headOf w, hint, w.extractLsb' 34 24, w.extractLsb' 20 14⟩

/-- BRU, JMP and CALL (R100, R158). -/
def decJump (w : DWord) : Except DecErr Jump := do
  need (w.extractLsb' 58 2 == 0#2)
  zeroIn w (headZero w .never ||| bitsMask 64 60 4 ||| bitsMask 64 20 14)
  return ⟨headOf w, w.extractLsb' 34 24⟩

/-- JMPR, CALLR and RET (R158). -/
def decJumpReg (w : DWord) : Except DecErr JumpReg := do
  needM0 w
  zeroIn w (headZero w .never ||| mD ||| mB ||| mC ||| mRest (bitsMask 64 59 1))
  return ⟨headOf w, fA w, w.getLsbD 59⟩

/-- BRX (R104, R162): hints 0b00 and 0b10. -/
def decBrx (w : DWord) : Except DecErr Brx := do
  let hint ← PredHint.ofCode (w.extractLsb' 48 2)
  need (!(hint == .uniform))
  zeroIn w (headZero w .never ||| mD ||| bitsMask 64 51 13)
  return ⟨headOf w, fA w, w.getLsbD 50, hint, w.extractLsb' 41 7 ++ w.extractLsb' 34 7⟩

/-- An instruction with no operand: EXIT, JOIN, YIELD, NOP, CLEAVE, RTE, NOPRE, PREOK. -/
def decBare (xe : Bool) (w : DWord) : Except DecErr Head := do
  need (xe || (w.extractLsb' 62 2 == 0#2 && w.extractLsb' 52 2 == 0#2 && w.extractLsb' 48 4 == 0#4))
  zeroIn w (headZero w .never ||| mD ||| mA ||| mB ||| mC ||| mRest 0)
  return headOf w

/-- The 64-bit REP (R106): stop 0. -/
def decRep (w : DWord) : Except DecErr Rep := do
  zeroIn w (headZero w .never ||| bitsMask 64 12 1 ||| mD ||| bitsMask 64 27 5 ||| bitsMask 64 44 20)
  return ⟨headOf w, ⟨w.extractLsb' 42 2, w.getLsbD 41, w.getLsbD 40, w.getLsbD 39, w.getLsbD 38, w.extractLsb' 32 6⟩⟩

/-- SLEEP, TRAP and BKPT (R97); BKPT's stop bit must be 1 (R245). -/
def decXi (stop : Bool) (w : DWord) : Except DecErr Xi := do
  need (!stop || w.getLsbD 12)
  zeroIn w (headZero w .never ||| mD ||| bitsMask 64 27 5)
  return ⟨headOf w, w.extractLsb' 32 32⟩

/-- The zero bits of an SX field (R174, R177): B above bit 0, and bit 0 from width 32 on. -/
def sxZero (useB : Option Bool) (width : Width) : DWord :=
  match useB with
  | some true => 0
  | some false => bitsMask 64 35 6 ||| zmask (!(width == .w8 || width == .w16)) 34 1
  | none => mB

/-- Memory instructions with a global address field, FENCE and MST (R99, R174). -/
def decXm (r : XmRow) (w : DWord) : Except DecErr Xm := do
  let width ← Width.ofCode (w.extractLsb' 41 3)
  need (r.widths.contains width)
  let ord := Ord.ofCode (w.extractLsb' 47 2)
  need (r.ords.contains ord)
  let scope ← Scope.ofCode (w.extractLsb' 44 3)
  need (!(r.ords == [.rlx]) || scope == .core)
  need (!(r.mst && ord == .rel) || scope == .quad || scope == .die)
  need (r.hint || w.extractLsb' 49 2 == 0#2)
  needC w r.cc
  zeroIn w (headZero w r.cc ||| zmask (!r.useD) 20 7 ||| zmask (!r.useA) 27 7 ||| sxZero r.useB width)
  return ⟨headOf w, fD w, fA w, fB w, w.extractLsb' 52 12, w.getLsbD 51, .ofCode (w.extractLsb' 49 2), ord, scope, width⟩

/-- Memory instructions with a private address field (R175): bits [46:45] zero, bit [44] the class. -/
def decXp (r : XmRow) (w : DWord) : Except DecErr Xp := do
  let width ← Width.ofCode (w.extractLsb' 41 3)
  need (r.widths.contains width)
  let ord := Ord.ofCode (w.extractLsb' 47 2)
  need (r.ords.contains ord)
  need (r.hint || w.extractLsb' 49 2 == 0#2)
  zeroIn w (headZero w r.cc ||| zmask (!r.useD) 20 7 ||| sxZero r.useB width ||| bitsMask 64 45 2)
  return ⟨headOf w, fD w, fA w, fB w, w.extractLsb' 52 12, w.getLsbD 51, .ofCode (w.extractLsb' 49 2), ord,
    w.getLsbD 44, width⟩

/-- ATOM and RED (R99, R174, R183). -/
def decXa (red : Bool) (w : DWord) : Except DecErr Xa := do
  let width ← Width.ofCode (w.extractLsb' 41 3)
  let op ← AtomOp.ofCode (w.extractLsb' 52 4)
  need (width == .w32 || (width == .w64 && !op.only32))
  need (!(red && (op == .exch || op == .cas)))
  let ord := Ord.ofCode (w.extractLsb' 47 2)
  need (!red || ord == .rlx || ord == .rel)
  let scope ← Scope.ofCode (w.extractLsb' 44 3)
  need (w.extractLsb' 49 2 == 0#2)
  zeroIn w (headZero w .never ||| zmask red 20 7)
  return ⟨headOf w, fD w, fA w, fB w, w.extractLsb' 56 8, op, w.getLsbD 51, ord, scope, width⟩

/-- ATOMS (R99, R175, R183). -/
def decXas (w : DWord) : Except DecErr Xas := do
  let width ← Width.ofCode (w.extractLsb' 41 3)
  let op ← AtomOp.ofCode (w.extractLsb' 52 4)
  need (width == .w32 || (width == .w64 && !op.only32))
  need (w.extractLsb' 49 2 == 0#2)
  zeroIn w (headZero w .never ||| bitsMask 64 45 2)
  return ⟨headOf w, fD w, fA w, fB w, w.extractLsb' 56 8, op, w.getLsbD 51, .ofCode (w.extractLsb' 47 2),
    w.getLsbD 44, width⟩

/-- WAITA (R187): bit [49] selects the space, bit [50] is zero, C must be 1. -/
def decWaita (w : DWord) : Except DecErr Waita := do
  let width ← Width.ofCode (w.extractLsb' 41 3)
  need (width == .w32 || width == .w64)
  let cmp ← WaitCmp.ofCode (w.extractLsb' 52 4)
  let ord := Ord.ofCode (w.extractLsb' 47 2)
  need (ord == .rlx || ord == .acq)
  needC w .must
  let space ← if w.getLsbD 49 then pure (WaitSpace.scratch (w.getLsbD 44))
    else (Scope.ofCode (w.extractLsb' 44 3)).map .global
  zeroIn w (headZero w .must ||| bitsMask 64 50 1 ||| zmask (w.getLsbD 49) 45 2)
  return ⟨headOf w, fD w, fA w, fB w, w.extractLsb' 56 8, cmp, w.getLsbD 51, ord, space, width⟩

/-- BANK (R191). -/
def decBank (w : DWord) : Except DecErr Bank := do
  zeroIn w (headZero w .never ||| mD ||| mB ||| mC ||| bitsMask 64 49 15)
  return ⟨headOf w, fA w, w.getLsbD 48⟩

/-- The synchronisation group (R192). -/
def decXs (r : XsRow) (w : DWord) : Except DecErr Xs := do
  need (w.extractLsb' 41 3 == 0#3)
  let scope ← Scope.ofCode (w.extractLsb' 44 3)
  need (r.scopes.contains scope)
  let ord := Ord.ofCode (w.extractLsb' 47 2)
  need (r.ords.contains ord)
  need (r.next || w.extractLsb' 49 2 == 0#2)
  needC w r.cc
  zeroIn w (headZero w r.cc ||| zmask (!r.useD) 20 7 ||| zmask (!r.useB) 34 7 ||| bitsMask 64 52 12
    ||| bitsMask 64 50 1)
  return ⟨headOf w, fD w, fA w, fB w, w.getLsbD 51, w.getLsbD 49, ord, scope⟩

/-- MLW (R217). -/
def decMlw (w : DWord) : Except DecErr Mlw := do
  let space ← Space.ofCode (w.extractLsb' 52 2)
  let ty ← tyIn mmaTypes (w.extractLsb' 48 4)
  zeroIn w (headZero w .never ||| mD ||| bitsMask 64 56 4)
  return ⟨headOf w, fA w, fB w, fC w, w.extractLsb' 60 4, w.getLsbD 55, w.getLsbD 54, space, ty⟩

/-- MMA (R218): for INT8, C must name s0. -/
def decMma (w : DWord) : Except DecErr Mma := do
  let km ← KMode.ofCode (w.extractLsb' 55 2)
  let space ← Space.ofCode (w.extractLsb' 52 2)
  let ty ← tyIn mmaTypes (w.extractLsb' 48 4)
  zeroIn w (headZero w .never ||| zmask ty.isInt8 41 7)
  return ⟨headOf w, fD w, fA w, fB w, fC w, w.extractLsb' 60 4, w.extractLsb' 57 3, km, w.getLsbD 54, space, ty⟩

/-- MDR (R219): D[0] AMAX, D[1] SAT, D[6:2] zero. -/
def decMdr (w : DWord) : Except DecErr Mdr := do
  let lim ← Limiter.ofCode (w.extractLsb' 54 2)
  let space ← Space.ofCode (w.extractLsb' 52 2)
  let ty ← tyIn mdrTypes (w.extractLsb' 48 4)
  need (!w.getLsbD 21 || ty == .e4m3x4 || ty == .e5m2x4)
  zeroIn w (headZero w .never ||| bitsMask 64 22 5)
  return ⟨headOf w, w.getLsbD 21, w.getLsbD 20, fA w, fB w, fC w, w.extractLsb' 60 4, w.extractLsb' 57 3,
    w.getLsbD 56, lim, space, ty⟩

/-- MZR (R220). -/
def decMzr (w : DWord) : Except DecErr Mzr := do
  zeroIn w (headZero w .never ||| mD ||| mA ||| mB ||| mC ||| mRest (bitsMask 64 57 3))
  return ⟨headOf w, w.extractLsb' 57 3⟩

/-- MRS (R221): its format field [51:48] holds 0 (R384). -/
def decMrs (w : DWord) : Except DecErr Mrs := do
  need (w.extractLsb' 48 4 == 0#4)
  zeroIn w (headZero w .never ||| mC ||| zmask (w.getLsbD 56) 34 7 ||| mRest (bitsMask 64 56 4))
  return ⟨headOf w, fD w, fA w, fB w, w.extractLsb' 57 3, w.getLsbD 56⟩

/-- MWS (R221). -/
def decMws (w : DWord) : Except DecErr Mws := do
  let ty ← tyIn [.f32, .i32] (w.extractLsb' 48 4)
  zeroIn w (headZero w .never ||| mD ||| zmask (w.getLsbD 56) 34 7 ||| bitsMask 64 60 4 ||| bitsMask 64 52 4)
  return ⟨headOf w, fA w, fB w, fC w, w.extractLsb' 57 3, w.getLsbD 56, ty⟩

/-- COPY (0), COPYM (1) and COPYL (2) (R224-R226). -/
def decCopy (k : Nat) (w : DWord) : Except DecErr Copy := do
  let red ← CopyRed.ofCode (w.extractLsb' 52 4)
  need (!(k == 1) || (w.getLsbD 56 && red == .none))
  zeroIn w (headZero w .never ||| bitsMask 64 57 7 ||| bitsMask 64 48 4
    ||| zmask (k == 0 && !w.getLsbD 56) 34 7 ||| zmask (k == 0 || (k == 2 && !w.getLsbD 56)) 41 7)
  return ⟨headOf w, fD w, fA w, fB w, fC w, w.getLsbD 56, red⟩

/-- COPYX (R227). -/
def decCopyx (w : DWord) : Except DecErr Copyx := do
  let amax := w.getLsbD 52
  let xf ← match (w.extractLsb' 53 3).toNat with
    | 0 => (tyIn narrowTypes (w.extractLsb' 48 4)).map (CopyXf.qnt · amax)
    | 1 => (tyIn narrowTypes (w.extractLsb' 48 4)).map CopyXf.dqnt
    | 2 => (tyIn [.f16x2, .bf16x2] (w.extractLsb' 48 4)).map CopyXf.cast
    | 3 => if w.extractLsb' 48 4 == 0#4 then .ok .tr else .error .codePoint
    | _ => .error .codePoint
  zeroIn w (headZero w .never ||| bitsMask 64 57 7 ||| zmask (!w.getLsbD 56) 34 7
    ||| zmask (!(w.extractLsb' 53 3 == 0#3)) 52 1 ||| zmask (w.getLsbD 54) 41 7)
  return ⟨headOf w, fD w, fA w, fB w, fC w, w.getLsbD 56, xf⟩

/-- HWAIT and HTEST (R208). -/
def decHw (test : Bool) (w : DWord) : Except DecErr Hw := do
  let scope ← Scope.ofCode (w.extractLsb' 49 3)
  need (w.getLsbD 48 || scope == .core)
  let cc := if test then CcRule.must else .never
  needC w cc
  zeroIn w (headZero w cc ||| mB ||| mC ||| zmask test 20 7 ||| bitsMask 64 52 12)
  return ⟨headOf w, fD w, fA w, if w.getLsbD 48 then some scope else none⟩

/-- HCAN, CSEND (XE, no M field of their own) and TRACE (XR, the default layout): M zero (R384). -/
def decOpA (xe : Bool) (w : DWord) : Except DecErr OpA := do
  need (xe || (w.extractLsb' 62 2 == 0#2 && w.extractLsb' 52 2 == 0#2 && w.extractLsb' 48 4 == 0#4))
  zeroIn w (headZero w .never ||| mD ||| mB ||| mC ||| mRest 0)
  return ⟨headOf w, fA w⟩

/-- CRECV: M zero. -/
def decOpD (w : DWord) : Except DecErr OpD := do
  zeroIn w (headZero w .never ||| mA ||| mB ||| mC ||| mRest 0)
  return ⟨headOf w, fD w⟩

/-- HLD, TOPK and LQRY: M zero. -/
def decOpDA (w : DWord) : Except DecErr OpDA := do
  zeroIn w (headZero w .never ||| mB ||| mC ||| mRest 0)
  return ⟨headOf w, fD w, fA w⟩

/-- HSAV: M zero. -/
def decOpAB (w : DWord) : Except DecErr OpAB := do
  zeroIn w (headZero w .never ||| mD ||| mC ||| mRest 0)
  return ⟨headOf w, fA w, fB w⟩

/-- L1INV (R245): an XM form whose width, scope, order, hint, offset12 and E are zero. -/
def decL1inv (w : DWord) : Except DecErr OpAB := do
  need (w.extractLsb' 41 3 == 0#3 && w.extractLsb' 44 3 == 0#3 && w.extractLsb' 47 2 == 0#2
    && w.extractLsb' 49 2 == 0#2)
  zeroIn w (headZero w .never ||| mD ||| bitsMask 64 51 13)
  return ⟨headOf w, fA w, fB w⟩

/-- SCAN (R229). -/
def decScan (w : DWord) : Except DecErr Scan := do
  let op ← ScanOp.ofCode (w.extractLsb' 48 4)
  let ty ← tyIn op.types (w.extractLsb' 52 4)
  zeroIn w (headZero w .never ||| mB ||| mC ||| bitsMask 64 59 5)
  return ⟨headOf w, fD w, fA w, w.getLsbD 58, w.getLsbD 57, w.getLsbD 56, ty, op⟩

/-- SMAX and SAMP (R233, R234). -/
def decChainOp (w : DWord) : Except DecErr ChainOp := do
  zeroIn w (headZero w .never ||| mB ||| mC ||| mRest (bitsMask 64 58 1))
  return ⟨headOf w, fD w, fA w, w.getLsbD 58⟩

/-- CJOIN (R236). -/
def decCjoin (w : DWord) : Except DecErr Cjoin := do
  zeroIn w (headZero w .never ||| mD ||| mC ||| mRest (bitsMask 64 48 1))
  return ⟨headOf w, fA w, fB w, w.getLsbD 48⟩

/-- LAUNCH (R241): C must be 1. -/
def decLaunch (w : DWord) : Except DecErr Launch := do
  need (w.extractLsb' 49 1 == 0#1)
  needC w .must
  zeroIn w (headZero w .must ||| mB ||| mC ||| bitsMask 64 51 13)
  return ⟨headOf w, fD w, fA w, w.getLsbD 50, w.getLsbD 48⟩

/-- The 64-bit opcode map (R103). -/
def decodeOp (w : DWord) : Except DecErr Instr :=
  match (w.extractLsb' 2 10).toNat with
  | 0x0 => (decXr (xrRow 0x0) w).map .iadd
  | 0x1 => (decXr (xrRow 0x1) w).map .isub
  | 0x2 => (decXr (xrRow 0x2) w).map .iaddc
  | 0x3 => (decXr (xrRow 0x3) w).map .isubb
  | 0x4 => (decXr (xrRow 0x4) w).map .ineg
  | 0x5 => (decXr (xrRow 0x5) w).map .iabs
  | 0x6 => (decXr (xrRow 0x6) w).map .imul
  | 0x7 => (decXr (xrRow 0x7) w).map .imulh
  | 0x8 => (decXr (xrRow 0x8) w).map .imad
  | 0x9 => (decXr (xrRow 0x9) w).map .imadw
  | 0xa => (decXr (xrRow 0xa) w).map .idiv
  | 0xb => (decXr (xrRow 0xb) w).map .irem
  | 0xc => (decXr (xrRow 0xc) w).map .imin
  | 0xd => (decXr (xrRow 0xd) w).map .imax
  | 0xe => (decXr (xrRow 0xe) w).map .icmp
  | 0xf => (decSel false w).map .isel
  | 0x10 => (decXr (xrRow 0x10) w).map .lea
  | 0x11 => (decXr (xrRow 0x11) w).map .iadd64
  | 0x12 => (decXr (xrRow 0x12) w).map .isub64
  | 0x13 => (decXr (xrRow 0x13) w).map .shl
  | 0x14 => (decXr (xrRow 0x14) w).map .shr
  | 0x15 => (decXr (xrRow 0x15) w).map .sar
  | 0x16 => (decXr (xrRow 0x16) w).map .rol
  | 0x17 => (decXr (xrRow 0x17) w).map .ror
  | 0x18 => (decXr (xrRow 0x18) w).map .fshl
  | 0x19 => (decXr (xrRow 0x19) w).map .fshr
  | 0x1a => (decXr (xrRow 0x1a) w).map .and
  | 0x1b => (decXr (xrRow 0x1b) w).map .or
  | 0x1c => (decXr (xrRow 0x1c) w).map .xor
  | 0x1d => (decXr (xrRow 0x1d) w).map .andn
  | 0x1e => (decXr (xrRow 0x1e) w).map .not
  | 0x1f => (decLut3 w).map .lut3
  | 0x20 => (decXr (xrRow 0x20) w).map .popc
  | 0x21 => (decXr (xrRow 0x21) w).map .clz
  | 0x22 => (decXr (xrRow 0x22) w).map .ctz
  | 0x23 => (decXr (xrRow 0x23) w).map .brev
  | 0x24 => (decXr (xrRow 0x24) w).map .bfe
  | 0x25 => (decXr (xrRow 0x25) w).map .bfi
  | 0x26 => (decXr (xrRow 0x26) w).map .bysel
  | 0x80 => (decXr (xrRow 0x80) w).map .fadd
  | 0x81 => (decXr (xrRow 0x81) w).map .fsub
  | 0x82 => (decXr (xrRow 0x82) w).map .fmul
  | 0x83 => (decXr (xrRow 0x83) w).map .ffma
  | 0x84 => (decXr (xrRow 0x84) w).map .fmin
  | 0x85 => (decXr (xrRow 0x85) w).map .fmax
  | 0x86 => (decXr (xrRow 0x86) w).map .fminm
  | 0x87 => (decXr (xrRow 0x87) w).map .fmaxm
  | 0x88 => (decXr (xrRow 0x88) w).map .fcmp
  | 0x89 => (decSel true w).map .fsel
  | 0x8a => (decXr (xrRow 0x8a) w).map .frnd
  | 0x8b => (decXr (xrRow 0x8b) w).map .fclass
  | 0x8c => (decFscale w).map .fscale
  | 0x8d => (decXr (xrRow 0x8d) w).map .hadd2
  | 0x8e => (decXr (xrRow 0x8e) w).map .hmul2
  | 0x8f => (decXr (xrRow 0x8f) w).map .hfma2
  | 0x90 => (decXr (xrRow 0x90) w).map .badd2
  | 0x91 => (decXr (xrRow 0x91) w).map .bmul2
  | 0x92 => (decXr (xrRow 0x92) w).map .bfma2
  | 0x100 => (decXr (xrRow 0x100) w).map .frcp
  | 0x101 => (decXr (xrRow 0x101) w).map .frsq
  | 0x102 => (decXr (xrRow 0x102) w).map .fsqrt
  | 0x103 => (decXr (xrRow 0x103) w).map .fexp2
  | 0x104 => (decXr (xrRow 0x104) w).map .flog2
  | 0x105 => (decXr (xrRow 0x105) w).map .fdiv
  | 0x106 => (decCvt w).map .cvt
  | 0x107 => (decPack true true w).map .cvt8
  | 0x108 => (decPack true false w).map .wid8
  | 0x109 => (decPack false true w).map .cvt4
  | 0x10a => (decPack false false w).map .wid4
  | 0x140 => (decXr (xrRow 0x140) w).map .mov
  | 0x141 => (decMovi w).map .movi
  | 0x142 => (decMovs w).map .movs
  | 0x143 => (decXr (xrRow 0x143) w).map .rdl
  | 0x144 => (decSr false w).map .rdsr
  | 0x145 => (decSr true w).map .wrsr
  | 0x146 => (decShfl w).map .shfl
  | 0x147 => (decVote w).map .vote
  | 0x148 => (decTred w).map .tred
  | 0x149 => (decPart w).map .part
  | 0x180 => (decXrng w).map .xrng
  | 0x181 => (decXsort w).map .xsort
  | 0x182 => (decXqnt w).map .xqnt
  | 0x183 => (decXdqnt w).map .xdqnt
  | 0x1c0 => (decBr w).map .br
  | 0x1c1 => (decJump w).map .bru
  | 0x1c2 => (decJump w).map .jmp
  | 0x1c3 => (decJumpReg w).map .jmpr
  | 0x1c4 => (decBrx w).map .brx
  | 0x1c5 => (decJump w).map .call
  | 0x1c6 => (decJumpReg w).map .callr
  | 0x1c7 => (decJumpReg w).map .ret
  | 0x1c8 => (decBare false w).map .exit
  | 0x1c9 => (decBare false w).map .join
  | 0x1ca => (decBare false w).map .yield
  | 0x1cb => (decBare false w).map .nop
  | 0x1cc => (decRep w).map .rep
  | 0x1cd => (decXi false w).map .sleep
  | 0x200 => (decXm (xmRow 0x200) w).map .ld
  | 0x201 => (decXm (xmRow 0x201) w).map .st
  | 0x202 => (decXp (xmRow 0x202) w).map .lds
  | 0x203 => (decXp (xmRow 0x203) w).map .sts
  | 0x204 => (decXp (xmRow 0x204) w).map .ldl
  | 0x205 => (decXp (xmRow 0x205) w).map .stl
  | 0x206 => (decXp (xmRow 0x206) w).map .ldc
  | 0x207 => (decXm (xmRow 0x207) w).map .lda
  | 0x208 => (decXa false w).map .atom
  | 0x209 => (decXa true w).map .red
  | 0x20a => (decXas w).map .atoms
  | 0x20b => (decXm (xmRow 0x20b) w).map .lr
  | 0x20c => (decXm (xmRow 0x20c) w).map .sc
  | 0x20d => (decXm (xmRow 0x20d) w).map .fence
  | 0x20e => (decWaita w).map .waita
  | 0x20f => (decXm (xmRow 0x20f) w).map .pref
  | 0x210 => (decXm (xmRow 0x210) w).map .lock
  | 0x211 => (decXm (xmRow 0x211) w).map .unlock
  | 0x212 => (decBank w).map .bank
  | 0x213 => (decXm (xmRow 0x213) w).map .mst
  | 0x280 => (decXs (xsRow 0x280) w).map .barv
  | 0x281 => (decXs (xsRow 0x281) w).map .bwait
  | 0x282 => (decXs (xsRow 0x282) w).map .bgrp
  | 0x283 => (decXs (xsRow 0x283) w).map .boinit
  | 0x284 => (decXs (xsRow 0x284) w).map .boarv
  | 0x285 => (decXs (xsRow 0x285) w).map .bowait
  | 0x286 => (decXs (xsRow 0x286) w).map .botest
  | 0x287 => (decXs (xsRow 0x287) w).map .boexp
  | 0x2c0 => (decMlw w).map .mlw
  | 0x2c1 => (decMma w).map .mma
  | 0x2c2 => (decMdr w).map .mdr
  | 0x2c3 => (decMzr w).map .mzr
  | 0x2c4 => (decMrs w).map .mrs
  | 0x2c5 => (decMws w).map .mws
  | 0x300 => (decCopy 0 w).map .copy
  | 0x301 => (decCopy 1 w).map .copym
  | 0x302 => (decCopy 2 w).map .copyl
  | 0x303 => (decCopyx w).map .copyx
  | 0x304 => (decHw false w).map .hwait
  | 0x305 => (decHw true w).map .htest
  | 0x306 => (decOpA true w).map .hcan
  | 0x307 => (decOpAB w).map .hsav
  | 0x308 => (decOpDA w).map .hld
  | 0x340 => (decScan w).map .scan
  | 0x341 => (decOpDA w).map .topk
  | 0x342 => (decChainOp w).map .smax
  | 0x343 => (decChainOp w).map .samp
  | 0x344 => (decCjoin w).map .cjoin
  | 0x345 => (decOpA true w).map .csend
  | 0x346 => (decOpD w).map .crecv
  | 0x347 => (decBare true w).map .cleave
  | 0x380 => (decLaunch w).map .launch
  | 0x381 => (decOpDA w).map .lqry
  | 0x382 => (decXi false w).map .trap
  | 0x383 => (decBare false w).map .rte
  | 0x384 => (decXi true w).map .bkpt
  | 0x385 => (decOpA false w).map .trace
  | 0x386 => (decBare false w).map .nopre
  | 0x387 => (decBare false w).map .preok
  | 0x388 => (decL1inv w).map .l1inv
  | _ => .error .reservedOp

/-! ### The stream (R86) -/

/-- The length of the instruction whose first halfword is given (R86), in halfwords. -/
def halfCount (h : Half) : Nat := if !h.getLsbD 0 then 1 else if !h.getLsbD 1 then 2 else 4

/-- Decode the halfwords of one instruction, the first at the lowest address. (DEDUCED, unsafe: notes/assumptions/16.md). -/
def decodeHalves : List Half → Except DecErr Instr
  | [h0] => if halfCount h0 = 1 then decode16 h0 else .error .short
  | [h0, h1] => if halfCount h0 = 2 then decode32 (h1 ++ h0) else .error .short
  | [h0, h1, h2, h3] => if halfCount h0 = 4 then decodeOp (h3 ++ h2 ++ h1 ++ h0) else .error .short
  | _ => .error .short

/-- Bytes in pairs, little-endian (R5); a last odd byte is dropped. -/
def halvesOf : List Byte → List Half
  | b0 :: b1 :: r => (b1 ++ b0) :: halvesOf r
  | _ => []

/-- Decode the instruction at the head of a list of bytes; the rest follows it. -/
def decodeBytes (bs : List Byte) : Except DecErr (Instr × List Byte) :=
  match halvesOf (bs.take 2) with
  | [h0] =>
    let n := 2 * halfCount h0
    if bs.length < n then .error .short
    else (decodeHalves (halvesOf (bs.take n))).map (·, bs.drop n)
  | _ => .error .short

/-- The eight bytes of a table word, least significant first, the bits above `nbits` zero. -/
def tableBytes (nbits w : Nat) : List Byte :=
  (List.range 8).map fun k => BitVec.ofNat 8 ((w % 2 ^ nbits) / 2 ^ (8 * k))

/-- The instruction the decoder reads from a word of spec/opcode_table.json. -/
def decodeTableWord (nbits w : Nat) : Option Instr :=
  match decodeBytes (tableBytes nbits w) with
  | .ok (i, _) => some i
  | .error _ => none

/-! ### The encoder -/

/-- A single bit. -/
abbrev b1 (b : Bool) : BitVec 1 := BitVec.ofBool b

/-- The low 20 bits of a 64-bit instruction (R94). -/
def encHead (h : Head) (op : BitVec 10) : BitVec 20 :=
  b1 h.ccSet ++ b1 h.c ++ b1 h.gset ++ h.guard.code ++ b1 h.stop ++ op ++ 3#2

/-- An XR or XE word (R96). -/
def encX (m : BitVec 16) (c b a d : RegField) (h : Head) (op : BitVec 10) : DWord :=
  m ++ c ++ b ++ a ++ d ++ encHead h op

/-- An XM word (R99) from its bits [63:41]. -/
def encM (top : BitVec 23) (b a d : RegField) (h : Head) (op : BitVec 10) : DWord :=
  top ++ b ++ a ++ d ++ encHead h op

/-- An XI word (R97). -/
def encI (imm : Word) (d : RegField) (h : Head) (op : BitVec 10) : DWord :=
  imm ++ 0#5 ++ d ++ encHead h op

/-- The fields of REP from the step size down (R106). -/
def encRepNP (f : RepFields) : BitVec 12 :=
  f.size ++ b1 f.stepC ++ b1 f.stepB ++ b1 f.stepA ++ b1 f.stepD ++ f.count1

def WaitSpace.bits : WaitSpace → Bool × BitVec 3
  | .global s => (false, s.code)
  | .scratch sr => (true, 0#2 ++ b1 sr)

def CopyXf.bits : CopyXf → BitVec 8
  | .qnt f am => 0#3 ++ b1 am ++ f.code
  | .dqnt f => 1#3 ++ 0#1 ++ f.code
  | .cast f => 2#3 ++ 0#1 ++ f.code
  | .tr => 3#3 ++ 0#1 ++ 0#4

/-- The 64-bit word of a layout (R94-R104). -/
def encode64 : Layout → DWord
  | .xr op o =>
    let m (v : BitVec 2) : BitVec 16 := v ++ b1 o.eC ++ b1 o.eB ++ b1 o.eA ++ b1 o.absB ++ b1 o.absA ++ b1 o.negB
      ++ b1 o.negA ++ b1 o.sat ++ o.rnd.code ++ o.ty.code
    match o.src with
    | .regs b c => encX (m 0) c b o.a o.d o.h op
    | .imm i => encX (m 1) (i.extractLsb' 7 7) (i.extractLsb' 0 7) o.a o.d o.h op
  | .sel op o => encX (0#3 ++ b1 o.eB ++ b1 o.eA ++ b1 o.absB ++ b1 o.absA ++ b1 o.negB ++ b1 o.negA ++ 0#2
      ++ b1 o.set ++ o.cond.code) 0 o.b o.a o.d o.h op
  | .lut3 op o => encX (0#2 ++ b1 o.eC ++ b1 o.eB ++ b1 o.eA ++ 0#3 ++ o.table) o.c o.b o.a o.d o.h op
  | .fscale op o => o.n ++ b1 o.eA ++ 0#1 ++ 4#4 ++ o.a ++ o.d ++ encHead o.h op
  | .cvt op o => encX (0#2 ++ b1 o.half ++ b1 o.eB ++ b1 o.eA ++ b1 o.sat ++ o.rnd.code ++ o.src.code
      ++ o.dst.code) 0 o.b o.a o.d o.h op
  | .pack op o => encX (0#3 ++ b1 o.eB ++ b1 o.eA ++ 0#4 ++ b1 o.sat ++ 0#1 ++ b1 o.amax ++ o.ty.code)
      0 o.b o.a o.d o.h op
  | .movi op o => encI o.imm o.d o.h op
  | .movs op o =>
    match o.op with
    | .vFromS a => encX (0#16) 0 0 a o.d o.h op
    | .sImm i => encX (1#2 ++ 0#14) (i.extractLsb' 7 7) (i.extractLsb' 0 7) 0 o.d o.h op
    | .sFromS a => encX (2#2 ++ 0#14) 0 0 a o.d o.h op
  | .sr op o => encX (0#15 ++ b1 o.sreg) 0 0 o.a o.d o.h op
  | .shfl op o => encX (0#2 ++ b1 o.eC ++ b1 o.eB ++ b1 o.eA ++ 0#7 ++ b1 o.ib ++ b1 o.ms ++ o.mode.code)
      o.c o.b o.a o.d o.h op
  | .vote op o => encX (0#2 ++ b1 o.eC ++ 0#1 ++ b1 o.eA ++ 0#8 ++ b1 o.ms ++ o.mode.code) o.c 0 o.a o.d o.h op
  | .tred op o => encX (0#2 ++ b1 o.eC ++ 0#1 ++ b1 o.eA ++ 0#2 ++ o.op.code.extractLsb' 2 1 ++ o.ty.code ++ 0#1
      ++ b1 o.ms ++ o.op.code.extractLsb' 0 2) o.c 0 o.a o.d o.h op
  | .part op o => encX (1#2 ++ 0#14) (o.p.extractLsb' 7 7) (o.p.extractLsb' 0 7) 0 0 o.h op
  | .xrng op o => encX (0#3 ++ b1 o.eB ++ b1 o.eA ++ 0#10 ++ b1 o.f32) 0 o.b o.a o.d o.h op
  | .xsort op o => encX (0#3 ++ b1 o.eB ++ b1 o.eA ++ 0#6 ++ b1 o.desc ++ o.ty.code) o.c o.b o.a o.d o.h op
  | .xqnt op o => encX (0#4 ++ b1 o.eA ++ 0#11) 0 o.b o.a o.d o.h op
  | .xdqnt op o => encX (0#3 ++ b1 o.eB ++ b1 o.eA ++ 0#7 ++ o.ty.code) 0 o.b o.a o.d o.h op
  | .br op o => 0#4 ++ o.hint.code ++ o.target ++ o.join ++ encHead o.h op
  | .jump op o => 0#6 ++ o.target ++ 0#14 ++ encHead o.h op
  | .jumpReg op o => encX (0#4 ++ b1 o.eA ++ 0#11) 0 0 o.a 0 o.h op
  | .brx op o => encX (0#13 ++ b1 o.eA ++ o.hint.code) (o.join.extractLsb' 7 7) (o.join.extractLsb' 0 7) o.a 0 o.h op
  | .bare op h => encX 0 0 0 0 0 h op
  | .rep op o => encI (0#20 ++ encRepStep o.f) 0 o.h op
  | .xi op o => encI o.imm 0 o.h op
  | .xm op o => encM (o.off ++ b1 o.e ++ o.hint.code ++ o.ord.code ++ o.scope.code ++ o.width.code) o.b o.a o.d o.h op
  | .xp op o => encM (o.off ++ b1 o.e ++ o.hint.code ++ o.ord.code ++ 0#2 ++ b1 o.sreg ++ o.width.code)
      o.b o.a o.d o.h op
  | .xa op o => encM (o.off ++ o.op.code ++ b1 o.e ++ 0#2 ++ o.ord.code ++ o.scope.code ++ o.width.code)
      o.b o.a o.d o.h op
  | .xas op o => encM (o.off ++ o.op.code ++ b1 o.e ++ 0#2 ++ o.ord.code ++ 0#2 ++ b1 o.sreg ++ o.width.code)
      o.b o.a o.d o.h op
  | .waita op o => encM (o.off ++ o.cmp.code ++ b1 o.e ++ 0#1 ++ b1 o.space.bits.1 ++ o.ord.code ++ o.space.bits.2
      ++ o.width.code) o.b o.a o.d o.h op
  | .bank op o => encX (0#15 ++ b1 o.fifo) 0 0 o.a 0 o.h op
  | .xs op o => encM (0#12 ++ b1 o.e ++ 0#1 ++ b1 o.next ++ o.ord.code ++ o.scope.code ++ 0#3) o.b o.a o.d o.h op
  | .mlw op o => encX (o.handle ++ 0#4 ++ b1 o.sp ++ b1 o.slot ++ o.space.code ++ o.fmt.code) o.c o.b o.a 0 o.h op
  | .mma op o => encX (o.handle ++ o.tile ++ o.kmode.code ++ b1 o.sp ++ o.space.code ++ o.fmt.code)
      o.c o.b o.a o.d o.h op
  | .mdr op o => encX (o.handle ++ o.tile ++ b1 o.z ++ o.lim.code ++ o.space.code ++ o.fmt.code) o.c o.b o.a
      (0#5 ++ b1 o.sat ++ b1 o.amax) o.h op
  | .mzr op o => encX (0#4 ++ o.tile ++ 0#9) 0 0 0 0 o.h op
  | .mrs op o => encX (0#4 ++ o.tile ++ b1 o.col ++ 0#8) 0 o.row o.a o.d o.h op
  | .mws op o => encX (0#4 ++ o.tile ++ b1 o.col ++ 0#4 ++ o.ty.code) o.c o.row o.a 0 o.h op
  | .copy op o => encX (0#7 ++ b1 o.bo ++ o.red.code ++ 0#4) o.c o.b o.a o.d o.h op
  | .copyx op o => encX (0#7 ++ b1 o.bo ++ o.xf.bits) o.c o.b o.a o.d o.h op
  | .hw op o =>
    match o.acq with
    | none => encX 0 0 0 o.a o.d o.h op
    | some s => encX (0#12 ++ s.code ++ 1#1) 0 0 o.a o.d o.h op
  | .opA op o => encX 0 0 0 o.a 0 o.h op
  | .opD op o => encX 0 0 0 0 o.d o.h op
  | .opDA op o => encX 0 0 0 o.a o.d o.h op
  | .opAB op o => encX 0 0 o.b o.a 0 o.h op
  | .scan op o => encX (0#5 ++ b1 o.chain ++ b1 o.seg ++ b1 o.excl ++ o.ty.code ++ o.op.code) 0 0 o.a o.d o.h op
  | .chainOp op o => encX (0#5 ++ b1 o.chain ++ 0#10) 0 0 o.a o.d o.h op
  | .cjoin op o => encX (0#15 ++ b1 o.ring) 0 o.b o.a 0 o.h op
  | .launch op o => encX (0#13 ++ b1 o.wait ++ 0#1 ++ b1 o.now) 0 0 o.a o.d o.h op
  | .event | .h2 _ _ | .n3 _ _ | .ni _ _ | .nm _ _ | .nj _ | .np _ => 0
where
  /-- imm32 [11:0] of the 64-bit REP (R106). -/
  encRepStep (f : RepFields) : BitVec 12 :=
    f.size ++ b1 f.stepC ++ b1 f.stepB ++ b1 f.stepA ++ b1 f.stepD ++ f.count1

/-- The 32-bit word of a layout (R92). -/
def encode32 : Layout → BitVec 32
  | .n3 op o => b1 o.e ++ o.b ++ o.a ++ o.d ++ b1 o.c ++ op ++ 1#2
  | .ni op o => o.imm ++ o.a ++ o.d ++ b1 o.c ++ op ++ 1#2
  | .nm op o => o.off ++ o.a ++ o.d ++ b1 o.e ++ op ++ 1#2
  | .nj o => o.off ++ 0x68#7 ++ 1#2
  | .np f => 0#11 ++ encRepNP f ++ 0x70#7 ++ 1#2
  | _ => 0

/-- The 16-bit word of a layout (R90). -/
def encode16 : Layout → BitVec 16
  | .h2 op o => b1 o.c ++ o.s ++ o.d ++ op ++ 0#1
  | _ => 0

/-- The halfwords of an instruction, the first at the lowest address; none for an event. -/
def encode (i : Instr) : List Half :=
  match i.layout.len with
  | 2 => [encode16 i.layout]
  | 4 => let w := encode32 i.layout; [w.extractLsb' 0 16, w.extractLsb' 16 16]
  | 8 => let w := encode64 i.layout
         [w.extractLsb' 0 16, w.extractLsb' 16 16, w.extractLsb' 32 16, w.extractLsb' 48 16]
  | _ => []

end Sys2Proof
end

