-- ==== Sys2Proof/Machine/State.lean ====
section
/-! DEFINITION. The state of the device as plain data: memory, caches, TLBs, requests in flight, launches, blocks, warps,
engine operations, queues, registers of the register BAR, and the model's own agenda (notes/assumptions/1.md). -/

namespace Sys2Proof.Machine

/-- How a step can stop with a fault. Every one is SAFE: the machine stops where the hardware has no such event, so no
claim about a next state follows. (DESIGN CHOICE, safe: notes/assumptions/64.md). -/
inductive Fault where
  /-- Raised by `exec` of an event of the device whose own condition does not hold in the state. Safe. -/
  | notEnabled
  /-- Raised by `exec` of an event that names a launch, block, warp, fragment, request or operation that is not there.
  Safe. -/
  | noSuchObject
  /-- Raised by `exec` of an instruction when no fragment is issuing (`State.cur` is empty or names none). Safe. -/
  | noIssuer
  deriving DecidableEq, Repr

/-- How a step can refuse. -/
inductive Refusal where
  /-- Raised by an arm of `exec` that has no meaning yet, with the instruction's mnemonic. Safe. -/
  | notModelled (mnemonic : String)
  deriving DecidableEq, Repr

/-! ### Memory -/

/-- Bytes by address, in canonical form: addresses strictly rising, no entry equal to the byte an unlisted address reads
as, which is 0 (R370; notes/assumptions/4.md, 5.md). -/
abbrev Memory := List Host.Cell

/-- The canonical form. -/
def Memory.wf (m : Memory) : Bool :=
  m.all (fun c => c.2 != 0) && (m.zip m.tail).all (fun p => decide (p.1.1 < p.2.1))

/-- Scratchpad bytes by offset, addresses strictly rising; an unlisted offset holds the free value
`Config.scratchInit` of the block (R252), so no written byte is removed. -/
abbrev Bytes := List Host.Cell

/-- Values by number, sorted by number; an unlisted number has the reader's default. -/
abbrev Table (α : Type) := List (Nat × α)

/-- What memory an address names (R251): device physical memory, host memory by bus address, a pod device's memory. -/
inductive Target where
  | device
  | host
  | remote (dev : Nat)
  deriving DecidableEq, Repr

/-- What the record of an L2 line holds (R267); `gone`: a MAPFLUSH has invalidated the line (R295), and its record stands. -/
structure L2Line where
  lexp : Nat := 0
  dies : BitVec 8 := 0
  wct : Nat := 0
  gone : Bool := false
  deriving DecidableEq, Repr

/-- The attributes a translation gives (R251, R328); `undef`: the page's values are undefined until a MAPFLUSH covers it, as its
physical address or home die has changed (R264), or the line's are, as the host has written its own memory (R292). -/
structure Attr where
  target : Target := .device
  tier : Nat := 0
  policy : Nat := 0
  lease : Nat := 0
  stable : Bool := false
  home : Option Nat := none
  r : Bool := false
  w : Bool := false
  x : Bool := false
  undef : Bool := false
  deriving DecidableEq, Repr

/-- A line of an L1 (R253, R259, R269, R324, R326); `bad`: its 32-byte sectors whose check fails, each with the XINFO of R335. -/
structure L1Line where
  asid : Nat
  vline : Nat
  pline : Nat
  attr : Attr
  data : List Byte
  expiry : Option Nat
  wct : Nat
  loc : Bool
  dirty : BitVec 32
  bad : Table Word := []
  deriving DecidableEq, Repr

/-- An entry of a quad TLB (R325): an entry of the page table, with its page size and page number. -/
structure TlbEntry where
  asid : Nat
  size : Nat
  vpn : Nat
  pte : BitVec 128
  deriving DecidableEq, Repr

/-- The physical address and home die the page table gives a page of a context that has been translated (R264). -/
structure PageMap where
  asid : Nat
  shift : Nat
  page : Nat
  target : Target
  pa : Nat
  home : Option Nat
  undef : Bool := false
  deriving DecidableEq, Repr

/-- A 32-byte sector whose stored check value is not the CRC of its bytes (R342, R375), with the difference of the two; spaces:
1 device memory, 2 host memory, 3 vault, 4 another device, 5 and 6 the L2 copies of the first two. -/
structure BadSector where
  space : Nat
  at_ : Nat
  syn : BitVec 16
  deriving DecidableEq, Repr

/-- A halfword as it stood before a write replaced it, and when (R88). -/
structure PastHalf where
  target : Target
  at_ : Nat
  half : BitVec 16
  until_ : Nat
  deriving DecidableEq, Repr

/-- A word a WAITA has read and its line's write completion time, which the slice's monitor watches (R283). -/
structure Watch where
  target : Target
  pa : Nat
  home : Option Nat
  bytes : Nat
  value : Nat
  wct : Nat
  deriving DecidableEq, Repr

/-! ### Fragments and warps -/

/-- Condition flags of a lane (R58). -/
structure CC where
  n : Bool := false
  z : Bool := false
  c : Bool := false
  v : Bool := false
  deriving DecidableEq, Repr

/-- The state of a fragment (R28), in code order. -/
inductive FragState where
  | ready | parkedJoin | parkedReplay | waitReg | waitHandle | waitBarrier | waitObject | waitFence | sleeping
  | waitAddress | waitChain | waitResource | waitFragment | waitConfirm | waitTranslation
  deriving DecidableEq, Repr

/-- Register classes (R48). -/
inductive RegClass where
  | v | s | h | tile
  deriving DecidableEq, Repr

/-- The scope, number and key of a barrier (R192). -/
structure BarId where
  scope : Scope
  g : Nat
  key : Nat
  deriving DecidableEq, Repr

/-- What a waiting fragment waits for, beside its state (R28). -/
inductive WaitCond where
  | never
  | full (regs : List (RegClass × Nat))
  | amaxDone
  | handleFull (h : Nat)
  | barGen (b : BarId) (bit : Bool)
  | object (off : Nat) (bit : Bool)
  | release (scope : Scope)
  | loadsBefore (id : Nat)
  | deadline (t : Nat)
  | chainRoom
  | chainMessage
  | fifoRoom (bank words : Nat)
  | fifoWords (bank words : Nat)
  | opRecord
  | sumpRoom
  | repFree
  | handlerFree
  | bankQuiet (bank : Nat)
  | storesReturned
  | scReturned
  | warpQuiet
  | chainQuiet
  | address
  | monitor (ws : List Watch) (dl : Nat)
  | scratch (ws : List (Nat × Nat × Nat)) (dl : Nat)
  | requestRoom (n : Nat)
  | tileIdle (t : Nat)
  | linesQuiet (ls : List Nat)
  | translation
  deriving DecidableEq, Repr

/-- The replay record of a parked fragment (R331, R344); `reissue`: a load issued again after a restore has met a fault (R316); `ins`
numbers the instruction, as in its requests. -/
inductive Replay where
  | mem (pc : DWord) (i : Instr) (lanes : LaneMask) (fault ins : Nat)
  | fetch (pc : DWord) (lanes : LaneMask) (fault : Nat)
  | handle (pc : DWord) (h : Nat)
  | reissue (pc : DWord) (lanes : LaneMask) (fault ins : Nat)
  deriving DecidableEq, Repr

/-- An instruction to perform again before the fragment issues anything else: its address, the lanes, and whether it is
the replay of a memory instruction (R333), with the number its requests bear, or the repair of a predicted branch (R171). -/
structure Redo where
  pc : DWord
  i : Instr
  lanes : LaneMask
  replay : Bool
  ins : Nat := 0
  deriving DecidableEq, Repr

/-- What the lanes of a repaired path return to if a repair traps (R172): the path's first address, the number of the next
request and the registers at the branch, and the TICKHI half that the path has latched since (R55). -/
structure Undo where
  pc : DWord
  since : Nat
  v : Vector (Lanes Word) 128
  cc0 : Lanes CC
  cc1 : Lanes CC
  tick : Option Word := none
  deriving DecidableEq, Repr

/-- What a trap writes (R335): cause, address, mask, info, saved PC. -/
structure TrapInfo where
  cause : Nat
  addr : DWord := 0
  mask : LaneMask
  info : Word := 0
  pc : DWord
  deriving DecidableEq, Repr

/-- A kernel descriptor (R299), with its placement list (R301) beside it in `Launch` and `Frag`. -/
structure KDesc where
  entry : DWord
  cbank : DWord
  trapPc : DWord
  localBase : DWord
  localBytes : Nat
  gx : Nat
  gy : Nat
  gz : Nat
  seed : Word
  regs : Nat
  warps : Nat
  tiles : Nat
  chain : Bool
  coop : Bool
  migratable : Bool
  nopredict : Bool
  hasList : Bool
  hintValid : Bool
  prio : Nat
  scratch : Nat
  lockQuota : Nat
  hint : Nat
  listAddr : DWord
  zsafe : DWord
  deriving DecidableEq, Repr

/-- A split-table entry (R28), with its wait condition, replay record and deadline, and the flags of a release action
that has ended and of an acquire action in force (R186; notes/assumptions/14.md), the descriptor a LAUNCH waits with (R242),
the halt of a BKPT (R353), the time at which its last translation ends (R330), whether a STEP has let it go and whether it is halted
at a stop site (R352). -/
structure Frag where
  mask : LaneMask
  pc : DWord
  join : BitVec 6 := 63
  depth : BitVec 8 := 0
  rank : BitVec 5 := 0
  st : FragState := .ready
  halted : Bool := false
  wait : BitVec 13 := 0
  handler : Bool := false
  cond : WaitCond := .never
  replay : Option Replay := none
  deadline : Option Nat := none
  released : Bool := false
  acquire : Option Nat := none
  redo : List Redo := []
  undo : Option Undo := none
  held : Option TrapInfo := none
  resumed : Bool := false
  bkpt : Bool := false
  offer : Option (KDesc × List Nat) := none
  walkEnd : Nat := 0
  stepped : Bool := false
  site : Bool := false
  deriving DecidableEq, Repr

/-- A join-table entry (R28). -/
structure Join where
  addr : DWord
  depth : BitVec 8
  expected : LaneMask
  arrived : LaneMask
  parent : BitVec 6
  deriving DecidableEq, Repr

/-- A path of an unconfirmed predicted branch (R169): its speculative fragment, the window's instructions, and the TICKHI half it has
latched (R55), which is the warp's once the path is confirmed. -/
structure Path where
  frag : Frag
  log : List (DWord × Instr) := []
  tick : Option Word := none
  deriving DecidableEq, Repr

/-- An unconfirmed predicted BR of the fragment in split entry `entry` (R169-R172): the set-aside compare, the branch,
the predicted set, the paths, the window's count, the number of the next request and the registers as they stood. (DEDUCED, unsafe: notes/assumptions/66.md). -/
structure Spec where
  entry : Fin 32
  cmp : Instr
  br : Br
  brPc : DWord
  tp : LaneMask
  taken : Option Path
  fall : Option Path
  count : Nat := 0
  since : Nat
  v0 : Vector (Lanes Word) 128
  cc0 : Lanes CC
  cc1 : Lanes CC
  deriving DecidableEq, Repr

/-- Trap registers, special registers 24-30 (R54). -/
structure XRegs where
  cause : Word := 0
  pc : DWord := 0
  addr : DWord := 0
  mask : Word := 0
  info : Word := 0
  deriving DecidableEq, Repr

/-- The handler a warp is in (R337). -/
structure Handler where
  mask : LaneMask
  join : BitVec 6
  depth : BitVec 8
  owner : Bool
  deriving DecidableEq, Repr

/-- A REP in progress (R109, R110): its owner, the recorded prefix address, and the following instruction's bits and
length, absent after a trap or a restore, when the prefix is fetched again. -/
structure RepState where
  owner : FragSel
  addr : DWord
  f : Option RepFields := none
  word : DWord := 0
  len : Nat := 0
  preLen : Nat := 0
  deriving DecidableEq, Repr

/-- A transform-pipe instruction in flight (R154): its results, computed from the sources read at issue; `spec`: issued in a
window, or in the repair of one, that has not ended. -/
structure PipeItem where
  lanes : LaneMask
  v : List (Nat × Lanes Word)
  s : Option (Nat × Word)
  amax : Option (Word × Bool)
  spec : Bool := false
  deriving DecidableEq, Repr

/-- A warp (R19, R22, R28, R48-R58, R61, R270); `windowHeld` is how long it has been halted since its block began to stop (R354). -/
structure Warp where
  sched : Nat := 0
  slot : Nat := 0
  age : Nat := 0
  split : Vector (Option Frag) 32 := Vector.replicate 32 none
  join : Vector (Option Join) 32 := Vector.replicate 32 none
  v : Vector (Lanes Word) 128 := Vector.replicate 128 (Vector.replicate 32 0)
  s : Vector Word 64 := Vector.replicate 64 0
  h : Vector DWord 16 := Vector.replicate 16 0
  cc0 : Lanes CC := Vector.replicate 32 {}
  cc1 : Lanes CC := Vector.replicate 32 {}
  vFull : BitVec 128 := BitVec.allOnes 128
  sFull : BitVec 64 := BitVec.allOnes 64
  hFull : BitVec 16 := BitVec.allOnes 16
  tick : Option Word := none
  part : Nat := 5
  amax : Word := 0
  nanSeen : Bool := false
  lfsr : Word := 1
  repc : BitVec 7 := 0
  x : XRegs := {}
  exited : LaneMask := 0
  resv : Vector (Option (Target × Nat)) 32 := Vector.replicate 32 none
  hdie : Nat := 0
  hdev : Nat := 0
  hpod : Nat := 0
  handler : Option Handler := none
  rep : Option RepState := none
  nopre : Bool := false
  ordinal : Word := 0xFFFF_FFFF
  reason : Nat := 0xFF
  stalls : Vector Word 16 := Vector.replicate 16 0
  specs : List Spec := []
  pipe : List PipeItem := []
  started : Bool := false
  windowHeld : Nat := 0
  deriving DecidableEq, Repr

/-! ### Engine operations -/

/-- An operand of the matrix engine (R214): a global address and stride, a scratchpad offset and stride, or a vault
tensor and coordinates. -/
inductive MatSrc where
  | global (va : Nat) (stride : Nat)
  | scratch (off : Nat) (stride : Nat)
  | vault (t : Nat) (c : List Nat)
  deriving DecidableEq, Repr

/-- A copy descriptor as read at issue (R222). -/
structure CopyDesc where
  src : Nat
  dst : Nat
  ext : List Nat
  sstr : List Int
  dstr : List Int
  sspace : Space
  dspace : Space
  size : Nat
  stensor : Nat
  dtensor : Nat
  deriving DecidableEq, Repr

/-- A scan descriptor as read at issue (R228): the address fields with their spaces, n, and the words at 36-47. -/
structure ScanDesc where
  src : Nat
  dst : Nat
  f16 : Nat
  f24 : Nat
  sp : BitVec 4
  n : Nat
  w36 : Word
  w40 : Word
  w44 : Word
  mg : Bool
  sg : Bool
  deriving DecidableEq, Repr

/-- The epilogue record as read at issue (R219). -/
structure Epilogue where
  count : Nat
  row0 : Nat
  rs : Option Nat
  cs : Option Nat
  bias : Option Nat
  lo : Word
  hi : Word
  deriving DecidableEq, Repr

/-- What an engine operation does, with the operands read at issue (R203). -/
inductive OpKind where
  | mlw (o : Mlw) (src : MatSrc) (sw : Word)
  | mma (o : Mma) (src : MatSrc) (count row0 : Nat) (sv : Nat)
  | mdr (o : Mdr) (dst : MatSrc) (e : Epilogue)
  | mzr (tile : Nat)
  | copy (d : CopyDesc) (red : CopyRed) (bo : Option Nat)
  | copym (d : CopyDesc) (bo : Nat) (cores : BitVec 16)
  | copyl (ds : List CopyDesc) (red : CopyRed) (bo : Option Nat)
  | copyx (d : CopyDesc) (xf : CopyXf) (scales : Nat) (bo : Option Nat)
  | scan (o : Scan) (d : ScanDesc)
  | topk (d : ScanDesc)
  | smax (d : ScanDesc) (chain : Bool)
  | samp (d : ScanDesc) (chain : Bool)
  deriving DecidableEq, Repr

/-- The status of an engine operation (R209). -/
inductive OpStatus where
  | pending | done | cancelled | faulted
  deriving DecidableEq, Repr

/-- A fault an engine operation ended with (R207), with its progress point (R385). -/
structure OpFault where
  cause : BitVec 8
  addr : DWord
  info : Word
  taken : Bool := false
  point : Word := 0
  deriving DecidableEq, Repr

/-- A suspension by a replayable fault (R207): code, address, the fault identifier posted, and the progress point. -/
structure Suspend where
  code : BitVec 8
  addr : Nat
  fault : Nat
  write : Bool
  point : Word
  deriving DecidableEq, Repr

/-- An engine operation (R204); `after` is the number of the warp's next request when it was issued (R206), `cdie` to `cpod` the
times of the writes of the chunk under way (R200), `epochs` how often the modes of the banks had changed, by block, when it was
issued (R191). -/
structure EngOp where
  id : Nat
  handle : DWord
  hreg : Option Nat
  warp : Nat
  pc : DWord
  kind : OpKind
  status : OpStatus := .pending
  entry : Nat := 0
  progress : Nat := 0
  chunks : List Nat := []
  bytes : Nat := 0
  r1 : Word := 0
  r2 : Word := 0
  wdie : Nat := 0
  wdev : Nat := 0
  wpod : Nat := 0
  after : Nat := 0
  suspend : Option Suspend := none
  fault : Option OpFault := none
  cancel : Bool := false
  amax : Word := 0
  nan : Bool := false
  carry : Option (List Word) := none
  sent : Bool := false
  freed : Bool := false
  cdie : Nat := 0
  cdev : Nat := 0
  cpod : Nat := 0
  epochs : Table (List Nat) := []
  deriving DecidableEq, Repr

/-- A weight slot that holds weights (R213). -/
structure Slot where
  fmt : Ty
  sparse : Bool
  w : List (List (BitVec 16))
  bitmap : List (BitVec 128)
  sw : Word
  deriving DecidableEq, Repr

/-- An entry of a chain link (R237). -/
inductive ChainEntry where
  | message (w : List Word) (h : Nat)
  | carry (op : Nat) (size : Nat) (w : List Word)
  deriving DecidableEq, Repr

/-- A chain group (R235). -/
structure ChainGroup where
  first : Nat
  len : Nat
  ring : Bool
  deriving DecidableEq, Repr

/-! ### Requests in flight -/

/-- What a memory request does (R262, R268). -/
inductive ReqKind where
  | fill
  | read
  | write
  | atomic (op : AtomOp)
  | sc
  | deliver (off : Nat) (obj : Nat)
  deriving DecidableEq, Repr

/-- Where a request stands: at the port, performed at its slice, or failed. -/
inductive ReqSt where
  | queued
  | performed
  | failed (cause : BitVec 8) (info : Word)
  deriving DecidableEq, Repr

/-- One lane's memory request (R262): issuer, port, address, attributes, data (`arg2` is the new value of CAS),
destination, and the answer; `ins` numbers the instruction, `fmask` is the mask of the fragment that issued it, `whole` says that
the instruction's lanes cover the sector (R342), `quiet` that it has trapped already (R336), `epoch` how often the mode of the destination's bank had changed (R191). -/
structure Req where
  id : Nat
  grp : Nat
  kind : ReqKind
  block : Nat
  warp : Nat
  sel : FragSel
  lane : Nat
  core : Nat
  quad : Nat
  die : Nat
  asid : Nat
  va : Nat
  pa : Nat
  attr : Attr
  bytes : Nat
  data : BitVec 128 := 0
  arg2 : BitVec 128 := 0
  sx : Bool := false
  dst : Option Nat := none
  ccw : Option Bool := none
  lr : Bool := false
  pref : Bool := false
  loc : Bool := false
  pc : DWord := 0
  ins : Nat := 0
  fmask : LaneMask := 0
  whole : Bool := false
  quiet : Bool := false
  epoch : Nat := 0
  scOk : Bool := false
  st : ReqSt := .queued
  sentAt : Nat := 0
  value : BitVec 128 := 0
  wct : Nat := 0
  wdie : Nat := 0
  wdev : Nat := 0
  valueBack : Bool := false
  timesBack : Bool := false
  drop : Bool := false
  deriving DecidableEq, Repr

/-! ### Blocks and launches -/

/-- A granted bank (R181, R256), and how often its mode has changed, which makes its data undefined anew (R191). -/
structure BankSt where
  fifo : Bool := false
  queue : List Word := []
  epoch : Nat := 0
  deriving DecidableEq, Repr

/-- Arrivals of a block at one barrier in the current generation (R193); `here`: the block has arrived at a network group. -/
structure BarArr where
  bar : BarId
  gen : Bool := false
  lanes : Table LaneMask := []
  here : Bool := false
  deriving DecidableEq, Repr

/-- Why a resident block is being stopped (R316, R322). -/
inductive StopWhy where
  | preempt
  | migrate (column : Nat)
  deriving DecidableEq, Repr

/-- Where a block stands (R316, R322). -/
inductive Phase where
  | resident
  | stopping (t0 : Nat) (why : StopWhy)
  | saved (addr : Nat)
  | moving (column : Nat)
  deriving DecidableEq, Repr

/-- The times of the engine writes that a barrier object's current phase and the one that ended last have counted (R200). -/
structure PhaseTimes where
  die : Nat := 0
  dev : Nat := 0
  pod : Nat := 0
  endDie : Nat := 0
  endDev : Nat := 0
  endPod : Nat := 0
  deriving DecidableEq, Repr

/-- A block (R20); `chain` is its receive buffer, `link` the entries it has sent that are on their way (R237), `failedWrite`
the remote writes that failed, by warp, lane and address (R380), `wantSave` a pre-emption that waits for a migration (R319),
`reissue` the loads cancelled by a stop, in their order (R316), `phases` the times of the barrier objects' phases by offset (R200),
`spoilt` the objects whose words were stored to while an operation on them was pending (R198), `tree` a pre-emption by PREQ (R315),
`record` the record a save has written (R343). -/
structure Block where
  uid : Nat
  lid : Nat
  index : Nat
  core : Nat
  phase : Phase := .resident
  since : Nat := 0
  banks : List BankSt := []
  scratch : Bytes := []
  tiles : Table (List Word) := []
  tileTag : BitVec 8 := 0
  tileFull : BitVec 8 := 0xFF
  slots : Vector (Option Slot) 2 := Vector.replicate 2 none
  group : Option ChainGroup := none
  chain : List ChainEntry := []
  link : List ChainEntry := []
  bars : List BarArr := []
  locked : List Nat := []
  lockQuota : Nat := 0
  ops : List EngOp := []
  warps : List Warp := []
  failedWrite : List (Nat × Nat × Nat) := []
  wantSave : Bool := false
  reissue : List Req := []
  phases : Table PhaseTimes := []
  spoilt : List Nat := []
  tree : Bool := false
  record : List Byte := []
  deriving DecidableEq, Repr

/-- Where a launch stands (R244, R302-R304). -/
inductive LaunchState where
  | waiting | sump | running | ended | completed | aborted
  deriving DecidableEq, Repr

/-- A launch (R299-R305); `id` numbers the launches without end (its identifier is `launchIdent` of it), `image` and `hostImage` are
memory as it stood when the launch took its place, at `begun` (R88, R254), `order` its number in the order of acceptance (R302). -/
structure Launch where
  id : Nat
  desc : KDesc
  queue : Nat
  prio : Nat
  asid : Nat
  parent : Option Nat
  after : Bool := false
  root : Nat
  st : LaunchState
  devCount : Nat
  status : Nat := 0
  vec : Option Nat := none
  list : List Nat := []
  next : Nat := 0
  chainBase : Option Nat := none
  start : Option Nat := none
  begun : Nat := 0
  waitSince : Nat := 0
  headSince : Option Nat := none
  image : Memory := []
  hostImage : Memory := []
  order : Nat := 0
  boundary : Bool := false
  starved : Bool := false
  treeDone : Bool := false
  deriving DecidableEq, Repr

/-- A barrier group above core scope (R194): owner is a launch identifier, or a pod key. -/
structure NetGroup where
  pod : Bool
  owner : Nat
  bar : BarId
  inst : Nat
  expected : Nat
  arrived : List Nat
  gen : Bool
  members : List Nat
  deriving DecidableEq, Repr

/-! ### The device's registers and tables -/

/-- A ring in host memory (R332, R340, R357). -/
structure Ring where
  base : DWord := 0
  en : Bool := false
  vec : Nat := 0
  size : Nat := 0
  wptr : Word := 0
  rptr : Word := 0
  lost : Word := 0
  deriving DecidableEq, Repr

/-- A packet dispatched and not completed (R295). -/
inductive Pending where
  | klaunch (lid : Nat)
  | evwait (idx : Nat) (value : DWord) (vec : Option Nat)
  | mapflush (va pa len : Nat) (tlb l2 : Bool) (vec : Option Nat)
  deriving DecidableEq, Repr

/-- A command queue (R293). -/
structure Queue where
  base : DWord := 0
  en : Bool := false
  prio : Nat := 0
  asid : Nat := 0
  size : Nat := 0
  wptr : Word := 0
  rptr : Word := 0
  badpkt : Bool := false
  overrun : Bool := false
  hold : Bool := false
  err : Nat := 0
  save : DWord := 0
  pending : List Pending := []
  bpDone : Bool := false
  deriving DecidableEq, Repr

/-- A vault tensor (R298). -/
structure Tensor where
  dims : Nat
  size : Nat
  place : Nat
  ext : List Nat
  base : Nat
  deriving DecidableEq, Repr

/-- A fault record waiting to be written (R332). -/
structure FaultRec where
  id : Nat
  code : Nat
  access : Nat
  asid : Nat
  va : Nat
  lid : Nat
  core : Nat
  slot : Nat
  time : Nat
  deriving DecidableEq, Repr

/-- A packet breakpoint (R355). -/
structure PktBp where
  pc : DWord := 0
  en : Bool := false
  mpc : Bool := false
  mq : Bool := false
  hit : Bool := false
  qn : Nat := 0
  deriving DecidableEq, Repr

/-- A trigger (R365); `base`: its state at enable; `since`: when it was enabled or its operands last written. -/
structure Trigger where
  en : Bool := false
  start : Nat := 0
  stop : Nat := 0
  startV : Word := 0
  stopV : Word := 0
  base : Bool := false
  since : Nat := 0
  deriving DecidableEq, Repr

/-- A predictor entry (R168). -/
structure PredEntry where
  mask : LaneMask := 0
  conf : Nat := 0
  deriving DecidableEq, Repr

/-- A packet of the nanosecond that is under way (R360, R362): header base and body; `none` a SYNC already complete. -/
structure TracePkt where
  hdr : Option (BitVec 8)
  body : List Byte
  deriving DecidableEq, Repr

/-- A core's own state: L1 lines, age counter, engine pointers, predictors, trigger states (as they differ from the states
at enable), trace stream, sampling, of its last cycle the time and whether tracing was on, and the packets of the nanosecond under
way with the SYNC set as it was before them (R362, R363). -/
structure Core where
  lines : List L1Line := []
  ageCtr : Nat := 0
  tpPtr : Nat := 3
  mxPtr : Nat := 3
  scPtr : Nat := 3
  portPtr : Nat := 3
  pred : Table PredEntry := []
  trig : Vector Bool 4 := Vector.replicate 4 false
  trigEv : Vector (Bool × Bool) 4 := Vector.replicate 4 (false, false)
  trW : Word := 0
  trR : Word := 0
  trLast : Nat := 0
  trSet : Option Nat := none
  trCount : Nat := 0
  trLost : Word := 0
  sampleSlot : Nat := 0
  sampleAt : Nat := 0
  cycleAt : Nat := 0
  wasOn : Bool := false
  stopped : Bool := false
  pkts : List TracePkt := []
  pktSet : List (List Byte) := []
  deriving DecidableEq, Repr

/-- The registers of the register BAR that are the device's (R315, R327, R350, R357, R359, R367, R373, R379). -/
structure DevRegs where
  ready : Bool := false
  degraded : Bool := false
  replace : Bool := false
  recovery : Bool := false
  stage : Nat := 0
  dies : BitVec 8 := 0
  cause : BitVec 6 := 0
  drop : Bool := false
  dropDie : Nat := 0
  hwin : DWord := 0
  imgAddr : DWord := 0
  imgGo : Bool := false
  imgFail : Bool := false
  imgLen : Nat := 0
  preqGo : Bool := false
  preqQ : Nat := 0
  apre : Bool := false
  apdly : Nat := 100
  ctxBase : DWord := 0
  fresAct : Nat := 0
  fresId : Nat := 0
  dbgHalt : Bool := false
  dbgArm : Bool := false
  dbgAsid : Nat := 0
  bkHit : Bool := false
  dbgCore : Nat := 0
  dbgSel : Word := 0
  prSmp : Bool := false
  prPer : Nat := 16
  trBase : DWord := 0
  trEn : Bool := false
  trRs : Nat := 0
  trAsid : Nat := 0
  pod : Vector (DWord × DWord) 8 := Vector.replicate 8 (0, 0)
  deriving DecidableEq, Repr

/-- What the environment set or found at boot and in service (R17, R320, R366, R370, R372, R374, R377, R378, R382, R383): the
firmware's measured bytes, the ports with their ranges, what each column's clock loses by droop and by heat and all of them by the
power limit, in thousandths, the temperatures, since when a column has been above its threshold and when it may try to migrate
again, the power, and the size of the Memory BAR. -/
structure Env where
  config : ConfigBlock := { devid := 0, numaPin := false, thresholds := [], windows := [], vector := 0 }
  firmware : List Byte := []
  configBytes : List (List Byte) := []
  minVersion : BitVec 16 := 0
  badSlices : List Nat := []
  linkLanes : Vector Nat 18 := Vector.replicate 18 4
  cxlUp : Vector Bool 4 := Vector.replicate 4 true
  cxlRanges : Vector (Nat × Nat) 4 := Vector.replicate 4 (0, 0)
  droop : Vector Nat 40 := Vector.replicate 40 0
  hot : Vector Bool 40 := Vector.replicate 40 false
  power : Nat := 0
  temps : Vector Nat 40 := Vector.replicate 40 0
  hotSince : Vector (Option Nat) 40 := Vector.replicate 40 none
  retryAt : Vector Nat 40 := Vector.replicate 40 0
  watts : Nat := 0
  barBytes : Nat := 2 ^ 39
  ratePasses : List Nat := []
  syncLost : Bool := false
  unreachable : List Nat := []
  deriving DecidableEq, Repr

/-- A host write that waits its turn (R368): to a register that starts or resumes work, or one behind it, to another register or to
memory. -/
inductive Deferred where
  | qwptr (q : Fin 64) (v : Word)
  | qctl (q : Fin 64) (v : Word)
  | event (i : Nat) (v : DWord)
  | eventHalf (i : Nat) (high : Bool) (v : Word)
  | fresume (v : Word)
  | preq (v : Word)
  | dbgctl (v : Word)
  | devctl (v : Word)
  | reg (off : Nat) (v : Word)
  | dbgdata (v : DWord)
  | memory (off : Nat) (bytes : List Byte)
  deriving DecidableEq, Repr

/-- The last answer a read of the host, the debugger, the management interface or a pod device got (R366-R379), with the times and
the lease a pod device's request gets (R268, R290). -/
structure HostRead where
  data : List Byte := []
  poisoned : Bool := false
  unsupported : Bool := false
  wct : Nat := 0
  expiry : Option Nat := none
  wdie : Nat := 0
  wdev : Nat := 0
  deriving DecidableEq, Repr

/-- What the management interface monitors (R374): DEVSTAT, a column's temperature, or the power. -/
inductive MgmtRead where
  | devstat
  | temperature (column : Fin 40)
  | power
  deriving DecidableEq, Repr

/-- What comes from outside and no event of the opcode table names: a store of the host to its own
memory (R292), an upset of a sector, what is added to its bytes and to its check value, or of a sector of an L1 line (R342, R375),
the temperatures and the power measured (R320, R383), the size the host gives the Memory BAR (R366), and a monitoring read of the
management interface (R374). -/
inductive Outside where
  | hostStore (a : Nat) (bytes : List Byte)
  | upset (space sector : Nat) (bytes : List Byte) (check : BitVec 16)
  | lineUpset (core asid vline sector : Nat)
  | measured (temps : List Nat) (watts : Nat)
  | barSize (gib : Nat)
  | manage (r : MgmtRead)
  deriving DecidableEq, Repr

/-- A write of an engine sent to another device (R290). -/
structure LinkWrite where
  dev : Nat
  pa : Nat
  bytes : List Byte
  deriving DecidableEq, Repr

/-- The machine. -/
structure State where
  time : Nat := 0
  mem : Memory := []
  host : Memory := []
  vault : Memory := []
  bad : List BadSector := []
  l2 : Table L2Line := []
  slmap : Table Nat := []
  tlbs : Table (List TlbEntry) := []
  maps : List PageMap := []
  hostStale : List Nat := []
  past : List PastHalf := []
  cores : Table Core := []
  reqs : List Req := []
  nextReq : Nat := 1
  blocks : List Block := []
  nextUid : Nat := 1
  nextOp : Nat := 1
  launches : List Launch := []
  nextLid : Nat := 1
  accepted : Nat := 0
  devLaunches : Nat := 0
  groups : List NetGroup := []
  nextFault : Nat := 1
  faultQ : List FaultRec := []
  faultLog : Table (Nat × Nat) := []
  queues : Vector Queue 64 := Vector.replicate 64 {}
  lastQueue : Nat := 63
  events : Table DWord := []
  tensors : Table Tensor := []
  dev : DevRegs := {}
  env : Env := {}
  fq : Ring := {}
  el : Ring := {}
  pr : Ring := {}
  bps : Vector PktBp 4 := Vector.replicate 4 {}
  trigs : Vector Trigger 4 := Vector.replicate 4 {}
  msix : List Nat := []
  deferred : List (Nat × Deferred) := []
  hostWdev : Nat := 0
  hostRead : HostRead := {}
  agenda : List (Nat × Instr) := []
  outside : List (Nat × Outside) := []
  linkOut : List LinkWrite := []
  picks : List FragRef := []
  cur : Option FragRef := none
  fresh : Nat := 0
  turn : Nat := 0
  drops : List Nat := []
  report : Option (List Nat) := none
  deriving DecidableEq, Repr

/-- The machine as power comes on, before the boot event of R370: every register of the BAR at its Reset column, no
work, caches and TLBs empty, memory holding zero. The values the spec does not give are those of
notes/assumptions/1.md to 14.md. (DESIGN CHOICE, unsafe: notes/assumptions/3.md). (DESIGN CHOICE, unsafe: notes/assumptions/5.md). (DESIGN CHOICE, safe: notes/assumptions/6.md). (DESIGN CHOICE, unsafe: notes/assumptions/11.md). -/
def State.reset : State := {}

end Sys2Proof.Machine
end

