-- ==== Sys2Proof/Machine/Bits.lean ====
section
/-! DEFINITION. Plain helpers: canonical byte memories, tables by number, lane vectors, masks and little-endian values. -/

namespace Sys2Proof.Machine

/-! ### Bytes by address -/

/-- The byte at an address; `d` where none is listed. -/
def cellAt (d : Byte) : List Host.Cell → Nat → Byte
  | [], _ => d
  | (k, b) :: r, a => if a = k then b else cellAt d r a

/-- Insert or replace, addresses rising. -/
def cellPut : List Host.Cell → Nat → Byte → List Host.Cell
  | [], a, b => [(a, b)]
  | (k, c) :: r, a, b => if a < k then (a, b) :: (k, c) :: r else if a = k then (a, b) :: r else (k, c) :: cellPut r a b

/-- Remove an address. -/
def cellDel : List Host.Cell → Nat → List Host.Cell
  | [], _ => []
  | (k, c) :: r, a => if a = k then r else (k, c) :: cellDel r a

/-- One byte of memory. (DESIGN CHOICE, unsafe: notes/assumptions/4.md). -/
def Memory.get (m : Memory) (a : Nat) : Byte := cellAt 0 m a

/-- Store one byte; 0 removes the entry, so the form stays canonical. (DESIGN CHOICE, unsafe: notes/assumptions/4.md). -/
def Memory.put (m : Memory) (a : Nat) (b : Byte) : Memory := if b = 0 then cellDel m a else cellPut m a b

/-- n bytes at an address, little-endian (R5). -/
def leRead (get : Nat → Byte) (a : Nat) : Nat → Nat
  | 0 => 0
  | n + 1 => (get a).toNat + 256 * leRead get (a + 1) n

/-- Byte k of a value. -/
def byteOf (v k : Nat) : Byte := BitVec.ofNat 8 (v / 2 ^ (8 * k))

/-- The n low bytes of a value, lowest first. -/
def leBytes : Nat → Nat → List Byte
  | 0, _ => []
  | n + 1, v => BitVec.ofNat 8 v :: leBytes n (v / 256)

/-- A little-endian value of bytes. -/
def leNat : List Byte → Nat
  | [] => 0
  | b :: r => b.toNat + 256 * leNat r

def Memory.read (m : Memory) (a n : Nat) : Nat := leRead m.get a n

/-- Store bytes from an address up. -/
def Memory.writeBytes (m : Memory) : Nat → List Byte → Memory
  | _, [] => m
  | a, b :: r => Memory.writeBytes (m.put a b) (a + 1) r

def Memory.write (m : Memory) (a n v : Nat) : Memory := m.writeBytes a (leBytes n v)

/-! ### Tables -/

def tget {α : Type} (d : α) : Table α → Nat → α
  | [], _ => d
  | (k, x) :: r, i => if i = k then x else tget d r i

def tput {α : Type} : Table α → Nat → α → Table α
  | [], i, x => [(i, x)]
  | (k, y) :: r, i, x => if i < k then (i, x) :: (k, y) :: r else if i = k then (i, x) :: r else (k, y) :: tput r i x

def tdel {α : Type} (t : Table α) (i : Nat) : Table α := t.filter (·.1 != i)

/-! ### Vectors, lanes and masks -/

def vget {α : Type} {n : Nat} (d : α) (v : Vector α n) (i : Nat) : α := v[i]?.getD d

def vset {α : Type} {n : Nat} (v : Vector α n) (i : Nat) (x : α) : Vector α n := v.setIfInBounds i x

/-- Replace the lanes of a mask. -/
def lanesSet {α : Type} (old : Lanes α) (m : LaneMask) (f : Lane → α) : Lanes α :=
  Vector.ofFn fun l => if m.getLsbD l.val then f l else old[l]

/-- The lanes in which a predicate holds. -/
def maskOf (p : Lane → Bool) : LaneMask :=
  (List.finRange 32).foldl (fun m l => if p l then m ||| (1#32 <<< l.val) else m) 0

/-- The lanes of a mask, ascending. -/
def lanesOf (m : LaneMask) : List Lane := (List.finRange 32).filter fun l => m.getLsbD l.val

def popcount (m : LaneMask) : Nat := (lanesOf m).length

/-- Set or clear a bit of a bit vector. -/
def setBit {n : Nat} (v : BitVec n) (i : Nat) (b : Bool) : BitVec n :=
  if b then v ||| BitVec.ofNat n (2 ^ i) else v &&& ~~~BitVec.ofNat n (2 ^ i)

/-- The halves of a pair (R49). -/
def pairOf (lo hi : Word) : DWord := hi ++ lo
def loOf (x : DWord) : Word := x.extractLsb' 0 32
def hiOf (x : DWord) : Word := x.extractLsb' 32 32

/-- A field of a word. -/
def fieldOf {n : Nat} (w : BitVec n) (lo len : Nat) : Nat := (w.extractLsb' lo len).toNat

/-- Update the first element that satisfies a predicate. -/
def updFirst {α : Type} (p : α → Bool) (f : α → α) : List α → List α
  | [] => []
  | x :: r => if p x then f x :: r else x :: updFirst p f r

/-- Update one position of a list. -/
def updAt {α : Type} (f : α → α) : Nat → List α → List α
  | _, [] => []
  | 0, x :: r => f x :: r
  | n + 1, x :: r => x :: updAt f n r

end Sys2Proof.Machine
end

