-- ==== Sys2Proof/Machine/Operands.lean ====
section
/-! DEFINITION. The operands of every instruction: class, register count, role and E bit (R62-R65, R89, R125, R174, R192,
R208), the guard rule, the pipe (R312), and the groups that R107, R128, R170 and R202 name. -/

namespace Sys2Proof

open Machine

/-- One register operand in operand order (R115). `fld`: 0 A, 1 B, 2 C, 3 D (R335). -/
structure Opnd where
  fld : Nat
  cls : RegClass
  n : Nat
  cnt : Nat := 1
  align : Nat := 1
  src : Bool := false
  dst : Bool := false
  e : Bool := false
  deriving DecidableEq, Repr

/-- A v, s, h source; a v, s destination. -/
def vS (fld : Nat) (n : RegField) (e : Bool) (cnt : Nat := 1) : Opnd := ⟨fld, .v, n.toNat, cnt, cnt, true, false, e⟩
def vD (n : RegField) (cnt : Nat := 1) : Opnd := ⟨3, .v, n.toNat, cnt, cnt, false, true, false⟩
def sS (fld : Nat) (n : RegField) (e : Bool := false) (cnt : Nat := 1) : Opnd := ⟨fld, .s, n.toNat, cnt, cnt, true, false, e⟩
def sD (n : RegField) (cnt : Nat := 1) : Opnd := ⟨3, .s, n.toNat, cnt, cnt, false, true, false⟩
def hDst (n : Nat) : Opnd := ⟨3, .h, n, 1, 1, false, true, false⟩
def hRef (fld : Nat) (n : RegField) (src : Bool) : Opnd := ⟨fld, .h, n.toNat, 1, 1, src, false, false⟩
def tRef (n : BitVec 3) (src dst : Bool) : Opnd := ⟨0, .tile, n.toNat, 1, 1, src, dst, false⟩
/-- A global address field (R175): an even value names a v pair, an odd value an s pair. -/
def gA (n : RegField) (e : Bool) : Opnd :=
  if n.toNat % 2 = 0 then ⟨0, .v, n.toNat, 2, 2, true, false, e⟩ else ⟨0, .s, n.toNat - 1, 2, 2, true, false, e⟩
/-- A private address register (R175). -/
def pA (n : RegField) (sreg e : Bool) : Opnd := ⟨0, if sreg then .s else .v, n.toNat, 1, 1, true, false, e⟩

/-- Registers per operand of a default-layout XR instruction: D, A, B, C (R129, R146, R147). -/
def xrCounts (op : Nat) (ty : Ty) : Nat × Nat × Nat × Nat :=
  if op = 0x009 then (2, 1, 1, 2)
  else if ty.is64 then
    (match op with
    | 0x00E => (1, 2, 2, 1)
    | 0x011 | 0x012 => (2, 2, 2, 1)
    | _ => (2, 2, 1, 1))
  else (1, 1, 1, 1)

/-- The data registers of a memory instruction's B operand; CAS takes two values (R183). -/
def atomRegs (op : AtomOp) (w : Width) : Nat := if op == .cas then 2 * w.regs else w.regs

/-- The A and B operands of a matrix operand in memory (R214); `dims` is the dimension count of its vault tensor. -/
def matOpnds (sp : Space) (a b : RegField) (dims : Nat) : List Opnd :=
  match sp with
  | .global => [sS 0 a false 2, sS 1 b]
  | .scratch => [sS 0 a, sS 1 b]
  | .vault => sS 0 a :: (List.range dims).map fun k => ⟨1, .s, b.toNat + k, 1, 1, true, false, false⟩

/-- The register operands of an instruction, in operand order (D, A, B, C; a store writes its address first); the store data of
ST32 and STS32 is the operand B of the instruction they perform (R93, R105). -/
def Layout.opnds (dims : Nat) : Layout → List Opnd
  | .event | .nj _ | .np _ | .part _ _ | .br _ _ | .bare _ _ | .rep _ _ | .xi _ _ => []
  | .h2 op o =>
    let d : Opnd := ⟨3, .v, o.d.toNat, 1, 1, !(op == 9 || op == 10), true, false⟩
    if op == 10 then [d] else [d, ⟨1, .v, o.s.toNat, 1, 1, true, false, false⟩]
  | .n3 op o =>
    (if op == 0x16 || op == 0x17 then [] else [vD o.d]) ++ [vS 0 o.a o.e] ++
    (if op == 0x15 then [] else [vS 1 o.b o.e])
  | .ni op o => (if op == 0x48 then [] else [vD o.d]) ++ (if op == 0x47 then [] else [vS 0 o.a false])
  | .nm op o =>
    match op.toNat with
    | 0x60 => [vD o.d, vS 0 o.a o.e 2]
    | 0x61 => [vS 0 o.a o.e 2, vS 1 o.d o.e]
    | 0x62 => [vD o.d, vS 0 o.a o.e]
    | _ => [vS 0 o.a o.e, vS 1 o.d o.e]
  | .xr op o =>
    let r := xrRow op.toNat
    let k := xrCounts op.toNat o.ty
    let bc := match o.src with
      | .imm _ => []
      | .regs b c => (if r.useB then [vS 1 b o.eB k.2.2.1] else []) ++ (if r.useC then [vS 2 c o.eC k.2.2.2] else [])
    if op == 0x143 then
      sD o.d k.1 :: vS 0 o.a o.eA k.2.1 :: (match o.src with | .imm _ => [] | .regs b _ => [sS 1 b o.eB])
    else (if r.useD then [vD o.d k.1] else []) ++ [vS 0 o.a o.eA k.2.1] ++ bc
  | .sel _ o => [vD o.d, vS 0 o.a o.eA, vS 1 o.b o.eB]
  | .lut3 _ o => [vD o.d, vS 0 o.a o.eA, vS 1 o.b o.eB, vS 2 o.c o.eC]
  | .fscale _ o => [vD o.d, vS 0 o.a o.eA]
  | .cvt _ o =>
    [vD o.d (if o.dst.is64 then 2 else 1), vS 0 o.a o.eA (if o.src.is64 then 2 else 1)] ++
    (if o.src == .f32 && (o.dst == .f16x2 || o.dst == .bf16x2) then [vS 1 o.b o.eB] else [])
  | .pack op o =>
    let g := if op == 0x107 || op == 0x108 then 4 else 8
    if op == 0x107 || op == 0x109 then [vD o.d, vS 0 o.a o.eA g, sS 1 o.b o.eB]
    else [vD o.d g, vS 0 o.a o.eA, sS 1 o.b o.eB]
  | .movi _ o => [vD o.d]
  | .movs _ o =>
    match o.op with
    | .vFromS a => [vD o.d, sS 0 a]
    | .sImm _ => [sD o.d]
    | .sFromS a => [sD o.d, sS 0 a]
  | .sr op o =>
    if op == 0x144 then [if o.sreg then sD o.d else vD o.d] else [if o.sreg then sS 0 o.a else vS 0 o.a false]
  | .shfl _ o =>
    [vD o.d, vS 0 o.a o.eA] ++ (if o.ib then [] else [vS 1 o.b o.eB]) ++ (if o.ms then [sS 2 o.c o.eC] else [])
  | .vote _ o => [vD o.d, vS 0 o.a o.eA] ++ (if o.ms then [sS 2 o.c o.eC] else [])
  | .tred _ o => [vD o.d, vS 0 o.a o.eA] ++ (if o.ms then [sS 2 o.c o.eC] else [])
  | .xrng _ o => [vD o.d 4, vS 0 o.a o.eA 4, vS 1 o.b o.eB 2]
  | .xsort _ o => [vD o.d, vS 0 o.a o.eA, vS 1 o.b o.eB, ⟨2, .v, o.c.toNat, 1, 1, false, true, false⟩]
  | .xqnt _ o => [vD o.d, vS 0 o.a o.eA 4, ⟨1, .s, o.b.toNat, 1, 1, false, true, false⟩]
  | .xdqnt _ o => [vD o.d 4, vS 0 o.a o.eA, sS 1 o.b o.eB]
  | .jump op _ => if op == 0x1C5 then [vD 0 2] else []
  | .jumpReg op o =>
    if op == 0x1C3 then [sS 0 o.a o.eA 2] else if op == 0x1C6 then [vD 0 2, vS 0 o.a o.eA 2] else [vS 0 o.a o.eA 2]
  | .brx _ o => [vS 0 o.a o.eA]
  | .xm op o =>
    let g := gA o.a o.e
    match op.toNat with
    | 0x200 | 0x20B => [vD o.d o.width.regs, g]
    | 0x201 => [g, vS 1 o.b o.e o.width.regs]
    | 0x207 => [vS 3 o.d o.e, g, sS 1 o.b o.e]
    | 0x20C => [vD o.d, g, vS 1 o.b o.e o.width.regs]
    | 0x20D => []
    | 0x213 => [sS 3 o.d o.e, vS 0 o.a o.e, vS 1 o.b o.e o.width.regs]
    | _ => [g]
  | .xp op o =>
    let a := pA o.a o.sreg o.e
    if op == 0x203 || op == 0x205 then [a, vS 1 o.b o.e o.width.regs] else [vD o.d o.width.regs, a]
  | .xa op o =>
    (if op == 0x208 then [vD o.d o.width.regs] else []) ++ [gA o.a o.e, vS 1 o.b o.e (atomRegs o.op o.width)]
  | .xas _ o => [vD o.d o.width.regs, pA o.a o.sreg o.e, vS 1 o.b o.e (atomRegs o.op o.width)]
  | .waita _ o =>
    [sS 3 o.d o.e, (match o.space with | .global _ => gA o.a o.e | .scratch k => pA o.a k o.e),
     vS 1 o.b o.e o.width.regs]
  | .bank _ o => [sS 0 o.a]
  | .xs op o =>
    let r := xsRow op.toNat
    (if r.useD then [sD o.d] else []) ++ [sS 0 o.a o.e] ++ (if r.useB then [sS 1 o.b o.e] else [])
  | .mlw _ o =>
    hDst o.handle.toNat :: matOpnds o.space o.a o.b dims ++ [⟨2, .s, o.c.toNat, 1, 1, !o.fmt.isInt8, false, false⟩]
  | .mma _ o =>
    [hDst o.handle.toNat, tRef o.tile false false, sS 3 o.d] ++ matOpnds o.space o.a o.b dims ++ [sS 2 o.c]
  | .mdr _ o => [hDst o.handle.toNat, tRef o.tile false false] ++ matOpnds o.space o.a o.b dims ++ [sS 2 o.c]
  | .mzr _ o => [tRef o.tile false false]
  | .mrs _ o => [vD o.d, tRef o.tile true false, sS 0 o.a]
  | .mws _ o => [tRef o.tile false true, sS 0 o.a, vS 2 o.c false]
  | .copy op o =>
    ⟨3, .h, o.d.toNat, 1, 1, false, true, false⟩ :: sS 0 o.a ::
    (if op == 0x300 then (if o.bo then [sS 1 o.b] else [])
     else if op == 0x301 then [sS 1 o.b, sS 2 o.c]
     else sS 1 o.b :: (if o.bo then [sS 2 o.c] else []))
  | .copyx _ o =>
    [⟨3, .h, o.d.toNat, 1, 1, false, true, false⟩, sS 0 o.a] ++ (if o.bo then [sS 1 o.b] else []) ++
    (match o.xf with | .qnt _ _ | .dqnt _ => [sS 2 o.c false 2] | _ => [])
  | .hw op o =>
    if op == 0x304 then
      (if o.d == 0 then [] else [⟨3, .s, o.d.toNat, 3, 1, false, true, false⟩]) ++ [hRef 0 o.a true]
    else [hRef 0 o.a false]
  | .opA op o => if op == 0x306 then [hRef 0 o.a false] else if op == 0x345 then [vS 0 o.a false] else [sS 0 o.a]
  | .opD _ o => [vD o.d]
  | .opDA op o => [if op == 0x381 then sD o.d else ⟨3, .h, o.d.toNat, 1, 1, false, true, false⟩, sS 0 o.a]
  | .opAB op o =>
    if op == 0x307 then [sS 0 o.a, hRef 1 o.b false]
    else [(if o.a.toNat % 2 = 0 then ⟨0, .s, 64, 2, 2, true, false, false⟩ else gA o.a false), sS 1 o.b]
  | .scan _ o => [⟨3, .h, o.d.toNat, 1, 1, false, true, false⟩, sS 0 o.a]
  | .chainOp _ o => [⟨3, .h, o.d.toNat, 1, 1, false, true, false⟩, sS 0 o.a]
  | .cjoin _ o => [sS 0 o.a, sS 1 o.b]
  | .launch _ o => [sD o.d, sS 0 o.a false 2]

/-- R89: the field names registers the block has. -/
def Opnd.legal (regs tiles : Nat) (o : Opnd) : Bool :=
  match o.cls with
  | .v => o.n % o.align = 0 && o.n + o.cnt ≤ regs
  | .s => o.n % o.align = 0 && o.n + o.cnt ≤ 64
  | .h => o.n + o.cnt ≤ 16
  | .tile => o.n < tiles

/-- The registers of an operand, with their class. -/
def Opnd.regs (o : Opnd) : List (RegClass × Nat) := (List.range o.cnt).map fun k => (o.cls, o.n + k)

/-- The head of a 64-bit instruction (R94); the short forms have guard AL and no stop bit. -/
def Layout.head : Layout → Option Head
  | .event | .h2 _ _ | .n3 _ _ | .ni _ _ | .nm _ _ | .nj _ | .np _ => none
  | .xr _ o => some o.h | .sel _ o => some o.h | .lut3 _ o => some o.h | .fscale _ o => some o.h
  | .cvt _ o => some o.h | .pack _ o => some o.h | .movi _ o => some o.h | .movs _ o => some o.h
  | .sr _ o => some o.h | .shfl _ o => some o.h | .vote _ o => some o.h | .tred _ o => some o.h
  | .part _ o => some o.h | .xrng _ o => some o.h | .xsort _ o => some o.h | .xqnt _ o => some o.h
  | .xdqnt _ o => some o.h | .br _ o => some o.h | .jump _ o => some o.h | .jumpReg _ o => some o.h
  | .brx _ o => some o.h | .bare _ h => some h | .rep _ o => some o.h | .xi _ o => some o.h
  | .xm _ o => some o.h | .xp _ o => some o.h | .xa _ o => some o.h | .xas _ o => some o.h
  | .waita _ o => some o.h | .bank _ o => some o.h | .xs _ o => some o.h | .mlw _ o => some o.h
  | .mma _ o => some o.h | .mdr _ o => some o.h | .mzr _ o => some o.h | .mrs _ o => some o.h
  | .mws _ o => some o.h | .copy _ o => some o.h | .copyx _ o => some o.h | .hw _ o => some o.h
  | .opA _ o => some o.h | .opD _ o => some o.h | .opDA _ o => some o.h | .opAB _ o => some o.h
  | .scan _ o => some o.h | .chainOp _ o => some o.h | .cjoin _ o => some o.h | .launch _ o => some o.h

/-- The operation code of a 64-bit instruction; 0x3FF, which is reserved, for the others. -/
def Layout.op : Layout → Nat
  | .event | .h2 _ _ | .n3 _ _ | .ni _ _ | .nm _ _ | .nj _ | .np _ => 0x3FF
  | .xr op _ | .sel op _ | .lut3 op _ | .fscale op _ | .cvt op _ | .pack op _ | .movi op _ | .movs op _ | .sr op _
  | .shfl op _ | .vote op _ | .tred op _ | .part op _ | .xrng op _ | .xsort op _ | .xqnt op _ | .xdqnt op _
  | .br op _ | .jump op _ | .jumpReg op _ | .brx op _ | .bare op _ | .rep op _ | .xi op _ | .xm op _ | .xp op _
  | .xa op _ | .xas op _ | .waita op _ | .bank op _ | .xs op _ | .mlw op _ | .mma op _ | .mdr op _ | .mzr op _
  | .mrs op _ | .mws op _ | .copy op _ | .copyx op _ | .hw op _ | .opA op _ | .opD op _ | .opDA op _ | .opAB op _
  | .scan op _ | .chainOp op _ | .cjoin op _ | .launch op _ => op.toNat

/-- The stop bit (R347). -/
def Layout.stop (l : Layout) : Bool := match l.head with | some h => h.stop | none => false

/-- The CC set an instruction writes: 0 for cc0, 1 for cc1 (R58). -/
def Layout.ccOut : Layout → Option Bool
  | .h2 _ o => if o.c then some false else none
  | .n3 _ o => if o.c then some false else none
  | .ni _ o => if o.c then some false else none
  | l => match l.head with | some h => if h.c then some h.ccSet else none | none => none

/-- The CC sets an instruction reads: its guard's, a tested set (R134), a carry (R131). -/
def Layout.ccReads (l : Layout) : List Bool :=
  let guard := match l.head with | some h => if h.guard == .al then [] else [h.gset] | none => []
  guard ++ (match l with
    | .sel _ o => [o.set]
    | .xr op o => if op == 2 || op == 3 then [o.h.gset] else []
    | _ => [])

/-- The step size in registers (R106). -/
def RepFields.step (f : RepFields) : Nat := 2 ^ f.size.toNat
/-- The iterations (R106). -/
def RepFields.count (f : RepFields) : Nat := f.count1.toNat + 1
/-- The enabled fields, by number: 0 A, 1 B, 2 C, 3 D. -/
def RepFields.fields (f : RepFields) : List Nat :=
  (if f.stepA then [0] else []) ++ (if f.stepB then [1] else []) ++ (if f.stepC then [2] else []) ++
  (if f.stepD then [3] else [])

/-- Whether the guard must be AL (R51, R95, R128, R158, R174, R191, R192, R201, R208, R241, R245). -/
def Layout.needsAl : Layout → Bool
  | .xr op _ => op == 0x143
  | .movs _ o => match o.op with | .vFromS _ => false | _ => true
  | .sr op o => o.sreg && (op == 0x144 || op == 0x145)
  | .part _ _ | .xqnt _ _ | .jumpReg _ _ | .brx _ _ | .rep _ _ | .xi _ _ | .bank _ _ | .xs _ _ | .mlw _ _ | .mma _ _
  | .mdr _ _ | .mzr _ _ | .mrs _ _ | .mws _ _ | .copy _ _ | .copyx _ _ | .hw _ _ | .opA _ _ | .opD _ _ | .opDA _ _
  | .opAB _ _ | .scan _ _ | .chainOp _ _ | .cjoin _ _ | .launch _ _ => true
  | .jump op _ => op != 0x1C1
  | .bare op _ => !(op == 0x1C8 || op == 0x1CB)
  | .xm op _ => op == 0x20D || op == 0x210 || op == 0x211 || op == 0x213
  | _ => false

/-- A repeat prefix, whose guard `repEff` judges behind what is wrong with the instruction that follows (R112). -/
def Layout.isRep : Layout → Bool
  | .rep _ _ => true
  | _ => false

/-- Engine instructions (R201), which need a whole warp (R202). -/
def Layout.isEngine (l : Layout) : Bool :=
  (0x2C0 ≤ l.op && l.op ≤ 0x2C5) || (0x300 ≤ l.op && l.op ≤ 0x303) || (0x340 ≤ l.op && l.op ≤ 0x347)

/-- The matrix group (R27). -/
def Layout.isMatrix (l : Layout) : Bool := 0x2C0 ≤ l.op && l.op ≤ 0x2C5

/-- Lane operations, which may follow REP (R107). -/
def Layout.isLaneOp : Layout → Bool
  | .n3 _ _ | .ni _ _ => true
  | l => l.op ≤ 0x10A || (0x140 ≤ l.op && l.op ≤ 0x142)

/-- Instructions that access memory or the scratchpad, which an acquire action holds back (R186). -/
def Layout.isAccess : Layout → Bool
  | .nm _ _ => true
  | l => (0x200 ≤ l.op && l.op ≤ 0x287 && l.op != 0x20D) || (0x2C0 ≤ l.op && l.op ≤ 0x303) ||
         (0x307 ≤ l.op && l.op ≤ 0x347) || l.op == 0x380

/-- Instructions that a fragment does not issue until its earlier accesses have been translated (R330): global and local memory,
engines, fences and synchronisation; not the scratchpad's loads, stores and atomics. -/
def Layout.awaitsWalk : Layout → Bool
  | .nm op _ => op == 0x60 || op == 0x61
  | l => (l.isAccess || l.op == 0x20D) && !(l.op == 0x202 || l.op == 0x203 || l.op == 0x20A || l.op == 0x213)

/-- Instructions whose lanes send memory requests, of which a core has no more than 2,048 outstanding (R2). -/
def Layout.sendsRequests : Layout → Bool
  | .nm op _ => op == 0x60 || op == 0x61
  | l => 0x200 ≤ l.op && l.op ≤ 0x210 && !(l.op == 0x202 || l.op == 0x203 || l.op == 0x20A || l.op == 0x20D)

/-- Instructions that a speculative fragment does not issue before confirmation (R128, R170); one that carries `.amax`
waits too, so its update is made for the confirmed lanes (R67). -/
def Layout.waitsConfirm : Layout → Bool
  | .nm op _ => op == 0x61 || op == 0x63
  | .nj _ => true
  | .movs _ o => match o.op with | .vFromS _ => false | _ => true
  | .sr op o => op == 0x145 || o.sreg
  | .pack _ o => o.amax
  | l =>
    l.op == 0x143 || (0x146 ≤ l.op && l.op ≤ 0x149) || l.op == 0x181 || l.op == 0x182 ||
    (0x1C0 ≤ l.op && l.op ≤ 0x1CD && l.op != 0x1CB && l.op != 0x1CC) ||
    (0x200 ≤ l.op && l.op ≤ 0x3FE && !(l.op == 0x200 || l.op == 0x202 || l.op == 0x204 || l.op == 0x206 || l.op == 0x20F))

/-- The pipes of a scheduler (R312). -/
inductive Pipe where
  | fma | sfu | lsu | brc | eng
  deriving DecidableEq, Repr

def Layout.pipe : Layout → Pipe
  | .event | .h2 _ _ | .n3 _ _ | .ni _ _ => .fma
  | .nm _ _ => .lsu
  | .nj _ | .np _ => .brc
  | l =>
    if l.op < 0x100 then .fma else if l.op < 0x140 then .sfu else if l.op < 0x180 then .fma
    else if l.op < 0x1C0 then .eng else if l.op < 0x200 then .brc else if l.op < 0x2C0 then .lsu else .eng

/-- The shared unit an ENG instruction needs (R314): 0 transform pipe, 1 matrix engine, 2 scan engine, 3 the port. -/
def Layout.engUnit (l : Layout) : Nat :=
  if l.op < 0x1C0 then 0 else if l.op < 0x300 then 1 else if 0x340 ≤ l.op && l.op ≤ 0x343 then 2 else 3

end Sys2Proof
end

