-- ==== Sys2Proof/Machine/Flags.lean ====
section
/-! DEFINITION. Condition flags (R58-R60, R131-R133, R137, R140). -/

namespace Sys2Proof.Machine

/-- R60: the guard condition on one lane's flags. -/
def holds (g : Guard) (f : CC) : Bool :=
  match g with
  | .al => true
  | .eq => f.z
  | .ne => !f.z
  | .cs => f.c
  | .cc => !f.c
  | .mi => f.n
  | .pl => !f.n
  | .vs => f.v
  | .vc => !f.v
  | .hi => f.c && !f.z
  | .ls => !f.c || f.z
  | .ge => f.n == f.v
  | .lt => f.n != f.v
  | .gt => !f.z && f.n == f.v
  | .le => f.z || f.n != f.v
  | .nv => false

/-- Integer addition with a carry in (R59, R131). -/
def ccAdd {w : Nat} (a b : BitVec w) (cin : Nat) : CC :=
  let r := a + b + BitVec.ofNat w cin
  let x : Int := a.toInt + b.toInt + cin
  { n := r.msb, z := r == 0, c := decide (2 ^ w ≤ a.toNat + b.toNat + cin),
    v := decide (x < -2 ^ (w - 1)) || decide (2 ^ (w - 1) ≤ x) }

/-- Integer subtraction with a borrow in (R59, R131). -/
def ccSub {w : Nat} (a b : BitVec w) (bin : Nat) : CC :=
  let r := a - b - BitVec.ofNat w bin
  let x : Int := a.toInt - b.toInt - bin
  { n := r.msb, z := r == 0, c := decide (b.toNat + bin ≤ a.toNat),
    v := decide (x < -2 ^ (w - 1)) || decide (2 ^ (w - 1) ≤ x) }

/-- Other integer and logic (R59). -/
def ccInt {w : Nat} (r : BitVec w) : CC := { n := r.msb, z := r == 0, c := false, v := false }

/-- Floating point (R59). -/
def ccFloat (f : Fmt) (r : Nat) : CC :=
  { n := r / 2 ^ f.low % 2 == 1, z := r % 2 ^ f.low == 0, c := (f.decode r).isNan,
    v := match f.decode r with | .inf _ => true | _ => false }

/-- FP32 on a word. -/
def ccF32 (r : Word) : CC := ccFloat fp32 r.toNat

/-- The elements of a packed word (R70). -/
def elems (w : Nat) (x : Word) : List Nat := (List.range (32 / w)).map fun k => x.toNat / 2 ^ (w * k) % 2 ^ w

/-- A packed word of elements. -/
def packElems (w : Nat) (l : List Nat) : Word :=
  BitVec.ofNat 32 (l.foldr (fun e acc => e % 2 ^ w + 2 ^ w * acc) 0)

/-- A packed result (R59): element width and whether the elements are floating point. -/
def ccPacked (w : Nat) (fp : Bool) (r : Word) : CC :=
  { n := (elems w r).any fun e => e / 2 ^ (w - 1) % 2 == 1,
    z := (elems w r).all fun e => if fp then e % 2 ^ (w - 1) == 0 else e == 0, c := false, v := false }

/-- FCMP's flags (R140). -/
def ccFcmp (f : Fmt) (a b : Nat) : CC :=
  match f.decode a, f.decode b with
  | .nan, _ | _, .nan => { n := false, z := false, c := true, v := true }
  | x, y =>
    let c := x.cmp y
    if c < 0 then { n := true, z := false, c := false, v := false }
    else if c = 0 then { n := false, z := true, c := true, v := false }
    else { n := false, z := false, c := true, v := false }

end Sys2Proof.Machine
end

