-- ==== Sys2Proof/Machine/Memory.lean ====
section
/-! DEFINITION. Finding and updating the parts of the state; physical numbering (R15); slices (R263-R268), reservations
(R185), translation (R324-R329), fault and error records (R332, R340), and MSI-X (R366). -/

namespace Sys2Proof.Machine

/-! ### Parts of the state -/

def State.block? (s : State) (uid : Nat) : Option Block := s.blocks.find? (·.uid == uid)

def State.modBlock (s : State) (uid : Nat) (f : Block → Block) : State :=
  { s with blocks := updFirst (·.uid == uid) f s.blocks }

/-- The block is on its core. -/
def Block.present (b : Block) : Bool := match b.phase with | .resident | .stopping _ _ => true | _ => false

def State.warp? (s : State) (uid wi : Nat) : Option Warp := (s.block? uid).bind (·.warps[wi]?)

def State.modWarp (s : State) (uid wi : Nat) (f : Warp → Warp) : State :=
  s.modBlock uid fun b => { b with warps := updAt f wi b.warps }

def State.launch? (s : State) (id : Nat) : Option Launch := s.launches.find? (·.id == id)

/-- The launch identifier of the n-th launch: from 1 up to 0x7FFF_FFFF and then from 1 again (R302); 0 names none. -/
def launchIdent (n : Nat) : Nat := if n = 0 then 0 else (n - 1) % 0x7FFF_FFFF + 1

def State.modLaunch (s : State) (id : Nat) (f : Launch → Launch) : State :=
  { s with launches := updFirst (·.id == id) f s.launches }

def State.core (s : State) (c : Nat) : Core := tget {} s.cores c

def State.modCore (s : State) (c : Nat) (f : Core → Core) : State :=
  { s with cores := tput s.cores c (f (s.core c)) }

def State.modReq (s : State) (id : Nat) (f : Req → Req) : State :=
  { s with reqs := updFirst (·.id == id) f s.reqs }

def State.queue (s : State) (q : Nat) : Queue := vget {} s.queues q

def State.modQueue (s : State) (q : Nat) (f : Queue → Queue) : State :=
  { s with queues := vset s.queues q (f (s.queue q)) }

/-- A fragment of a warp: a split-table entry, or a path of an unconfirmed branch. -/
def Warp.frag? (w : Warp) : FragSel → Option Frag
  | .entry i => w.split[i]
  | .path i t => (w.specs.find? (·.entry == i)).bind fun p => (if t then p.taken else p.fall).map (·.frag)

/-- Update the speculative fragment of a path. -/
def Spec.modPath (p : Spec) (t : Bool) (f : Frag → Frag) : Spec :=
  let g (x : Path) : Path := { x with frag := f x.frag }
  if t then { p with taken := p.taken.map g } else { p with fall := p.fall.map g }

/-- Update a fragment. -/
def Warp.modFrag (w : Warp) (f : Frag → Frag) : FragSel → Warp
  | .entry i => { w with split := w.split.set i (w.split[i].map f) }
  | .path i t => { w with specs := updFirst (fun p => p.entry == i) (fun p => p.modPath t f) w.specs }

def State.modFrag (s : State) (r : FragRef) (f : Frag → Frag) : State :=
  s.modWarp r.block r.warp fun w => w.modFrag f r.sel

/-- Draw a free value's number (notes/assumptions/2.md). (DESIGN CHOICE, unsafe: notes/assumptions/2.md). -/
def State.draw (s : State) : Nat × State := (s.fresh, { s with fresh := s.fresh + 1 })

/-- Drop the pick at the head of the list. -/
def State.popPick (s : State) : State := { s with picks := s.picks.tail }

/-! ### Physical numbering (R15) -/

/-- The compute dies in service, ascending. -/
def State.dieList (s : State) : List Nat := (List.range 8).filter s.dev.dies.getLsbD

/-- Logical cores in service (R15). -/
def State.numCores (s : State) : Nat := 80 * s.dieList.length

/-- The physical core of a logical one. -/
def State.phys (s : State) (c : Nat) : Nat := 80 * (s.dieList[c / 80]?.getD 0) + c % 80

def State.dieOf (s : State) (c : Nat) : Nat := s.phys c / 80
def State.quadOf (s : State) (c : Nat) : Nat := s.phys c / 4
def State.columnOf (s : State) (c : Nat) : Nat := s.phys c / 16

/-- The logical core at a physical position, if its die is in service. -/
def State.logical? (s : State) (p : Nat) : Option Nat :=
  (s.dieList.findIdx? (· == p / 80)).map fun k => 80 * k + p % 80

/-- The instance of a scope that contains a core (R18). -/
def State.instOf (s : State) (sc : Scope) (c : Nat) : Nat :=
  match sc with
  | .core => s.phys c
  | .quad => s.quadOf c
  | .die => s.dieOf c
  | .dev | .pod => 0

/-- A vault tensor of a context (R250, R298). -/
def State.tensor? (s : State) (asid idx : Nat) : Option Tensor :=
  if idx < 4096 then (s.tensors.find? (·.1 == asid * 4096 + idx)).map (·.2) else none

/-! ### Physical memory and slices -/

/-- The physical line key of an address: device memory, host memory and each pod device apart. -/
def lineKey (t : Target) (pa : Nat) : Nat :=
  match t with
  | .device => pa / 128
  | .host => 2 ^ 60 + pa / 128
  | .remote d => 2 ^ 61 * (d + 1) + pa / 128

def State.physGet (s : State) (t : Target) (a : Nat) : Byte :=
  match t with
  | .device => s.mem.get a
  | .host => s.host.get a
  | .remote d => Config.remoteByte d a s.time

def State.physRead (s : State) (t : Target) (a n : Nat) : Nat := leRead (s.physGet t) a n

/-- A launched kernel has not ended, so that its fetch may still see what a write replaces (R88). -/
def State.fetching (s : State) : Bool := s.launches.any fun l => l.st == .running

/-- The halfwords that a write of bytes changes, as they stand before it (R88). -/
def State.replaced (s : State) (t : Target) (a : Nat) (bs : List Byte) : List PastHalf :=
  (List.range ((a + bs.length + 1) / 2 - a / 2)).filterMap fun k =>
    let h := 2 * (a / 2 + k)
    let new (j : Nat) : Byte := if j < a then s.physGet t j else bs.getD (j - a) (s.physGet t j)
    if new h == s.physGet t h && new (h + 1) == s.physGet t (h + 1) then none
    else some ⟨t, h, BitVec.ofNat 16 (s.physRead t h 2), s.time⟩

/-- Write bytes of memory. -/
def State.physPut (s : State) (t : Target) (a : Nat) (bs : List Byte) : State :=
  match t with
  | .device => { s with mem := s.mem.writeBytes a bs }
  | .host => { s with host := s.host.writeBytes a bs }
  | .remote _ => s

/-- Write bytes of memory, what they replace being kept while a kernel runs (R88). -/
def State.physWrite (s : State) (t : Target) (a : Nat) (bs : List Byte) : State :=
  let s := if s.fetching then { s with past := s.replaced t a bs ++ s.past } else s
  s.physPut t a bs

/-! ### Check values (R342, R375, R376) -/

/-- One bit of the CRC: the bit that leaves and the polynomial 0x8BB7 (R375). -/
def crcStep (r : BitVec 16) : BitVec 16 := if r.getLsbD 15 then (r <<< 1) ^^^ 0x8BB7#16 else r <<< 1

/-- One byte of the CRC, most significant bit first (R375). -/
def crcByte (r : BitVec 16) (b : Byte) : BitVec 16 :=
  (List.range 8).foldl (fun r _ => crcStep r) (r ^^^ (b.setWidth 16 <<< 8))

/-- CRC-16/T10-DIF of bytes: initial value 0, no reflection, no final XOR (R375). -/
def crc16 (bs : List Byte) : BitVec 16 := bs.foldl crcByte 0

/-- The space of a memory's sectors, and of their copies in the L2. -/
def Target.badSpace : Target → Nat
  | .device => 1
  | .host => 2
  | .remote _ => 4
def Target.l2Space (t : Target) : Nat := t.badSpace + 4

/-- The check of a sector fails. -/
def State.isBad (s : State) (space sector : Nat) : Bool := s.bad.any fun b => b.space == space && b.at_ == sector

/-- The byte of a space at an address. -/
def State.spaceGet (s : State) (space a : Nat) : Byte :=
  if space = 3 then s.vault.get a else if space = 2 || space = 6 then s.host.get a else s.mem.get a

/-- The check value a sector holds (R375): the CRC of its 32 bytes, or another where an upset has changed one of the two. -/
def State.checkOf (s : State) (space sector : Nat) : BitVec 16 :=
  crc16 ((List.range 32).map fun k => s.spaceGet space (sector + k)) ^^^
    (match s.bad.find? fun b => b.space == space && b.at_ == sector with | some b => b.syn | none => 0)

/-- The port whose range holds a second-tier address (R377). -/
def State.cxlPortOf (s : State) (pa : Nat) : Option (Fin 4) :=
  (List.finRange 4).find? fun p => decide (s.env.cxlRanges[p].1 ≤ pa) && decide (pa < s.env.cxlRanges[p].1 + s.env.cxlRanges[p].2)

/-- No port serves a second-tier address: its port is down, or no port's range holds it (R377). (DESIGN CHOICE, unsafe: notes/assumptions/69.md). -/
def State.cxlLost (s : State) (tier pa : Nat) : Bool :=
  tier == 1 && !(match s.cxlPortOf pa with | some p => s.env.cxlUp[p] | none => false)

/-- A write or a read finds no memory to act on (R377); XINFO of R335. -/
def State.lostAt (s : State) (tier pa : Nat) : Option Word := if s.cxlLost tier pa then some 4 else none

/-- A sector whose check value fails holds an address (R342), or its CXL port is down (R377); XINFO of R335. -/
def State.badAt (s : State) (t : Target) (tier pa : Nat) : Option Word :=
  if s.cxlLost tier pa then some 4
  else if s.isBad t.l2Space (pa / 32 * 32) then some 1
  else if s.isBad t.badSpace (pa / 32 * 32) then
    some (match t with | .device => if tier = 1 then 4 else 2 | _ => 5)
  else none

/-- The owning slice (R264). -/
def State.sliceOf (s : State) (pa : Nat) (home : Option Nat) : Nat :=
  let h := pa / 128 % 2 ^ 41
  let g := h ^^^ (h / 2 ^ 13) ^^^ (h / 2 ^ 26)
  let i := match home with
    | some d => if s.env.config.numaPin then 12 * d + g % 12 else g % 96
    | none => g % 96
  tget i s.slmap i

/-- A reservation on a granule that n bytes at pa reach. -/
def resvHit (t : Target) (pa n : Nat) (r : Option (Target × Nat)) : Bool :=
  match r with
  | some g => g.1 == t && decide (pa / 32 ≤ g.2) && decide (g.2 * 32 < pa + max n 1)
  | none => false

/-- A write performed clears every reservation on the granules it reaches (R185). -/
def State.clearResv (s : State) (t : Target) (pa n : Nat) : State :=
  { s with blocks := s.blocks.map fun b => { b with warps := b.warps.map fun w =>
      { w with resv := w.resv.map fun r => if resvHit t pa n r then none else r } } }

/-- A lease granted (R268); a die for a core of this device, none for another device. -/
def State.grant (s : State) (key : Nat) (len : Nat) (die : Option Nat) : State × Nat :=
  let l := tget {} s.l2 key
  let e := s.time + len
  let l' := { l with lexp := max l.lexp e,
                     dies := match die with | some d => l.dies ||| (1#8 <<< d) | none => l.dies }
  ({ s with l2 := tput s.l2 key { l' with gone := false } }, e)

/-- The lease length of a class (R268). -/
def leaseNs (c : Nat) : Nat := if c = 0 then 64 else if c = 1 then 512 else 4096

/-- A write within one line at its slice (R268), by an agent on a die, or on none: the state, wdie and wdev. -/
def State.lineWrite (s : State) (t : Target) (pa : Nat) (bs : List Byte) (die : Option Nat) : State × Nat × Nat :=
  let key := lineKey t pa
  let l := tget {} s.l2 key
  let dies := if l.lexp ≤ s.time then 0 else l.dies
  let wdev := max s.time l.lexp
  let wdie := match die with
    | some d => if dies.getLsbD d then wdev else s.time
    | none => s.time
  let s := (s.physWrite t pa bs).clearResv t pa bs.length
  ({ s with l2 := tput s.l2 key { l with dies := dies, wct := wdev, gone := false } }, wdie, wdev)

/-- Bytes cut at 128-byte lines, on fuel. -/
def linePieces : Nat → Nat → List Byte → List (Nat × List Byte)
  | 0, _, _ => []
  | f + 1, a, bs =>
    let k := 128 - a % 128
    if bs.length ≤ k then [(a, bs)] else (a, bs.take k) :: linePieces f (a + k) (bs.drop k)

/-- A write, line by line at the slices (R268, R287): the state and the latest wdie and wdev. -/
def State.sliceWrite (s : State) (t : Target) (pa : Nat) (bs : List Byte) (die : Option Nat) : State × Nat × Nat :=
  if pa % 128 + bs.length ≤ 128 then s.lineWrite t pa bs die
  else (linePieces (bs.length / 128 + 2) pa bs).foldl (fun x p =>
    let y := x.1.lineWrite t p.1 p.2 die
    (y.1, max x.2.1 y.2.1, max x.2.2 y.2.2)) (s, 0, 0)

/-- A write that covers a whole 32-byte sector stores a good check value (R342); one that does not leaves the difference from the
CRC as it is, so that a bad sector stays bad (R376). -/
def State.goodSector (s : State) (t : Target) (pa n : Nat) : State :=
  { s with bad := s.bad.filter fun b =>
      !((b.space == t.badSpace || b.space == t.l2Space) && decide (pa ≤ b.at_) && decide (b.at_ + 32 ≤ pa + n)) }

/-- The write completion time a read returns (R268). -/
def State.wctAt (s : State) (t : Target) (pa : Nat) : Nat := (tget {} s.l2 (lineKey t pa)).wct

/-! ### Translation -/

/-- Access kinds, in the order of R332's codes. -/
inductive Acc where
  | rd | wr | rmw | fetch | engRd | engWr | engRmw
  deriving DecidableEq, Repr

def Acc.code : Acc → Nat
  | .rd => 0 | .wr => 1 | .rmw => 2 | .fetch => 3 | .engRd => 4 | .engWr | .engRmw => 5

/-- The outcome of a translation: an address with attributes, or a fault with whether the entry is malformed. -/
inductive Xlate where
  | ok (pa : Nat) (a : Attr)
  | fault (code : Nat) (malformed : Bool)
  deriving DecidableEq, Repr

/-- The page shift of a size code (R328). -/
def pageShift (z : Nat) : Nat := if z = 0 then 16 else if z = 1 then 21 else 30

/-- The attributes of a page-table entry (R328). -/
def pteAttr (p : BitVec 128) : Attr :=
  { target := match fieldOf p 17 2 with
      | 2 => .host
      | 3 => .remote (fieldOf p 19 10)
      | _ => .device,
    tier := fieldOf p 17 2, policy := fieldOf p 15 2, lease := fieldOf p 8 2, stable := p.getLsbD 7,
    home := if p.getLsbD 11 then some (fieldOf p 12 3) else none,
    r := p.getLsbD 4, w := p.getLsbD 5, x := p.getLsbD 6 }

/-- A malformed entry (R329). -/
def pteMalformed (p : BitVec 128) : Bool :=
  fieldOf p 15 2 == 3 || fieldOf p 8 2 == 3 || fieldOf p 29 3 != 0 || fieldOf p 19 10 > 575 ||
  (fieldOf p 19 10 != 0 && fieldOf p 17 2 != 3) ||
  (fieldOf p 2 2 == 1 && fieldOf p 88 5 != 0) || (fieldOf p 2 2 == 2 && fieldOf p 88 14 != 0)

/-- The permission an access needs (R329). -/
def Attr.permits (a : Attr) : Acc → Bool
  | .rd | .engRd => a.r
  | .wr | .engWr => a.w
  | .rmw | .engRmw => a.r && a.w
  | .fetch => a.x

/-- The result of a found entry (R329). -/
def pteResult (p : BitVec 128) (va : Nat) (acc : Acc) : Xlate :=
  if !p.getLsbD 1 then .fault 0x08 false
  else if pteMalformed p then .fault 0x09 true
  else if !(pteAttr p).permits acc then .fault 0x09 false
  else
    let sh := pageShift (fieldOf p 2 2)
    .ok (fieldOf p 88 40 * 2 ^ 16 + va % 2 ^ sh) (pteAttr p)

/-- The entry of some that holds an address, of a page size. -/
def tlbAt (l : List TlbEntry) (asid va z : Nat) : Option TlbEntry :=
  l.find? fun e => e.asid == asid && e.size == z && e.vpn == va / 2 ^ pageShift z

/-- One probe of the page table (R329), from bucket h on, on fuel. -/
def State.probe (s : State) (base bits asid z vpn : Nat) : Nat → Nat → Option (BitVec 128)
  | 0, _ => none
  | n + 1, h =>
    let bucket := (List.range 8).map fun k => BitVec.ofNat 128 (s.mem.read (base + 128 * (h % 2 ^ bits) + 16 * k) 16)
    match bucket.find? fun p => p.getLsbD 0 && fieldOf p 2 2 == z && fieldOf p 32 16 == asid && fieldOf p 48 40 == vpn with
    | some p => some p
    | none => if bucket.any fun p => !p.getLsbD 0 then none else s.probe base bits asid z vpn n (h + 1)

/-- A lookup of the page table (R327, R329). -/
def State.walk (s : State) (asid va : Nat) : Option (BitVec 128) :=
  let ctx := s.dev.ctxBase.toNat + 32 * asid
  let base := s.mem.read ctx 8
  let c := BitVec.ofNat 32 (s.mem.read (ctx + 8) 4)
  let bits := fieldOf c 0 6
  if !c.getLsbD 31 || bits < 10 || 32 < bits then none
  else
    let go (z : Nat) :=
      let vpn := va / 2 ^ pageShift z
      let h := ((vpn ^^^ (asid * 2 ^ 40)) * 0x9E3779B97F4A7C15 % 2 ^ 64) / 2 ^ (64 - bits)
      s.probe base bits asid z vpn 8 h
    go 0 <|> go 1 <|> go 2

/-- The entry of a quad TLB that serves an address, of the smallest page it holds; a large page's serves its whole page, except
where the table has a smaller page for the address (R325, R329). (DEDUCED, unsafe: notes/assumptions/57.md). -/
def State.tlbFind (s : State) (quad asid va : Nat) : Option TlbEntry :=
  let l := tget [] s.tlbs quad
  match tlbAt l asid va 0 with
  | some e => some e
  | none => match tlbAt l asid va 1 <|> tlbAt l asid va 2 with
    | none => none
    | some e => match s.walk asid va with
      | some p => if fieldOf p 2 2 < e.size then none else some e
      | none => some e

/-- Fill a quad TLB (R325); the entry replaced is a free choice. -/
def State.tlbFill (s : State) (quad asid va : Nat) (p : BitVec 128) : State :=
  let l := tget [] s.tlbs quad
  let (n, s) := if l.length ≥ Config.tlbEntries then s.draw else (0, s)
  let l := if l.length ≥ Config.tlbEntries then l.eraseIdx (Config.victim n % l.length) else l
  { s with tlbs := tput s.tlbs quad (⟨asid, fieldOf p 2 2, va / 2 ^ pageShift (fieldOf p 2 2), p⟩ :: l) }

/-- The page of a note holds an address of a context. -/
def PageMap.holds (m : PageMap) (asid va : Nat) : Bool := m.asid == asid && va / 2 ^ m.shift == m.page

/-- The note of the page that an entry of the page table maps an address by (R328). -/
def pteNote (asid va : Nat) (p : BitVec 128) : PageMap :=
  let sh := pageShift (fieldOf p 2 2)
  ⟨asid, sh, va / 2 ^ sh, (pteAttr p).target, fieldOf p 88 40 * 2 ^ 16, (pteAttr p).home, false⟩

/-- The page table's mapping of an address: none where no usable entry holds it. -/
def State.mapping (s : State) (asid va : Nat) : Option PageMap :=
  (s.walk asid va).bind fun p => if p.getLsbD 1 && !pteMalformed p then some (pteNote asid va p) else none

/-- A line of the page lies in the L2 (R264, R267). -/
def State.pageInL2 (s : State) (m : PageMap) : Bool :=
  s.l2.any fun x => !x.2.gone && decide (lineKey m.target m.pa ≤ x.1) && decide (x.1 < lineKey m.target m.pa + 2 ^ m.shift / 128)

/-- The page table gives an address of a noted page another physical address or home die than the note has. -/
def State.movedAt (s : State) (m : PageMap) (va : Nat) : Bool :=
  match s.mapping m.asid va with
  | some x => x.target != m.target || x.pa + va % 2 ^ x.shift != m.pa + va % 2 ^ m.shift || x.home != m.home
  | none => false

/-- The page table gives a noted page another physical address or home die (R264); where smaller pages hold it now, one of them. -/
def State.moved (s : State) (m : PageMap) : Bool :=
  let va := m.page * 2 ^ m.shift
  match s.mapping m.asid va with
  | some x => if m.shift ≤ x.shift then s.movedAt m va
      else (List.range (2 ^ (m.shift - x.shift))).any fun k => s.movedAt m (va + k * 2 ^ x.shift)
  | none => false

/-- A page's values are undefined from now on, its copies in the L1s among them (R264). -/
def State.spoilPage (s : State) (m : PageMap) : State :=
  let stale (l : L1Line) : L1Line := if m.holds l.asid (l.vline * 128) then { l with attr := { l.attr with undef := true } } else l
  { s with maps := updFirst (· == m) (fun x => { x with undef := true }) s.maps
           cores := s.cores.map fun c => (c.1, { c.2 with lines := c.2.lines.map stale }) }

/-- Memory, or where the page tables lie, has changed: each noted page whose physical address or home die the change has altered has
undefined values if a line of it lies in the L2 (R264), and is forgotten if none does. (DEDUCED, unsafe: notes/assumptions/70.md). -/
def State.remapped (s : State) : State :=
  s.maps.foldl (fun t m =>
    if m.undef || !s.moved m then t
    else if s.pageInL2 m then t.spoilPage m
    else { t with maps := t.maps.filter (· != m) }) s

/-- The page tables may have changed between two states. -/
def State.tablesMoved (before after : State) : Bool := before.mem != after.mem || before.dev.ctxBase != after.dev.ctxBase

/-- A step's outcome with what it has changed under the page tables taken (R264). -/
def State.settled (before : State) (o : Host.Outcome State Fault Refusal) : Host.Outcome State Fault Refusal :=
  match o with
  | .next t => .next (if before.tablesMoved t then t.remapped else t)
  | o => o

/-- Note the page of a translation, as the page table maps it, and take what it leaves undefined: a page whose physical address or
home die has changed while a line of it lay in the L2 has undefined values until a MAPFLUSH covers it (R264). (DEDUCED, unsafe: notes/assumptions/70.md). -/
def State.notePage (s : State) (asid va : Nat) (m : PageMap) (a : Attr) : State × Attr :=
  match s.maps.filter (·.holds asid va) with
  | [] => ({ s with maps := (s.mapping asid va).getD m :: s.maps }, a)
  | l => (s, { a with undef := a.undef || l.any (·.undef) })

/-- A translation with what its page and its line leave undefined (R264, R292). -/
def State.noteXlate (s : State) (asid va : Nat) (p : BitVec 128) (x : Xlate) : State × Xlate :=
  match x with
  | .fault c m => (s, .fault c m)
  | .ok pa a =>
    let (s, a) := s.notePage asid va (pteNote asid va p) a
    (s, .ok pa { a with undef := a.undef || (a.policy != 2 && s.hostStale.contains (lineKey a.target pa)) })

/-- Translate an address for an access through a quad's TLB (R324-R329). -/
def State.xlate (s : State) (quad asid va : Nat) (acc : Acc) : State × Xlate :=
  match s.tlbFind quad asid va with
  | some e => s.noteXlate asid va e.pte (pteResult e.pte va acc)
  | none =>
    match s.walk asid va with
    | none => (s, .fault 0x0A false)
    | some p =>
      if p.getLsbD 1 && !pteMalformed p then (s.tlbFill quad asid va p).noteXlate asid va p (pteResult p va acc)
      else (s, pteResult p va acc)

/-- n undefined bytes by a free value's number (R10). -/
def freeRun (k n : Nat) : List Byte := (List.range n).map fun j => Config.freeByte (2 ^ 24 * k + j)

/-- n undefined bytes. -/
def State.freeBytes (s : State) (n : Nat) : State × List Byte := let (k, s) := s.draw; (s, freeRun k n)

/-- A page's addresses, or a line of them the host has stored to since the device cached it, are undefined (R264, R292). -/
def State.undefAt (s : State) (a : Attr) (pa n : Nat) : Bool :=
  a.undef || (a.policy != 2 && s.hostStale.any fun k => decide (lineKey a.target pa ≤ k) && decide (k ≤ lineKey a.target (pa + n - 1)))

/-- The L2 holds the lines of this device's memories that are read, but for those of policy 2 (R251, R267). -/
def State.cached (s : State) (a : Attr) (pa n : Nat) : State :=
  match a.target with
  | .remote _ => s
  | t => if a.policy == 2 then s else
    { s with l2 := (List.range (lineKey t (pa + n - 1) + 1 - lineKey t pa)).foldl (fun l k =>
        tput l (lineKey t pa + k) { tget {} l (lineKey t pa + k) with gone := false }) s.l2 }

/-- Bytes read at a translated address: memory's, or undefined ones. -/
def State.attrBytes (s : State) (a : Attr) (pa n : Nat) : State × List Byte :=
  if s.undefAt a pa n then s.freeBytes n else (s.cached a pa n, (List.range n).map fun k => s.physGet a.target (pa + k))

/-- A value read at a translated address. -/
def State.attrRead (s : State) (a : Attr) (pa n : Nat) : State × Nat :=
  if s.undefAt a pa n then let (k, s) := s.draw; (s, leNat (freeRun k n)) else (s.cached a pa n, s.physRead a.target pa n)

/-- Some port reaches the pod, and the device is in pod service (R378, R381). -/
def State.podUp (s : State) : Bool := !s.env.syncLost && s.env.linkLanes.toList.any fun n => decide (0 < n)

/-- A target that has not answered a request is unreachable from then on (R380). (DESIGN CHOICE, unsafe: notes/assumptions/94.md). -/
def State.unreach (s : State) (t : Target) : State :=
  match t with
  | .remote d => { s with env := { s.env with unreachable := d :: s.env.unreachable.filter (· != d) } }
  | _ => s

/-- What comes of a request that this device's engines, fetch or command processor send: to its own memory it is performed; to
another device it is performed, refused by its windows, or not answered, and then its cause and XINFO (R379-R381). (DESIGN CHOICE, safe: notes/assumptions/72.md). -/
def State.sendOut (s : State) (t : Target) (acc : Acc) : State × Option (Nat × Word) :=
  match t with
  | .remote _ =>
    if !s.podUp then (s, some (0x0B, 5))
    else
      let (n, s) := s.draw
      match Config.remoteOutcome n % 3 with
      | 1 => (s, some (9, BitVec.ofNat 32 acc.code))
      | 2 => (s.unreach t, some (0x0B, 5))
      | _ => (s, none)
  | _ => (s, none)

/-! ### Records to the host -/

/-- Raise an MSI-X vector; 2,048 or more raises nothing (R366). -/
def State.raise (s : State) (vec : Nat) : State := if vec < 2048 then { s with msix := s.msix ++ [vec] } else s

/-- A cause of degraded operation (R367, R382): its DEVCAUSE bit, REPLACE but for RATE, and the configured vector. -/
def State.degrade (s : State) (bit : Nat) : State :=
  ({ s with dev := { s.dev with cause := s.dev.cause ||| (1#6 <<< bit), degraded := true, replace := s.dev.replace || bit != 4 } }
    : State).raise s.env.config.vector

/-- Bytes a ring of n-byte records holds free, in records (R332, R340). -/
def Ring.room (r : Ring) : Nat := 2 ^ r.size - (r.wptr - r.rptr).toNat

/-- Saturating increment of a LOST counter. -/
def satInc (w : Word) : Word := if w == 0xFFFF_FFFF then w else w + 1

/-- Post a fault record (R332): the state and the identifier; its code and address are kept for FRESUME (R333). -/
def State.postFault (s : State) (code : Nat) (acc : Acc) (asid va lid core slot : Nat) : State × Nat :=
  let id := s.nextFault
  let nxt := if id + 1 = 2 ^ 30 then 1 else id + 1
  ({ s with nextFault := nxt, faultLog := tput s.faultLog id (code, va), faultQ := s.faultQ ++ [⟨id, code, acc.code, asid, va, lid, core, slot, s.time⟩] }, id)

/-- The 64 bytes of an error record (R340). -/
def errorBytes (lid asid cause : Nat) (xpc xaddr : DWord) (xmask xinfo : Word) (core slot die : Nat) (ordinal : Word)
    (time : Nat) : List Byte :=
  leBytes 4 (launchIdent lid) ++ leBytes 4 (asid % 2 ^ 16 + 2 ^ 16 * cause) ++ leBytes 8 xpc.toNat ++ leBytes 8 xaddr.toNat ++
  leBytes 4 xmask.toNat ++ leBytes 4 xinfo.toNat ++ leBytes 4 (core + 2 ^ 16 * slot + 2 ^ 24 * die) ++
  leBytes 4 ordinal.toNat ++ leBytes 8 time ++ leBytes 16 0

/-- Write an error record, or count it lost (R340). -/
def State.errorRecord (s : State) (lid asid cause : Nat) (xpc xaddr : DWord) (xmask xinfo : Word)
    (core slot die : Nat) (ordinal : Word) : State :=
  if s.el.en && 0 < s.el.room then
    let a := s.el.base.toNat + 64 * (s.el.wptr.toNat % 2 ^ s.el.size)
    let bs := errorBytes lid asid cause xpc xaddr xmask xinfo core slot die ordinal s.time
    ({ s with host := s.host.writeBytes a bs, el := { s.el with wptr := s.el.wptr + 1 } }).raise s.el.vec
  else { s with el := { s.el with lost := satInc s.el.lost } }

end Sys2Proof.Machine
end

