-- ==== Sys2Proof/Machine/TraceOps.lean ====
section
/-! DEFINITION. Stop-site ordinals (R347), the trace stream (R359-R364) and trigger conditions (R365). -/

namespace Sys2Proof.Machine

/-- Where a virtual address lies, as the floor die reads it, through the page table. -/
def State.virtAt (s : State) (asid va : Nat) : Option (Attr × Nat) :=
  match (s.walk asid (va % 2 ^ 56)).map (pteResult · (va % 2 ^ 56) .rd) with
  | some (.ok pa a) => some (a, pa)
  | _ => none

/-- A read of the floor die's own that finds a failing check (R342, R369, R376), or that another device does not answer (R379,
R380), is taken for one that does not translate. (DESIGN CHOICE, unsafe: notes/assumptions/83.md). -/
def State.unreadable (s : State) (a : Attr) (pa n : Nat) : Bool :=
  ((List.range ((pa + n + 31) / 32 - pa / 32)).any fun k => (s.badAt a.target a.tier ((pa / 32 + k) * 32)).isSome) ||
  (match a.target with
  | .remote _ => !s.podUp || Config.remoteOutcome (pa + 2 ^ 64 * s.time) % 3 != 0
  | _ => false)

/-- A little-endian value of virtual memory, on fuel of pages; none where a part does not translate. -/
def State.virtPages (s : State) (asid : Nat) : Nat → Nat → Nat → Option Nat
  | 0, _, _ => none
  | f + 1, va, n =>
    let here := min n (65536 - va % 65536)
    (s.virtAt asid va).bind fun x =>
      let v := s.physRead x.1.target x.2 here
      if s.unreadable x.1 x.2 here then none
      else if n ≤ here then some v else (s.virtPages asid f (va + here) (n - here)).map fun r => v + 256 ^ here * r

/-- A little-endian value of virtual memory; none where a byte does not translate or cannot be read. -/
def State.virtRead (s : State) (asid va n : Nat) : Option Nat := s.virtPages asid (n / 65536 + 2) va n

/-- The safe-point ordinal of the stop site at an address (R347); all ones where there is none. -/
def State.ordinalOf (s : State) (l : Launch) (pc : DWord) : Word :=
  let rec_ := l.desc.zsafe.toNat
  if rec_ = 0 then 0xFFFF_FFFF
  else
    match s.virtRead l.asid (rec_ + 4) 4 with
    | none => 0xFFFF_FFFF
    | some n =>
      match (List.range (min n 65536)).find? fun k =>
        s.virtRead l.asid (rec_ + 24 + 32 * k) 4 == some ((pc - l.desc.entry).toNat) with
      | some k => BitVec.ofNat 32 k
      | none => 0xFFFF_FFFF

/-- WARPSLOT (R22). -/
def Warp.warpSlot (w : Warp) : Nat := 16 * w.sched + w.slot

/-- A SYNC packet (R360). -/
def syncPacket (slot idx : Nat) (pc : DWord) (time : Nat) (mask : LaneMask) : List Byte :=
  [0x1F, BitVec.ofNat 8 slot, BitVec.ofNat 8 idx, 0] ++ leBytes 8 pc.toNat ++ leBytes 8 time ++ leBytes 4 mask.toNat

/-- The delta bytes of a packet: the fewest that hold the delta (R360). -/
def deltaBytes (d : Nat) : List Byte := leBytes ((List.range 9).find? (fun n => decide (d < 2 ^ (8 * n))) |>.getD 8) d

/-- A trigger is on for a core (R365). -/
def State.trigOn (s : State) (c : Nat) (n : Fin 4) : Bool := s.trigs[n].base != (s.core c).trig[n]

/-- Tracing is on for a core (R365). -/
def State.traceOn (s : State) (c : Nat) : Bool :=
  let ts := (List.finRange 4).filter fun n => s.trigs[n].en
  s.dev.trEn && (ts.isEmpty || ts.any fun n => s.trigOn c n)

/-- The fragments of a warp with their split-table indices, ascending. -/
def Warp.frags (w : Warp) : List (Fin 32 × Frag) := (List.finRange 32).filterMap fun i => (w.split[i]).map (i, ·)

/-- Insert by a key, stable. -/
def insertBy {α : Type} (k : α → Nat) (x : α) : List α → List α
  | [] => [x]
  | y :: r => if k x < k y then x :: y :: r else y :: insertBy k x r

/-- Sort by a key, stable. -/
def sortBy {α : Type} (k : α → Nat) (l : List α) : List α := l.foldl (fun acc x => insertBy k x acc) []

/-- The resident warps of a core with their block and index, in ascending WARPSLOT. -/
def State.coreWarps (s : State) (c : Nat) : List (Block × Nat × Warp) :=
  let l := (s.blocks.filter fun b => b.core == c && b.present).flatMap
    fun b => (b.warps.zipIdx).map fun (w, i) => (b, i, w)
  sortBy (fun x => x.2.2.warpSlot) l

/-- A SYNC set (R363). -/
def State.syncSet (s : State) (c : Nat) : List (List Byte) :=
  (s.coreWarps c).flatMap fun (b, _, w) =>
    if ((s.launch? b.lid).map (·.asid)) == some s.dev.trAsid then
      w.frags.map fun (i, f) => syncPacket w.warpSlot i.val f.pc s.time f.mask
    else []

/-- Free bytes of a core's trace region. -/
def State.traceRoom (s : State) (c : Nat) : Nat := 2 ^ s.dev.trRs - ((s.core c).trW - (s.core c).trR).toNat

/-- Write bytes to a core's trace stream (R359). -/
def State.traceBytes (s : State) (c : Nat) (bs : List Byte) : State :=
  let w := (s.core c).trW.toNat
  let base := s.dev.trBase.toNat + c * 2 ^ s.dev.trRs
  let s := (bs.zipIdx).foldl (fun s (b, i) => (s.sliceWrite .device (base + (w + i) % 2 ^ s.dev.trRs) [b] none).1) s
  s.modCore c fun k => { k with trW := k.trW + BitVec.ofNat 32 bs.length }

/-- Write a packet to a core's stream, with the LOSS and the SYNC set that are due before it (R360, R363, R364): what does not fit
together is not written, and the packet is counted as dropped. (DESIGN CHOICE, unsafe: notes/assumptions/92.md). -/
def State.putPacket (s : State) (c : Nat) (set : List (List Byte)) (p : TracePkt) : State :=
  let k := s.core c
  let due := match k.trSet with
    | none => false
    | some t => k.trCount ≥ 4096 || s.time ≥ t + 65536 || k.stopped
  let synced := k.trLost != 0 || due
  let preface := (if k.trLost == 0 then [] else [0x7F :: leBytes 4 k.trLost.toNat]) ++ (if synced then set else [])
  let last := if synced && !set.isEmpty then s.time else k.trLast
  let pkt := match p.hdr with
    | none => p.body
    | some h => let d := deltaBytes (s.time - last); (h + BitVec.ofNat 8 d.length) :: p.body ++ d
  let bytes := preface.flatten ++ pkt
  if bytes.length ≤ s.traceRoom c then
    (s.traceBytes c bytes).modCore c fun k =>
      { k with trLost := 0, trLast := s.time, stopped := false,
               trSet := if synced || k.trSet.isNone then some s.time else k.trSet,
               trCount := if synced then 1 else k.trCount + 1 }
  else s.modCore c fun k => { k with trLost := satInc k.trLost }

/-- Where a packet stands in its nanosecond (R362): at its WARPSLOT; a TRG after every warp. -/
def TracePkt.place (p : TracePkt) : Nat :=
  match p.hdr with
  | none => (p.body.getD 1 0).toNat
  | some h => if h == 0x80 then 256 else (p.body.headD 0).toNat

/-- The packets of the nanosecond that ends are written, in their order (R362). -/
def State.flushTrace (s : State) (c : Nat) : State :=
  let k := s.core c
  if k.pkts.isEmpty then s
  else ((sortBy TracePkt.place k.pkts).foldl (fun s p => s.putPacket c k.pktSet p) s).modCore c fun k => { k with pkts := [], pktSet := [] }

/-- Those of every core. -/
def State.flushTraces (s : State) : State := (s.cores.map (·.1)).foldl State.flushTrace s

/-- Emit a packet where tracing is on for its core and context: it is written when the nanosecond ends (R362), after the SYNC set, if
one is due, of the state before the nanosecond's first packet (R363). (DEDUCED, unsafe: notes/assumptions/95.md). -/
def State.packetIf (s : State) (on : Bool) (c asid : Nat) (hdr : Option (BitVec 8)) (body : List Byte) : State :=
  if !(on && asid == s.dev.trAsid) then s
  else
    let set := if (s.core c).pkts.isEmpty then s.syncSet c else (s.core c).pktSet
    s.modCore c fun k => { k with pkts := k.pkts ++ [⟨hdr, body⟩], pktSet := set }

/-- Emit a packet. -/
def State.packet (s : State) (c asid : Nat) (hdr : Option (BitVec 8)) (body : List Byte) : State :=
  s.packetIf (s.traceOn c) c asid hdr body

/-- A SYNC of one fragment (R362). -/
def State.syncFrag (s : State) (c asid : Nat) (w : Warp) (idx : Nat) (f : Frag) : State :=
  s.packet c asid none (syncPacket w.warpSlot idx f.pc s.time f.mask)

/-- Record that a trigger's start or stop condition of kind `kind` with operand v held in this cycle (R365). (DEDUCED, unsafe: notes/assumptions/35.md). -/
def State.trigNote (s : State) (c kind : Nat) (v : Word) : State :=
  s.modCore c fun k =>
    { k with trigEv := Vector.ofFn fun n =>
        let t := s.trigs[n]
        (k.trigEv[n].1 || (t.en && t.start == kind && t.startV == v),
         k.trigEv[n].2 || (t.en && t.stop == kind && t.stopV == v)) }

end Sys2Proof.Machine
end

