-- ==== Sys2Proof/Machine/Warps.lean ====
section
/-! DEFINITION. Fragments, splits, joins, ranks and the LFSR of a warp (R28-R39), its registers and full/empty bits
(R48-R52, R61), guards (R60) and AMAX (R67). -/

namespace Sys2Proof.Machine

/-! ### Registers -/

/-- A v register in all lanes. -/
def Warp.vr (w : Warp) (n : Nat) : Lanes Word := vget (Vector.replicate 32 0) w.v n
/-- A v register in one lane. -/
def Warp.vl (w : Warp) (n : Nat) (l : Lane) : Word := (w.vr n)[l]
/-- A v pair in one lane (R49). -/
def Warp.vp (w : Warp) (n : Nat) (l : Lane) : DWord := pairOf (w.vl n l) (w.vl (n + 1) l)
/-- An s register; s0 reads zero (R50). -/
def Warp.sr (w : Warp) (n : Nat) : Word := if n = 0 then 0 else vget 0 w.s n
/-- An s pair (R49, R50). -/
def Warp.sp (w : Warp) (n : Nat) : DWord := pairOf (w.sr n) (w.sr (n + 1))
/-- An h register. -/
def Warp.hr (w : Warp) (n : Nat) : DWord := vget 0 w.h n

/-- Write a v register in the lanes of a mask (R51). -/
def Warp.setV (w : Warp) (n : Nat) (m : LaneMask) (f : Lane → Word) : Warp :=
  { w with v := vset w.v n (lanesSet (w.vr n) m f) }
/-- Write a v pair in the lanes of a mask. -/
def Warp.setVP (w : Warp) (n : Nat) (m : LaneMask) (f : Lane → DWord) : Warp :=
  (w.setV n m fun l => loOf (f l)).setV (n + 1) m fun l => hiOf (f l)
/-- Write an s register; s0 discards it (R50). -/
def Warp.setS (w : Warp) (n : Nat) (x : Word) : Warp := if n = 0 then w else { w with s := vset w.s n x }
/-- Write an s pair. -/
def Warp.setSP (w : Warp) (n : Nat) (x : DWord) : Warp := (w.setS n (loOf x)).setS (n + 1) (hiOf x)
def Warp.setH (w : Warp) (n : Nat) (x : DWord) : Warp := { w with h := vset w.h n x }
/-- Write a CC set in the lanes of a mask (R58). -/
def Warp.setCC (w : Warp) (set : Bool) (m : LaneMask) (f : Lane → CC) : Warp :=
  if set then { w with cc1 := lanesSet w.cc1 m f } else { w with cc0 := lanesSet w.cc0 m f }
/-- The flags of a lane in a CC set. -/
def Warp.cc (w : Warp) (set : Bool) (l : Lane) : CC := if set then w.cc1[l] else w.cc0[l]

/-! ### Full/empty bits (R61) -/

/-- A register is full; s0 always is (R50). Tile bits are the block's. -/
def regFull (b : Block) (w : Warp) (r : RegClass × Nat) : Bool :=
  match r.1 with
  | .v => w.vFull.getLsbD r.2
  | .s => r.2 == 0 || w.sFull.getLsbD r.2
  | .h => w.hFull.getLsbD r.2
  | .tile => b.tileFull.getLsbD r.2

/-- Mark v, s and h registers full or empty. -/
def Warp.mark (w : Warp) (full : Bool) (r : RegClass × Nat) : Warp :=
  match r.1 with
  | .v => { w with vFull := setBit w.vFull r.2 full }
  | .s => { w with sFull := setBit w.sFull r.2 full }
  | .h => { w with hFull := setBit w.hFull r.2 full }
  | .tile => w

def Warp.markAll (w : Warp) (full : Bool) (l : List (RegClass × Nat)) : Warp := l.foldl (fun w r => w.mark full r) w

/-- The registers an instruction in the pipe writes. -/
def PipeItem.dests (p : PipeItem) : List (RegClass × Nat) :=
  p.v.map (fun x => (RegClass.v, x.1)) ++ (match p.s with | some x => [(RegClass.s, x.1)] | none => [])

/-! ### Guards and AMAX -/

/-- The lanes of a fragment in which an instruction's guard holds (R60). -/
def Warp.execMask (w : Warp) (m : LaneMask) (h : Option Head) : LaneMask :=
  match h with
  | none => m
  | some h => if h.guard == .al then m else m &&& maskOf fun l => holds h.guard (w.cc h.gset l)

/-- The AMAX update of R67 over inputs, all lanes together: the largest magnitude and whether a NaN was met. -/
def amaxOf (xs : List Nat) : Word × Bool :=
  xs.foldl (fun acc x => if (fp32.decode x).isNan then (acc.1, true)
    else (BitVec.ofNat 32 (fp32.maxNum acc.1.toNat (fp32.abs x)), acc.2)) (0, false)

/-- Apply an AMAX update (R67). -/
def Warp.amaxUpd (w : Warp) (u : Word × Bool) : Warp :=
  { w with amax := BitVec.ofNat 32 (fp32.maxNum w.amax.toNat u.1.toNat), nanSeen := w.nanSeen || u.2 }

/-! ### The LFSR (R36) -/

/-- One step: the bit shifted out and the new value. -/
def lfsrStep (x : Word) : Bool × Word :=
  let o := x.getLsbD 0
  (o, if o then (x >>> 1) ^^^ 0x80200003#32 else x >>> 1)

/-! ### Ranks -/

/-- Renumber the ranks 0, 1, … in the order of a key (R33). -/
def Warp.renumber (w : Warp) (key : Fin 32 → Frag → Nat) : Warp :=
  let keys := w.frags.map fun (i, f) => key i f
  { w with split := Vector.ofFn fun i => (w.split[i]).map fun f =>
      { f with rank := BitVec.ofNat 5 (keys.filter (· < key i f)).length } }

/-- Ranks without gaps in their existing order (R33). -/
def Warp.closeRanks (w : Warp) : Warp := w.renumber fun _ f => f.rank.toNat

/-- Rotation (R39): one fragment takes rank 0, the others keep their order; every wait count is 0. -/
def Warp.rotate (w : Warp) (i : Fin 32) : Warp :=
  let w := w.renumber fun j f => if j = i then 0 else f.rank.toNat + 1
  { w with split := w.split.map (Option.map fun f => { f with wait := 0 }) }

/-- YIELD (R165): one fragment takes the highest rank. -/
def Warp.yieldRank (w : Warp) (i : Fin 32) : Warp :=
  let w := w.renumber fun j f => if j = i then 1000 else f.rank.toNat
  { w with split := w.split.set i ((w.split[i]).map fun f => { f with wait := 0 }) }

/-! ### Joins (R31-R34) -/

/-- The join entry of an index; 63 is none. -/
def Warp.joinAt (w : Warp) (j : BitVec 6) : Option (Fin 32 × Join) :=
  if h : j.toNat < 32 then (w.join[j.toNat]).map (⟨j.toNat, h⟩, ·) else none

/-- The join chain of an index, nearest first (R32), on fuel. -/
def Warp.joinChain (w : Warp) : Nat → BitVec 6 → List (Fin 32 × Join)
  | 0, _ => []
  | n + 1, j => match w.joinAt j with
    | none => []
    | some (k, e) => (k, e) :: w.joinChain n e.parent

/-- The entry a fragment about to issue at its PC parks at (R32). -/
def Warp.parkEntry (w : Warp) (f : Frag) : Option (Fin 32) :=
  ((w.joinChain 32 f.join).find? fun (_, e) => e.addr == f.pc && e.depth == f.depth).map (·.1)

/-- Park a fragment at an entry of its chain (R32); its join field then names that entry. (DEDUCED, unsafe: notes/assumptions/74.md). -/
def Warp.parkAt (w : Warp) (i e : Fin 32) : Warp :=
  match w.split[i] with
  | none => w
  | some f =>
    let between := ((w.joinChain 32 f.join).map (·.1)).takeWhile (· != e)
    let join := Vector.ofFn fun k => (w.join[k]).map fun j =>
      if k = e then { j with arrived := j.arrived ||| f.mask }
      else if between.contains k then { j with expected := j.expected &&& ~~~f.mask } else j
    { w with join := join,
             split := w.split.set i (some { f with st := .parkedJoin, join := BitVec.ofNat 6 e.val, cond := .never }) }

/-- The entry to fuse or free next: the innermost whose arrived mask equals its expected mask (R33). -/
def Warp.readyJoin (w : Warp) : Option (Fin 32 × Join) :=
  let l := (List.finRange 32).filterMap fun k => (w.join[k]).bind fun e => if e.arrived == e.expected then some (k, e) else none
  l.foldl (fun acc x => match acc with
    | none => some x
    | some y => if popcount x.2.expected < popcount y.2.expected then some x else some y) none

/-- Fuse or free one entry (R33): the warp and the fused fragment's index; the fused fragment's wait count starts at 0. (DESIGN CHOICE, unsafe: notes/assumptions/88.md). -/
def Warp.fuseOne (w : Warp) (k : Fin 32) (e : Join) : Warp × Option (Fin 32) :=
  let w1 := { w with join := w.join.set k none }
  if e.expected == 0 then (w1, none)
  else
    let ps := w.frags.filter fun (_, f) => f.st == .parkedJoin && f.join == BitVec.ofNat 6 k.val
    match ps with
    | [] => (w1, none)
    | (i, f) :: _ =>
      let rank := ps.foldl (fun r x => if x.2.rank < r then x.2.rank else r) f.rank
      let fused : Frag := { mask := e.arrived, pc := e.addr, join := e.parent, depth := e.depth, rank := rank,
                            handler := f.handler, halted := ps.any (·.2.halted), stepped := ps.all (·.2.stepped),
                            held := ps.findSome? (·.2.held),
                            acquire := ps.foldl (fun a x => match a, x.2.acquire with
                              | some m, some n => some (max m n) | none, n => n | m, none => m) none }
      let split := Vector.ofFn fun j =>
        if j = i then some fused else if ps.any (·.1 == j) then none else w.split[j]
      let owner (r : RepState) : RepState := if ps.any fun x => r.owner == .entry x.1 then { r with owner := .entry i } else r
      ({ w1 with split := split, rep := w.rep.map owner }.closeRanks, some i)

/-- Fuse every ready entry, innermost first, on fuel: the warp and the fused indices in order (R33). -/
def Warp.fuseAll : Nat → Warp → Warp × List (Fin 32)
  | 0, w => (w, [])
  | n + 1, w => match w.readyJoin with
    | none => (w, [])
    | some (k, e) =>
      let r := w.fuseOne k e
      let r2 := Warp.fuseAll n r.1
      (r2.1, r.2.toList ++ r2.2)

/-- The owner of a REP whose fragment is gone (R110): the lanes that are left in its handler; with none left, the REP is over. (DEDUCED, unsafe: notes/assumptions/75.md). -/
def Warp.heir (w : Warp) : Warp :=
  match w.rep with
  | some r => match r.owner with
    | .path _ _ => w
    | .entry i =>
      if (w.split[i]).isSome then w
      else match w.frags.find? fun x => x.2.handler with
        | some (j, _) => { w with rep := some { r with owner := .entry j } }
        | none => { w with rep := none, repc := 0 }
  | none => w

/-- Remove lanes of a fragment from the warp (R34), before fusion is checked; the ranks close up where the whole fragment is gone. (DEDUCED, unsafe: notes/assumptions/74.md). -/
def Warp.exitLanes (w : Warp) (i : Fin 32) (m : LaneMask) : Warp :=
  match w.split[i] with
  | none => w
  | some f =>
    let chain := (w.joinChain 32 f.join).map (·.1)
    let join := Vector.ofFn fun k => (w.join[k]).map fun j =>
      if chain.contains k then { j with expected := j.expected &&& ~~~m } else j
    let left := f.mask &&& ~~~m
    let w := { w with join := join, exited := w.exited ||| m,
                      split := w.split.set i (if left == 0 then none else some { f with mask := left }),
                      resv := Vector.ofFn fun l => if m.getLsbD l.val then none else w.resv[l] }
    (if left == 0 then w.closeRanks else w).heir

/-! ### Splits (R30) -/

/-- The lowest free indices of the split table. -/
def Warp.freeSplits (w : Warp) : List (Fin 32) := (List.finRange 32).filter fun i => (w.split[i]).isNone

/-- A split of fragment i into children (mask, PC), two or more, the first keeping i's index (R361); `pref` is the
position that takes F's rank; `j` the children's join index and `depth` their depth. -/
def Warp.splitInto (w : Warp) (i : Fin 32) (f : Frag) (cs : List (LaneMask × DWord)) (pref : Nat) (j : BitVec 6)
    (depth : BitVec 8) : Warp × List (Fin 32) :=
  let idx := i :: w.freeSplits.take (cs.length - 1)
  let rankOf (p : Nat) : BitVec 5 :=
    if p = pref then f.rank else f.rank + BitVec.ofNat 5 (if p < pref then p + 1 else p)
  let up (g : Frag) : Frag := if g.rank > f.rank then { g with rank := g.rank + BitVec.ofNat 5 (cs.length - 1) } else g
  let raised : Warp := { w with split := w.split.map (Option.map up) }
  let kids := (idx.zip cs).zipIdx
  let split := kids.foldl (fun (sp : Vector (Option Frag) 32) ((k, m, pc), p) => sp.set k (some
      { mask := m, pc := pc, join := j, depth := depth, rank := rankOf p, handler := f.handler, halted := f.halted,
        stepped := f.stepped, acquire := f.acquire })) raised.split
  ({ raised with split := split }, idx)

/-- The join entry of a split (R30): inherited by the loop rule, or a new one. `ja`: the join address, none for join
field 0; `fd`: the fragment's depth. -/
def Warp.joinFor (w : Warp) (f : Frag) (ja : Option DWord) : Warp × BitVec 6 :=
  match ja with
  | none => (w, f.join)
  | some a =>
    let inherit := match w.joinAt f.join with
      | some (_, e) => e.addr == a && e.depth == f.depth
      | none => false
    if inherit then (w, f.join)
    else
      match (List.finRange 32).find? fun k => (w.join[k]).isNone with
      | none => (w, f.join)
      | some k => ({ w with join := w.join.set k (some ⟨a, f.depth, f.mask, 0, f.join⟩) }, BitVec.ofNat 6 k.val)

/-- Resolution of BR (R30): the warp and the indices of the resulting fragments. -/
def Warp.resolveBr (w : Warp) (i : Fin 32) (t : LaneMask) (target fall : DWord) (ja : Option DWord) :
    Warp × List (Fin 32) :=
  match w.split[i] with
  | none => (w, [])
  | some f =>
    let n := f.mask &&& ~~~t
    if t == 0 || n == 0 then
      ({ w with split := w.split.set i (some { f with pc := if n == 0 then target else fall }) }, [i])
    else
      let (w, j) := w.joinFor f ja
      let (out, x) := lfsrStep w.lfsr
      ({ w with lfsr := x }).splitInto i f [(t, target), (n, fall)] (if out then 0 else 1) j f.depth

/-- The distinct targets of lanes, ascending, with their masks (R30, R162). -/
def groupTargets (m : LaneMask) (t : Lane → DWord) : List (LaneMask × DWord) :=
  let ts := (lanesOf m).foldl (fun acc l => if acc.contains (t l) then acc else insertBy BitVec.toNat (t l) acc) []
  ts.map fun x => (m &&& maskOf fun l => t l == x, x)

/-- A multi-way transfer (R30, R162, R163): one target moves the fragment, several split it. -/
def Warp.resolveMulti (w : Warp) (i : Fin 32) (t : Lane → DWord) (ja : Option DWord) (depth : BitVec 8) :
    Warp × List (Fin 32) :=
  match w.split[i] with
  | none => (w, [])
  | some f =>
    match groupTargets f.mask t with
    | [] => (w, [])
    | [(_, pc)] => ({ w with split := w.split.set i (some { f with pc := pc, depth := depth }) }, [i])
    | cs =>
      let (w, j) := w.joinFor f ja
      let x := (lfsrStep w.lfsr).2
      ({ w with lfsr := x }).splitInto i f cs (x.toNat % cs.length) j depth

end Sys2Proof.Machine
end

