-- ==== Sys2Proof/Machine/Ops.lean ====
section
/-! DEFINITION. The shared operations of issue: the issuing context, instruction fetch (R86-R88, R324), wait conditions
(R28), release actions (R186), the checks before any effect (R112, R336), TAKING A TRAP (R337, R339) and the return from
it (R338), aborts (R304), and the retirement of an instruction. -/

namespace Sys2Proof.Machine

/-- The issuing fragment with its warp, block and launch, and the number of the next request, which the requests of one instruction
share. -/
structure Ctx where
  ref : FragRef
  b : Block
  w : Warp
  f : Frag
  l : Launch
  seq : Nat := 0
  deriving DecidableEq, Repr

def State.ctx? (s : State) (r : FragRef) : Option Ctx := do
  let b ← s.block? r.block
  let w ← b.warps[r.warp]?
  let f ← w.frag? r.sel
  let l ← s.launch? b.lid
  return ⟨r, b, w, f, l, s.nextReq⟩

/-- The split-table index a fragment stands in. -/
def idxOf : FragSel → Fin 32
  | .entry i => i
  | .path i _ => i

/-- The fragment speculates (R169). -/
def isPath : FragSel → Bool
  | .entry _ => false
  | .path _ _ => true

/-- Update the issuing warp. -/
def State.modW (s : State) (c : Ctx) (f : Warp → Warp) : State := s.modWarp c.ref.block c.ref.warp f

/-- The issuing warp as it stands in a state. -/
def State.warpOf (s : State) (c : Ctx) : Warp := (s.warp? c.ref.block c.ref.warp).getD c.w
/-- The issuing block as it stands in a state. -/
def State.blockOf (s : State) (c : Ctx) : Block := (s.block? c.ref.block).getD c.b

/-! ### Fetch -/

/-- What a fetch gives. -/
inductive Fetch where
  | halves (hs : List Half)
  | fault (code : Nat) (info : Word) (va : Nat)
  deriving DecidableEq, Repr

/-- The values a halfword of a launch's code may be fetched as (R88): memory's now, as it stood at the launch, and what it held
between. -/
def State.codeHalves (s : State) (l : Launch) (t : Target) (pa : Nat) : List Half :=
  let start := l.begun
  let old := match t with
    | .device => l.image.read pa 2
    | .host => l.hostImage.read pa 2
    | .remote d => leRead (fun a => Config.remoteByte d a start) pa 2
  [BitVec.ofNat 16 (s.physRead t pa 2), BitVec.ofNat 16 old] ++
    (s.past.filter fun p => p.target == t && p.at_ == pa && decide (start ≤ p.until_)).map (·.half)

/-- One halfword of a launch's code (R88), by a free choice where it has had more than one value; bits 63 to 56 of a program
counter are not part of the address. (DEDUCED, unsafe: notes/assumptions/71.md). -/
def State.fetchHalf (s : State) (l : Launch) (core va : Nat) : State × Except (Nat × Word) Half :=
  match s.xlate (s.quadOf core) l.asid (va % 2 ^ 56) .fetch with
  | (s, .fault c m) => (s, .error (c, if m then 0x13 else 3))
  | (s, .ok pa a) =>
    match s.badAt a.target a.tier pa with
    | some i => (s, .error (0x0B, i))
    | none => match s.sendOut a.target .fetch with
      | (s, some e) => (s, .error e)
      | (s, none) =>
        if a.undef then let (k, s) := s.draw; (s, .ok (BitVec.ofNat 16 (leNat (freeRun k 2))))
        else
          let hs := s.codeHalves l a.target pa
          let now := hs.headD 0
          if hs.all (· == now) then (s, .ok now)
          else
            let (n, s) := s.draw
            (s, .ok (hs.getD (Config.fetchSees n % hs.length) now))

/-- n more halfwords. -/
def State.fetchMore (s : State) (l : Launch) (core : Nat) : Nat → Nat → List Half → State × Fetch
  | 0, _, acc => (s, .halves acc)
  | n + 1, va, acc => match s.fetchHalf l core va with
    | (s, .error (c, i)) => (s, .fault c i va)
    | (s, .ok h) => s.fetchMore l core n (va + 2) (acc ++ [h])

/-- The halfwords of the instruction at a PC (R86). -/
def State.fetch (s : State) (l : Launch) (core : Nat) (pc : DWord) : State × Fetch :=
  match s.fetchHalf l core pc.toNat with
  | (s, .error (c, i)) => (s, .fault c i pc.toNat)
  | (s, .ok h) => s.fetchMore l core (halfCount h - 1) (pc.toNat + 2) [h]

/-! ### Wait conditions -/

/-- A request of the fragment's lanes is a write whose times have not come back (R186). -/
def Req.writeOpen (q : Req) : Bool :=
  (match q.kind with | .write | .atomic _ | .sc => true | _ => false) && !q.timesBack
/-- A request is a load or atomic whose value has not come back. -/
def Req.loadOpen (q : Req) : Bool :=
  !q.loc && !q.pref && (match q.kind with | .fill | .read | .atomic _ => true | _ => false) && !q.valueBack

/-- The writes that a fragment's release action waits for: those of every fragment its lanes were in when they were sent, as it
may have observed them all (R186, R271). -/
def State.writesOf (s : State) (uid wi : Nat) (m : LaneMask) : List Req :=
  s.reqs.filter fun q => q.block == uid && q.warp == wi && q.fmask &&& m != 0

/-- The requests of a fragment: those of its warp's lanes that it holds. -/
def State.reqsOf (s : State) (uid wi : Nat) (m : LaneMask) : List Req :=
  s.reqs.filter fun q => q.block == uid && q.warp == wi && m.getLsbD q.lane

/-- The release action at a scope has ended (R186). -/
def State.releaseDone (s : State) (uid wi : Nat) (w : Warp) (m : LaneMask) (sc : Scope) : Bool :=
  match sc with
  | .core | .quad => true
  | .die => !(s.writesOf uid wi m).any Req.writeOpen && decide (w.hdie ≤ s.time)
  | .dev => !(s.writesOf uid wi m).any Req.writeOpen && decide (w.hdev ≤ s.time)
  | .pod => !(s.writesOf uid wi m).any Req.writeOpen && decide (w.hpod + 50 ≤ s.time)

/-- An `.amax` update of the warp is pending (R57). -/
def amaxPending (b : Block) (wi : Nat) (w : Warp) : Bool :=
  w.pipe.any (·.amax.isSome) ||
  b.ops.any fun o => o.warp == wi && o.status == .pending && (match o.kind with
    | .mdr m _ _ => m.amax
    | .copyx _ (.qnt _ am) _ _ => am
    | _ => false)

/-- A scratchpad byte; one not written since the block's start or the bank's last change of mode is a free value
(R191, R252). (DESIGN CHOICE, unsafe: notes/assumptions/8.md). -/
def Block.byte (b : Block) (o : Nat) : Byte :=
  let e := match b.banks[o / Config.bankBytes]? with | some k => k.epoch | none => 0
  cellAt (Config.scratchInit b.uid (o + 2 ^ 32 * e)) b.scratch o

def Block.read (b : Block) (o n : Nat) : Nat := leRead b.byte o n

/-- Store scratchpad bytes. -/
def cellPuts : List Host.Cell → Nat → List Byte → List Host.Cell
  | m, _, [] => m
  | m, a, x :: r => cellPuts (cellPut m a x) (a + 1) r

def Block.write (b : Block) (o n v : Nat) : Block := { b with scratch := cellPuts b.scratch o (leBytes n v) }

/-- The granted scratchpad bytes, SCRSIZE (R23). -/
def Block.scrSize (b : Block) : Nat := Config.bankBytes * b.banks.length

/-- The bank of an offset is in FIFO mode. -/
def Block.fifoAt (b : Block) (o : Nat) : Bool := match b.banks[o / Config.bankBytes]? with | some k => k.fifo | none => false

/-- The generation bit of a barrier as a block sees it (R193, R195). -/
def State.barGen (s : State) (b : Block) (lid : Nat) (id : BarId) : Option Bool :=
  if id.scope == .core then some (match b.bars.find? (·.bar == id) with | some a => a.gen | none => false)
  else (s.groups.find? fun g => g.bar == id && g.members.contains b.uid &&
    (if g.pod then id.scope == .pod else g.owner == lid)).map (·.gen)

/-- The successor position of a block in its chain group (R235), for messages or for carries. -/
def Block.successor (b : Block) (message : Bool) : Option Nat :=
  match b.group with
  | none => none
  | some g =>
    if b.index + 1 < g.first + g.len then some (b.index + 1)
    else if message && g.ring then some g.first else none

def Block.hasPredecessor (b : Block) (message : Bool) : Bool :=
  match b.group with
  | none => false
  | some g => g.first < b.index || (message && g.ring)

/-- The block of a launch at a linear index. -/
def State.blockAt (s : State) (lid idx : Nat) : Option Block := s.blocks.find? fun b => b.lid == lid && b.index == idx

/-- The wait condition of a fragment holds. -/
def State.condMet (s : State) (c : Ctx) : WaitCond → Bool
  | .never | .address => false
  | .monitor ws dl => decide (dl ≤ s.time) || ws.any fun w =>
      s.physRead w.target w.pa w.bytes != w.value || (tget {} s.l2 (lineKey w.target w.pa)).wct != w.wct
  | .scratch ws dl => decide (dl ≤ s.time) || ws.any fun w => c.b.read w.1 w.2.1 != w.2.2
  | .requestRoom n => decide ((s.reqs.filter fun q => q.core == c.b.core).length + n ≤ Config.maxRequests)
  | .full rs => rs.all (regFull c.b c.w)
  | .amaxDone => !amaxPending c.b c.ref.warp c.w
  | .handleFull h => c.w.hFull.getLsbD h
  | .barGen id bit => s.barGen c.b c.b.lid id != some bit
  | .object o bit => c.b.spoilt.contains o || (c.b.read o 4 / 2 ^ 31 % 2 == 1) != bit
  | .release sc => s.releaseDone c.ref.block c.ref.warp c.w c.f.mask sc
  | .loadsBefore n => !(s.reqsOf c.ref.block c.ref.warp c.f.mask).any fun q => q.loadOpen && decide (q.id < n)
  | .deadline t => decide (t ≤ s.time)
  | .chainRoom => match c.b.successor true with
    | none => true
    | some i => match s.blockAt c.b.lid i with
      | some n => n.group.isSome && decide (n.chain.length + c.b.link.length < 2)
      | none => false
  | .chainMessage => match c.b.chain with
    | .message _ h :: _ => decide (h < s.time)
    | .carry .. :: _ => true
    | [] => false
  | .fifoRoom k n => match c.b.banks[k]? with | some x => !x.fifo || decide (x.queue.length + n ≤ Config.fifoWords) | none => true
  | .fifoWords k n => match c.b.banks[k]? with | some x => !x.fifo || decide (n ≤ x.queue.length) | none => true
  | .opRecord => decide (((s.blocks.filter (·.core == c.b.core)).map fun b => (b.ops.filter fun o => !o.freed && o.handle != 0).length).sum
      < Config.opRecords)
  | .sumpRoom => decide ((s.launches.filter (·.st == .sump)).length < Config.sumpEntries)
  | .repFree => c.w.rep.isNone
  | .handlerFree => c.w.handler.isNone
  | .bankQuiet k => !s.reqs.any fun q => q.block == c.ref.block && q.warp == c.ref.warp && (match q.kind with
      | .deliver o _ => o / Config.bankBytes == k
      | _ => false)
  | .storesReturned => !s.reqs.any fun q => q.block == c.ref.block && q.warp == c.ref.warp && q.writeOpen
  | .scReturned => !s.reqs.any fun q => q.block == c.ref.block && q.warp == c.ref.warp && q.sel == c.ref.sel &&
      q.kind == .sc && !q.valueBack
  | .warpQuiet => !s.reqs.any fun q => q.block == c.ref.block && q.warp == c.ref.warp && q.st == .queued
  | .chainQuiet => c.b.link.isEmpty && c.b.ops.all fun o => o.status != .pending || (match o.kind with
      | .scan m _ => !m.chain
      | .smax _ ch => !ch
      | .samp _ ch => !ch
      | _ => true)
  | .tileIdle t => !c.b.ops.any fun o => o.status == .pending && (match o.kind with | .mdr m _ _ => m.tile.toNat == t | _ => false)
  | .linesQuiet ls => !s.reqs.any fun q => q.core == c.b.core && q.st == .queued && ls.contains (lineKey q.attr.target q.pa) &&
      (match q.kind with | .write | .atomic _ | .sc => true | _ => false)
  | .translation => decide (c.f.walkEnd ≤ s.time)

/-! ### Aborts (R304, R339) -/

/-- An operation of an aborted block or one whose HCAN was taken stops at its next boundary; a suspended one at once. (DEDUCED, safe: notes/assumptions/30.md). -/
def EngOp.askCancel (o : EngOp) : EngOp := if o.status == .pending then { o with cancel := true } else o

/-- End every fragment of a warp. -/
def Warp.kill (w : Warp) : Warp :=
  { w with
    split := Vector.replicate 32 none, join := Vector.replicate 32 none, exited := 0xFFFF_FFFF, specs := [], pipe := []
    rep := none, handler := none, resv := Vector.replicate 32 none }

/-- End every running fragment of a block (R304). -/
def Block.kill (b : Block) : Block :=
  { b with ops := b.ops.map EngOp.askCancel, warps := b.warps.map Warp.kill }

/-- A fragment that is parked, waiting or not ready is halted where it stands (R351). -/
def Frag.haltHere (f : Frag) : Frag := if f.st == .ready || f.st == .waitConfirm then f else { f with halted := true }

/-- A fragment is halted: one that a STEP has let go is so only while its condition is not met (R352). (DEDUCED, unsafe: notes/assumptions/48.md). -/
def Frag.isHalted (f : Frag) : Bool := f.halted && !(f.stepped && f.st == .ready)

/-- A context is halted: its resident warps' fragments that stand are halted where they are; a ready one halts at a stop
site (R351). -/
def State.haltAll (s : State) (asid : Nat) : State :=
  { s with blocks := s.blocks.map fun b =>
      if b.present && ((s.launch? b.lid).map (·.asid)) == some asid then
        { b with warps := b.warps.map fun w => { w with split := w.split.map (Option.map Frag.haltHere) } }
      else b }

/-- The blocks of a grid. -/
def KDesc.total (k : KDesc) : Nat := k.gx * k.gy * k.gz

/-- The place of a launch in the order of R306: among equals the one accepted first. -/
def Launch.orderKey (l : Launch) : Nat := ((3 - l.prio) * 4 + (3 - l.desc.prio)) * 2 ^ 64 + l.order

/-- Runnable launches that have a block to place, in the order of R306. -/
def State.placeOrder (s : State) : List Launch :=
  sortBy Launch.orderKey (s.launches.filter fun l => l.st == .running && decide (l.next < l.desc.total))

/-- The head of the order, where it is cooperative or chain, counts its wait there from now (R308). -/
def State.noteHead (s : State) : State :=
  let h := (s.placeOrder.head?).map (·.id)
  { s with launches := s.launches.map fun l =>
      if some l.id == h then { l with headSince := some (l.headSince.getD s.time) } else { l with headSince := none } }

/-- PREQ.GO reads 0 once every block of the queue's launches has been saved (R315). -/
def State.preqCheck (s : State) : State :=
  let busy := s.blocks.any fun b => (b.wantSave || (match b.phase with | .stopping _ .preempt => true | _ => false)) &&
    (match s.launch? b.lid with | some l => l.queue == s.dev.preqQ && l.st != .aborted | none => false)
  if busy then s else { s with dev := { s.dev with preqGo := false } }

/-- Abort a kernel (R304). (DEDUCED, safe: notes/assumptions/30.md). -/
def State.abortKernel (s : State) (lid : Nat) : State :=
  let dead := (s.blocks.filter (·.lid == lid)).map (·.uid)
  let launches := s.launches.map fun l =>
    if l.id == lid && l.st != .completed then { l with st := .aborted }
    else if l.parent == some lid && l.after && l.st == .sump then { l with st := .aborted } else l
  let blocks := s.blocks.map fun b => if b.lid == lid then b.kill else b
  let reqs := s.reqs.map fun (q : Req) => if dead.contains q.block then { q with drop := true } else q
  ({ s with launches := launches, blocks := blocks, reqs := reqs } : State).noteHead.preqCheck

/-! ### Taking a trap (R337, R339) and returning from it (R338) -/

/-- The warp's part of handler entry (R337): the trap registers, the reservations, the entry record, the handler PC with
bit 0 clear (R87). (DEDUCED, unsafe: notes/assumptions/38.md). -/
def Warp.enterHandler (w : Warp) (sel : FragSel) (f : Frag) (handler : DWord) (t : TrapInfo) : Warp :=
  let owner := match w.rep with | some r => r.owner == sel | none => false
  let w : Warp := { w with
    x := { cause := BitVec.ofNat 32 t.cause, pc := t.pc, addr := t.addr, mask := t.mask, info := t.info }
    resv := Vector.ofFn fun l => if f.mask.getLsbD l.val then none else w.resv[l]
    handler := some ⟨f.mask, f.join, f.depth, owner⟩
    rep := if owner then w.rep.map fun r => { r with f := none } else w.rep
    nopre := w.nopre && t.cause != 0x0E }
  w.modFrag (fun g => { g with
    pc := handler &&& ~~~1#64, handler := true, st := .ready, cond := .never, replay := none, deadline := none
    released := false, resumed := false, bkpt := false, site := false, offer := none, wait := 0, held := none, redo := [], undo := none }) sel

/-- Take a trap: enter the kernel's handler, wait for the handler another fragment holds, or abort the kernel. -/
def State.takeTrap (s : State) (c : Ctx) (t : TrapInfo) : State :=
  if c.w.handler.isSome && !c.f.handler then
    s.modFrag c.ref fun f => { f with st := .waitFragment, cond := .handlerFree, held := some t }
  else if c.f.handler || c.l.desc.trapPc == 0 then
    (s.errorRecord c.l.id c.l.asid t.cause t.pc t.addr t.mask t.info c.b.core c.w.warpSlot (s.dieOf c.b.core)
      (s.warpOf c).ordinal).abortKernel c.l.id
  else
    let w := (s.warpOf c).enterHandler c.ref.sel c.f c.l.desc.trapPc t
    (s.syncFrag c.b.core c.l.asid w (idxOf c.ref.sel).val ((w.frag? c.ref.sel).getD c.f)).modW c fun _ => w

/-- RTE legal (R338): handler mode, and the entry mask less the lanes exited since. -/
def Ctx.rteMaskOk (c : Ctx) : Bool :=
  match c.w.handler with
  | some h => c.f.mask == h.mask &&& ~~~c.w.exited
  | none => false

/-- The warp's part of RTE (R338, R110). -/
def Warp.leaveHandler (w : Warp) (sel : FragSel) : Warp :=
  match w.handler with
  | none => w
  | some h =>
    let target : DWord := w.x.pc &&& ~~~1#64
    let (rep, repc) := if h.owner then (match w.rep with
      | some r => if r.addr == target then (some { r with f := none, owner := sel }, w.repc) else (none, 0)
      | none => (none, w.repc)) else (w.rep, w.repc)
    ({ w with handler := none, rep := rep, repc := repc } : Warp).modFrag
      (fun g => { g with
        pc := target, join := h.join, depth := h.depth, handler := false, st := .ready
        cond := .never, released := false }) sel

/-! ### Registers still due -/

/-- The v registers of a destination (R62). -/
def vRegs (d n : Nat) : List (RegClass × Nat) := (List.range (if n ≤ 4 then 1 else n / 4)).map fun k => (.v, d + k)

/-- The registers a request's value goes to. -/
def Req.dests (q : Req) : List (RegClass × Nat) := match q.dst with | some d => vRegs d q.bytes | none => []

/-- The registers an instruction writes. -/
def writesRegs (i : Instr) : List (RegClass × Nat) := ((i.layout.opnds 1).filter (·.dst)).flatMap Opnd.regs

/-- Another value for one of some registers is still to come: on its way in a request or in the pipe, or to be asked for
again by a replay (R62, R331). -/
def State.regsDue (s : State) (uid wi : Nat) (but : Nat) (rs : List (RegClass × Nat)) : Bool :=
  (s.reqs.any fun x => x.id != but && x.block == uid && x.warp == wi && !x.valueBack && x.dests.any rs.contains) ||
  (match s.block? uid with
  | none => false
  | some b => b.reissue.any fun x => x.warp == wi && x.dests.any rs.contains) ||
  (match s.warp? uid wi with
  | none => false
  | some w =>
    w.pipe.any (fun p => p.dests.any rs.contains) || w.frags.any fun x =>
      (match x.2.replay with | some (.mem _ i _ _ _) => (writesRegs i).any rs.contains | _ => false) ||
      x.2.redo.any fun r => r.replay && (writesRegs r.i).any rs.contains)

/-- The registers of a request that is over become full, unless more is due for them. -/
def State.fill (s : State) (q : Req) : State :=
  if s.regsDue q.block q.warp q.id q.dests then s else s.modWarp q.block q.warp fun w => w.markAll true q.dests

/-- Discard the values of loads on their way (R164, R171). -/
def State.discard (s : State) (p : Req → Bool) : State :=
  let hit := s.reqs.filter fun q => p q && q.dst.isSome && !q.valueBack
  let s := { s with reqs := s.reqs.map fun (q : Req) => if p q && q.dst.isSome then { q with drop := true, dst := none } else q }
  hit.foldl State.fill s

/-! ### Issue -/

/-- What an instruction's own effect comes to: it retires; it has set the fragment's PC itself; it waits; it retires with
lanes unfinished, parked for replay with a fault posted (R331); it traps. -/
inductive Eff where
  | ok (s : State)
  | went (s : State)
  | wait (st : FragState) (cond : WaitCond) (s : State)
  | park (lanes : LaneMask) (fault : Nat) (s : State)
  | trap (t : TrapInfo) (s : State)

/-- A trap of the issuing fragment at its own PC. (DEDUCED, unsafe: notes/assumptions/38.md). -/
def Ctx.trap (c : Ctx) (cause : Nat) (info : Word) (addr : DWord := 0) (mask : LaneMask := c.f.mask) : TrapInfo :=
  { cause := cause, addr := addr, mask := mask, info := info, pc := c.f.pc }

/-- The dimension count of the vault tensor a matrix operand names (R214). -/
def vaultDims (s : State) (asid : Nat) (w : Warp) (l : Layout) : Nat :=
  let d (sp : Space) (a : RegField) : Nat :=
    if sp == .vault then (match s.tensor? asid (w.sr a.toNat).toNat with
      | some t => t.dims
      | none => 1) else 1
  match l with
  | .mlw _ o => d o.space o.a
  | .mma _ o => d o.space o.a
  | .mdr _ o => d o.space o.a
  | _ => 1

/-- The number of the class in XINFO (R335). -/
def classCode : RegClass → Nat
  | .v => 0 | .s => 1 | .h => 2 | .tile => 3

/-- XINFO of the empty-register trap (R335). -/
def emptyInfo (o : Opnd) : Word := BitVec.ofNat 32 (o.n + 2 ^ 8 * classCode o.cls + 2 ^ 12 * o.fld)

/-- Orders 5 and 8 of R112, judged at issue. -/
def staticCheck (d : KDesc) (l : Layout) (ops : List Opnd) : Option Word :=
  if (l.isMatrix && d.tiles == 0) || ops.any (fun o => !o.legal d.regs d.tiles) then some 2
  else if l.needsAl && !l.isRep && (match l.head with | some h => h.guard != .al | none => false) then some 6
  else none

/-- The unit whose suspended operation a fragment would issue to (R207): 0 matrix, 1 copy, 2 scan. -/
def opUnit : OpKind → Nat
  | .mlw .. | .mma .. | .mdr .. | .mzr .. => 0
  | .copy .. | .copym .. | .copyl .. | .copyx .. => 1
  | _ => 2

def layoutUnit (l : Layout) : Option Nat :=
  if l.isMatrix then some 0 else if 0x300 ≤ l.op && l.op ≤ 0x303 then some 1
  else if 0x340 ≤ l.op && l.op ≤ 0x343 then some 2 else none

/-- The handle register of a suspended operation of a warp that its instruction reads, or whose engine it issues to (R207). -/
def suspendedOn (b : Block) (wi : Nat) (w : Warp) (l : Layout) (ops : List Opnd) : Option Nat :=
  let sus := b.ops.filter fun o => o.warp == wi && o.suspend.isSome && o.status == .pending
  let reads := ops.filter fun o => o.cls == .h && o.src && !w.hFull.getLsbD o.n
  match reads.find? fun o => sus.any fun e => e.handle == w.hr o.n with
  | some o => some o.n
  | none => match layoutUnit l with
    | none => none
    | some u => (sus.find? fun e => opUnit e.kind == u).map fun e => e.hreg.getD 0

/-- In a window, an instruction that reads or writes the CC set the set-aside compare is to write waits. (DEDUCED, safe: notes/assumptions/21.md). -/
def ccPending (w : Warp) (sel : FragSel) (l : Layout) : Bool :=
  match sel with
  | .entry _ => false
  | .path e _ => match w.specs.find? (·.entry == e) with
    | none => false
    | some p => l.ccReads.contains p.br.h.gset || l.ccOut == some p.br.h.gset

/-- An instruction of a speculative fragment that waits for confirmation (R128, R170); `free`: not counted here. (DEDUCED, safe: notes/assumptions/21.md). -/
def windowWaits (c : Ctx) (l : Layout) (free : Bool) : Bool :=
  let full := match c.w.specs.find? (·.entry == idxOf c.ref.sel) with | some p => decide (32 ≤ p.count) | none => false
  isPath c.ref.sel && (l.waitsConfirm || (full && !free) || ccPending c.w c.ref.sel l)

/-- The checks before an instruction's own effect (R112 orders 5 and 8, R128, R170, R63, R202, R186, R207, R330, R2), in
R336's order; none where it may go on. The state a fragment holds while an acquire action of it holds it back is the fence's. (DEDUCED, unsafe: notes/assumptions/73.md). -/
def gate (s : State) (c : Ctx) (l : Layout) (free : Bool := false) : Option Eff :=
  let ops := l.opnds (vaultDims s c.l.asid c.w l)
  if windowWaits c l free then some (.wait .waitConfirm .never s)
  else match staticCheck c.l.desc l ops with
  | some i => some (.trap (c.trap 1 i) s)
  | none =>
    let full (o : Opnd) := o.regs.all (regFull c.b c.w)
    match ops.find? fun o => o.src && o.e && !full o with
    | some o => some (.trap (c.trap 5 (emptyInfo o)) s)
    | none =>
      match suspendedOn c.b c.ref.warp c.w l ops with
      | some h => some (.wait .parkedReplay .never (s.modFrag c.ref fun f => { f with replay := some (.handle c.f.pc h) }))
      | none =>
        match ops.filter fun o => (o.src || o.dst) && !full o with
        | o :: r =>
          some (.wait (if (o :: r).all (·.cls == .h) then .waitHandle else .waitReg) (.full ((o :: r).flatMap Opnd.regs)) s)
        | [] =>
          if l.isEngine && !(c.f.mask == 0xFFFF_FFFF) then some (.trap (c.trap 4 2) s)
          else if l.awaitsWalk && !s.condMet c .translation then some (.wait .waitTranslation .translation s)
          else if l.sendsRequests && !s.condMet c (.requestRoom (popcount c.f.mask)) then
            some (.wait .waitResource (.requestRoom (popcount c.f.mask)) s)
          else match c.f.acquire with
          | some n =>
            if l.isAccess && !s.condMet c (.loadsBefore n) then some (.wait .waitFence (.loadsBefore n) s) else none
          | none => none

/-- A warp's first instruction writes the SYNC of its fragment (R362), before its own packets. -/
def State.firstSync (s : State) (c : Ctx) : State :=
  if isPath c.ref.sel || (s.warpOf c).started then s
  else (s.modW c fun w => { w with started := true }).syncFrag c.b.core c.l.asid c.w (idxOf c.ref.sel).val c.f

/-- A warp's bookkeeping when one of its fragments issues (R39, R348, R362, R365); a window's is made at confirmation. (DEDUCED, unsafe: notes/assumptions/35.md). -/
def State.noteIssue (s : State) (c : Ctx) (l : Layout) : State :=
  if isPath c.ref.sel then s
  else
  let s := s.firstSync c
  if l.stop then
    let o := s.ordinalOf c.l c.f.pc
    (s.modW c fun w => { w with ordinal := o }).trigNote c.b.core 1 o
  else s

/-- Retire an instruction: the PC moves to the fall-through address (R86). -/
def Frag.retire (f : Frag) (len : Nat) : Frag :=
  { f with pc := f.pc + BitVec.ofNat 64 len, st := .ready, cond := .never, released := false,
           resumed := false, bkpt := false, site := false, offer := none, deadline := none }

/-- Record an instruction issued in a speculation window, counted n times (R170, R111). -/
def Warp.noteWindow (w : Warp) (sel : FragSel) (pc : DWord) (i : Instr) (n : Nat) : Warp :=
  match sel with
  | .entry _ => w
  | .path e t =>
    let g (x : Path) : Path := { x with log := x.log ++ [(pc, i)] }
    let upd (p : Spec) : Spec := { p with
      taken := if t then p.taken.map g else p.taken, fall := if t then p.fall else p.fall.map g
      count := p.count + n }
    let sent := (match i with | .xrng _ | .xdqnt _ => true | _ => false)
    { w with specs := updFirst (fun p => p.entry == e) upd w.specs,
             pipe := if sent then w.pipe.dropLast ++ (w.pipe.getLast?.map fun x => { x with spec := true }).toList else w.pipe }

/-- A trap ends an instruction that has issued: XPC lies past it (R246), or lanes of a memory instruction failed once it had been
sent (R336, R348). (DEDUCED, unsafe: notes/assumptions/35.md). -/
def TrapInfo.issued (t : TrapInfo) (c : Ctx) (l : Layout) : Bool :=
  t.pc != c.f.pc || (l.awaitsWalk && (t.cause == 8 || t.cause == 9 || t.cause == 0x0A || t.cause == 0x0B))

/-- Take a trap; on a predicted path it is held until confirmation (R66, R172). (DEDUCED, unsafe: notes/assumptions/66.md). -/
def State.trapOr (s : State) (c : Ctx) (t : TrapInfo) : State :=
  if isPath c.ref.sel then s.modFrag c.ref fun f => { f with st := .waitConfirm, cond := .never, held := some t }
  else s.takeTrap c t

/-- The end of an issue attempt. -/
def finish (c : Ctx) (i : Instr) : Eff → State
  | .ok s =>
    (((s.noteIssue c i.layout).modW c fun w => w.noteWindow c.ref.sel c.f.pc i 1).modFrag c.ref fun f => f.retire i.len)
  | .went s => s.noteIssue c i.layout
  | .wait st cond s => s.modFrag c.ref fun f => { f with st := st, cond := cond }
  | .park lanes id s =>
    ((s.noteIssue c i.layout).modW c fun w => w.markAll false (writesRegs i)).modFrag c.ref fun f =>
      { f.retire i.len with st := .parkedReplay, deadline := f.deadline, replay := some (.mem c.f.pc i lanes id c.seq) }
  | .trap t s => (if t.issued c i.layout then s.noteIssue c i.layout else s).trapOr c t

/-- Issue an instruction from the current fragment: the common checks, then its own effect on the lanes that execute. -/
def issue (i : Instr) (body : Ctx → LaneMask → State → Eff) (s : State) : Host.Outcome State Fault Refusal :=
  match s.cur.bind s.ctx? with
  | none => .fault .noIssuer
  | some c =>
    match gate s c i.layout with
    | some e => .next (finish c i e)
    | none => .next (finish c i (body c (c.w.execMask c.f.mask i.layout.head) s))

/-- A lane instruction's body: its only effect is on the warp's registers. -/
def lane (g : LaneMask → Warp → Warp) : Ctx → LaneMask → State → Eff :=
  fun c m s => .ok (s.modW c (g m))

end Sys2Proof.Machine
end

