-- ==== Sys2Proof/Machine/Integer.lean ====
section
/-! DEFINITION. The integer and logic instructions of all three lengths (R91, R93, R129-R137), and the operand readers
of lane instructions (R90, R92, R96, R125, R126). -/

namespace Sys2Proof.Machine

/-! ### Operand readers and result writers -/

/-- Write a 32-bit result and, with C = 1, its flags in the executing lanes (R51, R58). -/
def Warp.put (w : Warp) (m : LaneMask) (d : Nat) (c set : Bool) (f : Lane → Word × CC) : Warp :=
  let w1 := w.setV d m fun l => (f l).1
  if c then w1.setCC set m fun l => (f l).2 else w1

/-- Write a 64-bit result and, with C = 1, its flags. -/
def Warp.putP (w : Warp) (m : LaneMask) (d : Nat) (c set : Bool) (f : Lane → DWord × CC) : Warp :=
  let w1 := w.setVP d m fun l => (f l).1
  if c then w1.setCC set m fun l => (f l).2 else w1

/-- Write flags alone: ICMP and FCMP (R134, R140). -/
def Warp.putCC (w : Warp) (m : LaneMask) (set : Bool) (f : Lane → CC) : Warp := w.setCC set m f

/-- The 16-bit form: D is destination and first source (R90). -/
def h2Sem (o : H2) (f : Word → Word → Word × CC) (m : LaneMask) (w : Warp) : Warp :=
  w.put m o.d.toNat o.c false fun l => f (w.vl o.d.toNat l) (w.vl o.s.toNat l)

/-- The 16-bit MOVI (R91). -/
def h2Imm (o : H2) (m : LaneMask) (w : Warp) : Warp :=
  let r : Word := o.s.signExtend 32
  w.put m o.d.toNat o.c false fun _ => (r, ccInt r)

/-- The N3 form (R92). -/
def n3Sem (o : N3) (f : Word → Word → Word × CC) (m : LaneMask) (w : Warp) : Warp :=
  w.put m o.d.toNat o.c false fun l => f (w.vl o.a.toNat l) (w.vl o.b.toNat l)

/-- An N3 compare (R93). -/
def n3Cmp (o : N3) (f : Word → Word → CC) (m : LaneMask) (w : Warp) : Warp :=
  w.putCC m false fun l => f (w.vl o.a.toNat l) (w.vl o.b.toNat l)

/-- The NI form with the immediate as B (R93). -/
def niSem (o : NI) (b : Word) (f : Word → Word → Word × CC) (m : LaneMask) (w : Warp) : Warp :=
  w.put m o.d.toNat o.c false fun l => f (w.vl o.a.toNat l) b

/-- ICMPI (R93). -/
def niCmp (o : NI) (m : LaneMask) (w : Warp) : Warp :=
  w.putCC m false fun l => ccSub (w.vl o.a.toNat l) (o.imm.signExtend 32) 0

/-- The B operand of the XR form, 32 bits (R96, R126). -/
def xrB (o : Xr) (w : Warp) (l : Lane) : Word :=
  match o.src with
  | .imm i => i.signExtend 32
  | .regs b _ => w.vl b.toNat l

/-- The B operand of the XR form, 64 bits. -/
def xrB64 (o : Xr) (w : Warp) (l : Lane) : DWord :=
  match o.src with
  | .imm i => i.signExtend 64
  | .regs b _ => w.vp b.toNat l

/-- The number in the C field of the XR form; variant 0b01 has none. -/
def xrC (o : Xr) : Nat :=
  match o.src with
  | .imm _ => 0
  | .regs _ c => c.toNat

/-- XR instructions of A (R129). -/
def xr1 (o : Xr) (f : Word → Word × CC) (m : LaneMask) (w : Warp) : Warp :=
  w.put m o.d.toNat o.h.c o.h.ccSet fun l => f (w.vl o.a.toNat l)

/-- XR instructions of A and B. -/
def xr2 (o : Xr) (f : Word → Word → Word × CC) (m : LaneMask) (w : Warp) : Warp :=
  w.put m o.d.toNat o.h.c o.h.ccSet fun l => f (w.vl o.a.toNat l) (xrB o w l)

/-- XR instructions of A, B and C. -/
def xr3 (o : Xr) (f : Word → Word → Word → Word × CC) (m : LaneMask) (w : Warp) : Warp :=
  w.put m o.d.toNat o.h.c o.h.ccSet fun l => f (w.vl o.a.toNat l) (xrB o w l) (w.vl (xrC o) l)

/-- XR instructions of pairs A and B (R130). -/
def xrPair (o : Xr) (f : DWord → DWord → DWord × CC) (m : LaneMask) (w : Warp) : Warp :=
  w.putP m o.d.toNat o.h.c o.h.ccSet fun l => f (w.vp o.a.toNat l) (xrB64 o w l)

/-- IADDC and ISUBB: the C flag, in the lane, of the CC set bit [17] names (R131). -/
def xrCarry (o : Xr) (f : Nat → Word → Word → Word × CC) (m : LaneMask) (w : Warp) : Warp :=
  w.put m o.d.toNat o.h.c o.h.ccSet fun l =>
    f (if (w.cc o.h.gset l).c then 1 else 0) (w.vl o.a.toNat l) (xrB o w l)

/-! ### Results with their flags -/

/-- A result of kind other integer (R59). -/
def resW (r : Word) : Word × CC := (r, ccInt r)

def iaddW (a b : Word) : Word × CC := (a + b, ccAdd a b 0)
def isubW (a b : Word) : Word × CC := (a - b, ccSub a b 0)
def imulW (a b : Word) : Word × CC := resW (a * b)
def logW (f : Word → Word → Word) (a b : Word) : Word × CC := resW (f a b)
/-- Shifts by bits(b, 4, 0) (R130). -/
def shlW (a b : Word) : Word × CC := resW (a <<< fieldOf b 0 5)
def shrW (a b : Word) : Word × CC := resW (a >>> fieldOf b 0 5)
def sarW (a b : Word) : Word × CC := resW (a.sshiftRight (fieldOf b 0 5))

/-- Element width and signedness of an integer type (R69, R70). -/
def Ty.elem : Ty → Nat × Bool
  | .n8x4 => (8, false)
  | .i8x4 => (8, true)
  | .n16x2 => (16, false)
  | .i16x2 => (16, true)
  | .i32 => (32, true)
  | .i64 => (64, true)
  | .n64 => (64, false)
  | _ => (32, false)

/-- The value of a w-bit pattern. -/
def intVal (w : Nat) (signed : Bool) (x : Nat) : Int := if signed && 2 ^ (w - 1) ≤ x then (x : Int) - 2 ^ w else x

/-- A w-bit pattern of an integer, modulo 2^w (R8). -/
def intBits (w : Nat) (x : Int) : Nat := (x % 2 ^ w).toNat

/-- Clamp to an integer type's range (R132): the value and whether it changed. -/
def clampInt (w : Nat) (signed : Bool) (x : Int) : Int × Bool :=
  let lo : Int := if signed then -2 ^ (w - 1) else 0
  let hi : Int := if signed then 2 ^ (w - 1) - 1 else 2 ^ w - 1
  if x < lo then (lo, true) else if hi < x then (hi, true) else (x, false)

/-- A scalar or packed integer operation (R70, R130, R132, R137): the exact operation on values, and the scalar flags. -/
def arithT (ty : Ty) (sat : Bool) (op : Int → Int → Int) (cc : Word → Word → CC) (a b : Word) : Word × CC :=
  let (n, sg) := Ty.elem ty
  let rs := ((elems n a).zip (elems n b)).map fun (x, y) => op (intVal n sg x) (intVal n sg y)
  if sat then
    let cs := rs.map (clampInt n sg)
    let r := packElems n (cs.map fun c => intBits n c.1)
    (r, { ccPacked n false r with v := cs.any (·.2) })
  else
    let r := packElems n (rs.map (intBits n))
    (r, if n = 32 then cc a b else ccPacked n false r)

/-- IMIN and IMAX (R130): the operand element itself. -/
def minmaxT (ty : Ty) (isMin : Bool) (a b : Word) : Word × CC :=
  let (n, sg) := Ty.elem ty
  let r := packElems n (((elems n a).zip (elems n b)).map fun (x, y) =>
    if decide (intVal n sg x < intVal n sg y) == isMin then x else y)
  (r, ccPacked n false r)

/-- ext of R130: zext for n types and sext for i types. -/
def extInt (ty : Ty) (a : Word) : Int := if (Ty.elem ty).2 then a.toInt else a.toNat

def mulHi (ty : Ty) (a b : Word) : Word := hiOf (BitVec.ofInt 64 (extInt ty a * extInt ty b))

/-- The cases of R133 in which V is set. -/
def divCase (ty : Ty) (a b : Word) : Bool := b == 0 || ((Ty.elem ty).2 && a == 0x8000_0000 && b == 0xFFFF_FFFF)

def divT (ty : Ty) (a b : Word) : Word × CC :=
  let r : Word :=
    if b == 0 then (if (Ty.elem ty).2 then (if a.msb then 0x8000_0000 else 0x7FFF_FFFF) else 0xFFFF_FFFF)
    else BitVec.ofInt 32 ((extInt ty a).tdiv (extInt ty b))
  (r, { ccInt r with v := divCase ty a b })

def remT (ty : Ty) (a b : Word) : Word × CC :=
  let r : Word := if b == 0 then a else BitVec.ofInt 32 ((extInt ty a).tmod (extInt ty b))
  (r, { ccInt r with v := divCase ty a b })

def absW (a : Word) : Word := if a.msb then -a else a

/-- Leading and trailing zero bits; 32 for zero. -/
def clzW (a : Word) : Nat := ((List.range 32).find? fun k => a.getLsbD (31 - k)).getD 32
def ctzW (a : Word) : Nat := ((List.range 32).find? fun k => a.getLsbD k).getD 32

/-- BFE (R136). -/
def bfeW (ty : Ty) (a b : Word) : Word :=
  let hi := fieldOf b 8 5
  let lo := fieldOf b 0 5
  if hi < lo then 0
  else
    let f := fieldOf a lo (hi - lo + 1)
    BitVec.ofInt 32 (intVal (hi - lo + 1) (Ty.elem ty).2 f)

/-- BFI (R136). -/
def bfiW (a b c : Word) : Word :=
  let hi := fieldOf b 8 5
  let lo := fieldOf b 0 5
  if hi < lo then c
  else
    let k : Word := BitVec.ofNat 32 ((2 ^ (hi - lo + 1) - 1) * 2 ^ lo)
    (c &&& ~~~k) ||| ((a <<< lo) &&& k)

/-- BYSEL (R136). -/
def byselW (a b c : Word) : Word :=
  packElems 8 ((elems 8 b).map fun s =>
    let y := (elems 8 a ++ elems 8 c).getD (s % 8) 0
    match s / 8 % 4 with
    | 0 => y
    | 1 => 0
    | 2 => if 128 ≤ y then 0xFF else 0
    | _ => if y % 2 = 1 then 0xFF else 0)

/-- IMADW (R130, R137). -/
def xrMadw (o : Xr) (m : LaneMask) (w : Warp) : Warp :=
  w.putP m o.d.toNat o.h.c o.h.ccSet fun l =>
    let r : DWord := BitVec.ofInt 64 (extInt o.ty (w.vl o.a.toNat l) * extInt o.ty (xrB o w l)) + w.vp (xrC o) l
    (r, ccInt r)

/-- ICMP (R134). -/
def xrIcmp (o : Xr) (m : LaneMask) (w : Warp) : Warp :=
  w.putCC m o.h.ccSet fun l =>
    if o.ty.is64 then ccSub (w.vp o.a.toNat l) (xrB64 o w l) 0 else ccSub (w.vl o.a.toNat l) (xrB o w l) 0

/-- LEA (R130, R137): the C field is the shift. -/
def xrLea (o : Xr) (m : LaneMask) (w : Warp) : Warp :=
  if o.ty.is64 then
    w.putP m o.d.toNat o.h.c o.h.ccSet fun l =>
      let a := w.vp o.a.toNat l
      let b : DWord := if o.ty == .i64 then (xrB o w l).signExtend 64 else (xrB o w l).zeroExtend 64
      let t := b <<< xrC o
      (a + t, ccAdd a t 0)
  else
    w.put m o.d.toNat o.h.c o.h.ccSet fun l =>
      let a := w.vl o.a.toNat l
      let t := xrB o w l <<< xrC o
      (a + t, ccAdd a t 0)

/-- SHL, SHR and SAR of 32 and 64 bits (R129, R130). -/
def xrShift (o : Xr) (f : Word → Word → Word × CC) (g : DWord → Nat → DWord) (m : LaneMask) (w : Warp) : Warp :=
  if o.ty.is64 then
    w.putP m o.d.toNat o.h.c o.h.ccSet fun l =>
      let r := g (w.vp o.a.toNat l) (fieldOf (xrB o w l) 0 6)
      (r, ccInt r)
  else xr2 o f m w

/-- ISEL and FSEL (R134): the flags of the result's kind, and the modifiers of A and B. -/
def selSem (o : Sel) (cc : Word → CC) (fa fb : Word → Word) (m : LaneMask) (w : Warp) : Warp :=
  w.put m o.d.toNat o.h.c o.h.ccSet fun l =>
    let r := if holds o.cond (w.cc o.set l) then fa (w.vl o.a.toNat l) else fb (w.vl o.b.toNat l)
    (r, cc r)

/-- LUT3 (R135). -/
def lut3W (t : BitVec 8) (a b c : Word) : Word :=
  BitVec.ofNat 32 ((List.range 32).foldr (fun i acc =>
    let k := (if a.getLsbD i then 1 else 0) + (if b.getLsbD i then 2 else 0) + (if c.getLsbD i then 4 else 0)
    acc ||| (if t.getLsbD k then 2 ^ i else 0)) 0)

def lut3Sem (o : Lut3) (m : LaneMask) (w : Warp) : Warp :=
  w.put m o.d.toNat o.h.c o.h.ccSet fun l =>
    resW (lut3W o.table (w.vl o.a.toNat l) (w.vl o.b.toNat l) (w.vl o.c.toNat l))

/-! ### The instructions -/

/-- IADD_H2 (R91). -/
def semIaddH2 (o : H2) : LaneMask → Warp → Warp := h2Sem o (iaddW)
/-- IADD_H2: issue and effect (R91). -/
def execIaddH2 (o : H2) (s : State) : Host.Outcome State Fault Refusal := issue (.iaddH2 o) (lane (semIaddH2 o)) s

/-- ISUB_H2 (R91). -/
def semIsubH2 (o : H2) : LaneMask → Warp → Warp := h2Sem o (isubW)
/-- ISUB_H2: issue and effect (R91). -/
def execIsubH2 (o : H2) (s : State) : Host.Outcome State Fault Refusal := issue (.isubH2 o) (lane (semIsubH2 o)) s

/-- IMUL_H2 (R91). -/
def semImulH2 (o : H2) : LaneMask → Warp → Warp := h2Sem o (imulW)
/-- IMUL_H2: issue and effect (R91). -/
def execImulH2 (o : H2) (s : State) : Host.Outcome State Fault Refusal := issue (.imulH2 o) (lane (semImulH2 o)) s

/-- AND_H2 (R91). -/
def semAndH2 (o : H2) : LaneMask → Warp → Warp := h2Sem o (logW (· &&& ·))
/-- AND_H2: issue and effect (R91). -/
def execAndH2 (o : H2) (s : State) : Host.Outcome State Fault Refusal := issue (.andH2 o) (lane (semAndH2 o)) s

/-- OR_H2 (R91). -/
def semOrH2 (o : H2) : LaneMask → Warp → Warp := h2Sem o (logW (· ||| ·))
/-- OR_H2: issue and effect (R91). -/
def execOrH2 (o : H2) (s : State) : Host.Outcome State Fault Refusal := issue (.orH2 o) (lane (semOrH2 o)) s

/-- XOR_H2 (R91). -/
def semXorH2 (o : H2) : LaneMask → Warp → Warp := h2Sem o (logW (· ^^^ ·))
/-- XOR_H2: issue and effect (R91). -/
def execXorH2 (o : H2) (s : State) : Host.Outcome State Fault Refusal := issue (.xorH2 o) (lane (semXorH2 o)) s

/-- SHL_H2 (R91). -/
def semShlH2 (o : H2) : LaneMask → Warp → Warp := h2Sem o (shlW)
/-- SHL_H2: issue and effect (R91). -/
def execShlH2 (o : H2) (s : State) : Host.Outcome State Fault Refusal := issue (.shlH2 o) (lane (semShlH2 o)) s

/-- SHR_H2 (R91). -/
def semShrH2 (o : H2) : LaneMask → Warp → Warp := h2Sem o (shrW)
/-- SHR_H2: issue and effect (R91). -/
def execShrH2 (o : H2) (s : State) : Host.Outcome State Fault Refusal := issue (.shrH2 o) (lane (semShrH2 o)) s

/-- SAR_H2 (R91). -/
def semSarH2 (o : H2) : LaneMask → Warp → Warp := h2Sem o (sarW)
/-- SAR_H2: issue and effect (R91). -/
def execSarH2 (o : H2) (s : State) : Host.Outcome State Fault Refusal := issue (.sarH2 o) (lane (semSarH2 o)) s

/-- MOV_H2 (R91). -/
def semMovH2 (o : H2) : LaneMask → Warp → Warp := h2Sem o (fun _ b => (b, ccInt b))
/-- MOV_H2: issue and effect (R91). -/
def execMovH2 (o : H2) (s : State) : Host.Outcome State Fault Refusal := issue (.movH2 o) (lane (semMovH2 o)) s

/-- MOVI_H2 (R91). -/
def semMoviH2 (o : H2) : LaneMask → Warp → Warp := h2Imm o
/-- MOVI_H2: issue and effect (R91). -/
def execMoviH2 (o : H2) (s : State) : Host.Outcome State Fault Refusal := issue (.moviH2 o) (lane (semMoviH2 o)) s

/-- IADD_N3 (R93). -/
def semIaddN3 (o : N3) : LaneMask → Warp → Warp := n3Sem o (iaddW)
/-- IADD_N3: issue and effect (R93). -/
def execIaddN3 (o : N3) (s : State) : Host.Outcome State Fault Refusal := issue (.iaddN3 o) (lane (semIaddN3 o)) s

/-- ISUB_N3 (R93). -/
def semIsubN3 (o : N3) : LaneMask → Warp → Warp := n3Sem o (isubW)
/-- ISUB_N3: issue and effect (R93). -/
def execIsubN3 (o : N3) (s : State) : Host.Outcome State Fault Refusal := issue (.isubN3 o) (lane (semIsubN3 o)) s

/-- IMUL_N3 (R93). -/
def semImulN3 (o : N3) : LaneMask → Warp → Warp := n3Sem o (imulW)
/-- IMUL_N3: issue and effect (R93). -/
def execImulN3 (o : N3) (s : State) : Host.Outcome State Fault Refusal := issue (.imulN3 o) (lane (semImulN3 o)) s

/-- IMIN_N3 (R93). -/
def semIminN3 (o : N3) : LaneMask → Warp → Warp := n3Sem o (minmaxT .i32 true)
/-- IMIN_N3: issue and effect (R93). -/
def execIminN3 (o : N3) (s : State) : Host.Outcome State Fault Refusal := issue (.iminN3 o) (lane (semIminN3 o)) s

/-- IMAX_N3 (R93). -/
def semImaxN3 (o : N3) : LaneMask → Warp → Warp := n3Sem o (minmaxT .i32 false)
/-- IMAX_N3: issue and effect (R93). -/
def execImaxN3 (o : N3) (s : State) : Host.Outcome State Fault Refusal := issue (.imaxN3 o) (lane (semImaxN3 o)) s

/-- AND_N3 (R93). -/
def semAndN3 (o : N3) : LaneMask → Warp → Warp := n3Sem o (logW (· &&& ·))
/-- AND_N3: issue and effect (R93). -/
def execAndN3 (o : N3) (s : State) : Host.Outcome State Fault Refusal := issue (.andN3 o) (lane (semAndN3 o)) s

/-- OR_N3 (R93). -/
def semOrN3 (o : N3) : LaneMask → Warp → Warp := n3Sem o (logW (· ||| ·))
/-- OR_N3: issue and effect (R93). -/
def execOrN3 (o : N3) (s : State) : Host.Outcome State Fault Refusal := issue (.orN3 o) (lane (semOrN3 o)) s

/-- XOR_N3 (R93). -/
def semXorN3 (o : N3) : LaneMask → Warp → Warp := n3Sem o (logW (· ^^^ ·))
/-- XOR_N3: issue and effect (R93). -/
def execXorN3 (o : N3) (s : State) : Host.Outcome State Fault Refusal := issue (.xorN3 o) (lane (semXorN3 o)) s

/-- ANDN_N3 (R93). -/
def semAndnN3 (o : N3) : LaneMask → Warp → Warp := n3Sem o (logW fun a b => a &&& ~~~b)
/-- ANDN_N3: issue and effect (R93). -/
def execAndnN3 (o : N3) (s : State) : Host.Outcome State Fault Refusal := issue (.andnN3 o) (lane (semAndnN3 o)) s

/-- SHL_N3 (R93). -/
def semShlN3 (o : N3) : LaneMask → Warp → Warp := n3Sem o (shlW)
/-- SHL_N3: issue and effect (R93). -/
def execShlN3 (o : N3) (s : State) : Host.Outcome State Fault Refusal := issue (.shlN3 o) (lane (semShlN3 o)) s

/-- SHR_N3 (R93). -/
def semShrN3 (o : N3) : LaneMask → Warp → Warp := n3Sem o (shrW)
/-- SHR_N3: issue and effect (R93). -/
def execShrN3 (o : N3) (s : State) : Host.Outcome State Fault Refusal := issue (.shrN3 o) (lane (semShrN3 o)) s

/-- SAR_N3 (R93). -/
def semSarN3 (o : N3) : LaneMask → Warp → Warp := n3Sem o (sarW)
/-- SAR_N3: issue and effect (R93). -/
def execSarN3 (o : N3) (s : State) : Host.Outcome State Fault Refusal := issue (.sarN3 o) (lane (semSarN3 o)) s

/-- MOV_N3 (R93). -/
def semMovN3 (o : N3) : LaneMask → Warp → Warp := n3Sem o (fun a _ => (a, ccInt a))
/-- MOV_N3: issue and effect (R93). -/
def execMovN3 (o : N3) (s : State) : Host.Outcome State Fault Refusal := issue (.movN3 o) (lane (semMovN3 o)) s

/-- ICMP_N3 (R93). -/
def semIcmpN3 (o : N3) : LaneMask → Warp → Warp := n3Cmp o (fun a b => ccSub a b 0)

/-- IADDI (R93). -/
def semIaddi (o : NI) : LaneMask → Warp → Warp := niSem o (o.imm.signExtend 32) (iaddW)
/-- IADDI: issue and effect (R93). -/
def execIaddi (o : NI) (s : State) : Host.Outcome State Fault Refusal := issue (.iaddi o) (lane (semIaddi o)) s

/-- SHLI (R93). -/
def semShli (o : NI) : LaneMask → Warp → Warp := niSem o (o.imm.zeroExtend 32) (shlW)
/-- SHLI: issue and effect (R93). -/
def execShli (o : NI) (s : State) : Host.Outcome State Fault Refusal := issue (.shli o) (lane (semShli o)) s

/-- SHRI (R93). -/
def semShri (o : NI) : LaneMask → Warp → Warp := niSem o (o.imm.zeroExtend 32) (shrW)
/-- SHRI: issue and effect (R93). -/
def execShri (o : NI) (s : State) : Host.Outcome State Fault Refusal := issue (.shri o) (lane (semShri o)) s

/-- SARI (R93). -/
def semSari (o : NI) : LaneMask → Warp → Warp := niSem o (o.imm.zeroExtend 32) (sarW)
/-- SARI: issue and effect (R93). -/
def execSari (o : NI) (s : State) : Host.Outcome State Fault Refusal := issue (.sari o) (lane (semSari o)) s

/-- ANDI (R93). -/
def semAndi (o : NI) : LaneMask → Warp → Warp := niSem o (o.imm.zeroExtend 32) (logW (· &&& ·))
/-- ANDI: issue and effect (R93). -/
def execAndi (o : NI) (s : State) : Host.Outcome State Fault Refusal := issue (.andi o) (lane (semAndi o)) s

/-- ORI (R93). -/
def semOri (o : NI) : LaneMask → Warp → Warp := niSem o (o.imm.zeroExtend 32) (logW (· ||| ·))
/-- ORI: issue and effect (R93). -/
def execOri (o : NI) (s : State) : Host.Outcome State Fault Refusal := issue (.ori o) (lane (semOri o)) s

/-- XORI (R93). -/
def semXori (o : NI) : LaneMask → Warp → Warp := niSem o (o.imm.zeroExtend 32) (logW (· ^^^ ·))
/-- XORI: issue and effect (R93). -/
def execXori (o : NI) (s : State) : Host.Outcome State Fault Refusal := issue (.xori o) (lane (semXori o)) s

/-- MOVI8 (R93). -/
def semMovi8 (o : NI) : LaneMask → Warp → Warp := niSem o (o.imm.signExtend 32) (fun _ b => (b, ccInt b))
/-- MOVI8: issue and effect (R93). -/
def execMovi8 (o : NI) (s : State) : Host.Outcome State Fault Refusal := issue (.movi8 o) (lane (semMovi8 o)) s

/-- ICMPI (R93). -/
def semIcmpi (o : NI) : LaneMask → Warp → Warp := niCmp o

/-- IADD (R130). -/
def semIadd (o : Xr) : LaneMask → Warp → Warp := xr2 o (arithT o.ty o.sat (· + ·) fun a b => ccAdd a b 0)
/-- IADD: issue and effect (R130). -/
def execIadd (o : Xr) (s : State) : Host.Outcome State Fault Refusal := issue (.iadd o) (lane (semIadd o)) s

/-- ISUB (R130). -/
def semIsub (o : Xr) : LaneMask → Warp → Warp := xr2 o (arithT o.ty o.sat (· - ·) fun a b => ccSub a b 0)
/-- ISUB: issue and effect (R130). -/
def execIsub (o : Xr) (s : State) : Host.Outcome State Fault Refusal := issue (.isub o) (lane (semIsub o)) s

/-- IADDC (R131). -/
def semIaddc (o : Xr) : LaneMask → Warp → Warp := xrCarry o fun cin a b => (a + b + BitVec.ofNat 32 cin, ccAdd a b cin)
/-- IADDC: issue and effect (R131). -/
def execIaddc (o : Xr) (s : State) : Host.Outcome State Fault Refusal := issue (.iaddc o) (lane (semIaddc o)) s

/-- ISUBB (R131). -/
def semIsubb (o : Xr) : LaneMask → Warp → Warp := xrCarry o fun cin a b => (a - b - BitVec.ofNat 32 (1 - cin), ccSub a b (1 - cin))
/-- ISUBB: issue and effect (R131). -/
def execIsubb (o : Xr) (s : State) : Host.Outcome State Fault Refusal := issue (.isubb o) (lane (semIsubb o)) s

/-- INEG (R130). -/
def semIneg (o : Xr) : LaneMask → Warp → Warp := xr1 o fun a => arithT o.ty o.sat (fun _ x => -x) (fun _ x => ccSub 0 x 0) a a
/-- INEG: issue and effect (R130). -/
def execIneg (o : Xr) (s : State) : Host.Outcome State Fault Refusal := issue (.ineg o) (lane (semIneg o)) s

/-- IABS (R130). -/
def semIabs (o : Xr) : LaneMask → Warp → Warp := xr1 o fun a => arithT o.ty o.sat (fun _ x => x.natAbs) (fun _ x => { ccInt (absW x) with v := x == 0x8000_0000 }) a a
/-- IABS: issue and effect (R130). -/
def execIabs (o : Xr) (s : State) : Host.Outcome State Fault Refusal := issue (.iabs o) (lane (semIabs o)) s

/-- IMUL (R130). -/
def semImul (o : Xr) : LaneMask → Warp → Warp := xr2 o (arithT o.ty o.sat (· * ·) fun a b => ccInt (a * b))
/-- IMUL: issue and effect (R130). -/
def execImul (o : Xr) (s : State) : Host.Outcome State Fault Refusal := issue (.imul o) (lane (semImul o)) s

/-- IMULH (R130). -/
def semImulh (o : Xr) : LaneMask → Warp → Warp := xr2 o fun a b => resW (mulHi o.ty a b)
/-- IMULH: issue and effect (R130). -/
def execImulh (o : Xr) (s : State) : Host.Outcome State Fault Refusal := issue (.imulh o) (lane (semImulh o)) s

/-- IMAD (R130). -/
def semImad (o : Xr) : LaneMask → Warp → Warp := xr3 o fun a b c => resW (a * b + c)
/-- IMAD: issue and effect (R130). -/
def execImad (o : Xr) (s : State) : Host.Outcome State Fault Refusal := issue (.imad o) (lane (semImad o)) s

/-- IMADW (R130). -/
def semImadw (o : Xr) : LaneMask → Warp → Warp := xrMadw o
/-- IMADW: issue and effect (R130). -/
def execImadw (o : Xr) (s : State) : Host.Outcome State Fault Refusal := issue (.imadw o) (lane (semImadw o)) s

/-- IDIV (R133). -/
def semIdiv (o : Xr) : LaneMask → Warp → Warp := xr2 o (divT o.ty)
/-- IDIV: issue and effect (R133). -/
def execIdiv (o : Xr) (s : State) : Host.Outcome State Fault Refusal := issue (.idiv o) (lane (semIdiv o)) s

/-- IREM (R133). -/
def semIrem (o : Xr) : LaneMask → Warp → Warp := xr2 o (remT o.ty)
/-- IREM: issue and effect (R133). -/
def execIrem (o : Xr) (s : State) : Host.Outcome State Fault Refusal := issue (.irem o) (lane (semIrem o)) s

/-- IMIN (R130). -/
def semImin (o : Xr) : LaneMask → Warp → Warp := xr2 o (minmaxT o.ty true)
/-- IMIN: issue and effect (R130). -/
def execImin (o : Xr) (s : State) : Host.Outcome State Fault Refusal := issue (.imin o) (lane (semImin o)) s

/-- IMAX (R130). -/
def semImax (o : Xr) : LaneMask → Warp → Warp := xr2 o (minmaxT o.ty false)
/-- IMAX: issue and effect (R130). -/
def execImax (o : Xr) (s : State) : Host.Outcome State Fault Refusal := issue (.imax o) (lane (semImax o)) s

/-- ICMP (R134). -/
def semIcmp (o : Xr) : LaneMask → Warp → Warp := xrIcmp o

/-- LEA (R130). -/
def semLea (o : Xr) : LaneMask → Warp → Warp := xrLea o
/-- LEA: issue and effect (R130). -/
def execLea (o : Xr) (s : State) : Host.Outcome State Fault Refusal := issue (.lea o) (lane (semLea o)) s

/-- IADD64 (R130). -/
def semIadd64 (o : Xr) : LaneMask → Warp → Warp := xrPair o fun a b => (a + b, ccAdd a b 0)
/-- IADD64: issue and effect (R130). -/
def execIadd64 (o : Xr) (s : State) : Host.Outcome State Fault Refusal := issue (.iadd64 o) (lane (semIadd64 o)) s

/-- ISUB64 (R130). -/
def semIsub64 (o : Xr) : LaneMask → Warp → Warp := xrPair o fun a b => (a - b, ccSub a b 0)
/-- ISUB64: issue and effect (R130). -/
def execIsub64 (o : Xr) (s : State) : Host.Outcome State Fault Refusal := issue (.isub64 o) (lane (semIsub64 o)) s

/-- SHL (R130). -/
def semShl (o : Xr) : LaneMask → Warp → Warp := xrShift o shlW fun a n => a <<< n
/-- SHL: issue and effect (R130). -/
def execShl (o : Xr) (s : State) : Host.Outcome State Fault Refusal := issue (.shl o) (lane (semShl o)) s

/-- SHR (R130). -/
def semShr (o : Xr) : LaneMask → Warp → Warp := xrShift o shrW fun a n => a >>> n
/-- SHR: issue and effect (R130). -/
def execShr (o : Xr) (s : State) : Host.Outcome State Fault Refusal := issue (.shr o) (lane (semShr o)) s

/-- SAR (R130). -/
def semSar (o : Xr) : LaneMask → Warp → Warp := xrShift o sarW fun a n => a.sshiftRight n
/-- SAR: issue and effect (R130). -/
def execSar (o : Xr) (s : State) : Host.Outcome State Fault Refusal := issue (.sar o) (lane (semSar o)) s

/-- ROL (R130). -/
def semRol (o : Xr) : LaneMask → Warp → Warp := xr2 o fun a b => resW (a.rotateLeft (fieldOf b 0 5))
/-- ROL: issue and effect (R130). -/
def execRol (o : Xr) (s : State) : Host.Outcome State Fault Refusal := issue (.rol o) (lane (semRol o)) s

/-- ROR (R130). -/
def semRor (o : Xr) : LaneMask → Warp → Warp := xr2 o fun a b => resW (a.rotateRight (fieldOf b 0 5))
/-- ROR: issue and effect (R130). -/
def execRor (o : Xr) (s : State) : Host.Outcome State Fault Refusal := issue (.ror o) (lane (semRor o)) s

/-- FSHL (R130). -/
def semFshl (o : Xr) : LaneMask → Warp → Warp := xr3 o fun a b c => resW (hiOf ((a ++ b : DWord) <<< fieldOf c 0 5))
/-- FSHL: issue and effect (R130). -/
def execFshl (o : Xr) (s : State) : Host.Outcome State Fault Refusal := issue (.fshl o) (lane (semFshl o)) s

/-- FSHR (R130). -/
def semFshr (o : Xr) : LaneMask → Warp → Warp := xr3 o fun a b c => resW (loOf ((a ++ b : DWord) >>> fieldOf c 0 5))
/-- FSHR: issue and effect (R130). -/
def execFshr (o : Xr) (s : State) : Host.Outcome State Fault Refusal := issue (.fshr o) (lane (semFshr o)) s

/-- AND (R130). -/
def semAnd (o : Xr) : LaneMask → Warp → Warp := xr2 o (logW (· &&& ·))
/-- AND: issue and effect (R130). -/
def execAnd (o : Xr) (s : State) : Host.Outcome State Fault Refusal := issue (.and o) (lane (semAnd o)) s

/-- OR (R130). -/
def semOr (o : Xr) : LaneMask → Warp → Warp := xr2 o (logW (· ||| ·))
/-- OR: issue and effect (R130). -/
def execOr (o : Xr) (s : State) : Host.Outcome State Fault Refusal := issue (.or o) (lane (semOr o)) s

/-- XOR (R130). -/
def semXor (o : Xr) : LaneMask → Warp → Warp := xr2 o (logW (· ^^^ ·))
/-- XOR: issue and effect (R130). -/
def execXor (o : Xr) (s : State) : Host.Outcome State Fault Refusal := issue (.xor o) (lane (semXor o)) s

/-- ANDN (R130). -/
def semAndn (o : Xr) : LaneMask → Warp → Warp := xr2 o (logW fun a b => a &&& ~~~b)
/-- ANDN: issue and effect (R130). -/
def execAndn (o : Xr) (s : State) : Host.Outcome State Fault Refusal := issue (.andn o) (lane (semAndn o)) s

/-- NOT (R130). -/
def semNot (o : Xr) : LaneMask → Warp → Warp := xr1 o fun a => resW (~~~a)
/-- NOT: issue and effect (R130). -/
def execNot (o : Xr) (s : State) : Host.Outcome State Fault Refusal := issue (.not o) (lane (semNot o)) s

/-- POPC (R130). -/
def semPopc (o : Xr) : LaneMask → Warp → Warp := xr1 o fun a => resW (BitVec.ofNat 32 (popcount a))
/-- POPC: issue and effect (R130). -/
def execPopc (o : Xr) (s : State) : Host.Outcome State Fault Refusal := issue (.popc o) (lane (semPopc o)) s

/-- CLZ (R130). -/
def semClz (o : Xr) : LaneMask → Warp → Warp := xr1 o fun a => resW (BitVec.ofNat 32 (clzW a))
/-- CLZ: issue and effect (R130). -/
def execClz (o : Xr) (s : State) : Host.Outcome State Fault Refusal := issue (.clz o) (lane (semClz o)) s

/-- CTZ (R130). -/
def semCtz (o : Xr) : LaneMask → Warp → Warp := xr1 o fun a => resW (BitVec.ofNat 32 (ctzW a))
/-- CTZ: issue and effect (R130). -/
def execCtz (o : Xr) (s : State) : Host.Outcome State Fault Refusal := issue (.ctz o) (lane (semCtz o)) s

/-- BREV (R130). -/
def semBrev (o : Xr) : LaneMask → Warp → Warp := xr1 o fun a => resW a.reverse
/-- BREV: issue and effect (R130). -/
def execBrev (o : Xr) (s : State) : Host.Outcome State Fault Refusal := issue (.brev o) (lane (semBrev o)) s

/-- BFE (R136). -/
def semBfe (o : Xr) : LaneMask → Warp → Warp := xr2 o fun a b => resW (bfeW o.ty a b)
/-- BFE: issue and effect (R136). -/
def execBfe (o : Xr) (s : State) : Host.Outcome State Fault Refusal := issue (.bfe o) (lane (semBfe o)) s

/-- BFI (R136). -/
def semBfi (o : Xr) : LaneMask → Warp → Warp := xr3 o fun a b c => resW (bfiW a b c)
/-- BFI: issue and effect (R136). -/
def execBfi (o : Xr) (s : State) : Host.Outcome State Fault Refusal := issue (.bfi o) (lane (semBfi o)) s

/-- BYSEL (R136). -/
def semBysel (o : Xr) : LaneMask → Warp → Warp := xr3 o fun a b c => resW (byselW a b c)
/-- BYSEL: issue and effect (R136). -/
def execBysel (o : Xr) (s : State) : Host.Outcome State Fault Refusal := issue (.bysel o) (lane (semBysel o)) s

/-- ISEL (R134). -/
def semIsel (o : Sel) : LaneMask → Warp → Warp := selSem o ccInt (fun x => x) (fun x => x)
/-- ISEL: issue and effect (R134). -/
def execIsel (o : Sel) (s : State) : Host.Outcome State Fault Refusal := issue (.isel o) (lane (semIsel o)) s

/-- LUT3 (R135). -/
def semLut3 (o : Lut3) : LaneMask → Warp → Warp := lut3Sem o
/-- LUT3: issue and effect (R135). -/
def execLut3 (o : Lut3) (s : State) : Host.Outcome State Fault Refusal := issue (.lut3 o) (lane (semLut3 o)) s

end Sys2Proof.Machine
end

