-- ==== Sys2Proof/Machine/FloatLane.lean ====
section
/-! DEFINITION. The floating-point lane instructions of all three lengths (R91, R93, R138-R143). -/

namespace Sys2Proof.Machine

/-! ### Operands and results -/

/-- An FP32 result with its flags (R59). -/
def resF (r : Word) : Word × CC := (r, ccF32 r)

/-- A three-operand function of bit patterns on words. -/
def f3 (g : Nat → Nat → Nat → Nat) (a b c : Word) : Word := BitVec.ofNat 32 (g a.toNat b.toNat c.toNat)

def faddW (r : Rnd) (a b : Word) : Word × CC := resF (f2 (fp32.add r) a b)
/-- FSUB: a plus the negated b; NaNs are canonical either way (R72, R139). -/
def fsubW (r : Rnd) (a b : Word) : Word × CC := resF (f2 (fun x y => fp32.add r x (fp32.negate y)) a b)
def fmulW (r : Rnd) (a b : Word) : Word × CC := resF (f2 (fp32.mul r) a b)
/-- FMIN, FMAX, FMINM and FMAXM (R73). -/
def fminmaxW (g : Nat → Nat → Nat) (a b : Word) : Word × CC := resF (f2 g a b)

/-- Absolute value first, then negation, of an FP32 operand (R96). -/
def signMods (abs neg : Bool) (x : Word) : Word :=
  let y := if abs then x &&& 0x7FFF_FFFF else x
  if neg then y ^^^ 0x8000_0000 else y

/-- The same on both elements of a packed 16-bit operand. -/
def signMods2 (abs neg : Bool) (x : Word) : Word :=
  let y := if abs then x &&& 0x7FFF_7FFF else x
  if neg then y ^^^ 0x8000_8000 else y

/-- An immediate B as FP32: the exact value of the integer (R126). -/
def immF32 (i : BitVec 14) : Word := BitVec.ofNat 32 (fp32.ofInt .rne i.toInt)
/-- An immediate B of a packed type: RNE of the integer in each element (R126). -/
def immPacked (f : Fmt) (i : BitVec 14) : Word :=
  let e := f.ofInt .rne i.toInt
  packElems 16 [e, e]

def xfA (o : Xr) (w : Warp) (l : Lane) : Word := signMods o.absA o.negA (w.vl o.a.toNat l)
def xfB (o : Xr) (w : Warp) (l : Lane) : Word :=
  signMods o.absB o.negB (match o.src with | .imm i => immF32 i | .regs b _ => w.vl b.toNat l)

/-- Saturation of an FP32 result to [+0, 1.0] (R139). -/
def satF (o : Xr) (p : Word × CC) : Word × CC := if o.sat then resF (f1 fp32.satUnit p.1) else p

def xf1 (o : Xr) (f : Word → Word × CC) (m : LaneMask) (w : Warp) : Warp :=
  w.put m o.d.toNat o.h.c o.h.ccSet fun l => f (xfA o w l)
def xf2 (o : Xr) (f : Word → Word → Word × CC) (m : LaneMask) (w : Warp) : Warp :=
  w.put m o.d.toNat o.h.c o.h.ccSet fun l => satF o (f (xfA o w l) (xfB o w l))
def xf3 (o : Xr) (f : Word → Word → Word → Word × CC) (m : LaneMask) (w : Warp) : Warp :=
  w.put m o.d.toNat o.h.c o.h.ccSet fun l => satF o (f (xfA o w l) (xfB o w l) (w.vl (xrC o) l))

/-- FCMP (R140). -/
def xfCmp (o : Xr) (m : LaneMask) (w : Warp) : Warp :=
  w.putCC m o.h.ccSet fun l => ccFcmp fp32 (xfA o w l).toNat (xfB o w l).toNat

/-- A packed 16-bit operation of two operands, per element (R139). -/
def packF2 (f : Fmt) (sat : Bool) (g : Nat → Nat → Nat) (a b : Word) : Word × CC :=
  let fin (x : Nat) : Nat := if sat then f.satUnit x else x
  let r := packElems 16 (((elems 16 a).zip (elems 16 b)).map fun (x, y) => fin (g x y))
  (r, ccPacked 16 true r)

/-- A packed 16-bit operation of three operands. -/
def packF3 (f : Fmt) (sat : Bool) (g : Nat → Nat → Nat → Nat) (a b c : Word) : Word × CC :=
  let fin (x : Nat) : Nat := if sat then f.satUnit x else x
  let r := packElems 16 (((elems 16 a).zip ((elems 16 b).zip (elems 16 c))).map fun (x, y, z) => fin (g x y z))
  (r, ccPacked 16 true r)

def xpB (f : Fmt) (o : Xr) (w : Warp) (l : Lane) : Word :=
  signMods2 o.absB o.negB (match o.src with | .imm i => immPacked f i | .regs b _ => w.vl b.toNat l)

def xp2 (f : Fmt) (o : Xr) (g : Nat → Nat → Nat) (m : LaneMask) (w : Warp) : Warp :=
  w.put m o.d.toNat o.h.c o.h.ccSet fun l =>
    packF2 f o.sat g (signMods2 o.absA o.negA (w.vl o.a.toNat l)) (xpB f o w l)
def xp3 (f : Fmt) (o : Xr) (g : Nat → Nat → Nat → Nat) (m : LaneMask) (w : Warp) : Warp :=
  w.put m o.d.toNat o.h.c o.h.ccSet fun l =>
    packF3 f o.sat g (signMods2 o.absA o.negA (w.vl o.a.toNat l)) (xpB f o w l) (w.vl (xrC o) l)

/-- FSCALE (R142). -/
def fscaleSem (o : Fscale) (m : LaneMask) (w : Warp) : Warp :=
  w.put m o.d.toNat o.h.c o.h.ccSet fun l => resF (f1 (fscale · o.n.toInt) (w.vl o.a.toNat l))

/-! ### The instructions -/

/-- FADD_H2 (R91). -/
def semFaddH2 (o : H2) : LaneMask → Warp → Warp := h2Sem o (faddW .rne)
/-- FADD_H2: issue and effect (R91). -/
def execFaddH2 (o : H2) (s : State) : Host.Outcome State Fault Refusal := issue (.faddH2 o) (lane (semFaddH2 o)) s

/-- FSUB_H2 (R91). -/
def semFsubH2 (o : H2) : LaneMask → Warp → Warp := h2Sem o (fsubW .rne)
/-- FSUB_H2: issue and effect (R91). -/
def execFsubH2 (o : H2) (s : State) : Host.Outcome State Fault Refusal := issue (.fsubH2 o) (lane (semFsubH2 o)) s

/-- FMUL_H2 (R91). -/
def semFmulH2 (o : H2) : LaneMask → Warp → Warp := h2Sem o (fmulW .rne)
/-- FMUL_H2: issue and effect (R91). -/
def execFmulH2 (o : H2) (s : State) : Host.Outcome State Fault Refusal := issue (.fmulH2 o) (lane (semFmulH2 o)) s

/-- FMAX_H2 (R91). -/
def semFmaxH2 (o : H2) : LaneMask → Warp → Warp := h2Sem o (fminmaxW fp32.maxNum)
/-- FMAX_H2: issue and effect (R91). -/
def execFmaxH2 (o : H2) (s : State) : Host.Outcome State Fault Refusal := issue (.fmaxH2 o) (lane (semFmaxH2 o)) s

/-- FMIN_H2 (R91). -/
def semFminH2 (o : H2) : LaneMask → Warp → Warp := h2Sem o (fminmaxW fp32.minNum)
/-- FMIN_H2: issue and effect (R91). -/
def execFminH2 (o : H2) (s : State) : Host.Outcome State Fault Refusal := issue (.fminH2 o) (lane (semFminH2 o)) s

/-- FADD_N3 (R93). -/
def semFaddN3 (o : N3) : LaneMask → Warp → Warp := n3Sem o (faddW .rne)
/-- FADD_N3: issue and effect (R93). -/
def execFaddN3 (o : N3) (s : State) : Host.Outcome State Fault Refusal := issue (.faddN3 o) (lane (semFaddN3 o)) s

/-- FSUB_N3 (R93). -/
def semFsubN3 (o : N3) : LaneMask → Warp → Warp := n3Sem o (fsubW .rne)
/-- FSUB_N3: issue and effect (R93). -/
def execFsubN3 (o : N3) (s : State) : Host.Outcome State Fault Refusal := issue (.fsubN3 o) (lane (semFsubN3 o)) s

/-- FMUL_N3 (R93). -/
def semFmulN3 (o : N3) : LaneMask → Warp → Warp := n3Sem o (fmulW .rne)
/-- FMUL_N3: issue and effect (R93). -/
def execFmulN3 (o : N3) (s : State) : Host.Outcome State Fault Refusal := issue (.fmulN3 o) (lane (semFmulN3 o)) s

/-- FMIN_N3 (R93). -/
def semFminN3 (o : N3) : LaneMask → Warp → Warp := n3Sem o (fminmaxW fp32.minNum)
/-- FMIN_N3: issue and effect (R93). -/
def execFminN3 (o : N3) (s : State) : Host.Outcome State Fault Refusal := issue (.fminN3 o) (lane (semFminN3 o)) s

/-- FMAX_N3 (R93). -/
def semFmaxN3 (o : N3) : LaneMask → Warp → Warp := n3Sem o (fminmaxW fp32.maxNum)
/-- FMAX_N3: issue and effect (R93). -/
def execFmaxN3 (o : N3) (s : State) : Host.Outcome State Fault Refusal := issue (.fmaxN3 o) (lane (semFmaxN3 o)) s

/-- HADD2_N3 (R93). -/
def semHadd2N3 (o : N3) : LaneMask → Warp → Warp := n3Sem o (packF2 fp16 false (fp16.add .rne))
/-- HADD2_N3: issue and effect (R93). -/
def execHadd2N3 (o : N3) (s : State) : Host.Outcome State Fault Refusal := issue (.hadd2N3 o) (lane (semHadd2N3 o)) s

/-- HMUL2_N3 (R93). -/
def semHmul2N3 (o : N3) : LaneMask → Warp → Warp := n3Sem o (packF2 fp16 false (fp16.mul .rne))
/-- HMUL2_N3: issue and effect (R93). -/
def execHmul2N3 (o : N3) (s : State) : Host.Outcome State Fault Refusal := issue (.hmul2N3 o) (lane (semHmul2N3 o)) s

/-- BADD2_N3 (R93). -/
def semBadd2N3 (o : N3) : LaneMask → Warp → Warp := n3Sem o (packF2 bf16 false (bf16.add .rne))
/-- BADD2_N3: issue and effect (R93). -/
def execBadd2N3 (o : N3) (s : State) : Host.Outcome State Fault Refusal := issue (.badd2N3 o) (lane (semBadd2N3 o)) s

/-- BMUL2_N3 (R93). -/
def semBmul2N3 (o : N3) : LaneMask → Warp → Warp := n3Sem o (packF2 bf16 false (bf16.mul .rne))
/-- BMUL2_N3: issue and effect (R93). -/
def execBmul2N3 (o : N3) (s : State) : Host.Outcome State Fault Refusal := issue (.bmul2N3 o) (lane (semBmul2N3 o)) s

/-- FCMP_N3 (R93). -/
def semFcmpN3 (o : N3) : LaneMask → Warp → Warp := n3Cmp o (fun a b => ccFcmp fp32 a.toNat b.toNat)

/-- FADD (R139). -/
def semFadd (o : Xr) : LaneMask → Warp → Warp := xf2 o (faddW o.rnd)
/-- FADD: issue and effect (R139). -/
def execFadd (o : Xr) (s : State) : Host.Outcome State Fault Refusal := issue (.fadd o) (lane (semFadd o)) s

/-- FSUB (R139). -/
def semFsub (o : Xr) : LaneMask → Warp → Warp := xf2 o (fsubW o.rnd)
/-- FSUB: issue and effect (R139). -/
def execFsub (o : Xr) (s : State) : Host.Outcome State Fault Refusal := issue (.fsub o) (lane (semFsub o)) s

/-- FMUL (R139). -/
def semFmul (o : Xr) : LaneMask → Warp → Warp := xf2 o (fmulW o.rnd)
/-- FMUL: issue and effect (R139). -/
def execFmul (o : Xr) (s : State) : Host.Outcome State Fault Refusal := issue (.fmul o) (lane (semFmul o)) s

/-- FFMA (R139). -/
def semFfma (o : Xr) : LaneMask → Warp → Warp := xf3 o fun a b c => resF (f3 (fp32.fma o.rnd) a b c)
/-- FFMA: issue and effect (R139). -/
def execFfma (o : Xr) (s : State) : Host.Outcome State Fault Refusal := issue (.ffma o) (lane (semFfma o)) s

/-- FMIN (R73). -/
def semFmin (o : Xr) : LaneMask → Warp → Warp := xf2 o (fminmaxW fp32.minNum)
/-- FMIN: issue and effect (R73). -/
def execFmin (o : Xr) (s : State) : Host.Outcome State Fault Refusal := issue (.fmin o) (lane (semFmin o)) s

/-- FMAX (R73). -/
def semFmax (o : Xr) : LaneMask → Warp → Warp := xf2 o (fminmaxW fp32.maxNum)
/-- FMAX: issue and effect (R73). -/
def execFmax (o : Xr) (s : State) : Host.Outcome State Fault Refusal := issue (.fmax o) (lane (semFmax o)) s

/-- FMINM (R73). -/
def semFminm (o : Xr) : LaneMask → Warp → Warp := xf2 o (fminmaxW fp32.minimum)
/-- FMINM: issue and effect (R73). -/
def execFminm (o : Xr) (s : State) : Host.Outcome State Fault Refusal := issue (.fminm o) (lane (semFminm o)) s

/-- FMAXM (R73). -/
def semFmaxm (o : Xr) : LaneMask → Warp → Warp := xf2 o (fminmaxW fp32.maximum)
/-- FMAXM: issue and effect (R73). -/
def execFmaxm (o : Xr) (s : State) : Host.Outcome State Fault Refusal := issue (.fmaxm o) (lane (semFmaxm o)) s

/-- FCMP (R140). -/
def semFcmp (o : Xr) : LaneMask → Warp → Warp := xfCmp o

/-- FRND (R141). -/
def semFrnd (o : Xr) : LaneMask → Warp → Warp := xf1 o fun a => resF (f1 (fp32.rnd o.rnd) a)
/-- FRND: issue and effect (R141). -/
def execFrnd (o : Xr) (s : State) : Host.Outcome State Fault Refusal := issue (.frnd o) (lane (semFrnd o)) s

/-- FCLASS (R141). -/
def semFclass (o : Xr) : LaneMask → Warp → Warp := xf1 o fun a => resW (BitVec.ofNat 32 (2 ^ fp32.classBit a.toNat))
/-- FCLASS: issue and effect (R141). -/
def execFclass (o : Xr) (s : State) : Host.Outcome State Fault Refusal := issue (.fclass o) (lane (semFclass o)) s

/-- HADD2 (R139). -/
def semHadd2 (o : Xr) : LaneMask → Warp → Warp := xp2 fp16 o (fp16.add o.rnd)
/-- HADD2: issue and effect (R139). -/
def execHadd2 (o : Xr) (s : State) : Host.Outcome State Fault Refusal := issue (.hadd2 o) (lane (semHadd2 o)) s

/-- HMUL2 (R139). -/
def semHmul2 (o : Xr) : LaneMask → Warp → Warp := xp2 fp16 o (fp16.mul o.rnd)
/-- HMUL2: issue and effect (R139). -/
def execHmul2 (o : Xr) (s : State) : Host.Outcome State Fault Refusal := issue (.hmul2 o) (lane (semHmul2 o)) s

/-- HFMA2 (R139). -/
def semHfma2 (o : Xr) : LaneMask → Warp → Warp := xp3 fp16 o (fp16.fma o.rnd)
/-- HFMA2: issue and effect (R139). -/
def execHfma2 (o : Xr) (s : State) : Host.Outcome State Fault Refusal := issue (.hfma2 o) (lane (semHfma2 o)) s

/-- BADD2 (R139). -/
def semBadd2 (o : Xr) : LaneMask → Warp → Warp := xp2 bf16 o (bf16.add o.rnd)
/-- BADD2: issue and effect (R139). -/
def execBadd2 (o : Xr) (s : State) : Host.Outcome State Fault Refusal := issue (.badd2 o) (lane (semBadd2 o)) s

/-- BMUL2 (R139). -/
def semBmul2 (o : Xr) : LaneMask → Warp → Warp := xp2 bf16 o (bf16.mul o.rnd)
/-- BMUL2: issue and effect (R139). -/
def execBmul2 (o : Xr) (s : State) : Host.Outcome State Fault Refusal := issue (.bmul2 o) (lane (semBmul2 o)) s

/-- BFMA2 (R139). -/
def semBfma2 (o : Xr) : LaneMask → Warp → Warp := xp3 bf16 o (bf16.fma o.rnd)
/-- BFMA2: issue and effect (R139). -/
def execBfma2 (o : Xr) (s : State) : Host.Outcome State Fault Refusal := issue (.bfma2 o) (lane (semBfma2 o)) s

/-- FRCP (R74). -/
def semFrcp (o : Xr) : LaneMask → Warp → Warp := xf1 o fun a => resF (f1 frcp a)
/-- FRCP: issue and effect (R74). -/
def execFrcp (o : Xr) (s : State) : Host.Outcome State Fault Refusal := issue (.frcp o) (lane (semFrcp o)) s

/-- FRSQ (R74). -/
def semFrsq (o : Xr) : LaneMask → Warp → Warp := xf1 o fun a => resF (f1 frsq a)
/-- FRSQ: issue and effect (R74). -/
def execFrsq (o : Xr) (s : State) : Host.Outcome State Fault Refusal := issue (.frsq o) (lane (semFrsq o)) s

/-- FSQRT (R74). -/
def semFsqrt (o : Xr) : LaneMask → Warp → Warp := xf1 o fun a => resF (f1 fsqrt a)
/-- FSQRT: issue and effect (R74). -/
def execFsqrt (o : Xr) (s : State) : Host.Outcome State Fault Refusal := issue (.fsqrt o) (lane (semFsqrt o)) s

/-- FEXP2 (R74). -/
def semFexp2 (o : Xr) : LaneMask → Warp → Warp := xf1 o fun a => resF (f1 fexp2 a)
/-- FEXP2: issue and effect (R74). -/
def execFexp2 (o : Xr) (s : State) : Host.Outcome State Fault Refusal := issue (.fexp2 o) (lane (semFexp2 o)) s

/-- FLOG2 (R74). -/
def semFlog2 (o : Xr) : LaneMask → Warp → Warp := xf1 o fun a => resF (f1 flog2 a)
/-- FLOG2: issue and effect (R74). -/
def execFlog2 (o : Xr) (s : State) : Host.Outcome State Fault Refusal := issue (.flog2 o) (lane (semFlog2 o)) s

/-- FDIV (R74). -/
def semFdiv (o : Xr) : LaneMask → Warp → Warp := xf2 o fun a b => resF (f2 fdiv a b)
/-- FDIV: issue and effect (R74). -/
def execFdiv (o : Xr) (s : State) : Host.Outcome State Fault Refusal := issue (.fdiv o) (lane (semFdiv o)) s

/-- FSEL (R134). -/
def semFsel (o : Sel) : LaneMask → Warp → Warp := selSem o ccF32 (signMods o.absA o.negA) (signMods o.absB o.negB)
/-- FSEL: issue and effect (R134). (DEDUCED, unsafe: notes/assumptions/18.md). -/
def execFsel (o : Sel) (s : State) : Host.Outcome State Fault Refusal := issue (.fsel o) (lane (semFsel o)) s

/-- FSCALE (R142). -/
def semFscale (o : Fscale) : LaneMask → Warp → Warp := fscaleSem o
/-- FSCALE: issue and effect (R142). -/
def execFscale (o : Fscale) (s : State) : Host.Outcome State Fault Refusal := issue (.fscale o) (lane (semFscale o)) s

end Sys2Proof.Machine
end

