-- ==== Sys2Proof/Machine/Convert.lean ====
section
/-! DEFINITION. Conversions: CVT, CVT8, CVT4, WID8 and WID4 (R75-R78, R144, R145). -/

namespace Sys2Proof.Machine

/-- CVT to a packed 16-bit type: the elements and whether any was clamped (R144): V says that `sat` changed an element. (DEDUCED, unsafe: notes/assumptions/81.md). -/
def cvtPacked (o : Cvt) (src : Fmt) (xs : List Nat) : Word × CC :=
  let dst := fmtOf o.dst
  let r := packElems 16 (xs.map (convert src dst o.rnd o.sat))
  (r, { ccPacked 16 true r with
        v := xs.any fun x => convert src dst o.rnd o.sat x != convert src dst o.rnd false x })

/-- CVT from FP32 to an integer type (R75). -/
def cvtToInt (o : Cvt) (a : Word) : Int × Bool :=
  let (n, sg) := Ty.elem o.dst
  fp32.toInt o.rnd (if sg then -2 ^ (n - 1) else 0) (if sg then 2 ^ (n - 1) - 1 else 2 ^ n - 1) a.toNat

/-- The integer a CVT source of integer type names, in a lane. -/
def cvtInt (o : Cvt) (w : Warp) (l : Lane) : Int :=
  match o.src with
  | .i32 => (w.vl o.a.toNat l).toInt
  | .n64 => (w.vp o.a.toNat l).toNat
  | .i64 => (w.vp o.a.toNat l).toInt
  | _ => (w.vl o.a.toNat l).toNat

/-- CVT between integer types, of 32 bits (R144): the low bits, or with sat the clamped value. -/
def cvtIntWord (o : Cvt) (x : Int) : Word × CC :=
  let c := if o.sat then clampInt 32 (Ty.elem o.dst).2 x else (x, false)
  let r : Word := BitVec.ofInt 32 c.1
  (r, { ccInt r with v := c.2 })

/-- CVT (R144). -/
def cvtSem (o : Cvt) (m : LaneMask) (w : Warp) : Warp :=
  let d := o.d.toNat
  match o.src with
  | .f32 =>
    match o.dst with
    | .f16x2 | .bf16x2 =>
      w.put m d o.h.c o.h.ccSet fun l => cvtPacked o fp32 [(w.vl o.a.toNat l).toNat, (w.vl o.b.toNat l).toNat]
    | _ =>
      if o.dst.is64 then
        w.putP m d o.h.c o.h.ccSet fun l =>
          let x := cvtToInt o (w.vl o.a.toNat l)
          let r : DWord := BitVec.ofInt 64 x.1
          (r, { ccInt r with v := x.2 })
      else
        w.put m d o.h.c o.h.ccSet fun l =>
          let x := cvtToInt o (w.vl o.a.toNat l)
          let r : Word := BitVec.ofInt 32 x.1
          (r, { ccInt r with v := x.2 })
  | .f16x2 | .bf16x2 =>
    let src := fmtOf o.src
    if o.dst == .f32 then
      w.put m d o.h.c o.h.ccSet fun l =>
        resF (BitVec.ofNat 32 (convert src fp32 .rne false ((elems 16 (w.vl o.a.toNat l)).getD (if o.half then 1 else 0) 0)))
    else w.put m d o.h.c o.h.ccSet fun l => cvtPacked o src (elems 16 (w.vl o.a.toNat l))
  | _ =>
    if o.dst == .f32 then
      w.put m d o.h.c o.h.ccSet fun l => resF (BitVec.ofNat 32 (fp32.ofInt o.rnd (cvtInt o w l)))
    else if o.dst.is64 then
      w.putP m d o.h.c o.h.ccSet fun l =>
        let r : DWord := BitVec.ofInt 64 (cvtInt o w l)
        (r, ccInt r)
    else w.put m d o.h.c o.h.ccSet fun l => cvtIntWord o (cvtInt o w l)

/-- The bit width of an element of a type (R70). -/
def Ty.elemBits : Ty → Nat
  | .e2m1x8 => 4
  | .f16x2 | .bf16x2 => 16
  | .f32 => 32
  | _ => 8

/-- CVT8 and CVT4: g inputs narrowed with the multiplier in s B; the AMAX update comes first (R145, R67, R78). -/
def packSem (o : Pack) (g : Nat) (m : LaneMask) (w : Warp) : Warp :=
  let f := fmtOf o.ty
  let n := Ty.elemBits o.ty
  let k := (w.sr o.b.toNat).toNat
  let w1 := w.put m o.d.toNat o.h.c o.h.ccSet fun l =>
    let r := packElems n ((List.range g).map fun e => narrow f o.sat (w.vl (o.a.toNat + e) l).toNat k)
    (r, ccPacked n true r)
  if o.amax then
    w1.amaxUpd (amaxOf ((lanesOf m).flatMap fun l => (List.range g).map fun e => (w.vl (o.a.toNat + e) l).toNat))
  else w1

/-- The widened elements of a word times k (R77). -/
def widenAll (ty : Ty) (a : Word) (k : Nat) : List Nat := (elems (Ty.elemBits ty) a).map fun q => widen (fmtOf ty) q k

/-- Write a group of v registers from a list of values per lane. -/
def Warp.setGroup (w : Warp) (d g : Nat) (m : LaneMask) (f : Lane → List Nat) : Warp :=
  (List.range g).foldl (fun w e => w.setV (d + e) m fun l => BitVec.ofNat 32 ((f l).getD e 0)) w

/-- WID8 and WID4 (R145, R77). -/
def widSem (o : Pack) (g : Nat) (m : LaneMask) (w : Warp) : Warp :=
  w.setGroup o.d.toNat g m fun l => widenAll o.ty (w.vl o.a.toNat l) (w.sr o.b.toNat).toNat

/-! ### The instructions -/

/-- CVT (R144). -/
def semCvt (o : Cvt) : LaneMask → Warp → Warp := cvtSem o
/-- CVT: issue and effect (R144). -/
def execCvt (o : Cvt) (s : State) : Host.Outcome State Fault Refusal := issue (.cvt o) (lane (semCvt o)) s

/-- CVT8 (R145). -/
def semCvt8 (o : Pack) : LaneMask → Warp → Warp := packSem o 4
/-- CVT8: issue and effect (R145). -/
def execCvt8 (o : Pack) (s : State) : Host.Outcome State Fault Refusal := issue (.cvt8 o) (lane (semCvt8 o)) s

/-- CVT4 (R145). -/
def semCvt4 (o : Pack) : LaneMask → Warp → Warp := packSem o 8
/-- CVT4: issue and effect (R145). -/
def execCvt4 (o : Pack) (s : State) : Host.Outcome State Fault Refusal := issue (.cvt4 o) (lane (semCvt4 o)) s

/-- WID8 (R145). -/
def semWid8 (o : Pack) : LaneMask → Warp → Warp := widSem o 4
/-- WID8: issue and effect (R145). -/
def execWid8 (o : Pack) (s : State) : Host.Outcome State Fault Refusal := issue (.wid8 o) (lane (semWid8 o)) s

/-- WID4 (R145). -/
def semWid4 (o : Pack) : LaneMask → Warp → Warp := widSem o 8
/-- WID4: issue and effect (R145). -/
def execWid4 (o : Pack) (s : State) : Host.Outcome State Fault Refusal := issue (.wid4 o) (lane (semWid4 o)) s

end Sys2Proof.Machine
end

