-- ==== Sys2Proof/Machine/Move.lean ====
section
/-! DEFINITION. Data movement: MOV, MOVI and MOVS (R146). -/

namespace Sys2Proof.Machine

/-- MOV of 32 or 64 bits (R146). -/
def movSem (o : Xr) (m : LaneMask) (w : Warp) : Warp :=
  if o.ty.is64 then
    w.putP m o.d.toNat o.h.c o.h.ccSet fun l => (w.vp o.a.toNat l, ccInt (w.vp o.a.toNat l))
  else xr1 o resW m w

/-- MOVI (R146). -/
def moviSem (o : Movi) (m : LaneMask) (w : Warp) : Warp := w.put m o.d.toNat o.h.c o.h.ccSet fun _ => resW o.imm

/-- MOVS: variants 0b00, 0b01 and 0b10 (R146). -/
def movsSem (o : Movs) (m : LaneMask) (w : Warp) : Warp :=
  match o.op with
  | .vFromS a => w.setV o.d.toNat m fun _ => w.sr a.toNat
  | .sImm i => w.setS o.d.toNat (i.signExtend 32)
  | .sFromS a => w.setS o.d.toNat (w.sr a.toNat)

/-! ### The instructions -/

/-- MOV (R146). -/
def semMov (o : Xr) : LaneMask → Warp → Warp := movSem o
/-- MOV: issue and effect (R146). -/
def execMov (o : Xr) (s : State) : Host.Outcome State Fault Refusal := issue (.mov o) (lane (semMov o)) s

/-- MOVI (R146). -/
def semMovi (o : Movi) : LaneMask → Warp → Warp := moviSem o
/-- MOVI: issue and effect (R146). -/
def execMovi (o : Movi) (s : State) : Host.Outcome State Fault Refusal := issue (.movi o) (lane (semMovi o)) s

/-- MOVS (R146). -/
def semMovs (o : Movs) : LaneMask → Warp → Warp := movsSem o
/-- MOVS: issue and effect (R146). -/
def execMovs (o : Movs) (s : State) : Host.Outcome State Fault Refusal := issue (.movs o) (lane (semMovs o)) s

end Sys2Proof.Machine
end

