-- ==== Sys2Proof/Machine/Coop.lean ====
section
/-! DEFINITION. Special registers (R54-R57, R148), warp cooperation (R147-R153), and the transform pipe (R154-R157). -/

namespace Sys2Proof.Machine

/-! ### Special registers -/

/-- The later of two latched halves of the time base. -/
def laterTick : Option Word → Option Word → Option Word
  | some a, some b => some (if a ≤ b then b else a)
  | some a, none => some a
  | none, b => b

/-- The half that a fragment's path, or its repair, has latched and that is not the warp's yet (R171). -/
def Warp.pathTick (w : Warp) : FragSel → Option Word
  | .path e k => (w.specs.find? (·.entry == e)).bind fun p => (if k then p.taken else p.fall).bind (·.tick)
  | .entry e => ((w.split[e]).bind (·.undo)).bind (·.tick)

/-- The half a TICKHI read of a fragment returns: the warp's last one, its own path's among them (R55). -/
def Warp.latched (w : Warp) (sel : FragSel) : Option Word := laterTick w.tick (w.pathTick sel)

/-- The value of a special register in one lane (R54-R56, R16, R21, R22, R44). -/
def specialVal (s : State) (c : Ctx) (idx : Nat) (l : Lane) : Word :=
  let w := c.w
  let k := c.l.desc
  let n (x : Nat) : Word := BitVec.ofNat 32 x
  match idx with
  | 0 => n l.val
  | 1 => n w.warpSlot
  | 2 => n c.ref.warp
  | 3 => n (c.b.index % k.gx)
  | 4 => n (c.b.index / k.gx % k.gy)
  | 5 => n (c.b.index / k.gx / k.gy)
  | 6 => n k.gx
  | 7 => n k.gy
  | 8 => n k.gz
  | 9 => n c.b.core
  | 10 => n (c.b.core / 4)
  | 11 => n (s.dieOf c.b.core)
  | 12 => n s.env.config.devid
  | 13 => n s.time
  | 14 => (w.latched c.ref.sel).getD (n (s.time / 2 ^ 32))
  | 15 => n w.part
  | 16 => w.amax
  | 17 => if w.nanSeen then 1 else 0
  | 18 => w.lfsr
  | 19 => w.repc.zeroExtend 32
  | 20 => n (c.b.lockQuota * 2 ^ 16 + (c.b.lockQuota - c.b.locked.length))
  | 21 => loOf k.cbank
  | 22 => hiOf k.cbank &&& 0x00FF_FFFF
  | 23 => n c.b.scrSize
  | 24 => w.x.cause
  | 25 => loOf w.x.pc
  | 26 => hiOf w.x.pc
  | 27 => loOf w.x.addr
  | 28 => hiOf w.x.addr
  | 29 => w.x.mask
  | 30 => w.x.info
  | 31 => if k.chain then n c.b.index else 0xFFFF_FFFF
  | 32 => if k.chain then n (k.gx * k.gy * k.gz) else 0
  | 33 => n (launchIdent c.l.id)
  | _ => 0

/-- A read of TICKLO latches the upper half (R55); a path's, or a repair's, for the path alone until it is confirmed and repaired (R171). -/
def Warp.latch (w : Warp) (sel : FragSel) (idx time : Nat) : Warp :=
  let t : Option Word := some (BitVec.ofNat 32 (time / 2 ^ 32))
  if idx != 13 then w
  else match sel with
    | .path e k =>
      let g (x : Path) : Path := { x with tick := t }
      let upd (p : Spec) : Spec := if k then { p with taken := p.taken.map g } else { p with fall := p.fall.map g }
      { w with specs := updFirst (fun p => p.entry == e) upd w.specs }
    | .entry e =>
      if ((w.split[e]).bind (·.undo)).isSome then
        w.modFrag (fun f => { f with undo := f.undo.map fun u => { u with tick := t } }) (.entry e)
      else { w with tick := t }

/-- A write to a special register (R37, R54, R56, R57). -/
def Warp.writeSpecial (w : Warp) (idx : Nat) (v : Word) : Warp :=
  match idx with
  | 16 =>
    let a := v &&& 0x7FFF_FFFF
    if (fp32.decode a.toNat).isNan then { w with amax := 0, nanSeen := true } else { w with amax := a }
  | 17 => { w with nanSeen := v.getLsbD 0 }
  | 18 => { w with lfsr := if v == 0 then 1 else v }
  | 24 => { w with x := { w.x with cause := v } }
  | 25 => { w with x := { w.x with pc := pairOf v (hiOf w.x.pc) } }
  | 26 => { w with x := { w.x with pc := pairOf (loOf w.x.pc) v } }
  | 27 => { w with x := { w.x with addr := pairOf v (hiOf w.x.addr) } }
  | 28 => { w with x := { w.x with addr := pairOf (loOf w.x.addr) v } }
  | 29 => { w with x := { w.x with mask := v } }
  | 30 => { w with x := { w.x with info := v } }
  | _ => w

/-- RDSR and WRSR of AMAX and AMAXF wait for pending updates (R57). -/
def amaxWait (c : Ctx) (idx : Nat) : Bool := (idx == 16 || idx == 17) && amaxPending c.b c.ref.warp c.w

/-- RDSR (R148). -/
def rdsrEff (o : Sr) (c : Ctx) (m : LaneMask) (s : State) : Eff :=
  let i := o.a.toNat
  if amaxWait c i then .wait .waitReg .amaxDone s
  else .ok (s.modW c fun w =>
    (if o.sreg then w.setS o.d.toNat (specialVal s c i 0) else w.setV o.d.toNat m (specialVal s c i)).latch c.ref.sel i s.time)

def execRdsr (o : Sr) (s : State) : Host.Outcome State Fault Refusal := issue (.rdsr o) (rdsrEff o) s

/-- WRSR (R148): trap registers only in the handler (R54, privileged). -/
def wrsrEff (o : Sr) (c : Ctx) (m : LaneMask) (s : State) : Eff :=
  let i := o.d.toNat
  if 24 ≤ i && !c.f.handler then .trap (c.trap 3 0) s
  else if amaxWait c i then .wait .waitReg .amaxDone s
  else if o.sreg then .ok (s.modW c fun w => w.writeSpecial i (w.sr o.a.toNat))
  else .ok (s.modW c fun w => match (lanesOf m).head? with
    | some l => w.writeSpecial i (w.vl o.a.toNat l)
    | none => w)

def execWrsr (o : Sr) (s : State) : Host.Outcome State Fault Refusal := issue (.wrsr o) (wrsrEff o) s

/-! ### Warp cooperation -/

/-- RDL (R147): the lane comes from an immediate, or from bits [4:0] of an s register. -/
def rdlEff (o : Xr) (c : Ctx) (_ : LaneMask) (s : State) : Eff :=
  let l : Lane := match o.src with
    | .imm i => Fin.ofNat 32 i.toNat
    | .regs b _ => Fin.ofNat 32 (fieldOf (c.w.sr b.toNat) 0 5)
  let own := c.f.mask.getLsbD l.val
  .ok (s.modW c fun w =>
    if o.ty.is64 then w.setSP o.d.toNat (if own then w.vp o.a.toNat l else 0)
    else w.setS o.d.toNat (if own then w.vl o.a.toNat l else 0))

def execRdl (o : Xr) (s : State) : Host.Outcome State Fault Refusal := issue (.rdl o) (rdlEff o) s

/-- The member mask (R149). -/
def members (w : Warp) (ms : Bool) (c : RegField) : LaneMask := if ms then w.sr c.toNat else 0xFFFF_FFFF

/-- The lanes of the tile of a lane, ascending (R41). -/
def tileLanes (w : Warp) (l : Lane) : List Lane :=
  (List.finRange 32).filter fun k => k.val / 2 ^ w.part == l.val / 2 ^ w.part

/-- SHFL's source lane (R150): the lane, unless outside the tile. -/
def shflSource (mode : ShflMode) (t : Nat) (l : Lane) (b : Nat) : Option Lane :=
  let i := l.val % t
  let j : Int := match mode with
    | .idx => b
    | .up => (i : Int) - b
    | .down => i + b
    | .xor => (i ^^^ b : Nat)
  if j < 0 || (t : Int) ≤ j then none else some (Fin.ofNat 32 (l.val - i + j.toNat))

/-- SHFL (R150). -/
def shflSem (o : Shfl) (m : LaneMask) (w : Warp) : Warp :=
  let mem := members w o.ms o.c
  w.put m o.d.toNat o.h.c o.h.ccSet fun l =>
    let b := if o.ib then o.b.toNat % 32 else fieldOf (w.vl o.b.toNat l) 0 5
    let (r, ok) : Word × Bool :=
      match shflSource o.mode (2 ^ w.part) l b with
      | none => (w.vl o.a.toNat l, false)
      | some k =>
        if !mem.getLsbD l.val then (w.vl o.a.toNat l, false)
        else if (m &&& mem).getLsbD k.val then (w.vl o.a.toNat k, true)
        else (0, false)
    (r, { ccInt r with c := ok })

def execShfl (o : Shfl) (s : State) : Host.Outcome State Fault Refusal := issue (.shfl o) (lane (shflSem o)) s

/-- VOTE's result from the contributing lanes and their values (R151). -/
def voteVal (mode : VoteMode) (xs : List (Lane × Word)) : Word :=
  match mode with
  | .all => if xs.all (·.2 != 0) then 1 else 0
  | .any => if xs.any (·.2 != 0) then 1 else 0
  | .ballot => maskOf fun l => xs.any fun x => x.1 == l && x.2 != 0
  | .eq => match xs with
    | [] => 1
    | x :: r => if r.all (·.2 == x.2) then 1 else 0

/-- VOTE (R151). -/
def voteSem (o : Vote) (m : LaneMask) (w : Warp) : Warp :=
  let con := m &&& members w o.ms o.c
  w.put m o.d.toNat o.h.c o.h.ccSet fun l =>
    resW (voteVal o.mode (((tileLanes w l).filter fun k => con.getLsbD k.val).map fun k => (k, w.vl o.a.toNat k)))

def execVote (o : Vote) (s : State) : Host.Outcome State Fault Refusal := issue (.vote o) (lane (voteSem o)) s

/-- TRED's operation and identity (R152). -/
def tredOp (op : TredOp) (ty : Ty) : (Nat → Nat → Nat) × Nat :=
  let mm (isMin : Bool) (x y : Nat) : Nat := (minmaxT ty isMin (BitVec.ofNat 32 x) (BitVec.ofNat 32 y)).1.toNat
  match op with
  | .add => if ty == .f32 then (fp32.add .rne, 0x80000000) else (fun x y => (x + y) % 2 ^ 32, 0)
  | .min => if ty == .f32 then (fp32.minNum, fp32.nanCode) else (mm true, if ty == .i32 then 0x7FFFFFFF else 0xFFFFFFFF)
  | .max => if ty == .f32 then (fp32.maxNum, fp32.nanCode) else (mm false, if ty == .i32 then 0x80000000 else 0)
  | .and => (fun x y => x &&& y, 0xFFFFFFFF)
  | .or => (fun x y => x ||| y, 0)
  | .xor => (fun x y => x ^^^ y, 0)

/-- One pass of the Kogge–Stone order at distance d. -/
def koggePass {α : Type} (op : α → α → α) (d : Nat) (xs : List α) : List α :=
  (xs.zipIdx).map fun (x, i) => if d ≤ i then op (xs.getD (i - d) x) x else x

/-- The passes d = 1, 2, 4, … below the length, on fuel. -/
def kogge {α : Type} (op : α → α → α) : Nat → Nat → List α → List α
  | 0, _, xs => xs
  | n + 1, d, xs => if d < xs.length then kogge op n (2 * d) (koggePass op d xs) else xs

/-- TRED (R152). -/
def tredSem (o : Tred) (m : LaneMask) (w : Warp) : Warp :=
  let con := m &&& members w o.ms o.c
  let (op, e) := tredOp o.op o.ty
  w.put m o.d.toNat o.h.c o.h.ccSet fun l =>
    let xs := (tileLanes w l).map fun k => if con.getLsbD k.val then (w.vl o.a.toNat k).toNat else e
    let r : Word := BitVec.ofNat 32 ((kogge op 6 1 xs).getLastD e)
    if o.ty == .f32 then resF r else resW r

def execTred (o : Tred) (s : State) : Host.Outcome State Fault Refusal := issue (.tred o) (lane (tredSem o)) s

/-- PART (R42, R153). -/
def partEff (o : PartOp) (c : Ctx) (_ : LaneMask) (s : State) : Eff :=
  if c.f.mask == ~~~c.w.exited then .ok (s.modW c fun w => { w with part := o.p.toNat }) else .trap (c.trap 4 0) s

def execPart (o : PartOp) (s : State) : Host.Outcome State Fault Refusal := issue (.part o) (partEff o) s

/-! ### The transform pipe -/

/-- Send an instruction to the transform pipe (R154): its destinations become empty. -/
def Warp.toPipe (w : Warp) (p : PipeItem) : Warp :=
  ({ w with pipe := w.pipe ++ [p] } : Warp).markAll false p.dests

/-- Philox4x32-10 (R155). -/
def philox : Nat → Nat × Nat × Nat × Nat → Nat → Nat → Nat × Nat × Nat × Nat
  | 0, c, _, _ => c
  | n + 1, (c0, c1, c2, c3), k0, k1 =>
    let p0 := 0xD2511F53 * c0
    let p1 := 0xCD9E8D57 * c2
    philox n (p1 / 2 ^ 32 ^^^ c1 ^^^ k0, p1 % 2 ^ 32, p0 / 2 ^ 32 ^^^ c3 ^^^ k1, p0 % 2 ^ 32)
      ((k0 + 0x9E3779B9) % 2 ^ 32) ((k1 + 0xBB67AE85) % 2 ^ 32)

/-- XRNG in one lane. -/
def xrngLane (o : Xrng) (w : Warp) (l : Lane) : List Word :=
  let a (e : Nat) : Nat := (w.vl (o.a.toNat + e) l).toNat
  let (x0, x1, x2, x3) := philox 10 (a 0, a 1, a 2, a 3) (w.vl o.b.toNat l).toNat (w.vl (o.b.toNat + 1) l).toNat
  [x0, x1, x2, x3].map fun x => BitVec.ofNat 32 (if o.f32 then fp32.round .rne false (x / 256) (-24) else x)

/-- XRNG (R155). -/
def xrngSem (o : Xrng) (m : LaneMask) (w : Warp) : Warp :=
  let r : Lanes (List Word) := Vector.ofFn fun l => if m.getLsbD l.val then xrngLane o w l else []
  w.toPipe { lanes := m, v := (List.range 4).map (fun e => (o.d.toNat + e, r.map fun x => x.getD e 0)), s := none,
             amax := none }

def execXrng (o : Xrng) (s : State) : Host.Outcome State Fault Refusal := issue (.xrng o) (lane (xrngSem o)) s

/-- XSORT's key as a number in the order of the type (R156). -/
def sortKey (ty : Ty) (desc : Bool) (a : Word) : Nat :=
  let k : Int := match ty with
    | .i32 => a.toInt
    | .f32 => if (fp32.decode a.toNat).isNan then 2 ^ 33 else if a.msb then -(a.toNat % 2 ^ 31 : Nat) - 1 else a.toNat
    | _ => a.toNat
  ((2 ^ 34 : Int) + (if desc then -k else k)).toNat

/-- XSORT: what lane l receives, the key and the value (R156). -/
def xsortLane (o : Xsort) (m : LaneMask) (w : Warp) (l : Lane) : Word × Word :=
  let ls := (tileLanes w l).filter fun k => m.getLsbD k.val
  let sorted := sortBy (fun k => sortKey o.ty o.desc (w.vl o.a.toNat k)) ls
  let k := sorted.getD (ls.idxOf l) l
  (w.vl o.a.toNat k, w.vl o.b.toNat k)

/-- XSORT (R156). -/
def xsortSem (o : Xsort) (m : LaneMask) (w : Warp) : Warp :=
  let r : Lanes (Word × Word) := Vector.ofFn fun l => if m.getLsbD l.val then xsortLane o m w l else (0, 0)
  w.toPipe { lanes := m, v := [(o.d.toNat, r.map (·.1)), (o.c.toNat, r.map (·.2))], s := none, amax := none }

def execXsort (o : Xsort) (s : State) : Host.Outcome State Fault Refusal := issue (.xsort o) (lane (xsortSem o)) s

/-- The shared scale of a quantisation: FDIV(m, largest), at least the smallest subnormal (R157, R227). -/
def quantScale (f : Fmt) (mx : Nat) : Nat :=
  let k := fdiv mx f.largest32
  if k = 0 then 1 else k

/-- The largest magnitude of the inputs, NaNs left out (R157). -/
def maxMag (xs : List Nat) : Nat := (amaxOf xs).1.toNat

/-- XQNT (R157); an input that is minus infinity gives the canonical NaN 0x7F, as plus infinity does. (DEDUCED, unsafe: notes/assumptions/80.md). -/
def xqntSem (o : Xqnt) (m : LaneMask) (w : Warp) : Warp :=
  let ins := (lanesOf m).flatMap fun l => (List.range 4).map fun e => (w.vl (o.a.toNat + e) l).toNat
  let k := quantScale e4m3 (maxMag ins)
  let r : Lanes Word := Vector.ofFn fun l => if m.getLsbD l.val then
      packElems 8 ((List.range 4).map fun e => narrow e4m3 true (fdiv (w.vl (o.a.toNat + e) l).toNat k) 0x3F800000)
    else 0
  w.toPipe { lanes := m, v := [(o.d.toNat, r)], s := some (o.b.toNat, BitVec.ofNat 32 k), amax := some (amaxOf ins) }

def execXqnt (o : Xqnt) (s : State) : Host.Outcome State Fault Refusal := issue (.xqnt o) (lane (xqntSem o)) s

/-- XDQNT (R157). -/
def xdqntSem (o : Xdqnt) (m : LaneMask) (w : Warp) : Warp :=
  let k := (w.sr o.b.toNat).toNat
  let r : Lanes (List Nat) := Vector.ofFn fun l => if m.getLsbD l.val then widenAll o.ty (w.vl o.a.toNat l) k else []
  w.toPipe { lanes := m, v := (List.range 4).map (fun e => (o.d.toNat + e, r.map fun x => BitVec.ofNat 32 (x.getD e 0))),
             s := none, amax := none }

def execXdqnt (o : Xdqnt) (s : State) : Host.Outcome State Fault Refusal := issue (.xdqnt o) (lane (xdqntSem o)) s

/-- The pipe's reply (R62, R154, R67): results written, destinations full, the AMAX update made. -/
def Warp.pipeReply (w : Warp) (p : PipeItem) : Warp :=
  let w1 := p.v.foldl (fun (w : Warp) (x : Nat × Lanes Word) => w.setV x.1 p.lanes fun l => x.2[l]) w
  let w2 := match p.s with | some (n, x) => w1.setS n x | none => w1
  let w3 := match p.amax with | some u => w2.amaxUpd u | none => w2
  w3.markAll true p.dests

/-- A reply to an instruction that no window holds reaches the registers as they stood at unconfirmed branches, too (R171). -/
def Warp.pipeLands (w : Warp) (p : PipeItem) : Warp :=
  let put (v : Vector (Lanes Word) 128) : Vector (Lanes Word) 128 :=
    (p.v.foldl (fun (w : Warp) (x : Nat × Lanes Word) => w.setV x.1 p.lanes fun l => x.2[l]) { w with v := v }).v
  let undo (f : Frag) : Frag := { f with undo := f.undo.map fun u => { u with v := put u.v } }
  if p.spec then w.pipeReply p
  else { w.pipeReply p with
    specs := w.specs.map fun q => { q with v0 := put q.v0 }
    split := w.split.map (Option.map undo) }

/-- TRANSFORM_PIPE_REPLY: the oldest instruction of a warp in the pipe (R154). -/
def execTransformPipeReply (r : WarpRef) (s : State) : Host.Outcome State Fault Refusal :=
  match s.warp? r.block r.warp with
  | none => .fault .noSuchObject
  | some w => match w.pipe with
    | [] => .fault .notEnabled
    | p :: rest => .next (s.modWarp r.block r.warp fun w => ({ w with pipe := rest } : Warp).pipeLands p)

end Sys2Proof.Machine
end

