-- ==== Sys2Proof/Machine/Control.lean ====
section
/-! DEFINITION. Control flow (R158-R167), parking and fusion (R32, R33), the repeat prefix (R106-R111), and the ends of
lanes and warps (R34, R164, R193, R362). -/

namespace Sys2Proof.Machine

/-! ### Barrier arrivals of a block (R193) -/

/-- A warp has ended (R19). -/
def Warp.ended (w : Warp) : Bool := w.exited == 0xFFFF_FFFF

/-- A block has arrived at a barrier: every warp that has not ended has executed BARV in every non-exited lane. -/
def Block.barArrived (b : Block) (a : BarArr) : Bool :=
  !(b.warps.all Warp.ended) &&
  (b.warps.zipIdx).all fun (w, i) => w.ended || (tget 0 a.lanes i ||| w.exited) == 0xFFFF_FFFF

/-- Complete the core-scope barriers at which the block has arrived: the generation bit toggles (R193); at a network group
the arrival is noted, to be sent (R195). -/
def Block.checkBars (b : Block) : Block :=
  { b with bars := b.bars.map fun a =>
      if !b.barArrived a then a
      else if a.bar.scope == .core then { a with gen := !a.gen, lanes := [] } else { a with here := true } }

/-! ### Packets of branches and fusions (R362) -/

/-- A BRM packet. -/
def State.brm (s : State) (c : Ctx) (t : LaneMask) : State :=
  (s.firstSync c).packet c.b.core c.l.asid (some 0x20)
    ([BitVec.ofNat 8 c.w.warpSlot, BitVec.ofNat 8 (idxOf c.ref.sel).val] ++ leBytes 4 t.toNat)

/-- The issuing warp becomes `w`, with a SYNC of each listed fragment of it; a SYNC set due before shows the warp as it stood. -/
def State.land (s : State) (c : Ctx) (w : Warp) (l : List (Fin 32)) : State :=
  (l.foldl (fun (s : State) i => match w.split[i] with
    | some f => s.syncFrag c.b.core c.l.asid w i.val f
    | none => s) (s.firstSync c)).modW c fun _ => { w with started := true }

/-- The issuing warp becomes `w`, its expected or arrived masks changed (R33): fusion with its JN packets, the end of the warp
with its EXT packet, the release of a handler left by exits, the heir of a REP whose owner has exited, and the barrier arrivals of the block. (DEDUCED, unsafe: notes/assumptions/24.md). (DEDUCED, unsafe: notes/assumptions/75.md). -/
def State.afterMasks (s : State) (c : Ctx) (w : Warp) : State :=
  let s := s.firstSync c
  let (w, fused) := Warp.fuseAll 33 { w with started := true }
  let gone := w.handler.isSome && !(w.frags.any fun x => x.2.handler)
  let s := fused.foldl (fun (s : State) i => s.packet c.b.core c.l.asid (some 0x30)
    [BitVec.ofNat 8 c.w.warpSlot, BitVec.ofNat 8 i.val]) s
  let s := if w.ended && !c.w.ended then s.packet c.b.core c.l.asid (some 0x60) [BitVec.ofNat 8 c.w.warpSlot] else s
  (s.modW c fun _ => { w with handler := if gone then none else w.handler }).modBlock c.ref.block Block.checkBars

/-! ### Branches -/

/-- A resolved fragment stands at its PC, ready. -/
def Frag.settle (f : Frag) : Frag := { f.retire 0 with pc := f.pc }

/-- Settle every listed fragment of a warp. -/
def Warp.settle (w : Warp) (l : List (Fin 32)) : Warp := l.foldl (fun w i => w.modFrag Frag.settle (.entry i)) w

/-- A branch target: signed halfwords from the branch (R100). -/
def relTarget {n : Nat} (pc : DWord) (t : BitVec n) : DWord := pc + BitVec.ofInt 64 (2 * t.toInt)

/-- The join address of a join field, none for 0 (R100). -/
def joinAddr (pc : DWord) (j : BitVec 14) : Option DWord := if j == 0 then none else some (pc + BitVec.ofNat 64 (2 * j.toNat))

/-- The predictor entry of a BR (R168). -/
def predIdx (w : Warp) (pc : DWord) : Nat := w.sched * 2048 + (fieldOf pc 1 11 ^^^ (w.slot * 2 ^ 7))

/-- The predictor's update (R168). -/
def PredEntry.update (e : PredEntry) (m t : LaneMask) : PredEntry :=
  { conf := if (e.mask &&& m) == t then min 3 (e.conf + 1) else e.conf - 1, mask := (e.mask &&& ~~~m) ||| t }

def State.predUpdate (s : State) (c : Ctx) (pc : DWord) (m t : LaneMask) : State :=
  s.modCore c.b.core fun k =>
    let i := predIdx c.w pc
    { k with pred := tput k.pred i ((tget {} k.pred i).update m t) }

/-- BR (R159): the taken set is the set of lanes in which the guard holds; resolution under R30. -/
def brEff (o : Br) (c : Ctx) (t : LaneMask) (s : State) : Eff :=
  let pc := c.f.pc
  let s := (s.predUpdate c pc c.f.mask t).brm c t
  let (w, l) := (s.warpOf c).resolveBr (idxOf c.ref.sel) t (relTarget pc o.target) (pc + 8) (joinAddr pc o.join)
  .went (s.modW c fun _ => w.settle l)

def execBr (o : Br) (s : State) : Host.Outcome State Fault Refusal := issue (.br o) (brEff o) s

/-- Continue the issuing fragment at an address. -/
def State.goto (s : State) (c : Ctx) (pc : DWord) : State :=
  s.modFrag c.ref fun f => ({ f with pc := pc }).settle

/-- BRU (R160). -/
def bruEff (o : Jump) (c : Ctx) (t : LaneMask) (s : State) : Eff :=
  if t == c.f.mask then .went ((s.brm c t).goto c (relTarget c.f.pc o.target))
  else if t == 0 then .went ((s.brm c t).goto c (c.f.pc + 8))
  else .trap (c.trap 4 1) s

def execBru (o : Jump) (s : State) : Host.Outcome State Fault Refusal := issue (.bru o) (bruEff o) s

/-- JMP (R161). -/
def execJmp (o : Jump) (s : State) : Host.Outcome State Fault Refusal :=
  issue (.jmp o) (fun c _ s => .went (s.goto c (relTarget c.f.pc o.target))) s

/-- The 32-bit JMP (R93). -/
def execJmpNJ (o : NJ) (s : State) : Host.Outcome State Fault Refusal :=
  issue (.jmpNJ o) (fun c _ s => .went (s.goto c (relTarget c.f.pc o.off))) s

/-- JMPR (R161). -/
def jmprEff (o : JumpReg) (c : Ctx) (_ : LaneMask) (s : State) : Eff :=
  .went (s.land c (((s.goto c (c.w.sp o.a.toNat &&& ~~~1#64))).warpOf c) [idxOf c.ref.sel])

def execJmpr (o : JumpReg) (s : State) : Host.Outcome State Fault Refusal := issue (.jmpr o) (jmprEff o) s

/-- A multi-way transfer with its SYNC packets (R162, R163, R362). -/
def State.multi (s : State) (c : Ctx) (t : Lane → DWord) (ja : Option DWord) (depth : BitVec 8) : State :=
  let (w, l) := (s.warpOf c).resolveMulti (idxOf c.ref.sel) t ja depth
  s.land c (w.settle l) l

/-- BRX (R162). -/
def brxEff (o : Brx) (c : Ctx) (_ : LaneMask) (s : State) : Eff :=
  let t (l : Lane) : DWord := (c.f.pc + (c.w.vl o.a.toNat l).signExtend 64) &&& ~~~1#64
  .went (s.multi c t (joinAddr c.f.pc o.join) c.f.depth)

def execBrx (o : Brx) (s : State) : Host.Outcome State Fault Refusal := issue (.brx o) (brxEff o) s

/-- Write the link pair v0:v1 (R163). -/
def State.link (s : State) (c : Ctx) : State :=
  s.modW c fun w => w.setVP 0 c.f.mask fun _ => c.f.pc + 8

/-- CALL (R163). -/
def callEff (o : Jump) (c : Ctx) (_ : LaneMask) (s : State) : Eff :=
  .went (((s.link c).modFrag c.ref fun f => { f with depth := f.depth + 1 }).goto c (relTarget c.f.pc o.target))

def execCall (o : Jump) (s : State) : Host.Outcome State Fault Refusal := issue (.call o) (callEff o) s

/-- CALLR (R163): the A pair is read before v0:v1 is written. -/
def callrEff (o : JumpReg) (c : Ctx) (_ : LaneMask) (s : State) : Eff :=
  let t (l : Lane) : DWord := c.w.vp o.a.toNat l &&& ~~~1#64
  .went ((s.link c).multi c t (some (c.f.pc + 8)) (c.f.depth + 1))

def execCallr (o : JumpReg) (s : State) : Host.Outcome State Fault Refusal := issue (.callr o) (callrEff o) s

/-- RET (R163). -/
def retEff (o : JumpReg) (c : Ctx) (_ : LaneMask) (s : State) : Eff :=
  let t (l : Lane) : DWord := c.w.vp o.a.toNat l &&& ~~~1#64
  .went (s.multi c t none (c.f.depth - 1))

def execRet (o : JumpReg) (s : State) : Host.Outcome State Fault Refusal := issue (.ret o) (retEff o) s

/-! ### EXIT, JOIN, YIELD, NOP, SLEEP -/

/-- EXIT (R164, R34). -/
def exitEff (o : Head) (c : Ctx) (m : LaneMask) (s : State) : Eff :=
  let s := if o.guard == .al then s else s.brm c m
  if m == 0 then .ok s
  else
    let s := s.discard fun q => q.block == c.ref.block && q.warp == c.ref.warp && m.getLsbD q.lane
    let w := (s.warpOf c).modFrag (fun f => f.retire 8) c.ref.sel
    .went (s.afterMasks c (w.exitLanes (idxOf c.ref.sel) m))

def execExit (o : Head) (s : State) : Host.Outcome State Fault Refusal := issue (.exit o) (exitEff o) s

/-- JOIN (R165): park at the fragment's own entry; without one, no effect. -/
def joinEff (c : Ctx) (_ : LaneMask) (s : State) : Eff :=
  match c.w.joinAt c.f.join with
  | none => .ok s
  | some (e, _) => .went (s.afterMasks c ((s.warpOf c).parkAt (idxOf c.ref.sel) e))

def execJoin (o : Head) (s : State) : Host.Outcome State Fault Refusal := issue (.join o) joinEff s

/-- JOIN_PARK (R32): a fragment about to issue at a join address of its chain, at that depth, parks. -/
def execJoinPark (r : FragRef) (s : State) : Host.Outcome State Fault Refusal :=
  match s.ctx? r with
  | none => .fault .noSuchObject
  | some c => match r.sel with
    | .path _ _ => .fault .notEnabled
    | .entry i =>
      if c.f.st != .ready then .fault .notEnabled
      else match c.w.parkEntry c.f with
        | none => .fault .notEnabled
        | some e => .next (s.afterMasks c ((s.warpOf c).parkAt i e))

/-- YIELD (R165). -/
def yieldEff (c : Ctx) (_ : LaneMask) (s : State) : Eff :=
  .ok (if c.w.frags.length ≤ 1 then s else s.modW c fun w => w.yieldRank (idxOf c.ref.sel))

def execYield (o : Head) (s : State) : Host.Outcome State Fault Refusal := issue (.yield o) yieldEff s

/-- NOP (R165). -/
def execNop (o : Head) (s : State) : Host.Outcome State Fault Refusal := issue (.nop o) (fun _ _ s => .ok s) s

/-- SLEEP (R166): the fragment stands at the fall-through address, asleep until the deadline. -/
def sleepEff (o : Xi) (c : Ctx) (_ : LaneMask) (s : State) : Eff :=
  let t := s.time + o.imm.toNat
  .went (s.modFrag c.ref fun f => { f.retire 8 with st := .sleeping, cond := .deadline t, deadline := some t })

def execSleep (o : Xi) (s : State) : Host.Outcome State Fault Refusal := issue (.sleep o) (sleepEff o) s

/-- SLEEP_WAKE (R166). -/
def execSleepWake (r : FragRef) (s : State) : Host.Outcome State Fault Refusal :=
  match s.ctx? r with
  | none => .fault .noSuchObject
  | some c =>
    if c.f.st == .sleeping && s.condMet c c.f.cond then
      .next (s.modFrag r fun f => { f with st := .ready, cond := .never, deadline := none })
    else .fault .notEnabled

/-- FAIRNESS_ROTATION (R39): a wait count has reached 4096; the ready fragment with the largest count, on a tie the one
whose lowest lane is lowest, becomes preferred. -/
def execFairnessRotation (r : WarpRef) (s : State) : Host.Outcome State Fault Refusal :=
  match s.warp? r.block r.warp with
  | none => .fault .noSuchObject
  | some w =>
    if !(w.frags.any fun x => 4096 ≤ x.2.wait.toNat) then .fault .notEnabled
    else
      let low (m : LaneMask) : Nat := (((lanesOf m).head?).map (·.val)).getD 32
      let key (x : Fin 32 × Frag) : Nat := (8191 - x.2.wait.toNat) * 64 + low x.2.mask
      match sortBy key (w.frags.filter fun x => x.2.st == .ready) with
      | [] => .next (s.modWarp r.block r.warp fun w =>
          { w with split := w.split.map (Option.map fun f => { f with wait := 0 }) })
      | (i, _) :: _ => .next (s.modWarp r.block r.warp fun w => w.rotate i)

/-! ### The repeat prefix -/

/-- Where a register field lies in an instruction word of a length in bytes (R92, R94, R96). -/
def fieldPos (len fld : Nat) : Nat :=
  if len = 4 then (match fld with | 0 => 17 | 1 => 24 | _ => 10)
  else (match fld with | 0 => 27 | 1 => 34 | 2 => 41 | _ => 20)

/-- The instruction word of iteration i; none if a stepped register would pass 127 (R108). -/
def stepWord (f : RepFields) (len : Nat) (w : DWord) (i : Nat) : Option DWord :=
  f.fields.foldl (fun acc k => acc.bind fun w =>
    let p := fieldPos len k
    let x := fieldOf w p 7 + i * f.step
    if 127 < x then none
    else some ((w &&& ~~~(BitVec.ofNat 64 (127 * 2 ^ p))) ||| BitVec.ofNat 64 (x * 2 ^ p))) (some w)

/-- The halfwords of a word of a length in bytes. -/
def wordHalves (len : Nat) (w : DWord) : List Half := (List.range (len / 2)).map fun k => w.extractLsb' (16 * k) 16

/-- Halfwords as one word. -/
def halvesWord (hs : List Half) : DWord :=
  BitVec.ofNat 64 (hs.foldr (fun h acc => h.toNat + 2 ^ 16 * acc) 0)

/-- The stepped instruction of iteration i. -/
def stepped (f : RepFields) (len : Nat) (w : DWord) (i : Nat) : Option Instr :=
  (stepWord f len w i).bind fun w => (decodeHalves (wordHalves len w)).toOption

/-- XCAUSE and XINFO of an encoding that is not an instruction, orders 1 to 4 of R112. (DEDUCED, unsafe: notes/assumptions/16.md). -/
def decCause : DecErr → Nat × Word
  | .zeroHalf => (1, 5)
  | .reservedOp => (1, 0)
  | .codePoint => (1, 1)
  | .mustBeZero bit => (2, BitVec.ofNat 32 (0x100 + bit))
  | .short => (1, 0)

/-- Orders 6 and 7 of R112: what is wrong with the instruction that follows a REP (R107, R108). (DEDUCED, unsafe: notes/assumptions/17.md). -/
def repMisuse (d : KDesc) (f : RepFields) (j : Instr) (len : Nat) (w : DWord) : Option Word :=
  let l := j.layout
  let have_ := (l.opnds 1).map (·.fld)
  if !l.isLaneOp || l.stop || f.fields.any (fun k => !have_.contains k) then some 3
  else if (List.range f.count).any fun i => match stepped f len w i with
    | none => true
    | some k => (k.layout.opnds 1).any fun o => !o.legal d.regs d.tiles
    then some 4
  else none

/-- A fetch that failed (R330-R333): park for a replayable fault with the ring enabled, else the trap. -/
def fetchFault (c : Ctx) (code : Nat) (info : Word) (va : Nat) (s : State) : Eff :=
  let a : Nat := va % 2 ^ 56
  if (code == 8 || code == 0x0A) && s.fq.en then
    let (s, id) := s.postFault code .fetch c.l.asid a c.l.id c.b.core c.w.warpSlot
    .wait .parkedReplay .never (s.modFrag c.ref fun f => { f with replay := some (.fetch (BitVec.ofNat 64 va) f.mask id) })
  else
    .trap (c.trap code (if code == 8 || code == 0x0A then 0 else info)
      (BitVec.ofNat 64 (if code == 0x0B then a / 32 * 32 else a))) s

/-- REP (R106-R110), `al` where its guard is AL (order 8 of R112): the checks before iteration 0, then REPC becomes active and the iterations follow as steps of their
own. Resumed at its recorded address, it keeps REPC.ITER. The owner of an interrupted REP that reaches another one inside its
handler starts it in the other's place. (DEDUCED, unsafe: notes/assumptions/17.md, notes/assumptions/75.md). -/
def repEff (al : Bool) (f : RepFields) (preLen : Nat) (c : Ctx) (_ : LaneMask) (s : State) : Eff :=
  let mine := match c.w.rep with | some r => r.owner == c.ref.sel | none => true
  if !mine then .wait .waitFragment .repFree s
  else
    let at_ := c.f.pc + BitVec.ofNat 64 preLen
    match s.fetch c.l c.b.core at_ with
    | (s, .fault code info va) => fetchFault c code info va s
    | (s, .halves hs) =>
      match decodeHalves hs with
      | .error e => let (k, x) := decCause e; .trap { c.trap k x with pc := at_ } s
      | .ok j =>
        let w := halvesWord hs
        let ops := j.layout.opnds 1
        if staticCheck c.l.desc j.layout ops == some 2 then .trap { c.trap 1 2 with pc := at_ } s
        else match repMisuse c.l.desc f j j.len w with
        | some x => .trap (c.trap 1 x) s
        | none =>
          if !al then .trap (c.trap 1 6) s
          else if (staticCheck c.l.desc j.layout ops).isSome then .trap { c.trap 1 6 with pc := at_ } s
          else
            let count := (match c.w.specs.find? (·.entry == idxOf c.ref.sel) with | some p => p.count | none => 0)
            if isPath c.ref.sel && decide (32 < count + f.count) then .wait .waitConfirm .never s
            else
              let resume := match c.w.rep with | some r => r.addr == c.f.pc | none => false
              .went (s.modW c fun w0 =>
                { w0 with
                  repc := if resume then w0.repc ||| 0x40 else 0x40
                  rep := some ⟨c.ref.sel, c.f.pc, some f, w, j.len, preLen⟩
                  specs := if isPath c.ref.sel then
                      updFirst (fun p => p.entry == idxOf c.ref.sel) (fun p => { p with count := p.count + f.count }) w0.specs
                    else w0.specs })

def execRep (o : Rep) (s : State) : Host.Outcome State Fault Refusal := issue (.rep o) (repEff (o.h.guard == .al) o.f 8) s
def execRepNP (o : RepFields) (s : State) : Host.Outcome State Fault Refusal := issue (.repNP o) (repEff true o 4) s

/-- The end of an iteration (R109). -/
def Warp.repNext (w : Warp) (r : RepState) (f : RepFields) : Warp :=
  let i := fieldOf w.repc 0 6
  if i + 1 < f.count then { w with repc := BitVec.ofNat 7 (0x40 + i + 1) }
  else ({ w with repc := 0, rep := none } : Warp).modFrag
    (fun g => { g.retire 0 with pc := r.addr + BitVec.ofNat 64 (r.preLen + r.len) }) r.owner

end Sys2Proof.Machine
end

