-- ==== Sys2Proof/Machine/Objects.lean ====
section
/-! DEFINITION. Scratchpad values, FIFO banks (R181, R191), and barrier objects (R197, R198). -/

namespace Sys2Proof.Machine

/-! ### Scratchpad bytes -/

/-- Store bytes in the scratchpad. -/
def Block.puts (b : Block) (o : Nat) (bs : List Byte) : Block := { b with scratch := cellPuts b.scratch o bs }

/-- n bytes of the scratchpad. -/
def Block.bytesAt (b : Block) (o n : Nat) : List Byte := (List.range n).map fun k => b.byte (o + k)

/-- Some byte of a range lies in a bank in FIFO mode. -/
def Block.fifoIn (b : Block) (o n : Nat) : Bool :=
  n != 0 && (List.range ((o + n - 1) / Config.bankBytes - o / Config.bankBytes + 1)).any fun k =>
    b.fifoAt ((o / Config.bankBytes + k) * Config.bankBytes)

/-- Change a bank's mode (R191): a queue starts empty, and the data is undefined afterwards. -/
def Block.setBank (b : Block) (k : Nat) (fifo : Bool) : Block :=
  { b with banks := updAt (fun x => { fifo := fifo, queue := [], epoch := x.epoch + 1 }) k b.banks,
           scratch := b.scratch.filter fun c => c.1 / Config.bankBytes != k }

/-! ### Barrier objects (R197) -/

/-- A barrier object. -/
structure BarObj where
  phase : Bool
  parr : Nat
  earr : Nat
  pbytes : Int
  ebytes : Nat
  deriving DecidableEq, Repr

/-- Read the object at an offset. -/
def Block.obj (b : Block) (o : Nat) : BarObj :=
  let w0 := b.read o 4
  { phase := decide (2 ^ 31 ≤ w0), parr := w0 % 2 ^ 16, earr := b.read (o + 4) 4 % 2 ^ 16,
    pbytes := intVal 32 true (b.read (o + 8) 4), ebytes := b.read (o + 12) 4 }

/-- Write an object; reserved fields are zero. -/
def Block.setObj (b : Block) (o : Nat) (x : BarObj) : Block :=
  b.puts o (leBytes 4 ((if x.phase then 2 ^ 31 else 0) + x.parr) ++ leBytes 4 x.earr ++
    leBytes 4 (intBits 32 x.pbytes) ++ leBytes 4 x.ebytes)

/-- The flip check made after every operation (R197). -/
def BarObj.flip (x : BarObj) : BarObj :=
  if x.parr = 0 && x.pbytes = 0 then
    { x with phase := !x.phase, parr := x.earr, pbytes := x.ebytes, ebytes := 0 }
  else x

/-- The current phase of an object has ended: its times are those of the phase that ended last (R200). -/
def PhaseTimes.turn (p : PhaseTimes) : PhaseTimes := { endDie := p.die, endDev := p.dev, endPod := p.pod }

/-- Store an object after an operation, with its flip check (R197). -/
def Block.putFlip (b : Block) (o : Nat) (x : BarObj) : Block :=
  let b' := b.setObj o x.flip
  if x.flip.phase == x.phase then b' else { b' with phases := tput b'.phases o (tget {} b'.phases o).turn }

/-- The barrier object an operation counts into. (DEDUCED, safe: notes/assumptions/25.md). -/
def OpKind.counts : OpKind → Option Nat
  | .copy _ _ bo => bo
  | .copym _ bo _ => some bo
  | .copyl _ _ bo => bo
  | .copyx _ _ _ bo => bo
  | _ => none

/-- The block on a core of the issuing core's column that receives an MST or COPYM (R190). -/
def State.receiver (s : State) (b : Block) (i : Nat) : Option Block :=
  let p := 16 * s.columnOf b.core + i
  if p == s.phys b.core then some b
  else match s.logical? p with
    | none => none
    | some k =>
      (s.blocks.filter fun x => x.lid == b.lid && x.core == k && x.present).foldl (fun acc x => match acc with
        | none => some x
        | some y => if x.index < y.index then some x else some y) none

/-- A fragment of a block waits for an object, or has been woken and has not tried again yet. -/
def Block.awaits (b : Block) (o : Nat) : Bool :=
  b.warps.any fun w => w.frags.any fun x => match x.2.cond with | .object k _ => k == o | _ => false

/-- An operation on a block's barrier object is pending (R198): a delivery on its way, an engine's, or a wait. -/
def State.objPending (s : State) (uid o : Nat) : Bool :=
  (s.reqs.any fun q => q.block == uid && (match q.kind with | .deliver _ k => k == o | _ => false)) ||
  s.blocks.any fun b =>
    (b.uid == uid && b.awaits o) || b.ops.any fun x => x.status == .pending && x.kind.counts == some o && (match x.kind with
      | .copym _ _ cores => (List.range 16).any fun i => cores.getLsbD i && (s.receiver b i).map (·.uid) == some uid
      | _ => b.uid == uid)

/-- Ordinary stores to n bytes of a block's scratchpad: an object there with an operation pending is spoilt (R198). (DEDUCED, unsafe: notes/assumptions/78.md). -/
def State.spoil (s : State) (uid a n : Nat) : State :=
  (List.range ((a + n + 15) / 16 - a / 16)).foldl (fun s k =>
    let o := 16 * (a / 16 + k)
    if s.objPending uid o then s.modBlock uid fun b => { b with spoilt := o :: b.spoilt.filter (· != o) } else s) s

/-- An object as an operation finds it: one whose words were stored to behaves as any value while an operation is pending (R198). (DEDUCED, unsafe: notes/assumptions/78.md). -/
def State.objTouch (s : State) (uid o : Nat) : State :=
  match s.block? uid with
  | none => s
  | some b =>
    if !b.spoilt.contains o then s
    else if s.objPending uid o then
      let (k, s) := s.draw
      s.modBlock uid fun b => b.puts o ((List.range 16).map fun j => Config.freeByte (16 * k + j))
    else s.modBlock uid fun b => { b with spoilt := b.spoilt.filter (· != o) }

/-- A delivery's subtraction (R182, R197), with the times of the writes it counts (R200); a result outside the signed range leaves
the object undefined (R198), and an object whose bank is in FIFO mode by then counts nothing. (DESIGN CHOICE, unsafe: notes/assumptions/86.md). -/
def State.deliver (s0 : State) (uid o n : Nat) (die dev pod : Nat := 0) : State :=
  let s := s0.objTouch uid o
  match s.block? uid with
  | none => s
  | some b =>
    if b.fifoIn o 16 then s
    else
      let x := b.obj o
      let p := x.pbytes - n
      let count (b : Block) : Block :=
        if die == 0 && dev == 0 && pod == 0 then b
        else
          let t : PhaseTimes := tget {} b.phases o
          { b with phases := tput b.phases o { t with die := max t.die die, dev := max t.dev dev, pod := max t.pod pod } }
      if p < -2 ^ 31 then
        let (k, s) := s.draw
        s.modBlock uid fun b => b.puts o ((List.range 16).map fun j => Config.freeByte (16 * k + j))
      else s.modBlock uid fun b => (count b).putFlip o { x with pbytes := p }

/-! ### Deliveries into banks (R191) -/

/-- How often the mode of a bank has changed. -/
def Block.bankEpoch (b : Block) (k : Nat) : Nat := match b.banks[k]? with | some x => x.epoch | none => 0

/-- The epochs of a block's banks. -/
def Block.epochs (b : Block) : List Nat := b.banks.map (·.epoch)

/-- Bytes delivered to a block's scratchpad, `was` being the epochs of its banks when the delivery was issued: in a bank that is a
FIFO nothing readable is written, and in one whose mode has changed since, undefined bytes (R191). -/
def State.deposit (s : State) (uid off : Nat) (bs : List Byte) (was : Nat → Nat) : State :=
  match s.block? uid with
  | none => s
  | some b =>
    if b.fifoIn off bs.length then s
    else if b.bankEpoch (off / Config.bankBytes) == was (off / Config.bankBytes) &&
        b.bankEpoch ((off + bs.length - 1) / Config.bankBytes) == was ((off + bs.length - 1) / Config.bankBytes) then
      s.modBlock uid fun b => b.puts off bs
    else
      let (k, s) := s.draw
      s.modBlock uid fun b => b.puts off (freeRun k bs.length)

/-- The checks of a barrier object's offset (R197): misaligned, scratchpad bound, a bank in FIFO mode; the object number
of `info` is 6. -/
def objCheck (c : Ctx) (o : Nat) : Option TrapInfo :=
  let a : DWord := BitVec.ofNat 64 o
  if o % 16 != 0 then some (c.trap 6 16 a)
  else if c.b.scrSize < o + 16 then some (c.trap 7 0 a)
  else if c.b.fifoIn o 16 then some (c.trap 0x0C 6)
  else none

end Sys2Proof.Machine
end

