-- ==== Sys2Proof/Machine/Access.lean ====
section
/-! DEFINITION. The shared operations of memory access: addresses (R175), the checks of R176, the L1 (R259-R262, R269,
R324, R326), translation and integrity per lane (R331, R336, R342), requests in flight (R262, R268), release and acquire
actions (R179, R186), and atomics (R183). -/

namespace Sys2Proof.Machine

/-! ### Registers and addresses -/

/-- The n data bytes of a register, a pair or a group of 4, in a lane (R89, R174). -/
def Warp.data (w : Warp) (r n : Nat) (l : Lane) : Nat :=
  ((List.range (if n ≤ 4 then 1 else n / 4)).map fun k => (w.vl (r + k) l).toNat * 2 ^ (32 * k)).sum % 2 ^ (8 * n)

/-- Write a value of n bytes to a register, a pair or a group of 4 in one lane; 8 and 16 bits extend (R177). -/
def Warp.setData (w : Warp) (d n : Nat) (l : Lane) (v : Nat) (sx : Bool) : Warp :=
  let m : LaneMask := 1#32 <<< l.val
  if n ≤ 4 then w.setV d m fun _ => BitVec.ofNat 32 (intBits 32 (intVal (8 * n) sx v))
  else (List.range (n / 4)).foldl (fun w k => w.setV (d + k) m fun _ => BitVec.ofNat 32 (v / 2 ^ (32 * k))) w

/-- A global address (R175): an even field names a v pair, an odd field an s pair. -/
def gAddr (w : Warp) (a : RegField) (off : Int) (n : Nat) (l : Lane) : Nat :=
  let base := if a.toNat % 2 = 0 then w.vp a.toNat l else w.sp (a.toNat - 1)
  (base + BitVec.ofInt 64 (off * n)).toNat % 2 ^ 56

/-- A private address (R175). -/
def pAddr (w : Warp) (a : RegField) (sreg : Bool) (off : Int) (n : Nat) (l : Lane) : Nat :=
  ((if sreg then w.sr a.toNat else w.vl a.toNat l) + BitVec.ofInt 32 (off * n)).toNat

/-- The private spaces (R176). -/
inductive Priv where
  | scratch | loc | const
  deriving DecidableEq, Repr

/-- The bound and the XINFO of a private space (R176). -/
def Priv.bound (p : Priv) (c : Ctx) : Nat × Word :=
  match p with
  | .scratch => (c.b.scrSize, 0)
  | .loc => (c.l.desc.localBytes, 1)
  | .const => (65536, 2)

/-- The address of lane l of the issuing warp in local memory (R300). -/
def localVa (c : Ctx) (l : Lane) (o : Nat) : Nat :=
  let k := c.l.desc
  (k.localBase.toNat + ((c.b.index * k.warps + c.ref.warp) * 32 + l.val) * k.localBytes + o) % 2 ^ 56

/-- A trap that names failing lanes and the lowest one's address. -/
def laneTrap (c : Ctx) (cause : Nat) (info : Word) (addr : Lane → Nat) (bad : List Lane) : TrapInfo :=
  c.trap cause info (BitVec.ofNat 64 (match bad with | l :: _ => addr l | [] => 0))
    (bad.foldl (fun m l => m ||| (1#32 <<< l.val)) 0)

/-- Step 1 of R176: alignment. -/
def misaligned (c : Ctx) (m : LaneMask) (n : Nat) (addr : Lane → Nat) : Option TrapInfo :=
  match (lanesOf m).filter fun l => addr l % n != 0 with
  | [] => none
  | bad => some (laneTrap c 6 (BitVec.ofNat 32 n) addr bad)

/-- Step 2 of R176: the bounds of a private space. -/
def outOfBounds (c : Ctx) (m : LaneMask) (n : Nat) (p : Priv) (addr : Lane → Nat) : Option TrapInfo :=
  let (lim, info) := p.bound c
  match (lanesOf m).filter fun l => decide (lim < addr l + n) with
  | [] => none
  | bad => some (laneTrap c 7 info addr bad)

/-- Scratchpad accesses that may not reach a FIFO bank, or may only at some widths (R181). -/
def fifoTrap (c : Ctx) (m : LaneMask) (addr : Lane → Nat) : Option TrapInfo :=
  match (lanesOf m).filter fun l => c.b.fifoAt (addr l) with
  | [] => none
  | bad => some (laneTrap c 7 3 addr bad)

/-! ### Requests -/

/-- A request of one lane of the issuing fragment (R262). -/
def baseReq (s : State) (c : Ctx) (l : Lane) (k : ReqKind) (va pa : Nat) (at_ : Attr) (n : Nat) : Req :=
  { id := 0, grp := 0, kind := k, block := c.ref.block, warp := c.ref.warp, sel := c.ref.sel, lane := l.val,
    core := c.b.core, quad := s.quadOf c.b.core, die := s.dieOf c.b.core, asid := c.l.asid, va := va, pa := pa,
    attr := at_, bytes := n, pc := c.f.pc, ins := c.seq, fmask := c.f.mask }

/-- Send a request, numbered in the port's order (R262). -/
def State.send (s : State) (q : Req) : State :=
  { s with reqs := s.reqs ++ [{ q with id := s.nextReq, sentAt := s.time }], nextReq := s.nextReq + 1 }

/-- The line a request reaches. -/
def Req.line (q : Req) : Nat := lineKey q.attr.target q.pa

/-- Requests of a quad's port still to be performed at a line. -/
def State.portQueue (s : State) (quad line : Nat) : List Req :=
  s.reqs.filter fun q => q.quad == quad && q.line == line && q.st == .queued

/-- A request is first in its port's order at its line (R262). (DESIGN CHOICE, unsafe: notes/assumptions/63.md). -/
def State.first (s : State) (q : Req) : Bool :=
  ((s.portQueue q.quad q.line).head?).map (·.id) == some q.id

/-! ### L1 lines (R259, R269) -/

/-- The line's lease holds. -/
def L1Line.live (l : L1Line) (now : Nat) : Bool := match l.expiry with | none => true | some e => decide (now < e)

/-- A core's own atomic or SC to the line is still on its way, so its copy may not be served (R261). -/
def State.ownAtomic (s : State) (core line : Nat) : Bool :=
  s.reqs.any fun q => q.core == core && q.line == line && q.st == .queued &&
    (match q.kind with | .atomic _ | .sc => true | _ => false)

/-- A store to the line that the release actions of the fragment, or of what a split leaves of it, would not wait for is still on its
way from the core: its value is served from the slice, with its write completion time (R261, R271, R276). (DEDUCED, safe: notes/assumptions/23.md). -/
def State.otherStore (s : State) (core line uid wi : Nat) (m : LaneMask) : Bool :=
  s.reqs.any fun q => q.core == core && q.line == line && q.st == .queued && q.kind == .write &&
    !(q.block == uid && q.warp == wi && m &&& ~~~q.fmask == 0)

/-- The live line that serves an address for a fragment. (DEDUCED, safe: notes/assumptions/23.md). -/
def State.l1Find (s : State) (c : Ctx) (va : Nat) : Option L1Line :=
  let k := c.b.core
  (s.core k).lines.find? fun l => l.asid == c.l.asid && l.vline == va / 128 && l.live s.time && !s.ownAtomic k l.pline &&
    !s.otherStore k l.pline c.ref.block c.ref.warp c.f.mask

/-- The value of n bytes in a line. -/
def L1Line.value (l : L1Line) (va n : Nat) : Nat := leNat ((l.data.drop (va % 128)).take n)

/-- The value a line serves: its own, or an undefined one (R264, R292). -/
def State.lineRead (s : State) (l : L1Line) (va n : Nat) : State × Nat :=
  if l.attr.undef then let (k, s) := s.draw; (s, leNat (freeRun k n)) else (s, l.value va n)

/-- The sector of a line that holds an address fails its check (R335, R342). -/
def L1Line.badAt (l : L1Line) (va : Nat) : Option Word := (l.bad.find? fun x => x.1 == va % 128 / 32).map (·.2)

/-- Replace bytes of a list from a position on. -/
def patchList (d : List Byte) (o : Nat) (bs : List Byte) : List Byte := d.take o ++ bs ++ d.drop (o + bs.length)

/-- The physical address at which a line begins. -/
def lineBase (key : Nat) : Nat := key % 2 ^ 60 * 128

/-- The 128 bytes of a physical line. -/
def State.lineBytes (s : State) (t : Target) (base : Nat) : List Byte := (List.range 128).map fun k => s.physGet t (base + k)

/-- The sectors of a line that fail their check, as a fill of a core finds them (R335, R342); not those that stores of the core on their
way cover whole. -/
def State.badSectors (s : State) (core : Nat) (a : Attr) (line : Nat) : Table Word :=
  (List.range 4).filterMap fun k =>
    if s.reqs.any fun q => q.core == core && q.line == line && q.st == .queued && q.whole && q.pa % 128 / 32 == k then none
    else (s.badAt a.target a.tier (lineBase line + 32 * k)).map (k, ·)

/-- Write back the dirty words of a local line (R253); a sector all of whose words are dirty becomes good (R342). -/
def State.writeBack (s : State) (l : L1Line) : State :=
  let s := (List.range 32).foldl (fun s k => if l.dirty.getLsbD k then
      (s.sliceWrite l.attr.target (lineBase l.pline + 4 * k) ((l.data.drop (4 * k)).take 4) none).1
    else s) s
  (List.range 4).foldl (fun s k => if (l.dirty >>> (8 * k)) &&& 0xFF == 0xFF then
      s.goodSector l.attr.target (lineBase l.pline + 32 * k) 32 else s) s

/-- Remove the lines of a core that satisfy a predicate, writing dirty ones back. -/
def State.dropLines (s : State) (core : Nat) (p : L1Line → Bool) : State :=
  let s := ((s.core core).lines.filter p).foldl State.writeBack s
  s.modCore core fun k => { k with lines := k.lines.filter fun l => !p l }

/-- The logical cores of a physical quad. -/
def State.quadCores (s : State) (quad : Nat) : List Nat := (List.range 4).filterMap fun k => s.logical? (4 * quad + k)

/-- A store invalidates the sibling copy of its line (R262 step 1). -/
def State.invalidateSiblings (s : State) (core line : Nat) : State :=
  ((s.quadCores (s.quadOf core)).filter (· != core)).foldl (fun s c => s.dropLines c fun l => l.pline == line) s

/-- A store updates the issuing core's own copy (R260). -/
def State.patchOwn (s : State) (core line pa : Nat) (bs : List Byte) : State :=
  s.modCore core fun k => { k with lines := k.lines.map fun l =>
    if l.pline == line then { l with data := patchList l.data (pa % 128) bs } else l }

/-- A block of the core holds the line locked (R189). -/
def State.lockedLine (s : State) (core asid vline : Nat) : Bool :=
  s.blocks.any fun b => b.core == core && b.present && b.locked.contains vline &&
    (match s.launch? b.lid with | some l => l.asid == asid | none => false)

/-- Banks of a core in cache mode (R256). -/
def State.cacheBanks (s : State) (core : Nat) : Nat :=
  Config.numBanks - ((s.blocks.filter fun b => b.core == core && b.present).map fun b => b.banks.length).sum

/-- A fill of a core first removes the quad's older copies of the physical line, and writes a dirty one back (R326). -/
def State.removeOlder (s : State) (core line : Nat) : State :=
  (s.quadCores (s.quadOf core)).foldl (fun s c => s.dropLines c fun x => x.pline == line) s

/-- Put a line into a core's L1: the quad's older copies go first (R326), and where the L1 is full a line that is not
locked is replaced by a free choice (R259); where every line there is locked, only a locked one is put in, beyond the banks in cache
mode if need be, and another is not kept. (DESIGN CHOICE, safe: notes/assumptions/62.md). -/
def State.install (s : State) (core : Nat) (l : L1Line) : State :=
  let s := s.removeOlder core l.pline
  let s := s.dropLines core fun x => x.asid == l.asid && x.vline == l.vline
  let free := (s.core core).lines.filter fun x => !s.lockedLine core x.asid x.vline
  let add (s : State) : State := s.modCore core fun k => { k with lines := l :: k.lines }
  if (s.core core).lines.length < 128 * s.cacheBanks core then add s
  else if free.isEmpty then (if s.lockedLine core l.asid l.vline then add s else s)
  else
    let (n, s) := s.draw
    add (match free[Config.victim n % free.length]? with
      | some v => s.dropLines core fun x => x == v
      | none => s)

/-- The line's bytes as the core sees them: memory with the core's own stores that are on their way (R261). -/
def State.coreBytes (s : State) (core : Nat) (t : Target) (line : Nat) : List Byte :=
  let own := s.reqs.filter fun q => q.core == core && q.line == line && q.st == .queued && q.kind == .write
  own.foldl (fun d q => patchList d (q.pa % 128) (leBytes q.bytes q.data.toNat)) (s.lineBytes t (lineBase line))

/-- A core's own copy takes what a read of the core has seen at the slice, so that no later load is served an older
value (R177, R261), and the write completion time with it; a copy of another device's line is not kept. (DEDUCED, unsafe: notes/assumptions/22.md). -/
def State.refresh (s : State) (core : Nat) (t : Target) (line : Nat) : State :=
  if !(s.core core).lines.any fun l => l.pline == line && !l.loc then s
  else if (match t with | .remote _ => true | _ => false) then s.dropLines core fun l => l.pline == line && !l.loc
  else
    let d := s.coreBytes core t line
    let x := (tget {} s.l2 line).wct
    s.modCore core fun k => { k with lines := k.lines.map fun l =>
      if l.pline == line && !l.loc then { l with data := d, wct := max l.wct x, bad := s.badSectors core l.attr line } else l }

/-- The copies of every line that n bytes reach. -/
def State.refreshAll (s : State) (core : Nat) (t : Target) (pa n : Nat) : State :=
  (List.range ((pa + n + 127) / 128 - pa / 128)).foldl (fun s k => s.refresh core t (lineKey t pa + k)) s

/-! ### Lanes that fail (R336) -/

/-- A lane's translation, permission or integrity fault. -/
structure LaneErr where
  lane : Lane
  cause : Nat
  info : Word
  addr : Nat
  deriving DecidableEq, Repr

/-- A translation that the quad's TLB did not hold ends after a free time, until which the fragment issues no other memory
instruction (R325, R330). (DESIGN CHOICE, safe: notes/assumptions/42.md). -/
def State.noteWalk (s : State) (c : Ctx) (held : Bool) : State :=
  if held then s
  else
    let (n, s) := s.draw
    s.modFrag c.ref fun f => { f with walkEnd := max f.walkEnd (s.time + Config.walkNs n) }

/-- Translate one lane's address and check that there is memory to act on (R377) and the integrity of what a read of it finds (R329,
R342). -/
def State.laneXlate (s : State) (c : Ctx) (l : Lane) (va : Nat) (acc : Acc) (reads : Bool) :
    State × Except LaneErr (Nat × Attr) :=
  let held := (s.tlbFind (s.quadOf c.b.core) c.l.asid va).isSome
  match s.xlate (s.quadOf c.b.core) c.l.asid va acc with
  | (s, .fault code mal) =>
    (s, .error ⟨l, code, if code = 9 then BitVec.ofNat 32 (acc.code + (if mal then 16 else 0)) else 0, va⟩)
  | (s, .ok pa a) =>
    let s := s.noteWalk c held
    match if reads then s.badAt a.target a.tier pa else s.lostAt a.tier pa with
    | some i => (s, .error ⟨l, 0x0B, i, va / 32 * 32⟩)
    | none => (s, .ok (pa, a))

/-- Perform a step in every lane, ascending; the lanes that failed are gathered. -/
def State.eachLane (s : State) (ls : List Lane) (f : State → Lane → State × Option LaneErr) : State × List LaneErr :=
  ls.foldl (fun (st : State × List LaneErr) l =>
    let r := f st.1 l
    (r.1, st.2 ++ r.2.toList)) (s, [])

/-- The lanes of failures, as a mask. -/
def errMask (es : List LaneErr) : LaneMask := es.foldl (fun m e => m ||| (1#32 <<< e.lane.val)) 0

/-- The requests that an instruction of a warp has sent raise no trap any more. -/
def State.hushIns (s : State) (uid wi ins : Nat) : State :=
  { s with reqs := s.reqs.map fun q => if q.block == uid && q.warp == wi && q.ins == ins then { q with quiet := true } else q }

/-- The requests that an instruction which traps has sent raise no trap of their own: it raises at most one (R336). -/
def State.hush (s : State) (c : Ctx) : State := s.hushIns c.ref.block c.ref.warp c.seq

/-- What failing lanes come to, the other lanes having been performed (R331, R332, R336): a trap for a permission or
integrity fault, else parking with a posted fault record, else with the ring disabled the trap of the code. `s0` is the
state before the instruction: in a speculation window nothing is performed and the fragment waits (R172). A parked instruction's
destinations stay empty (R331; `finish`). -/
def failLanes (c : Ctx) (acc : Acc) (park : LaneMask) (es : List LaneErr) (s0 s : State) : Eff :=
  match es with
  | [] => .ok s
  | e :: _ =>
    if isPath c.ref.sel then .wait .waitConfirm .never s0
    else match es.find? fun e => e.cause == 9 || e.cause == 0x0B with
    | some t => .trap (c.trap t.cause t.info (BitVec.ofNat 64 t.addr) (errMask es)) (s.hush c)
    | none =>
      if s.fq.en then
        let (s, id) := s.postFault e.cause acc c.l.asid e.addr c.l.id c.b.core c.w.warpSlot
        .park park id s
      else .trap (c.trap e.cause 0 (BitVec.ofNat 64 e.addr) (errMask es)) (s.hush c)

/-! ### Release and acquire (R179, R186) -/

/-- The failed remote writes of the fragment's lanes (R380), by warp, lane and address. -/
def Ctx.failed (c : Ctx) : List (Nat × Nat × Nat) :=
  c.b.failedWrite.filter fun x => x.1 == c.ref.warp && c.f.mask.getLsbD x.2.1

/-- Run an effect unless the fragment has failed remote writes to report, as a pod-scope release or fence does (R380). -/
def reportFailed (c : Ctx) (s : State) (k : State → Eff) : Eff :=
  match sortBy (·.2.1) c.failed with
  | [] => k s
  | x :: r =>
    .trap (c.trap 0x0B 5 (BitVec.ofNat 64 (x.2.2 / 32 * 32)) ((x :: r).foldl (fun m y => m ||| (1#32 <<< y.2.1)) 0))
      (s.modBlock c.ref.block fun b => { b with failedWrite := b.failedWrite.filter fun y => !c.failed.contains y })

/-- Run an effect after the release action of an order at a scope: wait in the fence until it has ended. (DESIGN CHOICE, safe: notes/assumptions/14.md). -/
def withRelease (c : Ctx) (ord : Ord) (sc : Scope) (s : State) (k : State → Eff) : Eff :=
  if ord == .rel || ord == .acqrel then
    if !c.f.released && !s.condMet c (.release sc) then .wait .waitFence (.release sc) s
    else if sc == .pod then reportFailed c s k else k s
  else k s

/-- The acquire action of an order at a scope, from now on (R186); none at core scope. (DESIGN CHOICE, safe: notes/assumptions/14.md). -/
def State.acquire (s : State) (c : Ctx) (ord : Ord) (sc : Scope) : State :=
  if (ord == .acq || ord == .acqrel) && sc != .core then s.modFrag c.ref fun f => { f with acquire := some s.nextReq } else s

/-- The acquire action once the lanes that can be performed have been. -/
def Eff.acquire (c : Ctx) (ord : Ord) (sc : Scope) : Eff → Eff
  | .ok s => .ok (s.acquire c ord sc)
  | .park m id s => .park m id (s.acquire c ord sc)
  | e => e

/-! ### Horizons (R270) -/

/-- 50 ns in the time base of this device for a time of another (R289, R290). -/
def podMargin (a : Attr) : Nat := match a.target with | .remote _ => 50 | _ => 0

/-- Fold the times of a write. -/
def Warp.foldWrite (w : Warp) (a : Attr) (wdie wdev : Nat) : Warp :=
  let k := podMargin a
  { w with hdie := max w.hdie (wdie + k), hdev := max w.hdev (wdev + k), hpod := max w.hpod wdev }

/-- Fold the write completion time of a read. -/
def Warp.foldRead (w : Warp) (a : Attr) (t : Nat) : Warp := w.foldWrite a t t

/-! ### Atomics (R183) -/

/-- The new value m' of an atomic operation of n bytes; b is the operand, or cmp and `new` for CAS. -/
def atomNew (op : AtomOp) (n m b new : Nat) : Nat :=
  let w := 8 * n
  let lt (x y : Nat) : Bool := decide (intVal w true x < intVal w true y)
  match op with
  | .add => (m + b) % 2 ^ w
  | .smin => if lt b m then b else m
  | .smax => if lt m b then b else m
  | .umin => min m b
  | .umax => max m b
  | .and => m &&& b
  | .or => m ||| b
  | .xor => m ^^^ b
  | .exch => b
  | .cas => if m = b then new else m
  | .fadd => fp32.add .rne m b
  | .fmin => fp32.minNum m b
  | .fmax => fp32.maxNum m b
  | .incw => if b ≤ m then 0 else m + 1
  | .decw => if m = 0 || b < m then b else m - 1

/-- The operand and CAS's new value of a lane (R183). -/
def atomOpnd (w : Warp) (op : AtomOp) (b n : Nat) (l : Lane) : Nat × Nat :=
  (w.data b n l, if op == .cas then w.data (b + n / 4) n l else 0)

end Sys2Proof.Machine
end

