-- ==== Sys2Proof/Machine/LoadStore.lean ====
section
/-! DEFINITION. Loads and stores of every space, LDA, LR, SC, PREF, LOCK, UNLOCK and BANK (R174-R182, R185, R188-R191)
and their 32-bit forms (R93). -/

namespace Sys2Proof.Machine

/-! ### Global loads -/

/-- A global load as the common operation takes it. -/
structure LoadArgs where
  d : Nat
  n : Nat
  sx : Bool
  hint : Hint
  ord : Ord
  scope : Scope
  lr : Bool
  addr : Lane → Nat

/-- A load's request kind: a fill of the L1, or a read at the slice (R260, R290). -/
def loadKind (a : Attr) (hint : Hint) : ReqKind := if a.policy = 0 && hint != .noL1 then .fill else .read

/-- A lane's read that a line of the L1 serves: the checks of its fill's permission (R326) and of its sector (R342), and the request
with its value and write completion time (R269). -/
def State.serve (s : State) (c : Ctx) (l : Lane) (k : ReqKind) (ln : L1Line) (va n : Nat) : State × Except LaneErr Req :=
  if !ln.attr.r then (s, .error ⟨l, 9, BitVec.ofNat 32 Acc.rd.code, va⟩)
  else match ln.badAt va with
  | some i => (s, .error ⟨l, 0x0B, i, va / 32 * 32⟩)
  | none =>
    let (s, v) := s.lineRead ln va n
    (s, .ok { baseReq s c l k va (lineBase ln.pline + va % 128) ln.attr n with
      st := .performed, value := BitVec.ofNat 128 v, wct := if ln.attr.stable then 0 else ln.wct })

/-- One lane of a global load (R177, R324): served by a live L1 line, or sent to the slice. LR goes to its slice. -/
def loadLane (g : LoadArgs) (c : Ctx) (s : State) (l : Lane) : State × Option LaneErr :=
  let va := g.addr l
  let hit := if g.lr || g.hint == .noL1 then none else s.l1Find c va
  match hit with
  | some ln =>
    match s.serve c l .read ln va g.n with
    | (s, .error e) => (s, some e)
    | (s, .ok q) => (s.send { q with dst := some g.d, sx := g.sx }, none)
  | none =>
    match s.laneXlate c l va .rd true with
    | (s, .error e) => (s, some e)
    | (s, .ok (pa, a)) =>
      (s.send { baseReq s c l (loadKind a g.hint) va pa a g.n with dst := some g.d, sx := g.sx, lr := g.lr }, none)

/-- A global load: the checks of R176, every lane, the acquire action (R177, R179). -/
def globalLoad (g : LoadArgs) (c : Ctx) (m : LaneMask) (s : State) : Eff :=
  match misaligned c m g.n g.addr with
  | some t => .trap t s
  | none =>
    let r := s.eachLane (lanesOf m) (loadLane g c)
    let s1 := if r.2.length < popcount m then r.1.modW c fun w => w.markAll false (vRegs g.d g.n) else r.1
    (failLanes c .rd (errMask r.2) r.2 s s1).acquire c g.ord g.scope

/-- LD (R177): bit 0 of the B field is SX. -/
def ldEff (o : Xm) (c : Ctx) (m : LaneMask) (s : State) : Eff :=
  let n := o.width.bytes
  globalLoad ⟨o.d.toNat, n, o.b.getLsbD 0, o.hint, o.ord, o.scope, false, gAddr c.w o.a o.off.toInt n⟩ c m s

def execLd (o : Xm) (s : State) : Host.Outcome State Fault Refusal := issue (.ld o) (ldEff o) s

/-- LD32 (R93): global, 32 bits, relaxed, no hint. -/
def ld32Eff (o : NM) (c : Ctx) (m : LaneMask) (s : State) : Eff :=
  globalLoad ⟨o.d.toNat, 4, false, .default, .rlx, .core, false, gAddr c.w o.a o.off.toInt 4⟩ c m s

def execLd32 (o : NM) (s : State) : Host.Outcome State Fault Refusal := issue (.ld32 o) (ld32Eff o) s

/-- LR (R185): performed at the slice, where its reservation begins. -/
def lrEff (o : Xm) (c : Ctx) (m : LaneMask) (s : State) : Eff :=
  let n := o.width.bytes
  globalLoad ⟨o.d.toNat, n, false, o.hint, o.ord, o.scope, true, gAddr c.w o.a o.off.toInt n⟩ c m s

def execLr (o : Xm) (s : State) : Host.Outcome State Fault Refusal := issue (.lr o) (lrEff o) s

/-! ### Global stores -/

/-- One lane of a global store (R178, R260, R262). -/
def storeLane (n : Nat) (addr : Lane → Nat) (data : Lane → Nat) (c : Ctx) (s : State) (l : Lane) :
    State × Option LaneErr :=
  match s.laneXlate c l (addr l) .wr false with
  | (s, .error e) => (s, some e)
  | (s, .ok (pa, a)) =>
    let line := lineKey a.target pa
    let s := (s.patchOwn c.b.core line pa (leBytes n (data l))).invalidateSiblings c.b.core line
    (s.send { baseReq s c l .write (addr l) pa a n with data := BitVec.ofNat 128 (data l) }, none)

/-- The stores of one instruction cover the whole 32-byte sector of one of them, each being aligned (R342). -/
def coversSector (qs : List Req) (q : Req) : Bool :=
  ((qs.filter fun x => x.attr.target == q.attr.target && x.pa / 32 == q.pa / 32).map (·.pa)).eraseDups.length * q.bytes == 32

/-- Mark the stores that a core has just sent whose sector the instruction covers whole: the core's own copies of the sector are good
(R342). -/
def State.markWhole (s : State) (core ins : Nat) : State :=
  let qs := s.reqs.filter fun q => decide (ins ≤ q.id)
  let whole := qs.filter (coversSector qs)
  let good (l : L1Line) : L1Line :=
    { l with bad := l.bad.filter fun x => !whole.any fun q => q.line == l.pline && q.pa % 128 / 32 == x.1 }
  let s : State := { s with reqs := s.reqs.map fun q => if ins ≤ q.id && coversSector qs q then { q with whole := true } else q }
  if whole.isEmpty then s else s.modCore core fun k => { k with lines := k.lines.map good }

/-- A global store: the checks, the release action, then every lane in ascending order (R178, R179). -/
def globalStore (n : Nat) (ord : Ord) (scope : Scope) (addr : Lane → Nat) (data : Lane → Nat) (c : Ctx) (m : LaneMask)
    (s : State) : Eff :=
  match misaligned c m n addr with
  | some t => .trap t s
  | none => withRelease c ord scope s fun s =>
    let r := s.eachLane (lanesOf m) (storeLane n addr data c)
    failLanes c .wr (errMask r.2) r.2 s (r.1.markWhole c.b.core s.nextReq)

/-- ST (R178). -/
def stEff (o : Xm) (c : Ctx) (m : LaneMask) (s : State) : Eff :=
  let n := o.width.bytes
  globalStore n o.ord o.scope (gAddr c.w o.a o.off.toInt n) (c.w.data o.b.toNat n) c m s

def execSt (o : Xm) (s : State) : Host.Outcome State Fault Refusal := issue (.st o) (stEff o) s

/-- ST32 (R93): D is the store data. -/
def st32Eff (o : NM) (c : Ctx) (m : LaneMask) (s : State) : Eff :=
  globalStore 4 .rlx .core (gAddr c.w o.a o.off.toInt 4) (c.w.data o.d.toNat 4) c m s

def execSt32 (o : NM) (s : State) : Host.Outcome State Fault Refusal := issue (.st32 o) (st32Eff o) s

/-! ### Scratchpad loads and stores -/

/-- The FIFO banks that lanes reach, each with the words it moves. -/
def fifoWordsOf (c : Ctx) (m : LaneMask) (n : Nat) (addr : Lane → Nat) : List (Nat × Nat) :=
  (List.range c.b.banks.length).filterMap fun k =>
    let ls := (lanesOf m).filter fun l => addr l / Config.bankBytes == k && c.b.fifoAt (addr l)
    if ls.isEmpty then none else some (k, ls.length * (n / 4))

/-- The checks of a scratchpad access that may reach a FIFO bank, and its wait for room or words (R176, R181). -/
def scratchGate (store : Bool) (c : Ctx) (m : LaneMask) (n : Nat) (addr : Lane → Nat) (s : State) (k : State → Eff) : Eff :=
  match misaligned c m n addr with
  | some t => .trap t s
  | none => match outOfBounds c m n .scratch addr with
    | some t => .trap t s
    | none =>
      let fs := fifoWordsOf c m n addr
      if fs.isEmpty then k s
      else if isPath c.ref.sel then .wait .waitConfirm .never s
      else if n != 4 && n != 8 then match fifoTrap c m addr with
        | some t => .trap t s
        | none => k s
      else
        let cond (x : Nat × Nat) : WaitCond := if store then .fifoRoom x.1 x.2 else .fifoWords x.1 x.2
        match fs.find? fun x => !s.condMet c (cond x) with
        | some x => .wait .waitResource (cond x) s
        | none => k s

/-- Take n/4 words from a FIFO bank. -/
def Block.fifoTake (b : Block) (k cnt : Nat) : Block × Nat :=
  match b.banks[k]? with
  | none => (b, 0)
  | some x => ({ b with banks := updAt (fun y => { y with queue := y.queue.drop cnt }) k b.banks },
      (x.queue.take cnt).foldr (fun w acc => w.toNat + 2 ^ 32 * acc) 0)

/-- Append n/4 words to a FIFO bank, low word first. -/
def Block.fifoAdd (b : Block) (k cnt v : Nat) : Block :=
  { b with banks := updAt (fun y => { y with
      queue := y.queue ++ (List.range cnt).map fun j => BitVec.ofNat 32 (v / 2 ^ (32 * j)) }) k b.banks }

/-- One lane of a scratchpad load. -/
def ldsLane (n d : Nat) (sx : Bool) (addr : Lane → Nat) (c : Ctx) (s : State) (l : Lane) : State :=
  let o := addr l
  let b := s.blockOf c
  let r := if b.fifoAt o then b.fifoTake (o / Config.bankBytes) (n / 4) else (b, b.read o n)
  (s.modBlock c.ref.block fun _ => r.1).modW c fun w => w.setData d n l r.2 sx

/-- A scratchpad load (R177, R181), its acquire at core scope (R175). -/
def scratchLoad (n d : Nat) (sx : Bool) (addr : Lane → Nat) (c : Ctx) (m : LaneMask) (s : State) : Eff :=
  scratchGate false c m n addr s fun s => .ok ((lanesOf m).foldl (ldsLane n d sx addr c) s)

/-- One lane of a scratchpad store; what it does to a barrier object there is `State.spoil`. (DEDUCED, unsafe: notes/assumptions/78.md). -/
def stsLane (n : Nat) (addr : Lane → Nat) (data : Lane → Nat) (b : Block) (l : Lane) : Block :=
  let o := addr l
  if b.fifoAt o then b.fifoAdd (o / Config.bankBytes) (n / 4) (data l) else b.write o n (data l)

/-- The objects that lanes' stores reach (R198). -/
def State.spoilLanes (s : State) (uid n : Nat) (addr : Lane → Nat) (m : LaneMask) : State :=
  (lanesOf m).foldl (fun s l => s.spoil uid (addr l) n) s

/-- A scratchpad store (R178, R181), its release at core scope. -/
def scratchStore (n : Nat) (ord : Ord) (addr : Lane → Nat) (data : Lane → Nat) (c : Ctx) (m : LaneMask) (s : State) : Eff :=
  scratchGate true c m n addr s fun s => withRelease c ord .core s fun s =>
    .ok ((s.modBlock c.ref.block fun b => (lanesOf m).foldl (stsLane n addr data) b).spoilLanes c.ref.block n addr m)

/-- LDS (R177). -/
def ldsEff (o : Xp) (c : Ctx) (m : LaneMask) (s : State) : Eff :=
  let n := o.width.bytes
  scratchLoad n o.d.toNat (o.b.getLsbD 0) (pAddr c.w o.a o.sreg o.off.toInt n) c m s

def execLds (o : Xp) (s : State) : Host.Outcome State Fault Refusal := issue (.lds o) (ldsEff o) s

/-- LDS32 (R93). -/
def lds32Eff (o : NM) (c : Ctx) (m : LaneMask) (s : State) : Eff :=
  scratchLoad 4 o.d.toNat false (pAddr c.w o.a false o.off.toInt 4) c m s

def execLds32 (o : NM) (s : State) : Host.Outcome State Fault Refusal := issue (.lds32 o) (lds32Eff o) s

/-- STS (R178). -/
def stsEff (o : Xp) (c : Ctx) (m : LaneMask) (s : State) : Eff :=
  let n := o.width.bytes
  scratchStore n o.ord (pAddr c.w o.a o.sreg o.off.toInt n) (c.w.data o.b.toNat n) c m s

def execSts (o : Xp) (s : State) : Host.Outcome State Fault Refusal := issue (.sts o) (stsEff o) s

/-- STS32 (R93). -/
def sts32Eff (o : NM) (c : Ctx) (m : LaneMask) (s : State) : Eff :=
  scratchStore 4 .rlx (pAddr c.w o.a false o.off.toInt 4) (c.w.data o.d.toNat 4) c m s

def execSts32 (o : NM) (s : State) : Host.Outcome State Fault Refusal := issue (.sts32 o) (sts32Eff o) s

/-! ### Local and constant memory (R180, R253, R254, R300) -/

/-- The failing sector of a line that n bytes reach, with its first address (R335, R342). -/
def L1Line.badIn (ln : L1Line) (va n : Nat) : Option (Word × Nat) :=
  [va, va + n - 1].findSome? fun a => (ln.badAt a).map (·, a / 32 * 32)

/-- The failing sector of memory that n bytes at an address reach, with the sector's first virtual address (R335, R342). -/
def State.badIn (s : State) (a : Attr) (va pa n : Nat) : Option (Word × Nat) :=
  [0, n - 1].findSome? fun k => (s.badAt a.target a.tier (pa + k)).map (·, (va + k) / 32 * 32)

/-- The local line that an access of n bytes in a line finds in the L1 or fills (R253, R260); `none` where the access goes past the L1.
Stores and cache hint 3 are translated whether a line is held or not (R324); only a load checks its sectors (R342). -/
def localLine (c : Ctx) (l : Lane) (va n : Nat) (acc : Acc) (bypass : Bool) (s : State) :
    State × Except LaneErr (Option L1Line × Nat × Attr) :=
  let find (s : State) : Option L1Line :=
    (s.core c.b.core).lines.find? fun x => x.asid == c.l.asid && x.vline == va / 128 && x.loc
  let reads := acc == .rd
  let hit (s : State) (ln : L1Line) : State × Except LaneErr (Option L1Line × Nat × Attr) :=
    match if reads then ln.badIn va n else none with
    | some (i, x) => (s, .error ⟨l, 0x0B, i, x⟩)
    | none => (s, .ok (some ln, lineBase ln.pline + va % 128, ln.attr))
  match find s with
  | some ln =>
    if reads && !bypass then
      if ln.attr.permits acc then hit s ln else (s, .error ⟨l, 9, BitVec.ofNat 32 acc.code, va⟩)
    else match s.laneXlate c l va acc false with
      | (s, .error e) => (s, .error e)
      | (s, .ok _) => hit s ln
  | none =>
    match s.laneXlate c l va acc reads with
    | (s, .error e) => (s, .error e)
    | (s, .ok (pa, a)) =>
      let fill (s : State) : State × Except LaneErr (Option L1Line × Nat × Attr) :=
        let key := lineKey a.target pa
        let s := s.removeOlder c.b.core key
        let s := s.install c.b.core
          ⟨c.l.asid, va / 128, key, a, s.lineBytes a.target (lineBase key), none, 0, true, 0, s.badSectors c.b.core a key⟩
        (s, .ok (find s, pa, a))
      match a.target with
      | .remote _ => (s, .ok (none, pa, a))
      | _ => match if reads then s.badIn a va pa n else none with
        | some (i, x) => (s, .error ⟨l, 0x0B, i, x⟩)
        | none => if bypass || a.policy != 0 then (s, .ok (none, pa, a)) else fill s

/-- A value read through a local line or past the L1; none where it lies in another device's memory. -/
def State.localRead (s : State) (ln : Option L1Line) (va pa : Nat) (a : Attr) (n : Nat) : State × Option Nat :=
  match ln, a.target with
  | some ln, _ => let (s, v) := s.lineRead ln va n; (s, some v)
  | none, .remote _ => (s, none)
  | none, _ => let (s, v) := s.attrRead a pa n; (s, some v)

/-- One lane of LDL; an access that crosses a line reads both (R299 aligns no local base). -/
def ldlLane (o : Xp) (addr : Lane → Nat) (c : Ctx) (s : State) (l : Lane) : State × Option LaneErr :=
  let n := o.width.bytes
  let va := localVa c l (addr l)
  let byp := o.hint == .noL1
  let k := min n (128 - va % 128)
  match localLine c l va k .rd byp s with
  | (s, .error e) => (s, some e)
  | (s, .ok (ln, pa, a)) =>
    let q := { baseReq s c l .read va pa a n with dst := some o.d.toNat, sx := o.b.getLsbD 0, loc := true }
    let done (s : State) (v : Nat) : State × Option LaneErr :=
      (s.send { q with st := .performed, value := BitVec.ofNat 128 v }, none)
    match s.localRead ln va pa a k with
    | (s, none) => (s.send q, none)
    | (s, some v) =>
      if k = n then done s v
      else
        let vb := (va + k) % 2 ^ 56
        match localLine c l vb (n - k) .rd byp s with
        | (s, .error e) => (s, some e)
        | (s, .ok (ln, pb, b)) => match s.localRead ln vb pb b (n - k) with
          | (s, some w) => done s (v + 2 ^ (8 * k) * w)
          | (s, none) => (s.send { q with va := vb, pa := pb, attr := b }, none)

/-- The checks of LDL, STL and LDC, then every lane (R176). -/
def privLanes (p : Priv) (n : Nat) (addr : Lane → Nat) (acc : Acc) (f : State → Lane → State × Option LaneErr)
    (dst : List (RegClass × Nat)) (c : Ctx) (m : LaneMask) (s : State) : Eff :=
  match misaligned c m n addr with
  | some t => .trap t s
  | none => match outOfBounds c m n p addr with
    | some t => .trap t s
    | none =>
      let r := s.eachLane (lanesOf m) f
      let s1 := if r.2.length < popcount m then r.1.modW c fun w => w.markAll false dst else r.1
      failLanes c acc (errMask r.2) r.2 s s1

/-- LDL (R180). -/
def ldlEff (o : Xp) (c : Ctx) (m : LaneMask) (s : State) : Eff :=
  let n := o.width.bytes
  let addr := pAddr c.w o.a o.sreg o.off.toInt n
  privLanes .loc n addr .rd (ldlLane o addr c) (vRegs o.d.toNat n) c m s

def execLdl (o : Xp) (s : State) : Host.Outcome State Fault Refusal := issue (.ldl o) (ldlEff o) s

/-- A store into a local line marks its words dirty (R253); a sector all of whose words are dirty is good (R342). -/
def L1Line.storeLocal (l : L1Line) (va : Nat) (bs : List Byte) : L1Line :=
  let dirty := (List.range 32).foldl (fun d k =>
    if va % 128 < 4 * k + 4 && 4 * k < va % 128 + bs.length then d ||| (1#32 <<< k) else d) l.dirty
  { l with data := patchList l.data (va % 128) bs, dirty := dirty,
           bad := l.bad.filter fun x => !((dirty >>> (8 * x.1)) &&& 0xFF == 0xFF) }

/-- Store bytes through a local line, or past the L1, as where the line has been replaced since it was found. -/
def State.localStore (s : State) (c : Ctx) (l : Lane) (ln : Option L1Line) (va pa : Nat) (a : Attr) (bs : List Byte) : State :=
  let here (x : L1Line) : Bool := match ln with
    | some y => x.asid == y.asid && x.vline == y.vline && x.loc
    | none => false
  if (s.core c.b.core).lines.any here then
    s.modCore c.b.core fun k => { k with lines := k.lines.map fun x => if here x then x.storeLocal va bs else x }
  else match a.target with
    | .remote _ => s.send { baseReq s c l .write va pa a bs.length with data := BitVec.ofNat 128 (leNat bs), loc := true }
    | t => (s.sliceWrite t pa bs none).1

/-- One lane of STL; an access that crosses a line stores to both, once both are translated. -/
def stlLane (o : Xp) (addr : Lane → Nat) (c : Ctx) (s : State) (l : Lane) : State × Option LaneErr :=
  let n := o.width.bytes
  let va := localVa c l (addr l)
  let bs := leBytes n (c.w.data o.b.toNat n l)
  let k := min n (128 - va % 128)
  match localLine c l va k .wr false s with
  | (s, .error e) => (s, some e)
  | (s, .ok (ln, pa, a)) =>
    if k = n then (s.localStore c l ln va pa a bs, none)
    else
      let vb := (va + k) % 2 ^ 56
      match localLine c l vb (n - k) .wr false s with
      | (s, .error e) => (s, some e)
      | (s, .ok (lb, pb, b)) => ((s.localStore c l ln va pa a (bs.take k)).localStore c l lb vb pb b (bs.drop k), none)

/-- STL (R180). -/
def stlEff (o : Xp) (c : Ctx) (m : LaneMask) (s : State) : Eff :=
  let n := o.width.bytes
  let addr := pAddr c.w o.a o.sreg o.off.toInt n
  privLanes .loc n addr .wr (stlLane o addr c) [] c m s

def execStl (o : Xp) (s : State) : Host.Outcome State Fault Refusal := issue (.stl o) (stlEff o) s

/-- The value of a constant-bank access: memory as it stood at the launch; a free value where it has changed since
(R254). -/
def State.constRead (s : State) (l : Machine.Launch) (a : Attr) (pa n : Nat) : State × Nat :=
  let v := s.physRead a.target pa n
  let start := l.begun
  let old := match a.target with
    | .device => l.image.read pa n
    | .host => l.hostImage.read pa n
    | .remote _ => v
  let changed := old != v || s.past.any fun p => p.target == a.target && decide (start ≤ p.until_) &&
    decide (p.at_ < pa + n) && decide (pa < p.at_ + 2)
  if changed || s.undefAt a pa n then let (k, s) := s.draw; (s, leNat (freeRun k n)) else (s.cached a pa n, v)

/-- One lane of LDC. -/
def ldcLane (o : Xp) (addr : Lane → Nat) (c : Ctx) (s : State) (l : Lane) : State × Option LaneErr :=
  let n := o.width.bytes
  let va := (c.l.desc.cbank.toNat + addr l) % 2 ^ 56
  match s.laneXlate c l va .rd true with
  | (s, .error e) => (s, some e)
  | (s, .ok (pa, a)) =>
    let q := { baseReq s c l .read va pa a n with dst := some o.d.toNat, sx := o.b.getLsbD 0, loc := true }
    match a.target with
    | .remote _ => (s.send q, none)
    | _ =>
      let (s, v) := s.constRead c.l a pa n
      (s.send { q with st := .performed, value := BitVec.ofNat 128 v }, none)

/-- LDC (R180). -/
def ldcEff (o : Xp) (c : Ctx) (m : LaneMask) (s : State) : Eff :=
  let n := o.width.bytes
  let addr := pAddr c.w o.a o.sreg o.off.toInt n
  privLanes .const n addr .rd (ldcLane o addr c) (vRegs o.d.toNat n) c m s

def execLdc (o : Xp) (s : State) : Host.Outcome State Fault Refusal := issue (.ldc o) (ldcEff o) s

/-! ### LDA (R182) -/

/-- One lane of LDA: its bytes are on their way to the scratchpad. -/
def ldaLane (n obj : Nat) (addr off : Lane → Nat) (hint : Hint) (c : Ctx) (s : State) (l : Lane) : State × Option LaneErr :=
  let va := addr l
  let epoch := c.b.bankEpoch (off l / Config.bankBytes)
  match if hint == .noL1 then none else s.l1Find c va with
  | some ln =>
    match s.serve c l (.deliver (off l) obj) ln va n with
    | (s, .error e) => (s, some e)
    | (s, .ok q) => (s.send { q with epoch := epoch }, none)
  | none =>
    match s.laneXlate c l va .rd true with
    | (s, .error e) => (s, some e)
    | (s, .ok (pa, a)) => (s.send { baseReq s c l (.deliver (off l) obj) va pa a n with epoch := epoch }, none)

/-- LDA: the checks of the global address, of the destination offset and of the barrier object, then every lane. -/
def ldaEff (o : Xm) (c : Ctx) (m : LaneMask) (s : State) : Eff :=
  let n := o.width.bytes
  let addr := gAddr c.w o.a o.off.toInt n
  let off (l : Lane) : Nat := (c.w.vl o.d.toNat l).toNat
  let obj := (c.w.sr o.b.toNat).toNat
  match misaligned c m n addr with
  | some t => .trap t s
  | none => match misaligned c m n off with
    | some t => .trap t s
    | none => match outOfBounds c m n .scratch off with
      | some t => .trap t s
      | none => match fifoTrap c m off with
        | some t => .trap t s
        | none => match objCheck c obj with
          | some t => .trap t s
          | none =>
            let r := s.eachLane (lanesOf m) (ldaLane n obj addr off o.hint c)
            failLanes c .rd (errMask r.2) r.2 s r.1

def execLda (o : Xm) (s : State) : Host.Outcome State Fault Refusal := issue (.lda o) (ldaEff o) s

/-! ### SC (R185) -/

/-- One lane of SC, sent to its slice. -/
def scLane (n : Nat) (addr : Lane → Nat) (data : Lane → Nat) (c : Ctx) (s : State) (l : Lane) : State × Option LaneErr :=
  match s.laneXlate c l (addr l) .wr true with
  | (s, .error e) => (s, some e)
  | (s, .ok (pa, a)) =>
    let s := s.invalidateSiblings c.b.core (lineKey a.target pa)
    (s.send { baseReq s c l .sc (addr l) pa a n with data := BitVec.ofNat 128 (data l) }, none)

/-- The SC requests of the fragment in some lanes. -/
def State.scReqs (s : State) (c : Ctx) (m : LaneMask) : List Req :=
  s.reqs.filter fun q => q.block == c.ref.block && q.warp == c.ref.warp && q.sel == c.ref.sel && q.kind == .sc &&
    m.getLsbD q.lane

/-- SC: its lanes are sent after the release action; the fragment waits for every outcome, as in a fence, then writes D and, with
C = 1, the flags. (DEDUCED, unsafe: notes/assumptions/73.md). -/
def scEff (o : Xm) (c : Ctx) (m : LaneMask) (s : State) : Eff :=
  let n := o.width.bytes
  let addr := gAddr c.w o.a o.off.toInt n
  match misaligned c m n addr with
  | some t => .trap t s
  | none => withRelease c o.ord o.scope s fun s =>
    let mine := s.scReqs c m
    if mine.any fun q => !q.valueBack then .wait .waitFence .scReturned s
    else if s.reqs.any fun q => q.block == c.ref.block && q.warp == c.ref.warp && q.lr && m.getLsbD q.lane && q.st == .queued
    then .wait .waitFence (.loadsBefore s.nextReq) s
    else
      let done := mine.foldl (fun k q => k ||| (1#32 <<< q.lane)) (0 : LaneMask)
      let ok := mine.foldl (fun k q => if q.scOk then k ||| (1#32 <<< q.lane) else k) (0 : LaneMask)
      let s1 := ({ s with reqs := s.reqs.filter fun q => !mine.contains q } : State).modW c fun w =>
        (w.put done o.d.toNat o.h.c o.h.ccSet fun l =>
          (if ok.getLsbD l.val then 0 else 1, { n := false, z := ok.getLsbD l.val, c := false, v := false })).mark true
            (.v, o.d.toNat)
      let rest := m &&& ~~~done
      if rest == 0 then .ok s1
      else
        let r := s1.eachLane (lanesOf rest) (scLane n addr (c.w.data o.b.toNat n) c)
        if r.2.length < popcount rest then .wait .waitFence .scReturned r.1
        else failLanes c .wr (errMask r.2) r.2 s r.1

def execSc (o : Xm) (s : State) : Host.Outcome State Fault Refusal := issue (.sc o) (scEff o) s

/-! ### PREF, LOCK, UNLOCK, BANK -/

/-- What a prefetch of a page fetches into: the L1, or the L2 of this device, or, under policy 2, neither (R188, R251, R260). -/
def prefKind (a : Attr) (hint : Hint) : Option ReqKind :=
  if loadKind a hint == .fill then some .fill
  else match a.target with
    | .remote _ => none
    | _ => if a.policy == 2 then none else some .read

/-- One lane of PREF (R188): a lane whose translation fails is skipped; hint 3 fetches into the L2 only. -/
def prefLane (addr : Lane → Nat) (hint : Hint) (c : Ctx) (s : State) (l : Lane) : State :=
  let va := addr l
  if hint != .noL1 && (s.l1Find c va).isSome then s
  else match s.laneXlate c l va .rd true with
    | (s, .error _) => s
    | (s, .ok (pa, a)) => match prefKind a hint with
      | some k => s.send { baseReq s c l k va pa a 1 with pref := true }
      | none => s

def prefEff (o : Xm) (c : Ctx) (m : LaneMask) (s : State) : Eff :=
  .ok ((lanesOf m).foldl (prefLane (gAddr c.w o.a o.off.toInt 1) o.hint c) s)

def execPref (o : Xm) (s : State) : Host.Outcome State Fault Refusal := issue (.pref o) (prefEff o) s

/-- The distinct lines of lanes' addresses. -/
def linesOf (m : LaneMask) (addr : Lane → Nat) : List Nat := ((lanesOf m).map fun l => addr l / 128).eraseDups

/-- The translations of LOCK's lanes: the states, the failures, and whether a page's policy is 1 or 2 and which lines must be
fetched. -/
def lockLanes (addr : Lane → Nat) (c : Ctx) (m : LaneMask) (s : State) : State × List LaneErr × List (Lane × Nat × Attr) :=
  (lanesOf m).foldl (fun (st : State × List LaneErr × List (Lane × Nat × Attr)) l =>
    match st.1.laneXlate c l (addr l) .rd true with
    | (s, .error e) => (s, st.2.1 ++ [e], st.2.2)
    | (s, .ok (pa, a)) => (s, st.2.1, st.2.2 ++ [(l, pa, a)])) (s, [], [])

/-- LOCK (R189). -/
def lockEff (o : Xm) (c : Ctx) (m : LaneMask) (s : State) : Eff :=
  let addr := gAddr c.w o.a o.off.toInt 1
  let r := lockLanes addr c m s
  match r.2.1 with
  | e :: es => failLanes c .rd m (e :: es) s r.1
  | [] =>
    let s := r.1
    let new := (linesOf m addr).filter fun k => !c.b.locked.contains k
    let flags (z n : Bool) (s : State) : Eff :=
      .ok (s.modW c fun w => w.setCC o.h.ccSet m fun _ => { n := n, z := z, c := false, v := false })
    if r.2.2.any fun x => x.2.2.policy != 0 then flags false true s
    else if c.b.locked.length + new.length ≤ c.b.lockQuota then
      let s := s.modBlock c.ref.block fun b => { b with locked := b.locked ++ new }
      let s := r.2.2.foldl (fun s x =>
        if (s.l1Find c (addr x.1)).isSome || loadKind x.2.2 .default != .fill then s
        else s.send { baseReq s c x.1 .fill (addr x.1) x.2.1 x.2.2 1 with pref := true }) s
      flags true false s
    else flags false false s

def execLock (o : Xm) (s : State) : Host.Outcome State Fault Refusal := issue (.lock o) (lockEff o) s

/-- UNLOCK (R189). -/
def unlockEff (o : Xm) (c : Ctx) (m : LaneMask) (s : State) : Eff :=
  let ls := linesOf m (gAddr c.w o.a o.off.toInt 1)
  .ok (s.modBlock c.ref.block fun b => { b with locked := b.locked.filter fun k => !ls.contains k })

def execUnlock (o : Xm) (s : State) : Host.Outcome State Fault Refusal := issue (.unlock o) (unlockEff o) s

/-- BANK (R191); it waits for the warp's accesses as for a resource. (DEDUCED, unsafe: notes/assumptions/73.md). -/
def bankEff (o : Bank) (c : Ctx) (_ : LaneMask) (s : State) : Eff :=
  let k := (c.w.sr o.a.toNat).toNat
  match c.b.banks[k]? with
  | none => .trap (c.trap 7 4) s
  | some x =>
    if x.fifo == o.fifo then .ok s
    else if !s.condMet c (.bankQuiet k) then .wait .waitResource (.bankQuiet k) s
    else .ok (s.modBlock c.ref.block fun b => b.setBank k o.fifo)

def execBank (o : Bank) (s : State) : Host.Outcome State Fault Refusal := issue (.bank o) (bankEff o) s

end Sys2Proof.Machine
end

