-- ==== Sys2Proof/Machine/Atomics.lean ====
section
/-! DEFINITION. ATOM, RED, ATOMS (R183, R184), FENCE (R186), WAITA (R187, R283), MST (R190) and L1INV (R249). -/

namespace Sys2Proof.Machine

/-! ### Atomics -/

/-- The access of an atomic: RED, which returns nothing, writes (R329). -/
def atomAcc (dst : Option Nat) : Acc := if dst.isSome then .rmw else .wr

/-- One lane of a global atomic, on its way to the slice (R184, R262). -/
def atomLane (op : AtomOp) (n : Nat) (addr : Lane → Nat) (opnd : Lane → Nat × Nat) (dst : Option Nat) (c : Ctx)
    (s : State) (l : Lane) : State × Option LaneErr :=
  match s.laneXlate c l (addr l) (atomAcc dst) true with
  | (s, .error e) => (s, some e)
  | (s, .ok (pa, a)) =>
    let s := s.invalidateSiblings c.b.core (lineKey a.target pa)
    let q := baseReq s c l (.atomic op) (addr l) pa a n
    (s.send { q with data := BitVec.ofNat 128 (opnd l).1, arg2 := BitVec.ofNat 128 (opnd l).2, dst := dst,
                     valueBack := dst.isNone }, none)

/-- A global atomic: the checks, the release action, every lane in ascending order, the acquire action (R179). -/
def globalAtom (o : Xa) (dst : Option Nat) (c : Ctx) (m : LaneMask) (s : State) : Eff :=
  let n := o.width.bytes
  let addr := gAddr c.w o.a o.off.toInt n
  match misaligned c m n addr with
  | some t => .trap t s
  | none => withRelease c o.ord o.scope s fun s =>
    let r := s.eachLane (lanesOf m) (atomLane o.op n addr (atomOpnd c.w o.op o.b.toNat n) dst c)
    let s1 := match dst with
      | some d => if r.2.length < popcount m then r.1.modW c fun w => w.markAll false (vRegs d n) else r.1
      | none => r.1
    (failLanes c (atomAcc dst) (errMask r.2) r.2 s s1).acquire c o.ord o.scope

/-- ATOM (R184). -/
def execAtom (o : Xa) (s : State) : Host.Outcome State Fault Refusal := issue (.atom o) (globalAtom o (some o.d.toNat)) s

/-- RED (R184): an atomic that returns no value. -/
def execRed (o : Xa) (s : State) : Host.Outcome State Fault Refusal := issue (.red o) (globalAtom o none) s

/-- One lane of ATOMS: a read-modify-write of the scratchpad. -/
def atomsLane (o : Xas) (addr : Lane → Nat) (c : Ctx) (s : State) (l : Lane) : State :=
  let n := o.width.bytes
  let b := s.blockOf c
  let old := b.read (addr l) n
  let x := atomOpnd c.w o.op o.b.toNat n l
  (s.modBlock c.ref.block fun b => b.write (addr l) n (atomNew o.op n old x.1 x.2)).modW c
    fun w => w.setData o.d.toNat n l old false

/-- ATOMS (R184): lanes ascending, whose order acts at core scope. -/
def atomsEff (o : Xas) (c : Ctx) (m : LaneMask) (s : State) : Eff :=
  let n := o.width.bytes
  let addr := pAddr c.w o.a o.sreg o.off.toInt n
  match misaligned c m n addr with
  | some t => .trap t s
  | none => match outOfBounds c m n .scratch addr with
    | some t => .trap t s
    | none => match fifoTrap c m addr with
      | some t => .trap t s
      | none => withRelease c o.ord .core s fun s => .ok ((lanesOf m).foldl (atomsLane o addr c) s)

def execAtoms (o : Xas) (s : State) : Host.Outcome State Fault Refusal := issue (.atoms o) (atomsEff o) s

/-! ### FENCE -/

/-- FENCE (R186): the release action, then the acquire action. -/
def fenceEff (o : Xm) (c : Ctx) (_ : LaneMask) (s : State) : Eff :=
  let k (s : State) : Eff := .ok (s.acquire c o.ord o.scope)
  if o.scope == .pod && o.ord == .acq then reportFailed c s k else withRelease c o.ord o.scope s k

def execFence (o : Xm) (s : State) : Host.Outcome State Fault Refusal := issue (.fence o) (fenceEff o) s

/-! ### WAITA -/

/-- A WAITA comparison of n bytes (R187). -/
def WaitCmp.holds (k : WaitCmp) (n w b : Nat) : Bool :=
  let i := intVal (8 * n) true
  match k with
  | .eq => w == b
  | .ne => w != b
  | .ge => decide (i b ≤ i w)
  | .lt => decide (i w < i b)
  | .hs => decide (b ≤ w)
  | .lo => decide (w < b)
  | .any => w &&& b != 0
  | .none => w &&& b == 0

/-- The deadline of a WAITA: kept from its first attempt; 0xFFFF_FFFF is no deadline, the last instant of the time base. -/
def Ctx.waitDeadline (c : Ctx) (now : Nat) (t : Word) : Nat :=
  c.f.deadline.getD (if t == 0xFFFF_FFFF then 2 ^ 64 - 1 else now + t.toNat)

/-- The monitors of a slice that waiting fragments hold (R283). -/
def State.monitorsIn (s : State) (k : Nat) : Nat :=
  ((s.blocks.flatMap fun b => b.warps.flatMap fun w => w.frags.map fun x => match x.2.cond with
    | .monitor ws _ => (ws.filter fun y => s.sliceOf y.pa y.home == k).length
    | _ => 0)).sum

/-- Every slice has free monitors for words to watch (R283). -/
def State.monitorsFree (s : State) (ws : List Watch) : Bool :=
  ws.all fun x => decide (s.monitorsIn (s.sliceOf x.pa x.home) +
    (ws.filter fun y => s.sliceOf y.pa y.home == s.sliceOf x.pa x.home).length ≤ Config.sliceMonitors)

/-- What the last read of WAITA comes to: done with its flags, or waiting as `w` says for a write or the deadline (R187). -/
def waitaEnd (o : Waita) (c : Ctx) (m : LaneMask) (sc : Scope) (held : LaneMask) (w : Nat → WaitCond) (s : State) : Eff :=
  let dl := c.waitDeadline s.time (c.w.sr o.d.toNat)
  let flags (timed : Bool) : Eff :=
    (Eff.ok (s.modW c fun w => w.setCC o.h.ccSet m fun l =>
      { n := false, z := held.getLsbD l.val, c := false, v := timed })).acquire c o.ord sc
  if held == m then flags false
  else if dl ≤ s.time then flags true
  else .wait .waitAddress (w dl) (s.modFrag c.ref fun f => { f with deadline := some dl })

/-- Requests of the fragment for the words of a WAITA in another device's memory (`grp` is 1). -/
def State.probes (s : State) (c : Ctx) : List Req :=
  s.reqs.filter fun q => q.block == c.ref.block && q.warp == c.ref.warp && q.sel == c.ref.sel && q.grp == 1

/-- A word read at its slice: the warp's horizons take its write completion time, and the core's own copy its value. -/
def State.readWord (s : State) (c : Ctx) (a : Attr) (pa n : Nat) : State × Nat :=
  let (s, v) := s.attrRead a pa n
  let t := if a.stable then 0 else s.wctAt a.target pa
  ((s.modW c fun w => w.foldRead a t).refresh c.b.core a.target (lineKey a.target pa), v)

/-- WAITA on global words: every lane is translated, the reads follow the requests of the quad's port to the lines, and a
word of another device comes back over the link. The words' slices watch them; with no monitor free, or a word of another device, they
are read again after 1,000 ns (R283). -/
def waitaGlobal (o : Waita) (sc : Scope) (c : Ctx) (m : LaneMask) (s : State) : Eff :=
  let n := o.width.bytes
  let addr := gAddr c.w o.a o.off.toInt n
  match misaligned c m n addr with
  | some t => .trap t s
  | none =>
    let dl := c.waitDeadline s.time (c.w.sr o.d.toNat)
    let s := s.modFrag c.ref fun f => { f with deadline := some dl }
    let r := lockLanes addr c m s
    match r.2.1 with
    | e :: es => failLanes c .rd m (e :: es) s r.1
    | [] =>
      let s := r.1
      let far := r.2.2.filter fun x => match x.2.2.target with | .remote _ => true | _ => false
      let mine := s.probes c
      if mine.any fun q => !q.valueBack then .wait .waitAddress (.loadsBefore s.nextReq) s
      else if r.2.2.any fun x => !(s.portQueue (s.quadOf c.b.core) (lineKey x.2.2.target x.2.1)).isEmpty then
        .wait .waitAddress (.deadline (s.time + 1)) s
      else if mine.isEmpty && !far.isEmpty then
        .wait .waitAddress (.loadsBefore (s.nextReq + far.length))
          (far.foldl (fun s x => s.send { baseReq s c x.1 .read (addr x.1) x.2.1 x.2.2 n with grp := 1 }) s)
      else
        let s := { s with reqs := s.reqs.filter fun q => !mine.contains q }
        let b (l : Lane) : Nat := c.w.data o.b.toNat n l
        let (s, held, ws) := r.2.2.foldl (fun (st : State × LaneMask × List Watch) x =>
          let (s, v) := match x.2.2.target, mine.find? (fun q => q.lane == x.1.val) with
            | .remote _, some q => (st.1, q.value.toNat)
            | _, _ => st.1.readWord c x.2.2 x.2.1 n
          let w : Watch := ⟨x.2.2.target, x.2.1, x.2.2.home, n, v, s.wctAt x.2.2.target x.2.1⟩
          (s, if WaitCmp.holds o.cmp n v (b x.1) then st.2.1 ||| (1#32 <<< x.1.val) else st.2.1,
            if st.2.2.contains w then st.2.2 else st.2.2 ++ [w])) (s, 0, [])
        waitaEnd o c m sc held (fun dl =>
          if far.isEmpty && s.monitorsFree ws then .monitor ws dl else .deadline (min dl (s.time + 1000))) s

/-- WAITA on scratchpad words, those of a bank in FIFO mode as the bank's bytes. (DEDUCED, unsafe: notes/assumptions/76.md). -/
def waitaScratch (o : Waita) (sreg : Bool) (c : Ctx) (m : LaneMask) (s : State) : Eff :=
  let n := o.width.bytes
  let addr := pAddr c.w o.a sreg o.off.toInt n
  match misaligned c m n addr with
  | some t => .trap t s
  | none => match outOfBounds c m n .scratch addr with
    | some t => .trap t s
    | none =>
      let held := m &&& maskOf fun l => WaitCmp.holds o.cmp n (c.b.read (addr l) n) (c.w.data o.b.toNat n l)
      waitaEnd o c m .core held (.scratch ((lanesOf m).map fun l => (addr l, n, c.b.read (addr l) n))) s

def waitaEff (o : Waita) : Ctx → LaneMask → State → Eff :=
  match o.space with
  | .global sc => waitaGlobal o sc
  | .scratch k => waitaScratch o k

def execWaita (o : Waita) (s : State) : Host.Outcome State Fault Refusal := issue (.waita o) (waitaEff o) s

/-! ### MST -/

/-- The lanes whose store fails at a receiver (R190). -/
def mstFails (s : State) (c : Ctx) (m : LaneMask) (n : Nat) (addr : Lane → Nat) (i : Nat) : LaneMask :=
  match s.receiver c.b i with
  | none => m
  | some b => m &&& maskOf fun l => decide (b.scrSize < addr l + n) || b.fifoIn (addr l) n

/-- MST (R190). -/
def mstEff (o : Xm) (c : Ctx) (m : LaneMask) (s : State) : Eff :=
  let n := o.width.bytes
  let addr := pAddr c.w o.a false o.off.toInt n
  match misaligned c m n addr with
  | some t => .trap t s
  | none =>
    let cores := (List.range 16).filter (c.w.sr o.d.toNat).getLsbD
    let bad := cores.filter fun i => mstFails s c m n addr i != 0
    if bad != [] then
      let lanes := bad.foldl (fun k i => k ||| mstFails s c m n addr i) 0
      let info := bad.foldl (fun k i => k ||| (1#32 <<< i)) 0
      .trap (c.trap 7 info (BitVec.ofNat 64 (((lanesOf lanes).head?.map addr).getD 0)) lanes) s
    else withRelease c o.ord o.scope s fun s =>
      .ok (cores.foldl (fun s i => match s.receiver c.b i with
        | none => s
        | some b => (s.modBlock b.uid fun b => (lanesOf m).foldl (fun b l => b.write (addr l) n (c.w.data o.b.toNat n l)) b).spoilLanes
            b.uid n addr m) s)

def execMst (o : Xm) (s : State) : Host.Outcome State Fault Refusal := issue (.mst o) (mstEff o) s

/-! ### L1INV -/

/-- L1INV (R249); it waits as in a fence. (DEDUCED, unsafe: notes/assumptions/73.md). -/
def l1invEff (o : OpAB) (c : Ctx) (_ : LaneMask) (s : State) : Eff :=
  if !s.condMet c .warpQuiet then .wait .waitFence .warpQuiet s
  else
    let a := (c.w.sp (o.a.toNat - 1)).toNat % 2 ^ 56
    let n := (c.w.sr o.b.toNat).toNat
    let meets (v : Nat) : Bool := decide (n != 0 ∧ v < a + n ∧ a < v + 128)
    .ok (s.dropLines c.b.core fun l => l.asid == c.l.asid && (meets (128 * l.vline) || meets (128 * l.vline + 2 ^ 56)))

def execL1inv (o : OpAB) (s : State) : Host.Outcome State Fault Refusal := issue (.l1inv o) (l1invEff o) s

end Sys2Proof.Machine
end

