-- ==== Sys2Proof/Machine/Slices.lean ====
section
/-! DEFINITION. What happens to a request after its issue: the events at the slices (R184, R185, R262, R268, R269), the
results and times that come back (R62, R177, R270), deliveries (R182), the end of a release action (R186), and the wake-ups
of waiting fragments (R28, R187, R283). -/

namespace Sys2Proof.Machine

/-! ### Requests at their slice -/

def State.req? (s : State) (id : Nat) : Option Req := s.reqs.find? (·.id == id)

/-- Remove a request. -/
def State.dropReq (s : State) (id : Nat) : State := { s with reqs := s.reqs.filter (·.id != id) }

/-- The line is owned by a slice of this device. -/
def Req.here (q : Req) : Bool := match q.attr.target with | .remote _ => false | _ => true

/-- A request of another core of the quad, or an atomic of this one, to the line comes after a request at the port: the
copy it would fetch is not kept (R262 step 1, R326). -/
def State.supersededCopy (s : State) (q : Req) : Bool :=
  s.reqs.any fun x => x.quad == q.quad && x.line == q.line && x.st == .queued && decide (q.id < x.id) &&
    (match x.kind with
    | .write => x.core != q.core
    | .atomic _ | .sc => true
    | _ => false)

/-- Set or clear a lane's reservation (R185). (DEDUCED, safe: notes/assumptions/20.md). -/
def State.reserve (s : State) (q : Req) (r : Option (Target × Nat)) : State :=
  s.modWarp q.block q.warp fun w => { w with resv := vset w.resv q.lane r }

/-- The requests of the instruction that sent a request. -/
def State.sisters (s : State) (q : Req) : List Req := s.reqs.filter fun x => x.block == q.block && x.warp == q.warp && x.ins == q.ins

/-- What a failed request reports: its cause, address and XINFO (R335). -/
def Req.failure (q : Req) : Option (Nat × Nat × Word) :=
  match q.st with
  | .failed cause info => some (cause.toNat, if cause == 0x0B then q.va / 32 * 32 else q.va, info)
  | _ => none

/-- A fragment is to take the trap of its failed lanes, with the lanes of the same instruction that a replayable fault had left
(R336). (DEDUCED, unsafe: notes/assumptions/37.md). -/
def Frag.failed (f : Frag) (ins : Nat) (lanes : LaneMask) (t : TrapInfo) : Frag :=
  if f.mask &&& lanes == 0 || f.held.isSome then f
  else
    let left := match f.replay with
      | some (.mem _ _ ls _ n) | some (.reissue _ ls _ n) => if n == ins then ls else 0
      | _ => 0
    { f with held := some { t with mask := (f.mask &&& lanes) ||| left }
             replay := if left == 0 then f.replay else none
             st := if f.st == .parkedJoin || f.st == .waitConfirm then f.st else .ready }

/-- The loads of an instruction that a stop has cancelled are not issued again (R316, R336). -/
def State.forgetCancelled (s : State) (q : Req) : State :=
  let hit (x : Req) : Bool := x.warp == q.warp && x.ins == q.ins
  let gone := match s.block? q.block with | some b => b.reissue.filter hit | none => []
  if gone.isEmpty then s
  else gone.foldl State.fill (s.modBlock q.block fun b => { b with reissue := b.reissue.filter fun x => !hit x })

/-- Once no request of an instruction is on its way, the failed ones go: their registers become full, and the fragment is to take one
trap for all of them (R336). (DEDUCED, unsafe: notes/assumptions/37.md). -/
def State.settle (s : State) (q : Req) : State :=
  let all := s.sisters q
  let bad := sortBy (·.lane) (all.filter fun x => x.failure.isSome)
  if all.any (fun x => x.st == .queued) then s
  else match bad.find? fun x => !x.quiet && !x.drop with
  | none => (bad.foldl (fun s x => s.dropReq x.id) s |> fun s => bad.foldl State.fill s)
  | some x =>
    let (cause, addr, info) := x.failure.getD (0, 0, 0)
    let lanes := (bad.filter fun x => !x.quiet && !x.drop).foldl (fun m y => m ||| (1#32 <<< y.lane)) (0 : LaneMask)
    let t : TrapInfo := ⟨cause, BitVec.ofNat 64 addr, lanes, info, x.pc⟩
    let hit (f : Frag) : Frag := f.failed x.ins lanes t
    let s := s.modWarp q.block q.warp fun w => match x.sel with
      | .path e k =>
        if w.specs.any fun p => p.entry == e && p.since ≤ x.id then w.modFrag hit (.path e k)
        else { w with split := w.split.map (Option.map hit) }
      | .entry _ => { w with split := w.split.map (Option.map hit) }
    bad.foldl State.fill (bad.foldl (fun s x => s.dropReq x.id) (s.forgetCancelled x))

/-- A request fails with a cause (R342, R377, R379, R380): a prefetch is skipped; another's instruction traps once its other lanes
have been performed (R336). -/
def State.failReq (s : State) (q : Req) (cause : BitVec 8) (info : Word) : State :=
  if q.pref then s.dropReq q.id else (s.modReq q.id fun x => { x with st := .failed cause info }).settle q

/-- A request is next at its slice. -/
def State.atSlice (s : State) (q : Req) : Bool := q.st == .queued && q.here && s.first q

/-- Perform a request at its slice: its event with the checks every one of them makes. (DESIGN CHOICE, unsafe: notes/assumptions/63.md). -/
def performAt (id : Nat) (kindOk : ReqKind → Bool) (reads : Bool) (s : State) (k : Req → State) :
    Host.Outcome State Fault Refusal :=
  match s.req? id with
  | none => .fault .noSuchObject
  | some q =>
    if !(kindOk q.kind && s.atSlice q) then .fault .notEnabled
    else match if reads then s.badAt q.attr.target q.attr.tier q.pa else s.lostAt q.attr.tier q.pa with
      | some i => .next (s.failReq q 0x0B i)
      | none => .next ((k q).settle q)

/-- SLICE_LEASE_REQUEST (R268, R269): the value and the line's write completion time go back, and the line is filled under
a lease; a stable page's without one (R286). The older copies go before memory is read (R326). -/
def leaseEff (s : State) (q : Req) : State :=
  let t := q.attr.target
  let s := s.removeOlder q.core q.line
  let wct := if q.attr.stable then 0 else s.wctAt t q.pa
  let (s, v) := s.attrRead q.attr q.pa q.bytes
  let (s, expiry) := if q.attr.stable then (s, none)
    else let r := s.grant q.line (leaseNs q.attr.lease) (some q.die); (r.1, some r.2)
  let s := if s.supersededCopy q then s
    else s.install q.core ⟨q.asid, q.va / 128, q.line, { q.attr with undef := s.undefAt q.attr q.pa 1 }, s.coreBytes q.core t q.line, expiry, wct, false, 0,
      s.badSectors q.core q.attr q.line⟩
  let s := if q.lr then s.reserve q (some (t, q.pa / 32)) else s
  if q.pref then s.dropReq q.id
  else s.modReq q.id fun q => { q with st := .performed, value := BitVec.ofNat 128 v, wct := wct }

def execSliceLeaseRequest (id : Nat) (s : State) : Host.Outcome State Fault Refusal :=
  performAt id (fun k => k == .fill) true s (leaseEff s)

/-- A read without a lease is performed at its slice (R268). -/
def State.readHere (s : State) (q : Req) : State :=
  let t := q.attr.target
  let wct := if q.attr.stable then 0 else s.wctAt t q.pa
  let (s, v) := s.attrRead q.attr q.pa q.bytes
  let s := s.refresh q.core t q.line
  let s := if q.lr then s.reserve q (some (t, q.pa / 32)) else s
  s.modReq q.id fun q => { q with st := .performed, value := BitVec.ofNat 128 v, wct := wct }

/-- SLICE_READ (R268); a prefetch brings the line into the L2 (R188). -/
def sliceReadEff (s : State) (q : Req) : State :=
  if q.pref then (s.cached q.attr q.pa q.bytes).dropReq q.id else s.readHere q

def execSliceRead (id : Nat) (s : State) : Host.Outcome State Fault Refusal :=
  performAt id (fun k => match k with | .read | .deliver _ _ => true | _ => false) true s (sliceReadEff s)

/-- The core's own copies carry the time of its write (R269, R276). -/
def State.ownTime (s : State) (q : Req) (wdev : Nat) : State :=
  s.modCore q.core fun k => { k with lines := k.lines.map fun l =>
    if l.pline == q.line && !l.loc then { l with wct := max l.wct wdev } else l }

/-- The last store of an instruction that covers a sector whole makes it good (R342). -/
def State.healed (s : State) (q : Req) : State :=
  if q.whole && !(s.sisters q).any (fun x => x.id != q.id && x.st == .queued && x.attr.target == q.attr.target && x.pa / 32 == q.pa / 32)
  then s.goodSector q.attr.target (q.pa / 32 * 32) 32 else s

/-- SLICE_WRITE (R268). -/
def sliceWriteEff (s : State) (q : Req) : State :=
  let (s, wdie, wdev) := s.sliceWrite q.attr.target q.pa (leBytes q.bytes q.data.toNat) (some q.die)
  ((s.healed q).ownTime q wdev).modReq q.id fun q => { q with st := .performed, wdie := wdie, wdev := wdev }

def execSliceWrite (id : Nat) (s : State) : Host.Outcome State Fault Refusal :=
  performAt id (fun k => k == .write) false s (sliceWriteEff s)

/-- The lane holds a reservation on the granule (R185). -/
def State.holdsResv (s : State) (q : Req) : Bool :=
  match s.warp? q.block q.warp with
  | none => false
  | some w => vget none w.resv q.lane == some (q.attr.target, q.pa / 32)

/-- SLICE_ATOMIC (R184): one indivisible read-modify-write, or the store of SC if its lane's reservation is held (R185). (DEDUCED, safe: notes/assumptions/20.md). -/
def sliceAtomicEff (s : State) (q : Req) : State :=
  let t := q.attr.target
  match q.kind with
  | .atomic op =>
    let (s, old) := s.attrRead q.attr q.pa q.bytes
    let wct := s.wctAt t q.pa
    let new := atomNew op q.bytes old q.data.toNat q.arg2.toNat
    let (s, wdie, wdev) := s.sliceWrite t q.pa (leBytes q.bytes new) (some q.die)
    (s.modReq q.id fun (q : Req) => { q with
      st := .performed, value := BitVec.ofNat 128 old, wct := wct, wdie := wdie, wdev := wdev }).refresh q.core t q.line
  | _ =>
    let ok := s.holdsResv q
    let s := s.reserve q none
    if ok then
      let (s, wdie, wdev) := s.sliceWrite t q.pa (leBytes q.bytes q.data.toNat) (some q.die)
      (s.modReq q.id fun (q : Req) => { q with st := .performed, scOk := true, wdie := wdie, wdev := wdev }).refresh q.core t q.line
    else s.modReq q.id fun q => { q with st := .performed }

def execSliceAtomic (id : Nat) (s : State) : Host.Outcome State Fault Refusal :=
  performAt id (fun k => match k with | .atomic _ | .sc => true | _ => false) true s (sliceAtomicEff s)

/-! ### What comes back -/

/-- Write a lane's value to the warp's registers, and to the checkpoints of branches predicted after its issue (R171). -/
def Warp.landLane (w : Warp) (q : Req) : Warp :=
  match q.dst with
  | none => w
  | some d =>
    let l : Lane := Fin.ofNat 32 q.lane
    let put (w : Warp) : Warp := w.setData d q.bytes l q.value.toNat q.sx
    let undo (f : Frag) : Frag :=
      { f with undo := f.undo.map fun u => if q.id < u.since then { u with v := (put { w with v := u.v }).v } else u }
    { put w with
      specs := w.specs.map fun p => if q.id < p.since then { p with v0 := (put { w with v := p.v0 }).v } else p
      split := w.split.map (Option.map undo) }

/-- LOAD_RESULT (R62, R177, R184, R185): the lane's value is written, the write completion time folded into the horizons
(R270), and the destination becomes full with the last lane's. The outcome of SC waits for its instruction. (DEDUCED, safe: notes/assumptions/20.md). -/
def loadResultEff (s : State) (q : Req) : State :=
  let s := (s.modWarp q.block q.warp fun w =>
    let w := if q.drop then w else w.landLane q
    if q.loc then w
    else if q.kind == .sc then (if q.scOk then w.foldWrite q.attr q.wdie q.wdev else w)
    else w.foldRead q.attr q.wct).fill q
  let keep := q.grp == 1 || (match q.kind with | .sc => true | .atomic _ => !q.timesBack | _ => false)
  if keep then s.modReq q.id fun x => { x with valueBack := true, timesBack := x.timesBack || x.kind == .sc }
  else s.dropReq q.id

def execLoadResult (id : Nat) (s : State) : Host.Outcome State Fault Refusal :=
  match s.req? id with
  | none => .fault .noSuchObject
  | some q =>
    if q.st == .performed && !q.valueBack && (match q.kind with | .write | .deliver _ _ => false | _ => true) then
      .next (loadResultEff s q)
    else .fault .notEnabled

/-- An atomic that returns no value, RED (R184). -/
def Req.isRed (q : Req) : Bool := q.dst.isNone && (match q.kind with | .atomic _ => true | _ => false)

/-- WRITE_TIMES_RETURN (R268, R270); with a RED's come the time of its load (R184). -/
def writeTimesEff (s : State) (q : Req) : State :=
  let s := if q.loc then s else s.modWarp q.block q.warp fun w =>
    let w := w.foldWrite q.attr q.wdie q.wdev
    if q.isRed then w.foldRead q.attr q.wct else w
  if q.kind == .write || q.valueBack then s.dropReq q.id else s.modReq q.id fun x => { x with timesBack := true }

def execWriteTimesReturn (id : Nat) (s : State) : Host.Outcome State Fault Refusal :=
  match s.req? id with
  | none => .fault .noSuchObject
  | some q =>
    if q.st == .performed && !q.timesBack && (match q.kind with | .write | .atomic _ => true | _ => false) then
      .next (writeTimesEff s q)
    else .fault .notEnabled

/-- LDA_DELIVERY (R182): the bytes land in the scratchpad, the barrier object counts them, and the write completion time is
folded (R191: `State.deposit`). -/
def ldaDeliveryEff (s : State) (q : Req) (off obj : Nat) : State :=
  let s := s.deposit q.block off (leBytes q.bytes q.value.toNat) fun _ => q.epoch
  let s := if q.drop then s else s.deliver q.block obj q.bytes
  (s.modWarp q.block q.warp fun w => w.foldRead q.attr q.wct).dropReq q.id

def execLdaDelivery (id : Nat) (s : State) : Host.Outcome State Fault Refusal :=
  match s.req? id with
  | none => .fault .noSuchObject
  | some q => match q.kind with
    | .deliver off obj => if q.st == .performed then .next (ldaDeliveryEff s q off obj) else .fault .notEnabled
    | _ => .fault .notEnabled

/-! ### Wake-ups -/

/-- A fragment that waits becomes ready, to try its instruction again. -/
def Frag.wake (f : Frag) : Frag := { f with st := .ready, cond := .never }

/-- An event that wakes a fragment under a condition. -/
def wakeIf (r : FragRef) (ok : Ctx → Bool) (g : Frag → Frag) (s : State) : Host.Outcome State Fault Refusal :=
  match s.ctx? r with
  | none => .fault .noSuchObject
  | some c => if ok c then .next (s.modFrag r g) else .fault .notEnabled

/-- A wait that its condition alone ends. -/
def WaitCond.plain : WaitCond → Bool
  | .never | .release _ | .deadline _ | .sumpRoom | .address | .monitor _ _ | .scratch _ _ => false
  | _ => true

/-- A fragment that waits becomes ready; a BOWAIT's wait is pending until it has tried again (R198). -/
def Frag.wakeWait (f : Frag) : Frag :=
  { f with st := .ready, cond := match f.cond with | .object o bit => .object o bit | _ => .never }

/-- FRAGMENT_WAKE (R28, R200, R238). -/
def execFragmentWake (r : FragRef) (s : State) : Host.Outcome State Fault Refusal :=
  wakeIf r (fun c => c.f.st != .ready && c.f.st != .waitConfirm && c.f.cond.plain && s.condMet c c.f.cond) Frag.wakeWait s

/-- FENCE_RELEASE_END (R186, R271, R289): the release action has ended, and the fragment goes on past it. -/
def execFenceReleaseEnd (r : FragRef) (s : State) : Host.Outcome State Fault Refusal :=
  wakeIf r (fun c => c.f.st == .waitFence && (match c.f.cond with | .release sc => s.condMet c (.release sc) | _ => false))
    (fun f => { f.wake with released := true }) s

/-- A fragment waiting on an address in WAITA. -/
def Ctx.onAddress (c : Ctx) : Bool :=
  c.f.st == .waitAddress && (match c.f.cond with | .deadline _ | .monitor _ _ | .scratch _ _ => true | _ => false)

/-- WAITA_WAKE (R187, R283): a monitor or the core's own writes wake it; a wake-up may come without a qualifying write. -/
def execWaitaWake (r : FragRef) (s : State) : Host.Outcome State Fault Refusal :=
  wakeIf r Ctx.onAddress Frag.wake s

/-- WAITA_WAKE by a write to a watched word, which the device makes by itself (R187, R283). -/
def waitaWritten (r : FragRef) (s : State) : Host.Outcome State Fault Refusal :=
  wakeIf r (fun c => c.onAddress && (match c.f.cond with | .deadline _ => false | k => s.condMet c k)) Frag.wake s

/-- WAITA_TIMEOUT (R187): the deadline has come. -/
def execWaitaTimeout (r : FragRef) (s : State) : Host.Outcome State Fault Refusal :=
  wakeIf r (fun c => c.onAddress && (match c.f.deadline with | some t => decide (t ≤ s.time) | none => false)) Frag.wake s

/-- WAITA_REREAD (R283): the time of the next reading has come. -/
def execWaitaReread (r : FragRef) (s : State) : Host.Outcome State Fault Refusal :=
  wakeIf r (fun c => c.onAddress && s.condMet c c.f.cond) Frag.wake s

end Sys2Proof.Machine
end

