-- ==== Sys2Proof/Machine/Sync.lean ====
section
/-! DEFINITION. Hardware barriers and barrier objects (R192-R200) with the barrier network's events (R195). -/

namespace Sys2Proof.Machine

/-! ### Hardware barriers -/

/-- The barrier a register value names at a scope; none outside the ranges of R192. -/
def barIdOf (sc : Scope) (a : Word) : Option BarId :=
  match sc with
  | .core => if a.toNat < 16 then some ⟨.core, a.toNat, 0⟩ else none
  | .pod => if fieldOf a 3 5 = 0 then some ⟨.pod, fieldOf a 0 3, fieldOf a 8 24⟩ else none
  | _ => if a.toNat < 8 then some ⟨sc, a.toNat, 0⟩ else none

/-- A group belongs to a launch, or at pod scope to a key (R194). -/
def NetGroup.of (g : NetGroup) (lid : Nat) (id : BarId) : Bool :=
  if id.scope == .pod then g.pod && g.owner == id.key else !g.pod && g.owner == lid

/-- An instance of one scope lies inside an instance of another, or is it. -/
def instInside (sc : Scope) (i : Nat) (sc' : Scope) (i' : Nat) : Bool :=
  match sc, sc' with
  | .quad, .quad | .die, .die => i == i'
  | .quad, .die => i / 20 == i'
  | .quad, .dev | .quad, .pod | .die, .dev | .die, .pod | .dev, .dev | .dev, .pod | .pod, .pod => true
  | _, _ => false

/-- Record an arrival of lanes of a warp at a barrier (R193). -/
def Block.arrive (b : Block) (id : BarId) (wi : Nat) (m : LaneMask) : Block :=
  let bars := if b.bars.any (·.bar == id) then b.bars else b.bars ++ [{ bar := id }]
  { b with bars := updFirst (·.bar == id) (fun a => { a with lanes := tput a.lanes wi (tget 0 a.lanes wi ||| m) }) bars }

/-- Lanes of the fragment have arrived in the current generation already. -/
def Block.hasArrived (b : Block) (id : BarId) (wi : Nat) (m : LaneMask) : Bool :=
  b.bars.any fun a => a.bar == id && tget 0 a.lanes wi &&& m != 0

/-- BARV (R193, R196); a fragment some of whose lanes have arrived already waits as a whole. (DEDUCED, unsafe: notes/assumptions/77.md). -/
def barvEff (o : Xs) (c : Ctx) (m : LaneMask) (s : State) : Eff :=
  match barIdOf o.scope (c.w.sr o.a.toNat) with
  | none => .trap (c.trap 0x0C 1) s
  | some id => match s.barGen c.b c.l.id id with
    | none => .trap (c.trap 0x0C 5) s
    | some gen =>
      if c.b.hasArrived id c.ref.warp m then .wait .waitBarrier (.barGen id gen) s
      else withRelease c o.ord o.scope s fun s =>
        let s := s.modW c fun w => w.setS o.d.toNat (if gen then 1 else 0)
        .ok (s.modBlock c.ref.block fun b => (b.arrive id c.ref.warp m).checkBars)

def execBarv (o : Xs) (s : State) : Host.Outcome State Fault Refusal := issue (.barv o) (barvEff o) s

/-- BWAIT (R193, R196). -/
def bwaitEff (o : Xs) (c : Ctx) (_ : LaneMask) (s : State) : Eff :=
  let bit := (c.w.sr o.b.toNat).getLsbD 0
  match barIdOf o.scope (c.w.sr o.a.toNat) with
  | none => .trap (c.trap 0x0C 1) s
  | some id => match s.barGen c.b c.l.id id with
    | none => .trap (c.trap 0x0C 5) s
    | some gen =>
      if gen == bit then .wait .waitBarrier (.barGen id bit) s else (Eff.ok s).acquire c o.ord o.scope

def execBwait (o : Xs) (s : State) : Host.Outcome State Fault Refusal := issue (.bwait o) (bwaitEff o) s

/-- BGRP (R194), its misuses in the order the rule gives. (DEDUCED, unsafe: notes/assumptions/67.md). -/
def bgrpEff (o : Xs) (c : Ctx) (_ : LaneMask) (s : State) : Eff :=
  let n := (c.w.sr o.b.toNat).toNat
  match barIdOf o.scope (c.w.sr o.a.toNat) with
  | none => .trap (c.trap 0x0C 1) s
  | some id =>
    if n = 0 || 65535 < n then .trap (c.trap 0x0C 1) s
    else if !(c.l.desc.coop || c.l.desc.chain) then .trap (c.trap 0x0C 3) s
    else
      let inst := s.instOf o.scope c.b.core
      let meets (g : NetGroup) : Bool := g.of c.l.id id && g.bar.g == id.g &&
        (g.inst == s.instOf g.bar.scope c.b.core || instInside g.bar.scope g.inst o.scope inst)
      match s.groups.find? meets with
      | none =>
        .ok { s with groups := s.groups ++ [⟨o.scope == .pod, if o.scope == .pod then id.key else c.l.id, id, inst, n, [],
                                           false, [c.ref.block]⟩] }
      | some g =>
        if g.bar.scope != o.scope || g.expected != n then .trap (c.trap 0x0C 2) s
        else if g.members.contains c.ref.block then .ok s
        else if g.expected ≤ g.members.length then .trap (c.trap 0x0C 4) s
        else .ok { s with groups := updFirst meets (fun g => { g with members := g.members ++ [c.ref.block] }) s.groups }

def execBgrp (o : Xs) (s : State) : Host.Outcome State Fault Refusal := issue (.bgrp o) (bgrpEff o) s

/-! ### The barrier network -/

/-- Members of a pod group on other devices whose arrival is still to come over the link (R291): those beyond the local members. -/
def State.awaitsPeers (s : State) (g : NetGroup) : Bool :=
  g.pod && s.podUp && decide ((g.arrived.filter fun b => !g.members.contains b).length + g.members.length < g.expected)

/-- The device of a member that is no block of this one: the number its arrival bears ends in it. (DESIGN CHOICE, safe: notes/assumptions/96.md). -/
def peerDev (b : Nat) : Nat := b % 1024

/-- A group's block has arrived at its barrier in the current generation (R193); at pod scope a block of another device, one that can be
reached (R380), has no number here. -/
def State.groupArrived (s : State) (g : NetGroup) (uid : Nat) : Bool :=
  match s.block? uid with
  | none => s.awaitsPeers g && !s.env.unreachable.contains (peerDev uid)
  | some b => g.members.contains uid && b.bars.any fun a => a.bar == g.bar && a.here

/-- BARRIER_ARRIVAL (R195, R291): a member block's arrival reaches the network; at pod scope also that of a block of
another device, while the link is in service (R381). -/
def execBarrierArrival (g b : Nat) (s : State) : Host.Outcome State Fault Refusal :=
  match s.groups[g]? with
  | none => .fault .noSuchObject
  | some x =>
    if x.arrived.contains b || x.expected ≤ x.arrived.length || !s.groupArrived x b then .fault .notEnabled
    else
      .next { s with groups := updAt (fun x => { x with arrived := x.arrived ++ [b] }) g s.groups }

/-- A member forgets its arrivals of the generation that completed. -/
def Block.clearBar (b : Block) (id : BarId) : Block :=
  { b with bars := updFirst (·.bar == id) (fun a => { a with lanes := [], here := false }) b.bars }

/-- A member of a pod group cannot be reached (R380, R381): any on another device while the link is out of service, else one of a device
that has left a request without an answer. -/
def State.losesMember (s : State) (g : NetGroup) : Bool :=
  g.pod && ((!s.podUp && decide (g.members.length < g.expected)) ||
    g.arrived.any fun b => !g.members.contains b && s.env.unreachable.contains (peerDev b))

/-- BARRIER_COMPLETE (R195): E blocks have arrived; the generation bit toggles, arrived returns to 0. A pod group with members that
cannot be reached never completes (R380). -/
def execBarrierComplete (g : Nat) (s : State) : Host.Outcome State Fault Refusal :=
  match s.groups[g]? with
  | none => .fault .noSuchObject
  | some x =>
    if x.arrived.length < x.expected || s.losesMember x then .fault .notEnabled
    else
      let s := { s with groups := updAt (fun x => { x with gen := !x.gen, arrived := [] }) g s.groups }
      .next { s with blocks := s.blocks.map fun b => if x.members.contains b.uid then b.clearBar x.bar else b }

/-! ### Barrier objects -/

/-- An operation on the barrier object that s A names, after the checks of R197. -/
def withObj (o : Xs) (c : Ctx) (s : State) (k : Nat → BarObj → State → Eff) : Eff :=
  let off := (c.w.sr o.a.toNat).toNat
  match objCheck c off with
  | some t => .trap t s
  | none =>
    let s := s.objTouch c.ref.block off
    k off ((s.blockOf c).obj off) s

/-- Store an object after an operation, with its flip check (R197). -/
def State.putObj (s : State) (c : Ctx) (off : Nat) (x : BarObj) : State := s.modBlock c.ref.block fun b => b.putFlip off x

/-- Observing an operation's completion folds its write times (R206, R270). -/
def Warp.observe (w : Warp) (o : EngOp) : Warp :=
  { w with hdie := max w.hdie o.wdie, hdev := max w.hdev o.wdev, hpod := max w.hpod o.wpod }

/-- An acquiring observation of a phase's end folds the times of the writes whose bytes that phase has counted (R200, R206). -/
def State.observeObj (s : State) (c : Ctx) (off : Nat) : State :=
  let t : PhaseTimes := tget {} c.b.phases off
  s.modW c fun w => { w with hdie := max w.hdie t.endDie, hdev := max w.hdev t.endDev, hpod := max w.hpod t.endPod }

/-- BOINIT (R198). -/
def boinitEff (o : Xs) (c : Ctx) (_ : LaneMask) (s : State) : Eff :=
  withObj o c s fun off _ s =>
    let n := (c.w.sr o.b.toNat).toNat
    if n = 0 || 65535 < n then .trap (c.trap 0x0C 7) s
    else .ok ((s.modBlock c.ref.block fun b => { b with phases := tdel b.phases off }).putObj c off ⟨false, n, n, 0, 0⟩)

def execBoinit (o : Xs) (s : State) : Host.Outcome State Fault Refusal := issue (.boinit o) (boinitEff o) s

/-- BOARV (R199). -/
def boarvEff (o : Xs) (c : Ctx) (_ : LaneMask) (s : State) : Eff :=
  withObj o c s fun off x s =>
    if x.parr = 0 then .trap (c.trap 0x0C 9) s
    else withRelease c o.ord .core s fun s =>
      .ok ((s.modW c fun w => w.setS o.d.toNat (if x.phase then 1 else 0)).putObj c off { x with parr := x.parr - 1 })

def execBoarv (o : Xs) (s : State) : Host.Outcome State Fault Refusal := issue (.boarv o) (boarvEff o) s

/-- BOWAIT (R200). -/
def bowaitEff (o : Xs) (c : Ctx) (_ : LaneMask) (s : State) : Eff :=
  withObj o c s fun off x s =>
    let bit := (c.w.sr o.b.toNat).getLsbD 0
    let s := s.putObj c off x
    if x.phase == bit then .wait .waitObject (.object off bit) s
    else .ok (if o.ord == .acq then s.observeObj c off else s)

def execBowait (o : Xs) (s : State) : Host.Outcome State Fault Refusal := issue (.bowait o) (bowaitEff o) s

/-- BOTEST (R200). -/
def botestEff (o : Xs) (c : Ctx) (m : LaneMask) (s : State) : Eff :=
  withObj o c s fun off x s =>
    let diff := x.phase != (c.w.sr o.b.toNat).getLsbD 0
    let s := (s.modW c fun w => w.setCC o.h.ccSet m fun _ => { n := false, z := diff, c := false, v := false }).putObj c off x
    .ok (if diff && o.ord == .acq then s.observeObj c off else s)

def execBotest (o : Xs) (s : State) : Host.Outcome State Fault Refusal := issue (.botest o) (botestEff o) s

/-- BOEXP (R198). -/
def boexpEff (o : Xs) (c : Ctx) (_ : LaneMask) (s : State) : Eff :=
  withObj o c s fun off x s =>
    let n := (c.w.sr o.b.toNat).toNat
    if o.next then
      if 2 ^ 31 ≤ x.ebytes + n then .trap (c.trap 0x0C 8) s else .ok (s.putObj c off { x with ebytes := x.ebytes + n })
    else if (2 : Int) ^ 31 ≤ x.pbytes + n then .trap (c.trap 0x0C 8) s
    else .ok (s.putObj c off { x with pbytes := x.pbytes + n })

def execBoexp (o : Xs) (s : State) : Host.Outcome State Fault Refusal := issue (.boexp o) (boexpEff o) s

end Sys2Proof.Machine
end

