-- ==== Sys2Proof/Machine/Engine.lean ====
section
/-! DEFINITION. Engine operations in common: what the engines read and write (R206, R214, R255, R287, R288, R342), issue
(R202-R204), the order within a unit (R205), suspension and faults (R207), cancellation (R211), completion and its
observation (R62, R206), and the handle instructions (R208-R212). -/

namespace Sys2Proof.Machine

/-! ### Reading and writing memory -/

/-- Why an engine cannot go on: a replayable fault, or one that ends its operation; `info` is the progress point unless
given. -/
inductive EngStop where
  | replay (code addr : Nat) (write : Bool)
  | fault (cause : Nat) (addr : DWord) (info : Option Word)
  deriving DecidableEq, Repr

/-- An engine operation with its block and launch. -/
structure Eng where
  b : Block
  l : Machine.Launch
  o : EngOp
  deriving DecidableEq, Repr

def State.eng? (s : State) (id : Nat) : Option Eng := do
  let b ← s.blocks.find? fun b => b.ops.any (·.id == id)
  let o ← b.ops.find? (·.id == id)
  let l ← s.launch? b.lid
  return ⟨b, l, o⟩

/-- The block of an operation as it stands. -/
def State.engBlock (s : State) (e : Eng) : Block := (s.block? e.b.uid).getD e.b

/-- Translate an engine's address (R330, R332): with the fault ring disabled a replayable fault ends the operation. (DEDUCED, unsafe: notes/assumptions/27.md). -/
def State.engXlate (s : State) (e : Eng) (va : Nat) (acc : Acc) : State × Except EngStop (Nat × Attr) :=
  match s.xlate (s.quadOf e.b.core) e.l.asid (va % 2 ^ 56) acc with
  | (s, .ok pa a) => (s, .ok (pa, a))
  | (s, .fault code _) =>
    if code != 9 && s.fq.en then (s, .error (.replay code (va % 2 ^ 56) (acc == .engWr || acc == .engRmw)))
    else (s, .error (.fault code (BitVec.ofNat 64 (va % 2 ^ 56)) none))

/-- An address range cut at 64 KiB boundaries, on fuel. -/
def piecesGo : Nat → Nat → Nat → List (Nat × Nat)
  | 0, _, _ => []
  | f + 1, va, n =>
    let k := 65536 - va % 65536
    if n ≤ k then [(va, n)] else (va, k) :: piecesGo f (va + k) (n - k)

/-- An address range cut at 64 KiB boundaries. (DEDUCED, unsafe: notes/assumptions/27.md). -/
def pieces (va n : Nat) : List (Nat × Nat) := if n = 0 then [] else piecesGo (n / 65536 + 2) va n

/-- Read n bytes of global memory at the slices (R287, R342); nothing is read where n is 0. -/
def State.engRead (s : State) (e : Eng) (va n : Nat) : State × Except EngStop (List Byte) :=
  (pieces va n).foldl (fun (st : State × Except EngStop (List Byte)) p =>
    match st.2 with
    | .error x => (st.1, .error x)
    | .ok bs =>
      match st.1.engXlate e p.1 .engRd with
      | (s, .error x) => (s, .error x)
      | (s, .ok (pa, a)) =>
        match (List.range p.2).find? fun k => (s.badAt a.target a.tier (pa + k)).isSome with
        | some k => (s, .error (.fault 0x0B (BitVec.ofNat 64 ((p.1 + k) % 2 ^ 56 / 32 * 32)) none))
        | none => match s.sendOut a.target .engRd with
          | (s, some e) => (s, .error (.fault e.1 (BitVec.ofNat 64 (p.1 % 2 ^ 56)) none))
          | (s, none) => let (s, x) := s.attrBytes a pa p.2; (s, .ok (bs ++ x))) (s, .ok [])

/-- Update an operation. -/
def State.modOp (s : State) (uid id : Nat) (f : EngOp → EngOp) : State :=
  s.modBlock uid fun b => { b with ops := updFirst (·.id == id) f b.ops }

/-- The times of a write of an operation (R270, R287, R288, R290). -/
def State.opTimes (s : State) (e : Eng) (a : Attr) (wdie wdev : Nat) : State :=
  let k := podMargin a
  s.modOp e.b.uid e.o.id fun o => { o with
    wdie := max o.wdie (wdie + k), wdev := max o.wdev (wdev + k), wpod := max o.wpod wdev
    cdie := max o.cdie (wdie + k), cdev := max o.cdev (wdev + k), cpod := max o.cpod wdev }

/-- Whether an engine's write to a translated address can be performed: its CXL port, or the device it is sent to (R377, R379, R380). -/
def State.engWriteOk (s : State) (va : Nat) (pa : Nat) (a : Attr) : State × Except EngStop Unit :=
  match s.lostAt a.tier pa with
  | some _ => (s, .error (.fault 0x0B (BitVec.ofNat 64 (va % 2 ^ 56 / 32 * 32)) none))
  | none => match s.sendOut a.target .engWr with
    | (s, some e) => (s, .error (.fault e.1 (BitVec.ofNat 64 (va % 2 ^ 56)) none))
    | (s, none) => (s, .ok ())

/-- Write bytes at a translated address as an agent of the issuing core's die (R268, R287): the core's own copies are kept up
with memory, so that what the operation wrote is visible to the block once its completion is observed (R206). A write to
another device goes out over the link, takes a time of that device's own (R290), and leaves no older copy in the core's L1. (DEDUCED, unsafe: notes/assumptions/22.md). -/
def State.engWrite (s : State) (e : Eng) (pa : Nat) (a : Attr) (bs : List Byte) : State :=
  match a.target with
  | .remote d =>
    let (n, s) := s.draw
    let s := s.dropLines e.b.core fun l => decide (lineKey a.target pa ≤ l.pline) && decide (l.pline ≤ lineKey a.target (pa + bs.length - 1))
    ({ s with linkOut := s.linkOut ++ [⟨d, pa, bs⟩] } : State).opTimes e a (s.time + (Config.freeWord n).toNat)
      (s.time + (Config.freeWord n).toNat)
  | t =>
    let (s, wdie, wdev) := s.sliceWrite t pa bs (some (s.dieOf e.b.core))
    ((s.goodSector t pa bs.length).refreshAll e.b.core t pa bs.length).opTimes e a wdie wdev

/-! ### The vault (R214, R255, R298) -/

/-- The byte address of a tensor's element in the vault: the stack is bits from 30 on. -/
def Tensor.addr (t : Tensor) (c : List Nat) : Nat :=
  let lin := (c.zip t.ext).foldr (fun x acc => x.1 + x.2 * acc) 0
  let o := lin * 2 ^ t.size
  if t.place < 8 then t.place * 2 ^ 30 + t.base + o
  else o / 4096 % 8 * 2 ^ 30 + t.base + 4096 * (o / 4096 / 8) + o % 4096

/-- Coordinates with extents lie in the tensor (R203, XINFO 6). -/
def Tensor.holds (t : Tensor) (c e : List Nat) : Bool :=
  ((c.zip e).zip t.ext).all fun x => decide (x.1.1 + x.1.2 ≤ x.2)

/-- Read an element. -/
def State.vaultRead (s : State) (a n : Nat) : Except EngStop (List Byte) :=
  if s.isBad 3 (a / 32 * 32) then .error (.fault 0x0B (BitVec.ofNat 64 (a / 32 * 32)) none)
  else .ok ((List.range n).map fun k => s.vault.get (a + k))

/-- Write an element (R288); one that covers a sector whole makes it good (R342). -/
def State.vaultWrite (s : State) (e : Eng) (a : Nat) (bs : List Byte) : State :=
  ({ s with vault := s.vault.writeBytes a bs
            bad := s.bad.filter fun b => !(b.space == 3 && decide (a ≤ b.at_) && decide (b.at_ + 32 ≤ a + bs.length)) } : State).opTimes
    e {} s.time s.time

/-! ### Issue -/

/-- The writes of the issuing warp that precede an operation have returned their times (R206). -/
def State.engReady (s : State) (e : Eng) : Bool :=
  !s.reqs.any fun q => q.block == e.b.uid && q.warp == e.o.warp && q.writeOpen && decide (q.id < e.o.after)

/-- An operation may go on: pending, not suspended, its block on a core, and nothing of its unit before it (R205); copies
interleave freely. -/
def State.engTurn (s : State) (e : Eng) : Bool :=
  let before (o : EngOp) : Bool := o.status == .pending && opUnit o.kind == opUnit e.o.kind && decide (o.id < e.o.id)
  e.o.status == .pending && e.o.suspend.isNone && e.b.present && s.engReady e &&
  (match opUnit e.o.kind with
  | 1 => true
  | 0 => !e.b.ops.any before
  | _ => !s.blocks.any fun b => b.core == e.b.core && b.present && b.ops.any before)

/-- The tile an operation writes (R62). -/
def OpKind.writes : OpKind → Option Nat
  | .mma o _ _ _ _ => some o.tile.toNat
  | .mdr o _ _ => if o.z then some o.tile.toNat else none
  | .mzr t => some t
  | _ => none

/-- A tile is empty while an operation that writes it is pending (R62). -/
def Block.fillTiles (b : Block) : Block :=
  { b with tileFull := (List.range 8).foldl (fun f t =>
      setBit f t (!b.ops.any fun o => o.status == .pending && o.kind.writes == some t)) 0 }

/-- The value of the handle of operation id: never null, and another for 2^32 - 1 operations on end (R53, R204). (DESIGN CHOICE, unsafe: notes/assumptions/2.md). -/
def handleOf (id : Nat) : DWord := (Config.handleBits id).extractLsb' 32 32 ++ BitVec.ofNat 32 (id % 0xFFFF_FFFF + 1)

/-- How often the modes of the banks of a launch's blocks have changed, by block: an operation's deliveries compare it (R191). -/
def State.bankEpochs (s : State) (lid : Nat) : Table (List Nat) :=
  (s.blocks.filter fun b => b.lid == lid && b.present).map fun b => (b.uid, b.epochs)

/-- The epoch of a block's bank when the operation was issued. -/
def EngOp.wasEpoch (o : EngOp) (uid k : Nat) : Nat := (tget [] o.epochs uid).getD k 0

/-- Bytes an operation delivers to a block's scratchpad (R191). -/
def State.engLand (s : State) (e : Eng) (uid off : Nat) (bs : List Byte) : State := s.deposit uid off bs (e.o.wasEpoch uid)

/-- Start an operation that writes a handle, once a record is free (R204). -/
def startOp (k : OpKind) (h : Nat) (c : Ctx) (s : State) : Eff :=
  if !s.condMet c .opRecord then .wait .waitResource .opRecord s
  else
    let id := s.nextOp
    let o : EngOp := { id := id, handle := handleOf id, hreg := some h, warp := c.ref.warp, pc := c.f.pc, kind := k,
                       after := s.nextReq, epochs := s.bankEpochs c.b.lid }
    let s := { s with nextOp := id + 1 }
    let s := s.modW c fun w => (w.setH h (handleOf id)).mark false (.h, h)
    .ok (s.modBlock c.ref.block fun b => ({ b with ops := b.ops ++ [o] } : Block).fillTiles)

/-- The checks of a scratchpad extent (R203): its bound, then FIFO banks. (DEDUCED, unsafe: notes/assumptions/26.md). -/
def extentCheck (c : Ctx) (off n : Nat) : Option TrapInfo :=
  if c.b.scrSize < off + n then some (c.trap 7 0 (BitVec.ofNat 64 off))
  else if c.b.fifoIn off n then some (c.trap 7 3 (BitVec.ofNat 64 off))
  else none

/-- The alignment and extent of a descriptor or record in scratchpad (R203). -/
def recordCheck (c : Ctx) (off al n : Nat) : Option TrapInfo :=
  if off % al != 0 then some (c.trap 6 (BitVec.ofNat 32 al) (BitVec.ofNat 64 off)) else extentCheck c off n

/-- Engine operand error (R203). -/
def operandError (c : Ctx) (info : Nat) : TrapInfo := c.trap 0x11 (BitVec.ofNat 32 info)

/-- The first trap of a list of checks. -/
def firstTrap (l : List (Option TrapInfo)) : Option TrapInfo := l.findSome? id

/-! ### Suspension, faults and completion -/

/-- Fragments of a block parked on a suspended operation become ready (R207, R211). -/
def Block.unparkHandles (b : Block) : Block :=
  let g (f : Frag) : Frag := match f.replay with
    | some (.handle _ _) => { f.wake with replay := none }
    | _ => f
  { b with warps := b.warps.map fun w => { w with split := w.split.map (Option.map g) } }

/-- Records of a block that 256 newer completed operations have freed (R204). -/
def freeOld (ops : List EngOp) : List EngOp :=
  ops.map fun o =>
    if o.status != .pending &&
        decide (256 ≤ (ops.filter fun x => x.status != .pending && x.handle != 0 && decide (o.id < x.id)).length)
    then { o with freed := true } else o

/-- End an operation (R62, R204, R207, R209, R211): its handle becomes full in every warp that holds it, its tile if no
other operation writes it, and its AMAX update is made (R67, R219, R227). -/
def State.endOp (s : State) (e : Eng) (st : OpStatus) (f : EngOp → EngOp := id) : State :=
  s.modBlock e.b.uid fun b =>
    let o := ((b.ops.find? (·.id == e.o.id)).map f).getD e.o
    let ops := freeOld (updFirst (·.id == e.o.id) (fun _ => { o with status := st, suspend := none }) b.ops)
    let fill (w : Warp) : Warp := if o.handle == 0 then w else
      (List.range 16).foldl (fun w h => if w.hr h == o.handle then w.mark true (.h, h) else w) w
    let warps := updAt (fun w => w.amaxUpd (o.amax, o.nan)) o.warp (b.warps.map fill)
    ({ b with ops := ops, warps := warps } : Block).fillTiles.unparkHandles

/-- What an engine's stop comes to (R207): suspended with a fault posted, or ended FAULTED. -/
def State.engStop (s : State) (e : Eng) (x : EngStop) (progress : Word) : State :=
  match x with
  | .replay code addr wr =>
    let (s, id) := s.postFault code (if wr then .engWr else .engRd) e.l.asid addr e.l.id e.b.core 0xFF
    s.modOp e.b.uid e.o.id fun o => { o with suspend := some ⟨BitVec.ofNat 8 code, addr, id, wr, progress⟩ }
  | .fault cause addr info =>
    s.endOp e .faulted fun o => { o with fault := some { cause := BitVec.ofNat 8 cause, addr := addr, info := info.getD progress, point := progress } }

/-- Add values to an operation's AMAX update (R67). -/
def EngOp.addAmax (o : EngOp) (xs : List Nat) : EngOp :=
  let u := amaxOf xs
  { o with amax := BitVec.ofNat 32 (fp32.maxNum o.amax.toNat u.1.toNat), nan := o.nan || u.2 }

/-- An event of an operation whose turn it is. -/
def engEvent (id : Nat) (ok : Eng → Bool) (k : Eng → State → State) (s : State) : Host.Outcome State Fault Refusal :=
  match s.eng? id with
  | none => .fault .noSuchObject
  | some e => if ok e && s.engTurn e then .next (k e s) else .fault .notEnabled

/-! ### Handles -/

/-- The operation a handle value names in a block. -/
def Block.opOf (b : Block) (v : DWord) : Option EngOp := if v == 0 then none else b.ops.find? (·.handle == v)

/-- The two words HWAIT returns beside the status (R209). -/
def EngOp.results (o : EngOp) : Word × Word :=
  match o.kind with
  | .copy .. | .copym .. | .copyl .. | .copyx .. => (BitVec.ofNat 32 o.bytes, 0)
  | .scan .. | .smax .. | .samp .. => (o.r1, o.r2)
  | _ => (0, 0)

/-- HWAIT's status and results (R209). -/
def EngOp.waited (o : EngOp) : Word × Word × Word :=
  if o.freed then (4, 0, 0)
  else (match o.status with | .pending | .done => 0 | .cancelled => 1 | .faulted => 2, o.results)

/-- Write HWAIT's three registers; with D = 0 nothing. -/
def Warp.setWaited (w : Warp) (d : Nat) (x : Word × Word × Word) : Warp :=
  if d = 0 then w else ((w.setS d x.1).setS (d + 1) x.2.1).setS (d + 2) x.2.2

/-- The acquire action of a handle instruction with ACQ (R209, R210). -/
def Eff.acquireOpt (c : Ctx) (a : Option Scope) (e : Eff) : Eff :=
  match a with | some sc => e.acquire c .acq sc | none => e

/-- HWAIT (R209), which takes the fault of an operation that ended FAULTED, once, even after its record has been freed (R204, R207). -/
def hwaitEff (o : Hw) (c : Ctx) (_ : LaneMask) (s : State) : Eff :=
  let v := c.w.hr o.a.toNat
  if v == 0 then (Eff.ok (s.modW c fun w => w.setWaited o.d.toNat (3, 0, 0))).acquireOpt c o.acq
  else match c.b.opOf v with
  | none => .trap (operandError c 1) s
  | some x =>
    match x.fault.filter fun t => !t.taken with
    | some t =>
      .trap (c.trap t.cause.toNat t.info t.addr)
        (s.modOp c.ref.block x.id fun y => { y with fault := y.fault.map fun t => { t with taken := true } })
    | none => (Eff.ok (s.modW c fun w => (w.observe x).setWaited o.d.toNat x.waited)).acquireOpt c o.acq

def execHwait (o : Hw) (s : State) : Host.Outcome State Fault Refusal := issue (.hwait o) (hwaitEff o) s

/-- An instruction that reads a full handle observes its operation's completion (R206, R270). -/
def State.observeHandle (s : State) (c : Ctx) (h : Nat) : State :=
  if !c.w.hFull.getLsbD h then s
  else match c.b.opOf (c.w.hr h) with
  | some x => s.modW c fun w => w.observe x
  | none => s

/-- HTEST (R210). -/
def htestEff (o : Hw) (c : Ctx) (m : LaneMask) (s : State) : Eff :=
  let full := c.w.hFull.getLsbD o.a.toNat
  let s := s.modW c fun w => w.setCC o.h.ccSet m fun _ => { n := false, z := full, c := false, v := false }
  if full then (Eff.ok (s.observeHandle c o.a.toNat)).acquireOpt c o.acq else .ok s

def execHtest (o : Hw) (s : State) : Host.Outcome State Fault Refusal := issue (.htest o) (htestEff o) s

/-- HCAN (R211): a pending operation is to end at its next boundary; a suspended one stands at one and ends at once. Its
undelivered bytes are subtracted where it ends (`cancelOp` of the copies). -/
def hcanMark (c : Ctx) (v : DWord) (s : State) : State × Option Eng :=
  match c.b.opOf v with
  | none => (s, none)
  | some x =>
    if x.status != .pending then (s, none)
    else
      let s := s.modOp c.ref.block x.id fun y => { y with cancel := true }
      (s, if x.suspend.isSome then s.eng? x.id else none)

/-- The checks of a handle's scratchpad offset (R212). -/
def handleOff (c : Ctx) (off : Nat) : Option TrapInfo :=
  if off % 8 != 0 then some (c.trap 6 8 (BitVec.ofNat 64 off)) else extentCheck c off 8

/-- HSAV (R212), which reads its handle and so observes an operation that has completed (R206). -/
def hsavEff (o : OpAB) (c : Ctx) (_ : LaneMask) (s : State) : Eff :=
  let off := (c.w.sr o.a.toNat).toNat
  match handleOff c off with
  | some t => .trap t s
  | none => .ok ((s.observeHandle c o.b.toNat).modBlock c.ref.block fun b => b.write off 8 (c.w.hr o.b.toNat).toNat)

def execHsav (o : OpAB) (s : State) : Host.Outcome State Fault Refusal := issue (.hsav o) (hsavEff o) s

/-- HLD (R212). -/
def hldEff (o : OpDA) (c : Ctx) (_ : LaneMask) (s : State) : Eff :=
  let off := (c.w.sr o.a.toNat).toNat
  match handleOff c off with
  | some t => .trap t s
  | none =>
    let v : DWord := BitVec.ofNat 64 (c.b.read off 8)
    let set (full : Bool) : Eff := .ok (s.modW c fun w => (w.setH o.d.toNat v).mark full (.h, o.d.toNat))
    if v == 0 then set true
    else match c.b.opOf v with
    | none => .trap (operandError c 1) s
    | some x => set (x.status != .pending)

def execHld (o : OpDA) (s : State) : Host.Outcome State Fault Refusal := issue (.hld o) (hldEff o) s

end Sys2Proof.Machine
end

