-- ==== Sys2Proof/Machine/Matrix.lean ====
section
/-! DEFINITION. The matrix engine: weight slots (R213), operands (R214, R215), MLW, MMA, MDR, MZR, MRS and MWS (R216-R221),
and its sums in the fixed order of R79-R85. -/

namespace Sys2Proof.Machine

/-! ### Tiles -/

/-- A row of a tile; an element never written is a free value (R27). (DESIGN CHOICE, unsafe: notes/assumptions/8.md). -/
def Block.tileRow (b : Block) (t r : Nat) : List Word :=
  tget ((List.range 16).map fun j => Config.tileInit b.uid t r j) b.tiles (128 * t + r)

def Block.tileAt (b : Block) (t r j : Nat) : Word := (b.tileRow t r).getD j 0

def Block.setTileRow (b : Block) (t r : Nat) (x : List Word) : Block := { b with tiles := tput b.tiles (128 * t + r) x }

def Block.setTileAt (b : Block) (t r j : Nat) (x : Word) : Block := b.setTileRow t r ((b.tileRow t r).set j x)

/-- The type tag (R52): INT32 when set. -/
def Block.setTag (b : Block) (t : Nat) (int32 : Bool) : Block := { b with tileTag := setBit b.tileTag t int32 }

/-! ### Operands in memory (R214, R215) -/

/-- The width of an element of a matrix format in bits. -/
def matBits : Ty → Nat
  | .f32 => 32
  | .f16x2 | .bf16x2 => 16
  | .e2m1x8 => 4
  | _ => 8

/-- An operand's registers as a source, with the checks of their values (R203, R214): misplaced addresses and strides, the
tensor, its dimensions and element size. -/
def matSrc (s : State) (c : Ctx) (sp : Space) (a b : RegField) : Except TrapInfo MatSrc :=
  match sp with
  | .global =>
    let va := (c.w.sp a.toNat).toNat % 2 ^ 56
    let st := (c.w.sr b.toNat).toNat
    if va % 8 != 0 || st % 8 != 0 then .error (operandError c 5) else .ok (.global va st)
  | .scratch =>
    let off := (c.w.sr a.toNat).toNat
    let st := (c.w.sr b.toNat).toNat
    if off % 8 != 0 || st % 8 != 0 then .error (operandError c 5) else .ok (.scratch off st)
  | .vault =>
    let i := (c.w.sr a.toNat).toNat
    if 4096 ≤ i then .error (operandError c 2)
    else match s.tensor? c.l.asid i with
    | none => .error (operandError c 6)
    | some t =>
      if t.dims < 2 then .error (operandError c 6)
      else if t.size != 2 then .error (operandError c 7)
      else .ok (.vault i ((List.range 4).map fun k => if k < t.dims then (c.w.sr (b.toNat + k)).toNat else 0))

/-- The extents of n rows of rb bytes (R203). (DEDUCED, unsafe: notes/assumptions/26.md). -/
def matExtent (s : State) (c : Ctx) (src : MatSrc) (n rb : Nat) : Option TrapInfo :=
  match src with
  | .global _ _ => none
  | .scratch off st =>
    if c.b.scrSize < off + (n - 1) * st + rb then some (c.trap 7 0 (BitVec.ofNat 64 off))
    else if (List.range n).any fun r => c.b.fifoIn (off + r * st) rb then some (c.trap 7 3 (BitVec.ofNat 64 off))
    else none
  | .vault i cs =>
    match s.tensor? c.l.asid i with
    | none => some (operandError c 6)
    | some t => if t.holds cs [(rb + 3) / 4, n, 1, 1] then none else some (operandError c 6)

/-- The vault words that hold bytes off to off + n − 1 of row r. -/
def vaultWords (cs : List Nat) (r off n : Nat) : List (List Nat) :=
  (List.range (if n = 0 then 0 else (off + n + 3) / 4 - off / 4)).map fun k => (cs.modify 0 (· + off / 4 + k)).modify 1 (· + r)

/-- Bytes off to off + n − 1 of row r of an operand. -/
def State.matRead (s : State) (e : Eng) (src : MatSrc) (r off n : Nat) : State × Except EngStop (List Byte) :=
  match src with
  | .global va st => s.engRead e (va + r * st + off) n
  | .scratch base st =>
    let o := base + r * st + off
    let b := s.engBlock e
    if b.scrSize < o + n || b.fifoIn o n then (s, .error (.fault 7 (BitVec.ofNat 64 o) none)) else (s, .ok (b.bytesAt o n))
  | .vault i cs =>
    match s.tensor? e.l.asid i with
    | none => (s, .error (.fault 0x11 0 none))
    | some t =>
      let ws := vaultWords cs r off n
      if ws.any fun c => !t.holds c [1, 1, 1, 1] then (s, .error (.fault 0x11 0 none))
      else
        let bs := ws.foldl (fun acc c => match acc with
          | .error x => .error x
          | .ok l => (s.vaultRead (t.addr c) 4).map (l ++ ·)) (Except.ok [])
        (s, bs.map fun l => (l.drop (off % 4)).take n)

/-- Write row r of a destination: every page is translated and checked before a byte is written (R191, R377, R379). -/
def State.matWrite (s : State) (e : Eng) (dst : MatSrc) (r : Nat) (bs : List Byte) : State × Except EngStop Unit :=
  match dst with
  | .global va st =>
    let ps := pieces (va + r * st) bs.length
    let (s, xs) := ps.foldl (fun (acc : State × Except EngStop (List (Nat × Nat × Nat × Attr))) p =>
      match acc.2 with
      | .error x => (acc.1, .error x)
      | .ok l => match acc.1.engXlate e p.1 .engWr with
        | (s, .error x) => (s, .error x)
        | (s, .ok (pa, a)) => match s.engWriteOk p.1 pa a with
          | (s, .error x) => (s, .error x)
          | (s, .ok ()) => (s, .ok (l ++ [(p.1 - (va + r * st), p.2, pa, a)]))) (s, .ok [])
    match xs with
    | .error x => (s, .error x)
    | .ok l => (l.foldl (fun s (x : Nat × Nat × Nat × Attr) => s.engWrite e x.2.2.1 x.2.2.2 ((bs.drop x.1).take x.2.1)) s, .ok ())
  | .scratch base st => (s.engLand e e.b.uid (base + r * st) bs, .ok ())
  | .vault i cs =>
    match s.tensor? e.l.asid i with
    | none => (s, .error (.fault 0x11 0 none))
    | some t => ((vaultWords cs r 0 bs.length).zipIdx.foldl (fun s (x : List Nat × Nat) =>
        s.vaultWrite e (t.addr x.1) ((bs.drop (4 * x.2)).take 4)) s, .ok ())

/-- The n bytes of row r of a destination that a cancelled operation has not delivered become undefined, with no other effect (R10,
R211). -/
def State.matFree (s : State) (e : Eng) (dst : MatSrc) (r n : Nat) : State :=
  match dst with
  | .global va st => (pieces (va + r * st) n).foldl (fun s p => match s.engXlate e p.1 .engWr with
      | (s, .ok (pa, a)) => let (s, bs) := s.freeBytes p.2; s.physPut a.target pa bs
      | (s, .error _) => s) s
  | .scratch base st =>
    let (s, bs) := s.freeBytes n
    s.modBlock e.b.uid fun b => if b.fifoIn (base + r * st) n then b else b.puts (base + r * st) bs
  | .vault i cs =>
    match s.tensor? e.l.asid i with
    | none => s
    | some t => (vaultWords cs r 0 n).foldl (fun s c =>
        let (s, bs) := s.freeBytes 4
        { s with vault := s.vault.writeBytes (t.addr c) bs }) s

/-- n elements of nb bits packed in bytes, the first in the low bits (R70). -/
def unpackBits (nb n : Nat) (bs : List Byte) : List Nat :=
  let v := leNat bs
  (List.range n).map fun i => v / 2 ^ (nb * i) % 2 ^ nb

/-- Elements of nb bits packed in bytes. -/
def packBits (nb : Nat) (l : List Nat) : List Byte :=
  leBytes (nb * l.length / 8) (l.foldr (fun x acc => x % 2 ^ nb + 2 ^ nb * acc) 0)

/-- The 128 elements of a sparse group: a clear bitmap bit is +0 (R84). -/
def expandSparse (bitmap : Nat) : Nat → Nat → List Nat → List Nat
  | 0, _, _ => []
  | n + 1, k, vs =>
    if bitmap / 2 ^ k % 2 = 1 then vs.headD 0 :: expandSparse bitmap n (k + 1) vs.tail
    else 0 :: expandSparse bitmap n (k + 1) vs

/-- A sparse group at an offset of a row: its elements, bitmap and bytes (R215). -/
def State.matGroup (s : State) (e : Eng) (src : MatSrc) (r off nb : Nat) : State × Except EngStop (List Nat × Nat × Nat) :=
  match s.matRead e src r off 16 with
  | (s, .error x) => (s, .error x)
  | (s, .ok bm) =>
    let m := leNat bm
    let cnt := ((List.range 128).filter fun k => m / 2 ^ k % 2 == 1).length
    match s.matRead e src r (off + 16) ((cnt * nb + 7) / 8) with
    | (s, .error x) => (s, .error x)
    | (s, .ok vs) => (s, .ok (expandSparse m 128 0 (unpackBits nb cnt vs), m, 16 + (cnt * nb + 7) / 8))

/-! ### MLW -/

/-- MLW (R217): the slot is loaded by the engine. -/
def mlwEff (o : Mlw) (c : Ctx) (_ : LaneMask) (s : State) : Eff :=
  match matSrc s c o.space o.a o.b with
  | .error t => .trap t s
  | .ok src =>
    let (n, rb) := if o.sp then (16, 16) else (128, 2 * matBits o.fmt)
    match matExtent s c src n rb with
    | some t => .trap t s
    | none => startOp (.mlw o src (c.w.sr o.c.toNat)) o.handle.toNat c s

def execMlw (o : Mlw) (s : State) : Host.Outcome State Fault Refusal := issue (.mlw o) (mlwEff o) s

/-- Every row of an operand, in order, by a reader of one. -/
def State.matRows {α : Type} (f : State → Nat → State × Except EngStop α) (n : Nat) (s : State) :
    State × Except EngStop (List α) :=
  (List.range n).foldl (fun (acc : State × Except EngStop (List α)) r =>
    match acc.2 with
    | .error x => (acc.1, .error x)
    | .ok l => match f acc.1 r with
      | (s, .error x) => (s, .error x)
      | (s, .ok v) => (s, .ok (l ++ [v]))) (s, .ok [])

/-- MLW_LOAD_COMPLETE (R217): every row has arrived, and the slot takes them in one step; a fault leaves it as it was. -/
def mlwLoad (e : Eng) (s : State) : State :=
  match e.o.kind with
  | .mlw o src sw =>
    let nb := matBits o.fmt
    let put (w : List (List Nat)) (bm : List Nat) (s : State) : State :=
      let sl : Slot := ⟨o.fmt, o.sp, w.map (·.map (BitVec.ofNat 16)), bm.map (BitVec.ofNat 128), sw⟩
      (s.modBlock e.b.uid fun b => { b with slots := vset b.slots (if o.slot then 1 else 0) (some sl) }).modOp e.b.uid e.o.id
        fun x => { x with progress := 1 }
    if o.sp then
      match s.matRows (fun s j => s.matGroup e src j 0 nb) 16 with
      | (s, .error x) => s.engStop e x 0
      | (s, .ok cols) => put ((List.range 128).map fun k => cols.map fun g => g.1.getD k 0) (cols.map (·.2.1)) s
    else
      match s.matRows (fun s k => s.matRead e src k 0 (2 * nb)) 128 with
      | (s, .error x) => s.engStop e x 0
      | (s, .ok rows) => put (rows.map (unpackBits nb 16)) [] s
  | _ => s

def execMlwLoadComplete (id : Nat) (s : State) : Host.Outcome State Fault Refusal :=
  engEvent id (fun e => e.o.progress == 0 && (match e.o.kind with | .mlw .. => true | _ => false)) mlwLoad s

/-! ### MMA -/

/-- The pairs of formats the engine accepts (R216): activation, weight. -/
def pairOk (a w : Ty) : Bool :=
  match a with
  | .e4m3x4 | .e5m2x4 => w == .e4m3x4 || w == .e5m2x4 || w == .e2m1x8
  | .e2m1x8 => w == .e2m1x8
  | .i8x4 | .n8x4 => w == .i8x4 || w == .n8x4
  | .bf16x2 => w == .bf16x2
  | _ => false

/-- The slots an MMA reads, in the order of its K-blocks. -/
def slotsOf : KMode → List Nat
  | .slot0 => [0]
  | .slot1 => [1]
  | .both => [0, 1]

/-- The format a slot is to hold when a new MMA is reached: that of the latest pending MLW into it, or its own (R203). -/
def Block.slotFmt (b : Block) (k : Nat) : Option Ty :=
  let pend := b.ops.filterMap fun o => if o.status == .pending && o.progress == 0 then (match o.kind with
    | .mlw m _ _ => if (if m.slot then 1 else 0) == k then some m.fmt else none
    | _ => none) else none
  match pend.getLast? with
  | some f => some f
  | none => (vget none b.slots k).map (·.fmt)

/-- The checks of an MMA's slots (R203). -/
def slotError (fs : List (Option Ty)) (fmt : Ty) : Option Nat :=
  fs.findSome? fun f => match f with
    | none => some 3
    | some w => if pairOk fmt w then none else some 4

/-- A shape word (R218, R219): the count of rows and the first tile row. -/
def shapeOf (x : Word) : Option (Nat × Nat) :=
  let n := fieldOf x 0 7 + 1
  let r := fieldOf x 8 7
  if x &&& ~~~0x7F7F#32 != 0 || 128 < r + n then none else some (n, r)

/-- MMA (R218). -/
def mmaEff (o : Mma) (c : Ctx) (_ : LaneMask) (s : State) : Eff :=
  match shapeOf (c.w.sr o.d.toNat) with
  | none => .trap (operandError c 2) s
  | some (n, row0) => match matSrc s c o.space o.a o.b with
    | .error t => .trap t s
    | .ok src =>
      let ks := slotsOf o.kmode
      let rb := if o.sp then 16 * ks.length else 16 * matBits o.fmt * ks.length
      let sv := (c.w.sr o.c.toNat).toNat
      match firstTrap [matExtent s c src n rb, if o.fmt.isInt8 then none else recordCheck c sv 4 (4 * n * ks.length),
          (slotError (ks.map c.b.slotFmt) o.fmt).map (operandError c)] with
      | some t => .trap t s
      | none => startOp (.mma o src n row0 sv) o.handle.toNat c s

def execMma (o : Mma) (s : State) : Host.Outcome State Fault Refusal := issue (.mma o) (mmaEff o) s

/-- The exact sum of exact products; an exact zero is +0 (R80). -/
def dotExact (xs : List (Num × Num)) : Num :=
  match xs.foldl (fun acc p => acc.add .rne (p.1.mul p.2)) (Num.fin false 0 0) with
  | .fin n m e => if m = 0 then .fin false 0 0 else .fin n m e
  | x => x

/-- The exponent of the leading bit of a non-zero finite number. -/
def Num.lead : Num → Option Int
  | .fin _ m e => if m = 0 then none else some (e + (m.log2 : Int))
  | _ => none

/-- A BF16 group's sum, truncated toward zero to a multiple of 2^(e−48) (R81); a negative sum that the truncation makes zero is +0. (DESIGN CHOICE, unsafe: notes/assumptions/89.md). -/
def groupSum (xs : List (Num × Num)) : Num :=
  let top := (xs.filterMap fun p => (p.1.mul p.2).lead).foldl (fun (a : Option Int) x => match a with
    | none => some x
    | some y => some (max x y)) none
  match dotExact xs, top with
  | .fin n m e, some t => if t - 48 ≤ e then .fin n m e else
      let k := m / 2 ^ (t - 48 - e).toNat
      if k = 0 then .fin false 0 0 else .fin n k (t - 48)
  | x, _ => x

/-- Promotion (R82). -/
def promote (acc : Nat) (p : Num) (kmul : Nat) : Nat :=
  fp32.ofNum .rne ((fp32.decode acc).add .rne (p.mul (fp32.decode kmul)))

/-- A list in groups of 16. -/
def groups16 {α : Type} (l : List α) : List (List α) :=
  (List.range ((l.length + 15) / 16)).map fun g => (l.drop (16 * g)).take 16

/-- One K-block's effect on an accumulator (R80-R83): activations a, weights w of the column. -/
def accumulate (fmt wfmt : Ty) (a w : List Nat) (kmul acc : Nat) : Nat :=
  if fmt.isInt8 then
    let p : Int := ((a.zip w).map fun x => intVal 8 (fmt == .i8x4) x.1 * intVal 8 (wfmt == .i8x4) x.2).sum
    intBits 32 (intVal 32 false acc + p)
  else
    let xs := (a.zip w).map fun x => ((fmtOf fmt).decode x.1, (fmtOf wfmt).decode x.2)
    if fmt == .bf16x2 then (groups16 xs).foldl (fun acc g => promote acc (groupSum g) kmul) acc
    else promote acc (dotExact xs) kmul

/-- The elements of an activation row, by K-block (R215). -/
def State.actRow (s : State) (e : Eng) (src : MatSrc) (sp : Bool) (r nb nk : Nat) : State × Except EngStop (List (List Nat)) :=
  if sp then
    let st := (List.range nk).foldl (fun (acc : State × Except EngStop (List (List Nat) × Nat)) _ =>
      match acc.2 with
      | .error x => (acc.1, .error x)
      | .ok (l, off) => match acc.1.matGroup e src r off nb with
        | (s, .error x) => (s, .error x)
        | (s, .ok g) => (s, .ok (l ++ [g.1], off + g.2.2))) (s, .ok ([], 0))
    (st.1, st.2.map (·.1))
  else
    match s.matRead e src r 0 (16 * nb * nk) with
    | (s, .error x) => (s, .error x)
    | (s, .ok bs) =>
      let l := unpackBits nb (128 * nk) bs
      (s, .ok ((List.range nk).map fun kb => (l.drop (128 * kb)).take 128))

/-- The new bits of a tile row (R218): every column, K-blocks ascending. -/
def mmaNewRow (b : Block) (o : Mma) (sv r : Nat) (act : List (List Nat)) (old : List Word) : List Word :=
  let ks := slotsOf o.kmode
  (List.range 16).map fun j =>
    BitVec.ofNat 32 ((ks.zipIdx).foldl (fun acc (x : Nat × Nat) =>
      match vget none b.slots x.1 with
      | none => acc
      | some sl =>
        let kmul := if o.fmt.isInt8 then 0 else fp32.mul .rne (b.read (sv + 4 * (r * ks.length + x.2)) 4) sl.sw.toNat
        accumulate o.fmt sl.fmt (act.getD x.2 []) (sl.w.map fun row => (row.getD j 0).toNat) kmul acc)
      (old.getD j 0).toNat)

/-- MMA_ROW (R218): a cancelled operation ends here (R211); a slot that is empty or of another format ends it (R203); else
the row's operands arrive whole and it is applied. -/
def mmaRow (e : Eng) (s : State) : State :=
  match e.o.kind with
  | .mma o src _ row0 sv =>
    let r := e.o.progress
    let ks := slotsOf o.kmode
    if e.o.cancel then s.endOp e .cancelled
    else match slotError (ks.map fun k => (vget none e.b.slots k).map (·.fmt)) o.fmt with
    | some x => s.engStop e (.fault 0x11 0 (some (BitVec.ofNat 32 x))) (BitVec.ofNat 32 r)
    | none =>
      match s.actRow e src o.sp r (matBits o.fmt) ks.length with
      | (s, .error x) => s.engStop e x (BitVec.ofNat 32 r)
      | (s, .ok act) =>
        let t := o.tile.toNat
        (s.modBlock e.b.uid fun b =>
          (b.setTileRow t (row0 + r) (mmaNewRow b o sv r act (b.tileRow t (row0 + r)))).setTag t o.fmt.isInt8).modOp e.b.uid
            e.o.id fun x => { x with progress := r + 1 }
  | _ => s

def execMmaRow (id : Nat) (s : State) : Host.Outcome State Fault Refusal :=
  engEvent id (fun e => match e.o.kind with | .mma _ _ n _ _ => decide (e.o.progress < n) | _ => false) mmaRow s

/-! ### MDR -/

/-- The epilogue record at an offset (R219); none where a field is out of its range. -/
def epilogueAt (b : Block) (off : Nat) : Option Epilogue :=
  let w (k : Nat) : Nat := b.read (off + 4 * k) 4
  let vec (k : Nat) : Option Nat := if w k = 0xFFFF_FFFF then none else some (w k)
  match shapeOf (BitVec.ofNat 32 (w 0)) with
  | none => none
  | some (n, r) =>
    if w 6 != 0 || w 7 != 0 then none
    else some ⟨n, r, vec 1, vec 2, vec 3, BitVec.ofNat 32 (w 4), BitVec.ofNat 32 (w 5)⟩

/-- The bytes of a drained row (R219). -/
def rowBytes (fmt : Ty) : Nat := 2 * matBits fmt

/-- A stride that is too short for its rows (R219). -/
def strideShort (dst : MatSrc) (n : Nat) : Bool :=
  match dst with
  | .global _ st => decide (st < n)
  | .scratch _ st => decide (st < n)
  | .vault _ _ => false

/-- MDR (R219). -/
def mdrEff (o : Mdr) (c : Ctx) (_ : LaneMask) (s : State) : Eff :=
  let off := (c.w.sr o.c.toNat).toNat
  match matSrc s c o.space o.a o.b with
  | .error t => .trap t s
  | .ok dst => match recordCheck c off 32 32 with
    | some t => .trap t s
    | none => match epilogueAt c.b off with
      | none => .trap (operandError c 2) s
      | some e =>
        let vec (v : Option Nat) (n : Nat) : Option TrapInfo := v.bind fun x => extentCheck c x (4 * n)
        match firstTrap [vec e.rs e.count, vec e.cs 16, vec e.bias 16,
            if strideShort dst (rowBytes o.fmt) then some (operandError c 2) else none,
            matExtent s c dst e.count (rowBytes o.fmt)] with
        | some t => .trap t s
        | none => startOp (.mdr o dst e) o.handle.toNat c s

def execMdr (o : Mdr) (s : State) : Host.Outcome State Fault Refusal := issue (.mdr o) (mdrEff o) s

/-- A drained element before its conversion, y of R85 after the limiter. -/
def drainY (b : Block) (o : Mdr) (e : Epilogue) (int32 : Bool) (r j : Nat) : Nat :=
  let x := (b.tileAt o.tile.toNat (e.row0 + r) j)
  let acc := if int32 then fp32.ofInt .rne x.toInt else x.toNat
  let at_ (v : Option Nat) (k d : Nat) : Nat := match v with | some off => b.read (off + 4 * k) 4 | none => d
  let y := fp32.fma .rne (fp32.mul .rne acc (at_ e.rs r 0x3F800000)) (at_ e.cs j 0x3F800000) (at_ e.bias j 0)
  match o.lim with
  | .none => y
  | .relu => if !(fp32.decode y).isNan && 2 ^ 31 ≤ y then 0 else y
  | .clamp => fp32.minimum (fp32.maximum y e.lo.toNat) e.hi.toNat

/-- The conversion of step 5 of R85. -/
def drainConv (o : Mdr) (y : Nat) : Nat :=
  match o.fmt with
  | .f32 => y
  | .f16x2 => convert fp32 fp16 .rne false y
  | .bf16x2 => convert fp32 bf16 .rne false y
  | f => narrow (fmtOf f) o.sat y 0x3F800000

/-- An MDR ends CANCELLED: the rows it has not drained are undefined (R211). -/
def State.cancelRows (s : State) (e : Eng) : State :=
  match e.o.kind with
  | .mdr o dst ep =>
    ((List.range (ep.count - e.o.progress)).foldl (fun s k => s.matFree e dst (e.o.progress + k) (rowBytes o.fmt)) s).endOp e .cancelled
  | _ => s.endOp e .cancelled

/-- MDR_ROW (R219, R85): every row is drained under the tag the tile had when the operation began, which `r1` keeps. -/
def mdrRow (e : Eng) (s : State) : State :=
  match e.o.kind with
  | .mdr o dst ep =>
    let r := e.o.progress
    if e.o.cancel then s.cancelRows e
    else
      let b := s.engBlock e
      let tag := if r = 0 then b.tileTag.getLsbD o.tile.toNat else e.o.r1 == 1
      let ys := (List.range 16).map (drainY b o ep tag r)
      match s.matWrite e dst r (packBits (matBits o.fmt) (ys.map (drainConv o))) with
      | (s, .error x) => s.engStop e x 0
      | (s, .ok ()) =>
        let s := if o.z then s.modBlock e.b.uid fun b =>
            (b.setTileRow o.tile.toNat (ep.row0 + r) (List.replicate 16 0)).setTag o.tile.toNat false else s
        s.modOp e.b.uid e.o.id fun x =>
          let x := { x with progress := r + 1, r1 := if tag then 1 else 0 }
          if o.amax then x.addAmax ys else x
  | _ => s

def execMdrRow (id : Nat) (s : State) : Host.Outcome State Fault Refusal :=
  engEvent id (fun e => match e.o.kind with | .mdr _ _ ep => decide (e.o.progress < ep.count) | _ => false) mdrRow s

/-! ### MZR, MRS, MWS -/

/-- MZR (R220): the tile is empty until the engine reaches it; no handle, no record. -/
def mzrEff (o : Mzr) (c : Ctx) (_ : LaneMask) (s : State) : Eff :=
  let id := s.nextOp
  let x : EngOp := { id := id, handle := 0, hreg := none, warp := c.ref.warp, pc := c.f.pc, kind := .mzr o.tile.toNat,
                     after := 0 }
  .ok (({ s with nextOp := id + 1 } : State).modBlock c.ref.block fun b => ({ b with ops := b.ops ++ [x] } : Block).fillTiles)

def execMzr (o : Mzr) (s : State) : Host.Outcome State Fault Refusal := issue (.mzr o) (mzrEff o) s

/-- MZR_ENGINE_ZERO (R220). -/
def mzrZero (e : Eng) (s : State) : State :=
  match e.o.kind with
  | .mzr t =>
    (s.modBlock e.b.uid fun b =>
      ((List.range 128).foldl (fun b r => b.setTileRow t r (List.replicate 16 0)) b).setTag t false).endOp e .done
  | _ => s

def execMzrEngineZero (id : Nat) (s : State) : Host.Outcome State Fault Refusal :=
  engEvent id (fun e => match e.o.kind with | .mzr _ => true | _ => false) mzrZero s

/-- The tile element a lane's slice addresses (R221). -/
def sliceAt (sv : Word) (col : Bool) (imm : Nat) (l : Lane) : Nat × Nat :=
  if col then ((fieldOf sv 0 7 + l.val) % 128, fieldOf sv 8 4)
  else ((sv.toNat + imm + l.val / 16) % 128, l.val % 16)

/-- MRS (R221). -/
def mrsEff (o : Mrs) (c : Ctx) (m : LaneMask) (s : State) : Eff :=
  let sv := c.w.sr o.a.toNat
  .ok (s.modW c fun w => w.setV o.d.toNat m fun l =>
    let x := sliceAt sv o.col o.row.toNat l
    c.b.tileAt o.tile.toNat x.1 x.2)

def execMrs (o : Mrs) (s : State) : Host.Outcome State Fault Refusal := issue (.mrs o) (mrsEff o) s

/-- MWS (R221), after every earlier MDR of the tile, so that the results are those of issue order (R205). -/
def mwsEff (o : Mws) (c : Ctx) (m : LaneMask) (s : State) : Eff :=
  let sv := c.w.sr o.a.toNat
  let t := o.tile.toNat
  if !s.condMet c (.tileIdle t) then .wait .waitResource (.tileIdle t) s
  else .ok (s.modBlock c.ref.block fun b =>
    ((lanesOf m).foldl (fun b l =>
      let x := sliceAt sv o.col o.row.toNat l
      b.setTileAt t x.1 x.2 (c.w.vl o.c.toNat l)) b).setTag t (o.ty == .i32))

def execMws (o : Mws) (s : State) : Host.Outcome State Fault Refusal := issue (.mws o) (mwsEff o) s

end Sys2Proof.Machine
end

