-- ==== Sys2Proof/Machine/Copies.lean ====
section
/-! DEFINITION. The copy engine: COPY, COPYM, COPYL and COPYX with their chunks (R222-R227), the end of engine operations
(R204), and cancellation (R211). -/

namespace Sys2Proof.Machine

/-! ### Descriptors -/

/-- The elements of a copy. -/
def CopyDesc.count (d : CopyDesc) : Nat := d.ext.foldl (· * ·) 1

/-- The descriptor at a scratchpad offset; none for a field out of its range that the layout itself shows (R222). -/
def copyDescAt (b : Block) (off : Nat) : Option CopyDesc :=
  let w (k : Nat) : Nat := b.read (off + 4 * k) 4
  let ctl : Word := BitVec.ofNat 32 (w 14)
  let sp (k : Nat) : Option Space := match fieldOf ctl k 2 with | 0 => some .global | 1 => some .scratch | 2 => some .vault | _ => none
  let ext := (List.range 4).map fun k => w (4 + k)
  let strides (k : Nat) : List Int := (List.range 3).map fun j => intVal 32 true (w (k + j))
  match sp 0, sp 2 with
  | some ss, some ds =>
    let d : CopyDesc := ⟨b.read off 8, b.read (off + 8) 8, ext, strides 8, strides 11, ss, ds, fieldOf ctl 4 3,
                         fieldOf ctl 7 12, fieldOf ctl 19 12⟩
    if 4 < d.size || ctl.msb || w 15 != 0 || ext.any (fun e => e == 0 || decide (2 ^ 31 ≤ e)) || decide (2 ^ 32 < d.count) then none
    else some d
  | _, _ => none

/-- One side of a copy: its elements' width in bits (4 for E2M1), and how its dimensions run. -/
structure Side where
  sp : Space
  base : Nat
  tensor : Nat
  str : List Int
  bits : Nat
  deriving DecidableEq, Repr

/-- The bytes an element takes, at least one. -/
def Side.bytes (x : Side) : Nat := max 1 (x.bits / 8)

/-- The source and destination of a copy; COPYX changes the widths (R227). (DEDUCED, unsafe: notes/assumptions/28.md). -/
def CopyDesc.sides (d : CopyDesc) (xf : Option CopyXf) : Side × Side :=
  let k := 8 * 2 ^ d.size
  let (sb, db) := match xf with
    | some (.qnt f _) => (32, matBits f)
    | some (.dqnt f) => (matBits f, 32)
    | some (.cast _) => if d.size = 2 then (32, 16) else (16, 32)
    | _ => (k, k)
  (⟨d.sspace, d.src, d.stensor, d.sstr, sb⟩, ⟨d.dspace, d.dst, d.dtensor, d.dstr, db⟩)

/-- The coordinates of the element with a linear index, i0 fastest (R223). -/
def indexOf (ext : List Nat) (lin : Nat) : List Nat :=
  let e (k : Nat) : Nat := ext.getD k 1
  [lin % e 0, lin / e 0 % e 1, lin / (e 0 * e 1) % e 2, lin / (e 0 * e 1 * e 2)]

/-- `.tr` swaps the first two indices at the destination (R227). -/
def trIndex (xf : Option CopyXf) (i : List Nat) : List Nat :=
  match xf, i with
  | some .tr, a :: b :: r => b :: a :: r
  | _, _ => i

/-- The offset of an element from its side's base, in bytes. -/
def Side.delta (x : Side) (i : List Nat) : Int :=
  (i.getD 0 0 * x.bits / 8 : Nat) + (((i.drop 1).zip x.str).map fun p => (p.1 : Int) * p.2).sum

/-- The vault coordinates a side's base field packs (R222). -/
def Side.coords (x : Side) : List Nat := (List.range 4).map fun k => x.base / 2 ^ (16 * k) % 65536

/-- The first byte of a side and the one after its last. -/
def Side.span (x : Side) (ext : List Nat) : Int × Int :=
  let far : List Int := ((ext.drop 1).zip x.str).map fun p => ((p.1 : Int) - 1) * p.2
  (x.base + (far.map fun k => min 0 k).sum, x.base + (far.map fun k => max 0 k).sum + ((ext.getD 0 1 * x.bits + 7) / 8 : Nat))

/-- Some row of a side reaches a bank in FIFO mode; between the rows nothing is touched. A dimension of stride 0 has one place. -/
def Side.rowsIn (x : Side) (b : Block) (ext : List Nat) : Bool :=
  let n (k : Nat) : Nat := if x.str.getD k 0 = 0 then 1 else ext.getD (k + 1) 1
  (List.range (n 2)).any fun i3 => (List.range (n 1)).any fun i2 => (List.range (n 0)).any fun i1 =>
    b.fifoIn (x.base + x.delta [0, i1, i2, i3]).toNat ((ext.getD 0 1 * x.bits + 7) / 8)

/-- The checks of one side (R203, R222): the address field, strides, extents. `ext` is in the side's own order; `fifo`: the banks are
the issuing block's, whose modes are known. -/
def sideCheck (s : State) (c : Ctx) (x : Side) (ext : List Nat) (fifo : Bool := true) : Option TrapInfo :=
  match x.sp with
  | .vault =>
    if x.str.any (· != 0) then some (operandError c 2)
    else match s.tensor? c.l.asid x.tensor with
    | none => some (operandError c 6)
    | some t =>
      if !t.holds x.coords ((ext.getD 0 1 * x.bits + 8 * x.bytes - 1) / (8 * x.bytes) :: ext.drop 1) then some (operandError c 6)
      else if 2 ^ t.size != x.bytes then some (operandError c 7) else none
  | sp =>
    if (if sp == .global then 2 ^ 56 else 2 ^ 32) ≤ x.base then some (operandError c 2)
    else if x.base % x.bytes != 0 || x.str.any (fun k => k % x.bytes != 0) then some (operandError c 5)
    else if sp == .global then none
    else
      let (lo, hi) := x.span ext
      if lo < 0 then some (c.trap 7 0 (BitVec.ofNat 64 (intBits 32 lo)))
      else if (c.b.scrSize : Int) < hi then some (c.trap 7 0 (BitVec.ofNat 64 lo.toNat))
      else if fifo && c.b.fifoIn lo.toNat (hi - lo).toNat && x.rowsIn c.b ext then some (c.trap 7 3 (BitVec.ofNat 64 lo.toNat))
      else none

/-- The extents in the destination's order. -/
def CopyDesc.dstExt (d : CopyDesc) (xf : Option CopyXf) : List Nat := trIndex xf d.ext

/-- The scale array of a COPYX: its space and address. (DEDUCED, unsafe: notes/assumptions/28.md). -/
def scaleSide (d : CopyDesc) (xf : CopyXf) : Option Space :=
  match xf with
  | .qnt _ _ => some d.dspace
  | .dqnt _ => some d.sspace
  | _ => none

/-- What a transform asks of its descriptor (R227), its scale array's space and alignment among it. (DESIGN CHOICE, unsafe: notes/assumptions/87.md). -/
def xfCheck (c : Ctx) (d : CopyDesc) (xf : CopyXf) (sc : Nat) : Option TrapInfo :=
  let narrowOk : Bool := d.size == 2 && d.ext.getD 0 1 % 32 == 0
  let scales : Option TrapInfo := match scaleSide d xf with
    | some .vault => some (operandError c 2)
    | some .global => if sc % 4 != 0 then some (operandError c 5) else none
    | some .scratch => recordCheck c (sc % 2 ^ 32) 4 (4 * (d.count / 32))
    | none => none
  match xf with
  | .qnt _ _ | .dqnt _ => if narrowOk then scales else some (operandError c 2)
  | .cast _ => if d.size == 1 || d.size == 2 then none else some (operandError c 2)
  | .tr => none

/-- A copy descriptor read and checked at issue (R203, R222, R224, R225, R227); the receivers' banks of a COPYM are checked chunk by
chunk. -/
def copyDesc (s : State) (c : Ctx) (off : Nat) (red : CopyRed) (many : Bool) (xf : Option CopyXf) (sc : Nat) :
    Except TrapInfo CopyDesc :=
  match recordCheck c off 64 64 with
  | some t => .error t
  | none => match copyDescAt c.b off with
    | none => .error (operandError c 2)
    | some d =>
      let (x, y) := d.sides xf
      match firstTrap [
          if red != .none && (d.size != 2 || d.dspace == .vault) then some (operandError c 2) else none,
          if many && d.dspace != .scratch then some (operandError c 2) else none,
          xf.bind fun f => xfCheck c d f sc,
          sideCheck s c x d.ext,
          sideCheck s c y (d.dstExt xf) !many] with
      | some t => .error t
      | none => .ok d

/-- The barrier object a copy counts into, checked (R197). -/
def boCheck (c : Ctx) (bo : Option Nat) : Option TrapInfo := bo.bind (objCheck c)

/-- The barrier objects of a COPYM, checked: their offset; the mode of the issuing block's own bank where its core is in the mask
(R225). -/
def bomCheck (s : State) (c : Ctx) (bo : Nat) (cores : BitVec 16) : Option TrapInfo :=
  (objCheck c bo).filter fun t => t.cause != 0x0C || cores.getLsbD (s.phys c.b.core % 16)

/-! ### The instructions -/

/-- COPY (R224). -/
def copyEff (o : Copy) (c : Ctx) (_ : LaneMask) (s : State) : Eff :=
  let bo := if o.bo then some (c.w.sr o.b.toNat).toNat else none
  match copyDesc s c (c.w.sr o.a.toNat).toNat o.red false none 0 with
  | .error t => .trap t s
  | .ok d => match boCheck c bo with
    | some t => .trap t s
    | none => startOp (.copy d o.red bo) o.d.toNat c s

def execCopy (o : Copy) (s : State) : Host.Outcome State Fault Refusal := issue (.copy o) (copyEff o) s

/-- COPYM (R225). -/
def copymEff (o : Copy) (c : Ctx) (_ : LaneMask) (s : State) : Eff :=
  let bo := (c.w.sr o.b.toNat).toNat
  let cores := (c.w.sr o.c.toNat).extractLsb' 0 16
  match copyDesc s c (c.w.sr o.a.toNat).toNat .none true none 0 with
  | .error t => .trap t s
  | .ok d => match bomCheck s c bo cores with
    | some t => .trap t s
    | none => startOp (.copym d bo cores) o.d.toNat c s

def execCopym (o : Copy) (s : State) : Host.Outcome State Fault Refusal := issue (.copym o) (copymEff o) s

/-- COPYL (R226): every entry is read and checked at issue. -/
def copylEff (o : Copy) (c : Ctx) (_ : LaneMask) (s : State) : Eff :=
  let off := (c.w.sr o.a.toNat).toNat
  let n := (c.w.sr o.b.toNat).toNat
  let bo := if o.bo then some (c.w.sr o.c.toNat).toNat else none
  if n = 0 || 256 < n then .trap (operandError c 2) s
  else
    let ds := (List.range n).foldl (fun (acc : Except TrapInfo (List CopyDesc)) k => match acc with
      | .error t => .error t
      | .ok l => (copyDesc s c (off + 64 * k) o.red false none 0).map fun d => l ++ [d]) (.ok [])
    match ds with
    | .error t => .trap t s
    | .ok ds => match boCheck c bo with
      | some t => .trap t s
      | none => startOp (.copyl ds o.red bo) o.d.toNat c s

def execCopyl (o : Copy) (s : State) : Host.Outcome State Fault Refusal := issue (.copyl o) (copylEff o) s

/-- COPYX (R227). -/
def copyxEff (o : Copyx) (c : Ctx) (_ : LaneMask) (s : State) : Eff :=
  let bo := if o.bo then some (c.w.sr o.b.toNat).toNat else none
  let sc := (c.w.sp o.c.toNat).toNat % 2 ^ 56
  match copyDesc s c (c.w.sr o.a.toNat).toNat .none false (some o.xf) sc with
  | .error t => .trap t s
  | .ok d => match boCheck c bo with
    | some t => .trap t s
    | none => startOp (.copyx d o.xf (if scaleSide d o.xf == some .scratch then sc % 2 ^ 32 else sc) bo) o.d.toNat c s

def execCopyx (o : Copyx) (s : State) : Host.Outcome State Fault Refusal := issue (.copyx o) (copyxEff o) s

/-! ### Locations -/

/-- A place an engine reads or writes. -/
inductive Loc where
  | g (va : Nat)
  | s (off : Nat)
  | v (addr : Nat)
  deriving DecidableEq, Repr

/-- The place of an element of a side; none where the tensor no longer holds it. -/
def Side.loc (s : State) (asid : Nat) (x : Side) (i : List Nat) : Option Loc :=
  match x.sp with
  | .global => some (.g (intBits 56 (x.base + x.delta i)))
  | .scratch => some (.s (intBits 32 (x.base + x.delta i)))
  | .vault =>
    let at_ := (i.zip x.coords).map fun p => p.1 + p.2
    let cs := (i.getD 0 0 * x.bits / (8 * x.bytes) + x.coords.getD 0 0) :: at_.drop 1
    (s.tensor? asid x.tensor).bind fun t => if t.holds cs [1, 1, 1, 1] then some (.v (t.addr cs)) else none

/-- A global place translated for an access and, for a write, reached; any other as it is. -/
def State.locCheck (s : State) (e : Eng) (l : Option Loc) (acc : Acc) : State × Option EngStop :=
  match l with
  | none => (s, some (.fault 0x11 0 none))
  | some (.g va) => match s.engXlate e va acc with
    | (s, .error x) => (s, some x)
    | (s, .ok (pa, a)) =>
      if acc == .engRd then (s, none)
      else match s.engWriteOk va pa a with
        | (s, .error x) => (s, some x)
        | (s, .ok ()) => (s, none)
  | some _ => (s, none)

/-- Check every place of a list; the first stop ends it. -/
def State.locChecks (s : State) (e : Eng) (acc : Acc) (ls : List (Option Loc)) : State × Option EngStop :=
  ls.foldl (fun (st : State × Option EngStop) l => match st.2 with
    | some x => (st.1, some x)
    | none => st.1.locCheck e l acc) (s, none)

/-- Read n bytes at a place. -/
def State.locRead (s : State) (e : Eng) (l : Loc) (n : Nat) : State × Except EngStop (List Byte) :=
  match l with
  | .g va => s.engRead e va n
  | .s off => (s, .ok ((s.engBlock e).bytesAt off n))
  | .v a => (s, s.vaultRead a n)

/-- Write bytes at a place. -/
def State.locWrite (s : State) (e : Eng) (l : Loc) (bs : List Byte) : State :=
  match l with
  | .g va => match s.engXlate e va .engWr with
    | (s, .ok (pa, a)) => s.engWrite e pa a bs
    | (s, .error _) => s
  | .s off => s.engLand e e.b.uid off bs
  | .v a => s.vaultWrite e a bs

/-- The atomic operation of a reduction (R224). -/
def redOp : CopyRed → Option AtomOp
  | .none => none
  | .add => some .add
  | .fadd => some .fadd
  | .smin => some .smin
  | .smax => some .smax
  | .umin => some .umin
  | .umax => some .umax
  | .fmin => some .fmin
  | .fmax => some .fmax

/-- Combine a 32-bit element with the destination's as one read-modify-write (R224). -/
def State.locReduce (s : State) (e : Eng) (op : AtomOp) (l : Loc) (bs : List Byte) : State × Option EngStop :=
  match s.locRead e l 4 with
  | (s, .error x) => (s, some x)
  | (s, .ok old) => (s.locWrite e l (leBytes 4 (atomNew op 4 (leNat old) (leNat bs) 0)), none)

/-! ### Chunks -/

/-- The descriptor, transform, scale address, reduction and receivers' cores of a copy at an entry. -/
structure CopyJob where
  d : CopyDesc
  xf : Option CopyXf
  sc : Nat
  red : CopyRed
  cores : Option (BitVec 16)
  deriving DecidableEq, Repr

def OpKind.job (k : OpKind) (entry : Nat) : Option CopyJob :=
  match k with
  | .copy d red _ => some ⟨d, none, 0, red, none⟩
  | .copym d _ cores => some ⟨d, none, 0, .none, some cores⟩
  | .copyl ds red _ => ds[entry]?.map fun d => ⟨d, none, 0, red, none⟩
  | .copyx d xf sc _ => some ⟨d, some xf, sc, .none, none⟩
  | _ => none

def OpKind.entries : OpKind → Nat
  | .copyl ds _ _ => ds.length
  | _ => 1

/-- Elements of a chunk (R223). -/
def CopyDesc.per (d : CopyDesc) : Nat := 4096 / 2 ^ d.size

def CopyDesc.chunkCount (d : CopyDesc) : Nat := (d.count + d.per - 1) / d.per

/-- The linear indices of a chunk. -/
def CopyDesc.chunkIdx (d : CopyDesc) (k : Nat) : List Nat := (List.range (min d.per (d.count - k * d.per))).map (k * d.per + ·)

/-- The bytes of the destination a number of elements makes. -/
def CopyJob.dstBytes (j : CopyJob) (n : Nat) : Nat := n * (j.d.sides j.xf).2.bits / 8

/-- The source and destination places of an element. -/
def CopyJob.src (s : State) (asid : Nat) (j : CopyJob) (lin : Nat) : Option Loc :=
  (j.d.sides j.xf).1.loc s asid (indexOf j.d.ext lin)

def CopyJob.dst (s : State) (asid : Nat) (j : CopyJob) (lin : Nat) : Option Loc :=
  (j.d.sides j.xf).2.loc s asid (trIndex j.xf (indexOf j.d.ext lin))

/-- The place of a scale (R227). -/
def CopyJob.scaleLoc (j : CopyJob) (i : Nat) : Option Loc :=
  (j.xf.bind (scaleSide j.d)).map fun sp => if sp == .scratch then .s (j.sc + 4 * i) else .g ((j.sc + 4 * i) % 2 ^ 56)

/-- The scale blocks of a chunk. -/
def CopyJob.blocks (j : CopyJob) (k : Nat) : List Nat :=
  match j.xf with
  | some (.qnt _ _) | some (.dqnt _) => (List.range ((j.d.chunkIdx k).length / 32)).map (k * j.d.per / 32 + ·)
  | _ => []

/-- A destination range and a source range have a byte in common (R223): first by their bounds, then element by element; `own`: the
destination is the block's own. -/
def CopyJob.overlaps (s : State) (asid : Nat) (own : Bool) (j : CopyJob) : Bool :=
  let (x, y) := j.d.sides j.xf
  let (a, b) := x.span j.d.ext
  let (a', b') := y.span (j.d.dstExt j.xf)
  x.sp == y.sp && own &&
    ((match x.sp with | .vault => x.tensor == y.tensor || j.d.count != 0 | _ => decide (a < b' ∧ a' < b)) &&
      (List.range j.d.count).any fun p => (List.range j.d.count).any fun q =>
        match j.src s asid p, j.dst s asid q with
        | some (.g m), some (.g n) => decide (m < n + y.bytes ∧ n < m + x.bytes)
        | some (.s m), some (.s n) => decide (m < n + y.bytes ∧ n < m + x.bytes)
        | some (.v m), some (.v n) => decide (m < n + y.bytes ∧ n < m + x.bytes)
        | _, _ => false)

/-- Read the values of a chunk's places. -/
def State.locReads (s : State) (e : Eng) (n : Nat) (ls : List (Option Loc)) : State × Except EngStop (List (List Byte)) :=
  ls.foldl (fun (st : State × Except EngStop (List (List Byte))) l => match st.2, l with
    | .error x, _ => (st.1, .error x)
    | .ok _, none => (st.1, .error (.fault 0x11 0 none))
    | .ok acc, some l => match st.1.locRead e l n with
      | (s, .error x) => (s, .error x)
      | (s, .ok bs) => (s, .ok (acc ++ [bs]))) (s, .ok [])

/-- The 4-bit element of a packed byte. -/
def nibble (lin : Nat) (b : List Byte) : Nat := leNat b / 2 ^ (4 * (lin % 2)) % 16

/-- Packed elements as bytes at their places: bytes of 8 bits, or two elements to a byte (R227). -/
def packedWrites (bits : Nat) (locs : List (Option Loc)) (xs : List Nat) : List (Option Loc × List Byte) :=
  if bits = 4 then
    ((locs.zip xs).zipIdx).filterMap fun (x, i) =>
      if i % 2 = 0 then some (x.1, [BitVec.ofNat 8 (x.2 + 16 * xs.getD (i + 1) 0)]) else none
  else (locs.zip xs).map fun x => (x.1, leBytes (bits / 8) x.2)

/-- What a chunk writes, from the bytes it read: the places with their bytes, and the inputs of the AMAX update. -/
def CopyJob.writes (s : State) (asid : Nat) (j : CopyJob) (k : Nat) (ins scales : List (List Byte)) :
    List (Option Loc × List Byte) × List Nat :=
  let lins := j.d.chunkIdx k
  let ds := lins.map (j.dst s asid)
  match j.xf with
  | none | some .tr => (ds.zip ins, [])
  | some (.cast f) =>
    let g (x : Nat) : List Byte := if j.d.size = 2 then leBytes 2 (convert fp32 (fmtOf f) .rne false x)
      else leBytes 4 (convert (fmtOf f) fp32 .rne false x)
    (ds.zip (ins.map fun b => g (leNat b)), [])
  | some (.qnt f _) =>
    let xs := ins.map leNat
    let q := (List.range (xs.length / 32)).map fun i =>
      let b := (xs.drop (32 * i)).take 32
      let sc := quantScale (fmtOf f) (maxMag b)
      (sc, b.map fun x => narrow (fmtOf f) true (fdiv x sc) 0x3F800000)
    (packedWrites (matBits f) ds (q.flatMap (·.2)) ++
      ((j.blocks k).zip q).map (fun (i, x) => (j.scaleLoc i, leBytes 4 x.1)), xs)
  | some (.dqnt f) =>
    let xs := (lins.zip ins).map fun (lin, b) => if matBits f = 4 then nibble lin b else leNat b
    (((ds.zip xs).zipIdx).map fun (x, i) => (x.1, leBytes 4 (widen (fmtOf f) x.2 (leNat (scales.getD (i / 32) [])))), [])

/-- The receivers of a COPYM: core numbers with their blocks, none where there is none (R190, R225). -/
def State.receivers (s : State) (e : Eng) (cores : BitVec 16) : List (Nat × Option Block) :=
  ((List.range 16).filter cores.getLsbD).map fun i => (i, s.receiver e.b i)

/-- The cores of a COPYM at which a chunk's destination range fails (R225). -/
def CopyJob.failing (s : State) (e : Eng) (j : CopyJob) (cores : BitVec 16) (k : Nat) : List Nat :=
  let n := (j.d.sides j.xf).2.bytes
  ((s.receivers e cores).filter fun (_, r) => match r with
    | none => true
    | some b => (j.d.chunkIdx k).any fun lin => match j.dst s e.l.asid lin with
      | some (.s o) => decide (b.scrSize < o + n) || b.fifoIn o n
      | _ => true).map (·.1)

/-- The block itself is among a copy's destinations. -/
def State.ownDst (s : State) (e : Eng) (j : CopyJob) : Bool :=
  match j.cores with
  | none => true
  | some cores => (s.receivers e cores).any fun r => (r.2.map (·.uid)) == some e.b.uid

/-- Deliver a chunk's bytes: reduced, written, or free where source and destination overlap; elements ascending. (DESIGN CHOICE, unsafe: notes/assumptions/79.md). -/
def State.chunkPut (s : State) (e : Eng) (j : CopyJob) (free : Bool) (ws : List (Option Loc × List Byte)) :
    State × Option EngStop :=
  ws.foldl (fun (st : State × Option EngStop) w => match st.2, w.1 with
    | some x, _ => (st.1, some x)
    | none, none => (st.1, some (.fault 0x11 0 none))
    | none, some l =>
      let (s, bs) := if free then st.1.freeBytes w.2.length else (st.1, w.2)
      match j.cores, redOp j.red with
      | some cores, _ =>
        ((s.receivers e cores).foldl (fun s (r : Nat × Option Block) => match r.2, l with
          | some b, .s off => s.engLand e b.uid off bs
          | _, _ => s) s, none)
      | none, some op => s.locReduce e op l bs
      | none, none => (s.locWrite e l bs, none)) (s, none)

/-- Sectors that a chunk's writes cover whole become good (R342). -/
def State.healChunk (s : State) (e : Eng) (ws : List (Option Loc × List Byte)) : State :=
  let cover (sp a : Nat) : Bool := ws.any fun w => match w.1 with
    | some (.v x) => sp == 3 && x ≤ a && a < x + w.2.length
    | some (.g va) => match s.engXlate e va .engWr with
      | (_, .ok (pa, at')) => (sp == at'.target.badSpace || sp == at'.target.l2Space) && pa ≤ a && a < pa + w.2.length
      | _ => false
    | _ => false
  { s with bad := s.bad.filter fun b => !(List.range 32).all fun k => cover b.space (b.at_ + k) }

/-- Count delivered bytes into the barrier objects of an operation, a chunk's at once: its block's, with the times of their writes
(R200), or each receiver's (R224, R225). (DESIGN CHOICE, unsafe: notes/assumptions/86.md). -/
def State.countBytes (s : State) (e : Eng) (j : CopyJob) (n : Nat) (t : Nat × Nat × Nat := (0, 0, 0)) : State :=
  match e.o.kind.counts with
  | none => s
  | some bo => match j.cores with
    | none => s.deliver e.b.uid bo n t.1 t.2.1 t.2.2
    | some cores => (s.receivers e cores).foldl (fun s (r : Nat × Option Block) => match r.2 with | some b => s.deliver b.uid bo n | none => s) s

/-- Bytes a chunk adds to the count HWAIT returns: those of every receiver. -/
def State.chunkBytes (s : State) (e : Eng) (j : CopyJob) (n : Nat) : Nat :=
  match j.cores with
  | none => n
  | some cores => n * ((s.receivers e cores).filter (·.2.isSome)).length

/-- The destination bytes an operation has not delivered. -/
def Eng.bytesLeft (e : Eng) : Nat :=
  ((List.range e.o.kind.entries).map fun k => match e.o.kind.job k with
    | none => 0
    | some j =>
      let total := j.dstBytes j.d.count
      if k < e.o.entry then 0
      else if k = e.o.entry then total - (e.o.chunks.map fun c => j.dstBytes (j.d.chunkIdx c).length).sum
      else total).sum

/-- n bytes at a place become undefined, with no other effect (R10). -/
def State.locFree (s : State) (e : Eng) (uid : Nat) (l : Option Loc) (n : Nat) : State :=
  let (s, bs) := s.freeBytes n
  match l with
  | none => s
  | some (.g va) => match s.engXlate e va .engWr with
    | (s, .ok (pa, a)) => s.physPut a.target pa bs
    | (s, .error _) => s
  | some (.s off) => s.modBlock uid fun b => if b.fifoIn off n then b else b.puts off bs
  | some (.v a) => { s with vault := s.vault.writeBytes a bs }

/-- Destination bytes that a cancelled copy has not delivered are undefined (R211). -/
def State.scribble (s : State) (e : Eng) : State :=
  (List.range e.o.kind.entries).foldl (fun s k => match e.o.kind.job k with
    | none => s
    | some j =>
      if k < e.o.entry then s
      else
        let uids := match j.cores with
          | none => [e.b.uid]
          | some cores => (s.receivers e cores).filterMap fun (r : Nat × Option Block) => r.2.map Block.uid
        ((List.range j.d.chunkCount).filter fun c => !(k == e.o.entry && e.o.chunks.contains c)).foldl (fun s c =>
          (j.d.chunkIdx c).foldl (fun s lin => uids.foldl (fun s u =>
            s.locFree e u (j.dst s e.l.asid lin) (j.d.sides j.xf).2.bytes) s) s) s) s

/-- End a copy that HCAN cancels (R211): the bytes left are subtracted from its barrier objects at once. -/
def State.cancelOp (s : State) (e : Eng) : State :=
  let s := match e.o.kind.job e.o.entry with
    | none => s
    | some j => (s.scribble e).countBytes e j e.bytesLeft
  s.endOp e .cancelled

/-- A chunk performed: the list of completed chunks, and with an entry's last chunk the next entry (R223, R226). -/
def EngOp.chunkDone (o : EngOp) (j : CopyJob) (k n : Nat) : EngOp :=
  let cs := o.chunks ++ [k]
  let o := { o with bytes := o.bytes + n }
  if cs.length = j.d.chunkCount then { o with entry := o.entry + 1, chunks := [] } else { o with chunks := cs }

/-- The progress point of a chunk (R207). -/
def chunkInfo (o : EngOp) (k : Nat) : Word :=
  BitVec.ofNat 32 (k % 2 ^ 24 + (match o.kind with | .copyl .. => 2 ^ 24 * o.entry | _ => 0))

/-- COPY_CHUNK (R223): a cancelled copy ends at the boundary; else every page is translated and checked, destinations before
sources, and only then is a byte written and counted. -/
def copyChunk (e : Eng) (j : CopyJob) (k : Nat) (s : State) : State :=
  let info := chunkInfo e.o k
  if e.o.cancel then s.cancelOp e
  else
    let fails := match j.cores with | some m => j.failing s e m k | none => []
    if fails != [] then
      s.engStop e (.fault 7 (BitVec.ofNat 64 ((fails.map (2 ^ ·)).sum)) none) info
    else
      let asid := e.l.asid
      let lins := j.d.chunkIdx k
      let scs := (j.blocks k).map j.scaleLoc
      let (scW, scR) := match j.xf with | some (.qnt _ _) => (scs, []) | _ => ([], scs)
      let acc := if j.red == .none then Acc.engWr else .engRmw
      match s.locChecks e acc (lins.map (j.dst s asid) ++ scW) with
      | (s, some x) => s.engStop e x info
      | (s, none) => match s.locChecks e .engRd (lins.map (j.src s asid) ++ scR) with
        | (s, some x) => s.engStop e x info
        | (s, none) => match s.locReads e (j.d.sides j.xf).1.bytes (lins.map (j.src s asid)) with
          | (s, .error x) => s.engStop e x info
          | (s, .ok ins) => match s.locReads e 4 scR with
            | (s, .error x) => s.engStop e x info
            | (s, .ok scales) =>
              let (ws, amaxIn) := j.writes s asid k ins scales
              let s := s.modOp e.b.uid e.o.id fun o => { o with cdie := 0, cdev := 0, cpod := 0 }
              match s.chunkPut e j (j.overlaps s asid (s.ownDst e j)) ws with
              | (s, some x) => s.engStop e x info
              | (s, none) =>
                let n := j.dstBytes lins.length
                let t := match s.eng? e.o.id with | some x => (x.o.cdie, x.o.cdev, x.o.cpod) | none => (0, 0, 0)
                let s := (s.healChunk e ws).modOp e.b.uid e.o.id fun o =>
                  let o := o.chunkDone j k (s.chunkBytes e j n)
                  match j.xf with | some (.qnt _ true) => o.addAmax amaxIn | _ => o
                s.countBytes e j n t

def execCopyChunk (id chunk : Nat) (s : State) : Host.Outcome State Fault Refusal :=
  match s.eng? id with
  | none => .fault .noSuchObject
  | some e => match e.o.kind.job e.o.entry with
    | none => .fault .notEnabled
    | some j =>
      if s.engTurn e && e.o.entry < e.o.kind.entries && chunk < j.d.chunkCount && !e.o.chunks.contains chunk then .next (copyChunk e j chunk s)
      else .fault .notEnabled

/-! ### Completion -/

/-- Everything an operation does has been done. -/
def EngOp.finished (o : EngOp) : Bool :=
  match o.kind with
  | .mlw .. => o.progress == 1
  | .mma _ _ n _ _ => decide (n ≤ o.progress)
  | .mdr _ _ e => decide (e.count ≤ o.progress)
  | .mzr _ => false
  | .copy .. | .copym .. | .copyl .. | .copyx .. => decide (o.kind.entries ≤ o.entry)
  | .scan .. | .topk _ | .smax .. | .samp .. => o.progress == 1

/-- ENGINE_COMPLETE (R62, R204): the handle becomes full. -/
def execEngineComplete (id : Nat) (s : State) : Host.Outcome State Fault Refusal :=
  match s.eng? id with
  | none => .fault .noSuchObject
  | some e => if e.o.status == .pending && e.o.finished then .next (s.endOp e .done) else .fault .notEnabled

end Sys2Proof.Machine
end

