-- ==== Sys2Proof/Machine/Scans.lean ====
section
/-! DEFINITION. The scan engine: SCAN, TOPK, SMAX and SAMP (R228-R234, R334), and the flowstone chain (R235-R240). -/

namespace Sys2Proof.Machine

/-! ### Operators and the reference order (R229-R231) -/

/-- a > b on FP32 patterns; a NaN compares false. -/
def fgt (a b : Nat) : Bool :=
  let x := fp32.decode a
  let y := fp32.decode b
  !x.isNan && !y.isNan && decide (0 < x.cmp y)

/-- MAXI (R229): the pair with the larger key; a NaN key loses, and on equal keys the lower index wins. -/
def maxi (x y : List Nat) : List Nat :=
  let k (p : List Nat) : Nat := p.getD 0 0
  let lower := if x.getD 1 0 ≤ y.getD 1 0 then x else y
  let nx := (fp32.decode (k x)).isNan
  let ny := (fp32.decode (k y)).isNan
  if nx && ny then lower else if nx then y else if ny then x
  else if fgt (k x) (k y) then x else if fgt (k y) (k x) then y else lower

/-- x ∘ y of R229 on elements of one word, or of two. -/
def scanOp (op : ScanOp) (ty : Ty) (x y : List Nat) : List Nat :=
  let a := x.getD 0 0
  let b := y.getD 0 0
  let i (v : Nat) : Int := intVal 32 true v
  match op with
  | .add => [if ty == .f32 then fp32.add .rne a b else (a + b) % 2 ^ 32]
  | .mul => [fp32.mul .rne a b]
  | .max => [if ty == .f32 then fp32.maxNum a b else if i a < i b then b else a]
  | .min => [if ty == .f32 then fp32.minNum a b else if i b < i a then b else a]
  | .maxi => maxi x y
  | .linrec => [fp32.mul .rne a b, fp32.fma .rne b (x.getD 1 0) (y.getD 1 0)]
  | .lse => [flse a b]

/-- The identity bits of R229. -/
def scanIdent (op : ScanOp) (ty : Ty) : List Nat :=
  match op with
  | .add => [if ty == .f32 then 0x80000000 else 0]
  | .mul => [0x3F800000]
  | .max => [if ty == .f32 then 0x7FC00000 else 0x80000000]
  | .min => [if ty == .f32 then 0x7FC00000 else 0x7FFFFFFF]
  | .maxi => [0x7FC00000, 0xFFFFFFFF]
  | .linrec => [0x3F800000, 0]
  | .lse => [0xFF800000]

/-- An element with its segment flag (R231). -/
abbrev Elem := Bool × List Nat

/-- The composition with the formal identity e, which is never computed, and segments. -/
def composeE (f : List Nat → List Nat → List Nat) (x y : Option Elem) : Option Elem :=
  match x, y with
  | none, y => y
  | x, none => x
  | some (f1, a), some (f2, b) => some (f1 || f2, if f2 then b else f a b)

/-- Chunks of 32, missing positions e. -/
def chunks32 (xs : List Elem) : List (List (Option Elem)) :=
  (List.range ((xs.length + 31) / 32)).map fun c => (List.range 32).map fun i => xs[32 * c + i]?

/-- The reference order of R231: the inclusive results and C_out. -/
def refOrder (f : List Nat → List Nat → List Nat) (cin : Option Elem) (xs : List Elem) : List (Option Elem) × Option Elem :=
  let op := composeE f
  let r := (chunks32 xs).foldl (fun (acc : List (Option Elem) × Option Elem) ch =>
    let y := kogge op 5 1 ch
    (acc.1 ++ y.map fun v => op cin (op acc.2 v), op acc.2 (y.getLastD none))) ([], none)
  (r.1.take xs.length, op cin r.2)

/-! ### Descriptors -/

/-- The scan descriptor at an offset; none where a field that the layout shows is out of range or an unused one is not zero
(R228). `used` are the used words of 0 to 14, `ctl` the number of control bits used. -/
def scanDescAt (b : Block) (off : Nat) (used : List Nat) (ctl : Nat) : Option ScanDesc :=
  let w (k : Nat) : Nat := b.read (off + 4 * k) 4
  let c : Word := BitVec.ofNat 32 (w 15)
  if (List.range 15).any (fun k => !used.contains k && w k != 0) || 2 ^ ctl ≤ c.toNat || w 8 = 0 || 65536 < w 8 then none
  else some ⟨b.read off 8, b.read (off + 8) 8, b.read (off + 16) 8, b.read (off + 24) 8, c.extractLsb' 0 4, w 8,
             BitVec.ofNat 32 (w 9), BitVec.ofNat 32 (w 10), BitVec.ofNat 32 (w 11), c.getLsbD 4, c.getLsbD 5⟩

/-- The space bits of the fields that an operation does not use are zero (R228). -/
def ScanDesc.spaces (d : ScanDesc) (used : BitVec 4) : Bool := d.sp &&& ~~~used == 0

/-- All ones in an address field: the array is absent (R228). -/
def allOnes64 : Nat := 2 ^ 64 - 1

/-- An array of a scan operation: scratchpad or global, address, bytes. -/
structure ScanArr where
  scratch : Bool
  base : Nat
  n : Nat
  deriving DecidableEq, Repr

/-- An address field's array. -/
def ScanDesc.arr (d : ScanDesc) (fld n : Nat) : ScanArr :=
  ⟨d.sp.getLsbD fld, (match fld with | 0 => d.src | 1 => d.dst | 2 => d.f16 | _ => d.f24), n⟩

/-- The checks of an array (R203, R222, R228). -/
def ScanArr.check (a : ScanArr) (c : Ctx) (al : Nat) : Option TrapInfo :=
  if (if a.scratch then 2 ^ 32 else 2 ^ 56) ≤ a.base then some (operandError c 2)
  else if a.base % al != 0 then some (operandError c 5)
  else if a.scratch then extentCheck c a.base a.n else none

/-- Element size in bytes (R229). -/
def scanSize (op : ScanOp) : Nat := match op with | .maxi | .linrec => 8 | _ => 4

/-- The arrays of an operation: sources, and destinations each with the source it may be identical to (R228, R334). -/
def OpKind.arrays : OpKind → List ScanArr × List (ScanArr × ScanArr)
  | .scan o d =>
    let es := scanSize o.op
    let src := d.arr 0 (es * d.n)
    (src :: (if o.seg then [d.arr 2 ((d.n + 7) / 8)] else []), [(d.arr 1 (es * d.n), src)])
  | .topk d =>
    let src := d.arr 0 (4 * d.n)
    let idx := d.arr 2 (4 * d.n)
    (src :: (if d.f16 = allOnes64 then [] else [idx]),
      [(d.arr 1 (4 * d.w36.toNat), src), (d.arr 3 (4 * d.w36.toNat), if d.f16 = allOnes64 then src else idx)])
  | .smax d _ =>
    let src := d.arr 0 (4 * d.n)
    ([src], (d.arr 1 (4 * d.n), src) :: (if d.f16 = allOnes64 then [] else [(d.arr 2 (4 * d.n), src)]))
  | .samp d _ => ([d.arr 0 (4 * d.n)], [])
  | _ => ([], [])

/-- The checks of chained operations (R236): a chain launch, and a group. -/
def chainCheck (c : Ctx) (chain : Bool) : Option TrapInfo :=
  if !chain then none
  else if !c.l.desc.chain then some (c.trap 0x0D 1)
  else if c.b.group.isNone then some (c.trap 0x0D 3) else none

/-- Issue a scan-engine operation: the descriptor, its arrays, the chain. -/
def scanIssue (a : RegField) (h : RegField) (used : List Nat) (ctl : Nat) (al : Nat) (chain : Bool)
    (ok : ScanDesc → Bool) (mk : ScanDesc → OpKind) (c : Ctx) (s : State) : Eff :=
  let off := (c.w.sr a.toNat).toNat
  match recordCheck c off 64 64 with
  | some t => .trap t s
  | none => match (scanDescAt c.b off used ctl).filter ok with
    | none => .trap (operandError c 2) s
    | some d =>
      let k := mk d
      let arrs := k.arrays
      let size (x : ScanArr) : Nat := if (match k with | .scan o _ => o.seg && x == d.arr 2 ((d.n + 7) / 8) | _ => false) then 1 else al
      match firstTrap ((arrs.1 ++ arrs.2.map (·.1)).map (fun x => x.check c (size x)) ++ [chainCheck c chain]) with
      | some t => .trap t s
      | none => startOp k h.toNat c s

/-- SCAN (R229). -/
def scanEff (o : Scan) (c : Ctx) (_ : LaneMask) (s : State) : Eff :=
  scanIssue o.a o.d ([0, 1, 2, 3, 8] ++ (if o.seg then [4, 5] else [])) 4 (scanSize o.op) o.chain
    (fun d => d.spaces (if o.seg then 0b0111 else 0b0011))
    (fun d => .scan o d) c s

def execScan (o : Scan) (s : State) : Host.Outcome State Fault Refusal := issue (.scan o) (scanEff o) s

/-- TOPK (R232). -/
def topkEff (o : OpDA) (c : Ctx) (_ : LaneMask) (s : State) : Eff :=
  scanIssue o.a o.d [0, 1, 2, 3, 4, 5, 6, 7, 8, 9, 10] 4 4 false
    (fun d => d.w36 != 0 && d.w36.toNat ≤ 256 &&
      if d.f16 = allOnes64 then d.spaces 0b1011 else d.w40 == 0) .topk c s

def execTopk (o : OpDA) (s : State) : Host.Outcome State Fault Refusal := issue (.topk o) (topkEff o) s

/-- SMAX (R233). -/
def smaxEff (o : ChainOp) (c : Ctx) (_ : LaneMask) (s : State) : Eff :=
  scanIssue o.a o.d [0, 1, 2, 3, 4, 5, 8, 9, 10, 11] 6 4 o.chain
    (fun d => d.spaces (if d.f16 = allOnes64 then 0b0011 else 0b0111) && (d.mg || d.w40 == 0) && (d.sg || d.w44 == 0))
    (fun d => .smax d o.chain) c s

def execSmax (o : ChainOp) (s : State) : Host.Outcome State Fault Refusal := issue (.smax o) (smaxEff o) s

/-- SAMP (R234). -/
def sampEff (o : ChainOp) (c : Ctx) (_ : LaneMask) (s : State) : Eff :=
  scanIssue o.a o.d [0, 1, 8, 9, 10, 11] 4 4 o.chain
    (fun d => d.spaces 0b0001 && (o.chain || d.w40 == 0)) (fun d => .samp d o.chain) c s

def execSamp (o : ChainOp) (s : State) : Host.Outcome State Fault Refusal := issue (.samp o) (sampEff o) s

/-! ### What the operations compute -/

/-- The words of bytes. -/
def wordsOf (bs : List Byte) : List Nat := (List.range (bs.length / 4)).map fun i => leNat ((bs.drop (4 * i)).take 4)

/-- Words as bytes. -/
def bytesOfWords (ws : List Nat) : List Byte := ws.flatMap (leBytes 4)

/-- Words in elements of k. -/
def inElems (k : Nat) (ws : List Nat) : List (List Nat) := (List.range (ws.length / k)).map fun i => (ws.drop (k * i)).take k

/-- What an operation gives: the bytes of its destinations, its outgoing carry, the words HWAIT returns. -/
structure ScanOut where
  outs : List (List Byte)
  carry : List Word
  r1 : Word
  r2 : Word
  deriving DecidableEq, Repr

/-- SCAN's results (R231). -/
def scanCompute (o : Scan) (cin : Option (List Word)) (ins : List (List Byte)) : ScanOut :=
  let xs := inElems (scanSize o.op / 4) (wordsOf (ins.getD 0 []))
  let flags := leNat (ins.getD 1 [])
  let flag (i : Nat) : Bool := o.seg && flags / 2 ^ i % 2 == 1
  let c0 : Option Elem := cin.map fun w => (false, w.map BitVec.toNat)
  let (incl, out) := refOrder (scanOp o.op o.ty) c0 ((xs.zipIdx).map fun (x, i) => (flag i, x))
  let ident := scanIdent o.op o.ty
  let val (v : Option Elem) : List Nat := match v with | some x => x.2 | none => ident
  let res := if o.excl then
      (List.range xs.length).map fun i => if flag i then ident else val (if i = 0 then c0 else incl.getD (i - 1) none)
    else incl.map val
  let cw := (val out).map (BitVec.ofNat 32)
  ⟨[bytesOfWords res.flatten], cw, cw.getD 0 0, cw.getD 1 0⟩

/-- The rank of a TOPK key (R232): larger numbers first, −0 below +0, NaN last. -/
def topRank (k : Nat) : Nat :=
  if (fp32.decode k).isNan then 2 ^ 40 else if 2 ^ 31 ≤ k then 2 ^ 33 + k % 2 ^ 31 else 2 ^ 32 - k

/-- TOPK's results (R232). -/
def topkCompute (d : ScanDesc) (ins : List (List Byte)) : ScanOut :=
  let keys := wordsOf (ins.getD 0 [])
  let idx := if d.f16 = allOnes64 then (List.range keys.length).map fun i => (d.w40.toNat + i) % 2 ^ 32 else wordsOf (ins.getD 1 [])
  let ps := (sortBy (fun p : Nat × Nat => topRank p.1 * 2 ^ 32 + p.2) (keys.zip idx)).take d.w36.toNat
  let pad := d.w36.toNat - ps.length
  ⟨[bytesOfWords (ps.map (fun p => if (fp32.decode p.1).isNan then fp32.nanCode else p.1) ++ List.replicate pad 0xFF800000),
    bytesOfWords (ps.map (·.2) ++ List.replicate pad 0xFFFFFFFF)], [], 0, 0⟩

/-- The value part of a reference-order result over FP32 words. -/
def refWords (op : ScanOp) (cin : Option (List Word)) (xs : List Nat) : List Nat × Nat :=
  let r := refOrder (scanOp op .f32) (cin.map fun w => (false, w.map BitVec.toNat)) (xs.map fun x => (false, [x]))
  let val (v : Option Elem) : Nat := match v with | some x => x.2.getD 0 0 | none => (scanIdent op .f32).getD 0 0
  (r.1.map val, val r.2)

/-- SMAX's results (R233). -/
def smaxCompute (d : ScanDesc) (cin : Option (List Word)) (ins : List (List Byte)) : ScanOut :=
  let xs := wordsOf (ins.getD 0 [])
  let m := if d.mg then d.w40.toNat else (refWords .max none xs).2
  let ys := xs.map fun x => fexp2 (fp32.mul .rne (fp32.add .rne x (fp32.negate m)) d.w36.toNat)
  let sum := if d.sg then d.w44.toNat else (refWords .add none ys).2
  let (incl, out) := refWords .add cin ys
  let w (x : Nat) : Word := BitVec.ofNat 32 x
  ⟨[bytesOfWords (ys.map fun y => fdiv y sum)] ++ (if d.f16 = allOnes64 then [] else [bytesOfWords incl]), [w out], w m, w sum⟩

/-- SAMP's results (R234); `last`: the group's last position. -/
def sampCompute (d : ScanDesc) (chain last : Bool) (cin : Option (List Word)) (ins : List (List Byte)) : ScanOut :=
  let cs := wordsOf (ins.getD 0 [])
  let t := fp32.mul .rne d.w36.toNat (if chain then d.w40.toNat else cs.getLastD 0)
  let none_ : Word := 0xFFFFFFFF
  match cin.bind List.head? with
  | some x => if x != none_ then ⟨[], [x], 0, 0⟩ else search cs t none_
  | none => search cs t none_
where
  /-- The search of a position that has received no found index. -/
  search (cs : List Nat) (t : Nat) (none_ : Word) : ScanOut :=
    match cs.findIdx? fun c => fgt c t with
    | some i => let x := d.w44 + BitVec.ofNat 32 i; ⟨[], [x], x, 1⟩
    | none => if !chain || last then ⟨[], [none_], d.w44 + BitVec.ofNat 32 (d.n - 1), 1⟩ else ⟨[], [none_], 0, 0⟩

/-! ### Running -/

/-- Whether an operation is chained, and the kind its carry must have: instruction or operator, element size (R239). -/
def OpKind.chained : OpKind → Option (Nat × Nat)
  | .scan o _ => if o.chain then some ((match o.op with
      | .add => 0 | .mul => 1 | .max => 2 | .min => 3 | .maxi => 4 | .linrec => 5 | .lse => 6), scanSize o.op) else none
  | .smax _ ch => if ch then some (100, 4) else none
  | .samp _ ch => if ch then some (101, 4) else none
  | _ => none

/-- The results of an operation. -/
def OpKind.compute (k : OpKind) (last : Bool) (cin : Option (List Word)) (ins : List (List Byte)) : ScanOut :=
  match k with
  | .scan o _ => scanCompute o cin ins
  | .topk d => topkCompute d ins
  | .smax d _ => smaxCompute d cin ins
  | .samp d ch => sampCompute d ch last cin ins
  | _ => ⟨[], [], 0, 0⟩

/-- Two arrays have a byte in common. -/
def ScanArr.meets (a b : ScanArr) : Bool := a.scratch == b.scratch && decide (a.base < b.base + b.n ∧ b.base < a.base + a.n)

/-- An overlap other than of a destination with the source it is identical to (R228). -/
def OpKind.overlaps (k : OpKind) : Bool :=
  let (src, dst) := k.arrays
  let same (a b : ScanArr) : Bool := a.scratch == b.scratch && a.base == b.base
  (dst.zipIdx).any fun (p, i) =>
    (src.any fun x => p.1.meets x && !(x == p.2 && same p.1 x)) ||
    (dst.zipIdx).any fun (q, j) => i != j && p.1.meets q.1

/-- Translate every page of an array for an access. -/
def State.arrCheck (s : State) (e : Eng) (a : ScanArr) (acc : Acc) : State × Option EngStop :=
  if a.scratch then (s, none)
  else (pieces a.base a.n).foldl (fun (st : State × Option EngStop) p => match st.2 with
    | some x => (st.1, some x)
    | none => st.1.locCheck e (some (.g p.1)) acc) (s, none)

/-- Translate every array (R334). -/
def State.arrChecks (s : State) (e : Eng) (as : List (ScanArr × Acc)) : State × Option EngStop :=
  as.foldl (fun (st : State × Option EngStop) a => match st.2 with
    | some x => (st.1, some x)
    | none => st.1.arrCheck e a.1 a.2) (s, none)

/-- Read an array. -/
def State.arrRead (s : State) (e : Eng) (a : ScanArr) : State × Except EngStop (List Byte) :=
  s.locRead e (if a.scratch then .s a.base else .g a.base) a.n

/-- Write an array. -/
def State.arrWrite (s : State) (e : Eng) (a : ScanArr) (bs : List Byte) : State :=
  if a.scratch then s.engLand e e.b.uid a.base bs
  else (pieces a.base bs.length).foldl (fun s p => s.locWrite e (.g p.1) ((bs.drop (p.1 - a.base)).take p.2)) s

/-- Free bytes and words in place of an operation's results (R228). -/
def State.freeOut (s : State) (o : ScanOut) : State × ScanOut :=
  let word (s : State) : State × Word := let (n, s) := s.draw; (s, Config.freeWord n)
  let (s, outs) := o.outs.foldl (fun (st : State × List (List Byte)) bs =>
    let r := (inElems 16 (List.range (bs.length + 15))).foldl (fun (q : State × List Byte) _ =>
      let b := q.1.freeBytes 16
      (b.1, q.2 ++ b.2)) (st.1, [])
    (r.1, st.2 ++ [r.2.take bs.length])) (s, [])
  let (s, carry) := o.carry.foldl (fun (st : State × List Word) _ => let r := word st.1; (r.1, st.2 ++ [r.2])) (s, [])
  let (s, r1) := word s
  let (s, r2) := word s
  (s, ⟨outs, carry, r1, r2⟩)

/-- Where a carry to the successor stands: none to send, room, another group, or a wait. -/
inductive CarryRoom where
  | none | room | misuse | wait
  deriving DecidableEq, Repr

def State.carryRoom (s : State) (e : Eng) : CarryRoom :=
  if e.o.kind.chained.isNone || e.o.sent then .none
  else match e.b.successor false with
  | none => .none
  | some i => match s.blockAt e.b.lid i with
    | none => .wait
    | some n =>
      if n.group.isNone then .wait
      else if n.group != e.b.group then .misuse
      else if n.chain.length + e.b.link.length < 2 then .room else .wait

/-- Take the incoming carry, when the operation has a predecessor and has not got it yet (R239). -/
def State.takeCarry (s : State) (e : Eng) (op size : Nat) : State × Option EngStop :=
  match e.b.chain with
  | .carry o z w :: _ =>
    if o == op && z == size then
      ((s.modBlock e.b.uid fun b => { b with chain := b.chain.tail }).modOp e.b.uid e.o.id fun x => { x with carry := some w }, none)
    else (s, some (.fault 0x0D 0 (some 4)))
  | _ => (s, some (.fault 0x0D 0 (some 4)))

/-- An operation waits for its incoming carry. -/
def Eng.needsCarry (e : Eng) : Bool := e.o.kind.chained.isSome && e.o.carry.isNone && e.b.hasPredecessor false

/-- The run itself, once its carry is there: translations, reads, results, the outgoing carry, and the writes (R239, R334). -/
def scanRun (e : Eng) (s : State) : State :=
  let (src, dst) := e.o.kind.arrays
  match s.arrChecks e (src.map (·, Acc.engRd) ++ dst.map (·.1, Acc.engWr)) with
  | (s, some x) => s.engStop e x 0
  | (s, none) =>
    match src.foldl (fun (st : State × Except EngStop (List (List Byte))) a => match st.2 with
        | .error x => (st.1, .error x)
        | .ok l => match st.1.arrRead e a with
          | (s, .error x) => (s, .error x)
          | (s, .ok bs) => (s, .ok (l ++ [bs]))) (s, .ok []) with
    | (s, .error x) => s.engStop e x 0
    | (s, .ok ins) =>
      match s.carryRoom e with
      | .misuse => s.engStop e (.fault 0x0D 0 (some 6)) 0
      | .wait => s
      | cr =>
        let out := e.o.kind.compute ((e.b.successor false).isNone) e.o.carry ins
        let (s, out) := if e.o.kind.overlaps then s.freeOut out else (s, out)
        let s := match cr, e.o.kind.chained with
          | .room, some (op, z) => s.modBlock e.b.uid fun b => { b with link := b.link ++ [ChainEntry.carry op z out.carry] }
          | _, _ => s
        let s := (dst.zip out.outs).foldl (fun s (x : (ScanArr × ScanArr) × List Byte) => s.arrWrite e x.1.1 x.2) s
        s.modOp e.b.uid e.o.id fun o => { o with progress := 1, sent := o.sent || cr == CarryRoom.room, r1 := out.r1, r2 := out.r2 }

/-- The operation has something to do now: its carry to take, or everything it needs and room for its own. -/
def State.scanEnabled (s : State) (e : Eng) : Bool :=
  opUnit e.o.kind == 2 && e.o.progress == 0 && (if e.needsCarry then !e.b.chain.isEmpty else s.carryRoom e != .wait)

/-- SCAN_ENGINE_RUN (R231-R234, R239). -/
def scanStep (e : Eng) (s : State) : State :=
  match e.needsCarry, e.o.kind.chained with
  | true, some (op, z) =>
    match s.takeCarry e op z with
    | (s, some x) => s.engStop e x 0
    | (s, none) => match s.eng? e.o.id with
      | some e => scanRun e s
      | none => s
  | _, _ => scanRun e s

def execScanEngineRun (id : Nat) (s : State) : Host.Outcome State Fault Refusal := engEvent id s.scanEnabled scanStep s

/-! ### HCAN -/

/-- End an operation that stands at a boundary (R211): what a copy, an MDR or a scan-engine operation has not delivered is
undefined. -/
def State.cancelAny (s : State) (e : Eng) : State :=
  match e.o.kind with
  | .copy .. | .copym .. | .copyl .. | .copyx .. => s.cancelOp e
  | .mdr .. => s.cancelRows e
  | k => (k.arrays.2.foldl (fun s x =>
      if x.1.scratch then s.locFree e e.b.uid (some (.s x.1.base)) x.1.n
      else (pieces x.1.base x.1.n).foldl (fun s p => s.locFree e e.b.uid (some (.g p.1)) p.2) s) s).endOp e .cancelled

/-- HCAN (R211): a full handle is left as it is, and read (R206). -/
def hcanEff (o : OpA) (c : Ctx) (_ : LaneMask) (s : State) : Eff :=
  match hcanMark c (c.w.hr o.a.toNat) (s.observeHandle c o.a.toNat) with
  | (s, none) => .ok s
  | (s, some e) => .ok (s.cancelAny e)

def execHcan (o : OpA) (s : State) : Host.Outcome State Fault Refusal := issue (.hcan o) (hcanEff o) s

/-! ### The chain -/

/-- CHAIN_ENTRY_DELIVER (R237): the oldest entry on a block's link reaches its successor's receive buffer; a successor that
has left the group since discards it (R240). -/
def execChainEntryDeliver (b : Nat) (s : State) : Host.Outcome State Fault Refusal :=
  match s.block? b with
  | none => .fault .noSuchObject
  | some x =>
    let message := match x.link with | .carry .. :: _ => false | _ => true
    match x.link with
    | [] => .fault .notEnabled
    | en :: r =>
      let s' := s.modBlock b fun k => { k with link := r }
      match (x.successor message).bind (s.blockAt x.lid) with
      | none => .next s'
      | some n =>
        if n.group != x.group then .next s'
        else if n.chain.length < 2 then .next (s'.modBlock n.uid fun k => { k with chain := k.chain ++ [en] })
        else .fault .notEnabled

/-- CJOIN (R236). -/
def cjoinEff (o : Cjoin) (c : Ctx) (_ : LaneMask) (s : State) : Eff :=
  let k := c.l.desc
  let first := (c.w.sr o.a.toNat).toNat
  let len := (c.w.sr o.b.toNat).toNat
  let g : ChainGroup := ⟨first, len, o.ring⟩
  if !k.chain then .trap (c.trap 0x0D 1) s
  else if len = 0 || k.gx * k.gy * k.gz < first + len || c.b.index < first || first + len ≤ c.b.index then .trap (c.trap 0x0D 2) s
  else match c.b.group with
  | some x => if x == g then .ok s else .trap (c.trap 0x0D 2) s
  | none => .ok (s.modBlock c.ref.block fun b => { b with group := some g })

def execCjoin (o : Cjoin) (s : State) : Host.Outcome State Fault Refusal := issue (.cjoin o) (cjoinEff o) s

/-- CSEND (R237, R238). -/
def csendEff (o : OpA) (c : Ctx) (_ : LaneMask) (s : State) : Eff :=
  match chainCheck c true with
  | some t => .trap t s
  | none => match c.b.successor true with
    | none => .trap (c.trap 0x0D 5) s
    | some i =>
      if (match s.blockAt c.b.lid i with | some n => n.group.isSome && n.group != c.b.group | none => false) then
        .trap (c.trap 0x0D 6) s
      else if !s.condMet c .storesReturned then .wait .waitChain .storesReturned s
      else if !s.condMet c .chainRoom then .wait .waitChain .chainRoom s
      else
        let msg := (List.range 16).map fun l => c.w.vl o.a.toNat (Fin.ofNat 32 l)
        .ok (s.modBlock c.ref.block fun b => { b with link := b.link ++ [.message msg c.w.hdev] })

def execCsend (o : OpA) (s : State) : Host.Outcome State Fault Refusal := issue (.csend o) (csendEff o) s

/-- CRECV (R238). -/
def crecvEff (o : OpD) (c : Ctx) (_ : LaneMask) (s : State) : Eff :=
  match chainCheck c true with
  | some t => .trap t s
  | none =>
    if !c.b.hasPredecessor true then .trap (c.trap 0x0D 5) s
    else match c.b.chain with
    | .carry .. :: _ => .trap (c.trap 0x0D 4) s
    | .message ws h :: r =>
      if s.time ≤ h then .wait .waitChain .chainMessage s
      else
        .ok ((s.modBlock c.ref.block fun b => { b with chain := r }).modW c fun w =>
          { w.setV o.d.toNat 0x0000FFFF (fun l => ws.getD l.val 0) with hdev := max w.hdev h })
    | [] => .wait .waitChain .chainMessage s

def execCrecv (o : OpD) (s : State) : Host.Outcome State Fault Refusal := issue (.crecv o) (crecvEff o) s

/-- A block leaves its chain group; entries still in its receive buffer are discarded (R240). -/
def Block.leaveChain (b : Block) : Block := { b with group := none, chain := [] }

/-- CLEAVE (R240). -/
def cleaveEff (c : Ctx) (_ : LaneMask) (s : State) : Eff :=
  match chainCheck c true with
  | some t => .trap t s
  | none =>
    if !s.condMet c .chainQuiet then .wait .waitChain .chainQuiet s
    else .ok (s.modBlock c.ref.block Block.leaveChain)

def execCleave (o : Head) (s : State) : Host.Outcome State Fault Refusal := issue (.cleave o) cleaveEff s

end Sys2Proof.Machine
end

