-- ==== Sys2Proof/Machine/Launches.lean ====
section
/-! DEFINITION. Kernel descriptors and launches (R21, R23, R43, R299-R303), status records (R305), admission and placement of
blocks (R25, R26, R306-R310), block records (R357, R358), and the ends of blocks, kernels and trees (R20, R164, R284). -/

namespace Sys2Proof.Machine

/-! ### The kernel descriptor (R299) -/

/-- A descriptor of 128 bytes. -/
def descOf (bs : List Byte) : KDesc :=
  let u (o n : Nat) : Nat := leNat ((bs.drop o).take n)
  let fl : BitVec 8 := BitVec.ofNat 8 (u 51 1)
  { entry := BitVec.ofNat 64 (u 0 8), cbank := BitVec.ofNat 64 (u 8 8), trapPc := BitVec.ofNat 64 (u 16 8)
    localBase := BitVec.ofNat 64 (u 24 8), localBytes := u 32 4, gx := u 36 4, gy := u 40 2, gz := u 42 2
    seed := BitVec.ofNat 32 (u 44 4), regs := u 48 1, warps := u 49 1, tiles := u 50 1
    chain := fl.getLsbD 0, coop := fl.getLsbD 1, migratable := fl.getLsbD 2, nopredict := fl.getLsbD 3
    hasList := fl.getLsbD 4, hintValid := fl.getLsbD 5, prio := fieldOf fl 6 2, scratch := u 52 4, lockQuota := u 56 2
    hint := u 58 1, listAddr := BitVec.ofNat 64 (u 64 8), zsafe := BitVec.ofNat 64 (u 72 8) }

/-- The byte offset of the first bad field (R23, R299). (DEDUCED, unsafe: notes/assumptions/31.md). -/
def badField (bs : List Byte) : Option Nat :=
  let k := descOf bs
  let zero (o n : Nat) : Bool := ((bs.drop o).take n).all (· == 0)
  let tests : List (Nat × Bool) :=
    [(0, k.entry.getLsbD 0), (8, k.cbank.toNat % 256 != 0),
     (32, k.localBytes % 16 != 0 || decide (65536 < k.localBytes)), (36, k.gx = 0 || decide (2 ^ 31 ≤ k.gx)), (40, k.gy = 0),
     (42, k.gz = 0), (48, decide (k.regs < 8) || decide (128 < k.regs) || k.regs % 8 != 0),
     (49, k.warps = 0 || decide (32 < k.warps)), (50, decide (8 < k.tiles)),
     (51, (k.chain && k.migratable) || (k.hasList && (k.chain || k.migratable))), (52, decide (262144 < k.scratch)),
     (56, decide (512 < k.lockQuota)), (58, decide (7 < k.hint)), (59, !zero 59 5),
     (64, k.listAddr.toNat % 4 != 0 || (k.listAddr != 0 && !k.hasList)), (80, !zero 80 48)]
  (tests.find? (·.2)).map (·.1)

/-- Banks granted to a block (R23, R257). -/
def KDesc.banks (k : KDesc) : Nat := (k.scratch + Config.bankBytes - 1) / Config.bankBytes

/-- Blocks of a launch that one empty core admits (R25, R259, R308). (DEDUCED, unsafe: notes/assumptions/31.md). -/
def KDesc.perCore (k : KDesc) : Nat :=
  let w := 4 * min Config.schedWarps (Config.schedRegs / k.regs) / k.warps
  let b := if k.banks = 0 then w else min w (16 / k.banks)
  let q := if k.lockQuota = 0 then b else min b (Config.lockLines / k.lockQuota)
  if k.tiles != 0 || k.chain then min q 1 else q

/-- The status of a launch too large for the device (R43, R308), none for one that fits. -/
def State.tooLarge (s : State) (k : KDesc) : Option Nat :=
  if k.chain then (if s.numCores < k.total then some 0x12 else none)
  else if k.coop then (if s.numCores * k.perCore < k.total then some 0x11 else none)
  else none

/-- The entries of a placement list (R301). -/
def listOf (bs : List Byte) : List Nat := wordsOf bs

/-- A placement list that names a core not in service (R301). -/
def State.badList (s : State) (l : List Nat) : Bool := l.any fun c => decide (s.numCores ≤ c)

/-! ### Acceptance (R302) -/

/-- What an accepted launch is made of. -/
structure Offer where
  desc : KDesc
  list : List Nat
  queue : Nat
  prio : Nat
  asid : Nat
  parent : Option Nat := none
  after : Bool := false
  root : Option Nat := none
  status : Nat := 0
  vec : Option Nat := none
  deriving DecidableEq, Repr

/-- A kernel has ended and its boundary lies behind it (R243, R284). -/
def Launch.over (l : Machine.Launch) : Bool := l.st == .completed || (l.st == .aborted && (l.boundary || l.next == 0))

/-- The tree of a launch has ended, so that nothing asks for its records any more. -/
def State.treeOver (s : State) (l : Machine.Launch) : Bool :=
  l.over && (match s.launch? l.root with | some r => r.treeDone | none => true)

/-- Accept a launch: the state and its number, which gives its identifier (R302). -/
def State.accept (s : State) (o : Offer) : State × Nat :=
  let id := s.nextLid
  let dev := s.devLaunches + (if o.parent.isSome then 1 else 0)
  let l : Machine.Launch :=
    { id := id, desc := o.desc, queue := o.queue, prio := o.prio, asid := o.asid, parent := o.parent, after := o.after,
      root := o.root.getD id, st := if o.parent.isSome then .sump else .waiting, devCount := dev, status := o.status,
      vec := o.vec, list := o.list, order := s.accepted }
  ({ s with accepted := s.accepted + 1, launches := s.launches ++ [l], nextLid := id + 1, devLaunches := dev }, id)

/-- A launch holds one of the 256 running places. (DEDUCED, unsafe: notes/assumptions/33.md). -/
def Launch.running (l : Machine.Launch) : Bool :=
  match l.st with
  | .running | .ended => true
  | .aborted => l.start.isSome && !l.boundary
  | _ => false

/-- A waiting launch's turn has come (R243, R302): a host launch's at once, a `.now` child's at once, a `.after` child's when
its parent is over and every earlier `.after` child of it has started. -/
def State.turnCome (s : State) (l : Machine.Launch) : Bool :=
  match l.st, l.parent with
  | .waiting, _ => true
  | .sump, none => true
  | .sump, some p =>
    !l.after ||
    ((match s.launch? p with | some x => x.over | none => true) &&
     !s.launches.any fun x => x.parent == some p && x.after && x.st == .sump && decide (x.order < l.order))
  | _, _ => false

/-- A launch may take a place now (R302): one is free, its turn has come, and no launch goes before it. (DEDUCED, unsafe: notes/assumptions/33.md). -/
def State.startable (s : State) (l : Machine.Launch) : Bool :=
  s.turnCome l && decide ((s.launches.filter Launch.running).length < Config.runningPlaces) &&
  (match l.st with
  | .sump => !s.launches.any fun x =>
      (x.st == .waiting && decide (l.prio < x.prio)) || (x.st == .sump && s.turnCome x && decide (x.order < l.order))
  | _ => true)

/-- LAUNCH_START (R243, R302): the launch takes a place; its code and constant bank are memory as it stands (R88, R254). -/
def execLaunchStart (lid : Nat) (s : State) : Host.Outcome State Fault Refusal :=
  match s.launch? lid with
  | none => .fault .noSuchObject
  | some l =>
    if s.startable l then
      let s : State := { s with past := if s.fetching then s.past else [] }
      .next ((s.modLaunch lid fun l => { l with st := .running, image := s.mem, hostImage := s.host, begun := s.time, waitSince := s.time }).noteHead)
    else .fault .notEnabled

/-! ### Writes of the floor die to a context's memory -/

/-- Write bytes at a virtual address as an agent on no die, through the page table: to another device over the link (R290); none where
it does not translate, the other device takes nothing, or no port serves it (R377). -/
def State.floorWrite (s : State) (asid va : Nat) (bs : List Byte) : Option State :=
  match (s.walk asid (va % 2 ^ 56)).map (pteResult · (va % 2 ^ 56) .wr) with
  | some (.ok pa a) => match a.target with
    | .remote d => match s.sendOut a.target .wr with
      | (s, none) => some { s with linkOut := s.linkOut ++ [⟨d, pa, bs⟩] }
      | (_, some _) => none
    | t => if s.cxlLost a.tier pa then none else some (((s.sliceWrite t pa bs none).1).goodSector t pa bs.length)
  | _ => none

/-- The 32 bytes of a status record (R305). -/
def statusBytes (st lid : Nat) (base : Option Nat) (info t0 t1 : Nat) : List Byte :=
  leBytes 4 st ++ leBytes 4 (launchIdent lid) ++ leBytes 4 (base.getD 0xFFFF_FFFF) ++ leBytes 4 info ++ leBytes 8 t0 ++ leBytes 8 t1

/-- Write a status record; one whose address no longer translates is dropped (R294). -/
def State.statusWrite (s : State) (asid addr : Nat) (bs : List Byte) : State :=
  if addr = 0 then s else (s.floorWrite asid addr bs).getD s

/-! ### Admission (R25, R26) -/

/-- The blocks that hold a core's resources. -/
def State.residents (s : State) (c : Nat) : List Block := s.blocks.filter fun b => b.core == c && b.present

/-- The places taken on a core: scheduler, slot, registers per lane. -/
def State.taken (s : State) (c : Nat) : List (Nat × Nat × Nat) :=
  (s.residents c).flatMap fun b =>
    let r := match s.launch? b.lid with | some l => l.desc.regs | none => 0
    b.warps.map fun w => (w.sched, w.slot, r)

/-- The scheduler with the fewest warps, the lowest on a tie. -/
def leastSched (t : List (Nat × Nat × Nat)) : Nat :=
  let n (k : Nat) : Nat := (t.filter (·.1 == k)).length
  (List.range 4).foldl (fun b k => if n k < n b then k else b) 0

/-- Place n warps of r registers in turn (R26). -/
def placeWarps (r : Nat) : Nat → List (Nat × Nat × Nat) → Option (List (Nat × Nat))
  | 0, _ => some []
  | n + 1, t =>
    let k := leastSched t
    let own := t.filter (·.1 == k)
    match (List.range Config.schedWarps).find? fun i => !own.any (·.2.1 == i) with
    | none => none
    | some i =>
      if Config.schedRegs < (own.map (·.2.2)).sum + r then none
      else (placeWarps r n ((k, i, r) :: t)).map ((k, i) :: ·)

/-- Banks of a core in cache mode that hold no locked line (R257): where the L1 holds its locked lines is not architectural, and is
a free choice within what their number allows. (DESIGN CHOICE, safe: notes/assumptions/62.md). -/
def State.unlockedBanks (s : State) (c : Nat) : Nat :=
  match (s.residents c).flatMap (·.locked) with
  | [] => s.cacheBanks c
  | locked =>
    let least := (locked.length + 127) / 128
    s.cacheBanks c - min (s.cacheBanks c) (least + Config.lockedBanks locked % (locked.length + 1 - least))

/-- A core can take a block of a descriptor (R25, R257, R259): the places of its warps. -/
def State.admits (s : State) (k : KDesc) (c : Nat) : Option (List (Nat × Nat)) :=
  let bs := s.residents c
  let descs := bs.filterMap fun b => (s.launch? b.lid).map (·.desc)
  if 16 < (bs.map (·.banks.length)).sum + k.banks || s.unlockedBanks c < k.banks || (k.tiles != 0 && descs.any (·.tiles != 0)) ||
      (k.chain && descs.any (·.chain)) || Config.lockLines < (bs.map (·.lockQuota)).sum + k.lockQuota
  then none
  else placeWarps k.regs k.warps (s.taken c)

/-- The LFSR at warp start (R37). -/
def seedOf (k : KDesc) (index wi : Nat) : Word :=
  let x := k.seed ^^^ BitVec.ofNat 32 ((index * k.warps + wi) * 0x9E3779B9)
  if x == 0 then 1 else x

/-- A warp at its start (R29, R37, R48, R61, R351). (DESIGN CHOICE, unsafe: notes/assumptions/10.md). -/
def startWarp (k : KDesc) (index wi : Nat) (place : Nat × Nat) (age : Nat) (halted : Bool) : Warp :=
  { sched := place.1, slot := place.2, age := age, lfsr := seedOf k index wi,
    split := (Vector.replicate 32 none).set 0 (some { mask := 0xFFFF_FFFF, pc := k.entry, halted := halted }) }

/-- The context of an ASID is halted by the debugger (R351). -/
def State.haltOf (s : State) (asid : Nat) : Bool := s.dev.dbgHalt && s.dev.dbgAsid == asid

/-- Banks leave cache mode (R257): lines that no longer fit leave the L1, dirty words written back. (DESIGN CHOICE, safe: notes/assumptions/62.md). -/
def State.shrinkL1 (s : State) (c : Nat) : Nat → State
  | 0 => s
  | n + 1 =>
    if (s.core c).lines.length ≤ 128 * s.cacheBanks c then s
    else
      match (s.core c).lines.filter fun x => !s.lockedLine c x.asid x.vline with
      | [] => s
      | free =>
        let (k, s) := s.draw
        match free[Config.victim k % free.length]? with
        | none => s
        | some v => (s.dropLines c fun x => x == v).shrinkL1 c n

/-- Admit the next block of a launch to a core (R310), its warps at the places found. (DESIGN CHOICE, unsafe: notes/assumptions/9.md). -/
def State.enrol (s : State) (l : Machine.Launch) (c : Nat) (places : List (Nat × Nat)) : State :=
  let k := l.desc
  let a := (s.core c).ageCtr
  let b : Block :=
    { uid := s.nextUid, lid := l.id, index := l.next, core := c, since := s.time, banks := List.replicate k.banks {},
      lockQuota := k.lockQuota,
      warps := (places.zipIdx).map fun (p, i) => startWarp k l.next i p (a + i) (s.haltOf l.asid) }
  let s := { s with blocks := s.blocks ++ [b], nextUid := s.nextUid + 1 }
  let s := s.modCore c fun x => { x with ageCtr := a + k.warps, sampleAt := if (s.residents c).length ≤ 1 then s.time else x.sampleAt }
  let s := s.shrinkL1 c (s.core c).lines.length
  s.modLaunch l.id fun l => { l with next := l.next + 1, waitSince := s.time }

/-- After the first block's start: its time, and the RUNNING record (R305). -/
def State.started (s : State) (lid : Nat) : State :=
  match s.launch? lid with
  | none => s
  | some l =>
    if l.start.isSome then s
    else
      let s := s.modLaunch lid fun l => { l with start := some s.time }
      s.statusWrite l.asid l.status (statusBytes 1 l.id l.chainBase 0 s.time 0)

/-! ### Placement (R306-R309) -/

/-- The preference of R307 among cores: the hinted die, the fewest resident warps, the lowest number. -/
def State.coreKey (s : State) (k : KDesc) (c : Nat) : Nat :=
  let off := if k.hintValid && s.dieOf c != k.hint then 1 else 0
  (off * 2 ^ 16 + (s.taken c).length) * 2 ^ 16 + c

/-- A column is below its thermal threshold (R307, R320). -/
def State.cool (s : State) (column : Nat) : Bool :=
  match s.env.config.thresholds[column]? with | some t => decide (vget 0 s.env.temps column < t) | none => true

/-- The core of the next block of an ordinary or cooperative launch, with the places of its warps (R301, R307). -/
def State.chooseCore (s : State) (l : Machine.Launch) : Option (Nat × List (Nat × Nat)) :=
  let fit (c : Nat) : Option (Nat × List (Nat × Nat)) := (s.admits l.desc c).map (c, ·)
  if l.desc.hasList then (l.list[l.next]?).bind fit
  else
    let ok := (List.range s.numCores).filterMap fit
    let cool := ok.filter fun x => s.cool (s.columnOf x.1)
    let pool := if cool.isEmpty then ok else cool
    pool.foldl (fun b x => match b with
      | none => some x
      | some y => if s.coreKey l.desc x.1 < s.coreKey l.desc y.1 then some x else some y) none

/-- Place one block. -/
def State.placeOne (s : State) (lid : Nat) : Option State :=
  (s.launch? lid).bind fun l => (s.chooseCore l).map fun x => s.enrol l x.1 x.2

/-- Place every block of a cooperative launch, in linear order (R308). -/
def State.placeAll (s : State) (lid : Nat) : Nat → Option State
  | 0 => some s
  | n + 1 => (s.placeOne lid).bind fun s => s.placeAll lid n

/-- Place a chain launch (R309). -/
def State.placeChain (s : State) (l : Machine.Launch) : Option State :=
  let n := l.desc.total
  let ok := (List.range s.numCores).map fun c => (s.admits l.desc c).isSome
  match (List.range (s.numCores + 1 - n)).find? fun c => ((ok.drop c).take n).all id with
  | none => none
  | some base =>
    let s := s.modLaunch l.id fun l => { l with chainBase := some base }
    (List.range n).foldl (fun acc i => acc.bind fun s => match s.launch? l.id, s.admits l.desc (base + i) with
      | some l, some p => some (s.enrol l (base + i) p)
      | _, _ => none) (some s)

/-- The launch is placed as a whole (R43). -/
def KDesc.whole (k : KDesc) : Bool := k.chain || k.coop

/-- What placing a launch's next block, or the whole of it, gives. -/
def State.placeLaunch (s : State) (l : Machine.Launch) : Option State :=
  if l.desc.chain then s.placeChain l else if l.desc.coop then s.placeAll l.id l.desc.total else s.placeOne l.id

/-- A cooperative or chain launch has waited 1 ms at the head of the order (R308). -/
def Launch.holdsBack (l : Machine.Launch) (now : Nat) : Bool :=
  l.starved || (l.desc.whole && (match l.headSince with | some t => decide (t + 1000000 ≤ now) | none => false))

/-- The launches that may place blocks now: those of the order up to one that holds the later ones back. -/
def State.mayPlace (s : State) : List Machine.Launch :=
  let l := if s.drops.isEmpty then s.placeOrder else []
  match l.findIdx? fun x => x.holdsBack s.time with
  | none => l
  | some i => l.take (i + 1)

/-- The first launch of the order with a block it can place (R306). -/
def State.nextPlace (s : State) : Option (Machine.Launch × State) :=
  s.mayPlace.findSome? fun l => (s.placeLaunch l).map (l, ·)

/-- The step of the global scheduler for a launch of a kind. -/
def placeStep (ok : Machine.Launch → Bool) (s : State) : Host.Outcome State Fault Refusal :=
  match s.nextPlace with
  | none => .fault .notEnabled
  | some (l, t) =>
    if ok l then .next (((t.modLaunch l.id fun l => { l with starved := false }).started l.id).noteHead) else .fault .notEnabled

/-- BLOCK_PLACE (R306, R307, R310). -/
def execBlockPlace (s : State) : Host.Outcome State Fault Refusal := placeStep (fun l => !l.desc.whole) s
/-- COOP_LAUNCH_PLACE (R308). -/
def execCoopLaunchPlace (lid : Nat) (s : State) : Host.Outcome State Fault Refusal :=
  placeStep (fun l => l.id == lid && l.desc.coop && !l.desc.chain) s
/-- CHAIN_LAUNCH_PLACE (R309). -/
def execChainLaunchPlace (lid : Nat) (s : State) : Host.Outcome State Fault Refusal :=
  placeStep (fun l => l.id == lid && l.desc.chain) s

/-- COOP_HEAD_WAIT_EXPIRY (R308). -/
def execCoopHeadWaitExpiry (lid : Nat) (s : State) : Host.Outcome State Fault Refusal :=
  match s.launch? lid with
  | none => .fault .noSuchObject
  | some l =>
    if l.st == .running && l.holdsBack s.time && !l.starved then
      .next (s.modLaunch lid fun l => { l with starved := true })
    else .fault .notEnabled

/-! ### Block records (R357, R358) -/

/-- Write a record of 64-byte slots to the profiling ring, or drop it whole and count it. -/
def State.profRecord (s : State) (slots : List (List Byte)) : State :=
  if !s.pr.en then s
  else if slots.length ≤ s.pr.room then
    (slots.zipIdx).foldl (fun s x =>
      { s with host := s.host.writeBytes (s.pr.base.toNat + 64 * (s.pr.wptr.toNat % 2 ^ s.pr.size)) x.1,
               pr := { s.pr with wptr := s.pr.wptr + 1 } }) s
  else { s with pr := { s.pr with lost := satInc s.pr.lost } }

/-- The block record of a block: kind 0 ended, 1 saved, 2 aborted. -/
def State.blockRecord (s : State) (b : Block) (asid kind : Nat) : State :=
  if asid != s.dev.trAsid then s
  else
    let n := b.warps.length
    let head := leBytes 4 (kind + 2 ^ 8 * (1 + n) + 2 ^ 16 * asid) ++ leBytes 4 (launchIdent b.lid) ++ leBytes 4 b.index ++
      leBytes 4 (b.core + 2 ^ 16 * n + 2 ^ 24 * s.dieOf b.core) ++ leBytes 8 b.since ++ leBytes 8 s.time ++ leBytes 32 0
    s.profRecord (head :: b.warps.map fun w => w.stalls.toList.flatMap fun x => leBytes 4 x.toNat)

/-! ### The ends of blocks, kernels and trees -/

/-- A request that only waits to be looked at by its instruction. -/
def Req.lingers (q : Req) : Bool := q.valueBack && (q.kind == .sc || q.grp == 1)

/-- The accesses of a block have been performed (R164). -/
def State.quiet (s : State) (uid : Nat) : Bool := s.reqs.all fun q => q.block != uid || q.lingers

/-- A block that ends leaves its barrier groups (R194): one that had arrived still counts, one that had not no longer does,
and a group that no member is left in is undefined. (DEDUCED, unsafe: notes/assumptions/67.md). -/
def State.leaveGroups (s : State) (b : Block) : State :=
  let out (g : NetGroup) : NetGroup :=
    if !g.members.contains b.uid then g
    else
      let g' := { g with members := g.members.filter (· != b.uid) }
      if g.arrived.contains b.uid then g'
      else if s.groupArrived g b.uid then { g' with arrived := g.arrived ++ [b.uid] }
      else { g' with expected := g.expected - 1 }
  { s with groups := (s.groups.map out).filter fun g => !(g.members.isEmpty && !(g.pod && decide (0 < g.expected))) }

/-- The local lines of a block (R253, R300). -/
def localLineOf (l : Machine.Launch) (b : Block) (x : L1Line) : Bool :=
  let n := l.desc.warps * 32 * l.desc.localBytes
  let base := (l.desc.localBase.toNat + b.index * n) % 2 ^ 56
  x.loc && x.asid == l.asid && decide ((x.vline * 128 + 127 + 2 ^ 56 - base) % 2 ^ 56 < n + 127)

/-- The dirty words of a line that hold bytes of other blocks' local memory (R253, R300). -/
def othersDirty (l : Machine.Launch) (b : Block) (x : L1Line) : BitVec 32 :=
  let n := l.desc.warps * 32 * l.desc.localBytes
  let base := (l.desc.localBase.toNat + b.index * n) % 2 ^ 56
  (List.range 32).foldl (fun d k =>
    let mine := (List.range 4).all fun j => decide ((x.vline * 128 + 4 * k + j + 2 ^ 56 - base) % 2 ^ 56 < n)
    setBit d k (x.dirty.getLsbD k && !mine)) 0

/-- The local lines of a block that has ended leave the L1 without write-back (R253); words of other blocks in them are written
back. -/
def State.dropLocal (s : State) (l : Machine.Launch) (b : Block) : State :=
  let s := ((s.core b.core).lines.filter (localLineOf l b)).foldl (fun s x => s.writeBack { x with dirty := othersDirty l b x }) s
  s.modCore b.core fun k => { k with lines := k.lines.filter fun x => !localLineOf l b x }

/-- The error record of R385 for a warp of a block as it last stood. -/
def State.warpRecord (s : State) (b : Block) (l : Machine.Launch) (wi cause : Nat) (pc addr : DWord) (mask info : Word) : State :=
  let w := (b.warps[wi]?).getD {}
  s.errorRecord l.id l.asid cause pc addr mask info b.core w.warpSlot (s.dieOf b.core) w.ordinal

/-- Faults that nothing has reported when the block ends (R207, R380, R385): the kernel aborts. -/
def State.unreported (s : State) (b : Block) (l : Machine.Launch) : State :=
  if l.st == .aborted then s
  else match b.ops.findSome? fun o => match o.fault with | some f => if f.taken then none else some (o, f) | none => none with
  | some (o, f) => (s.warpRecord b l o.warp f.cause.toNat o.pc f.addr 0xFFFF_FFFF f.point).abortKernel l.id
  | none => match b.failedWrite with
    | (wi, _, a) :: _ => (s.warpRecord b l wi 0x0B 0 (BitVec.ofNat 64 a) 0 5).abortKernel l.id
    | [] => s

/-- Cancel every operation of a block that has not ended (R304). -/
def State.cancelAll (s : State) (b : Block) : State :=
  (b.ops.filter (·.status == .pending)).foldl (fun s o => match s.eng? o.id with
    | some e => s.cancelOp e
    | none => s) s

/-- A LOSS pending when a core's last traced warp leaves is written alone, when room allows (R364). -/
def State.lastLoss (s : State) (c : Nat) : State :=
  let s := s.flushTrace c
  let k := s.core c
  let traced := (s.coreWarps c).any fun x => ((s.launch? x.1.lid).map (·.asid)) == some s.dev.trAsid && !x.2.2.ended
  let body := 0x7F :: leBytes 4 k.trLost.toNat
  if s.traceOn c && k.trLost != 0 && !traced && body.length ≤ s.traceRoom c then
    (s.traceBytes c body).modCore c fun k => { k with trLost := 0, trCount := k.trCount + 1, stopped := false }
  else s

/-- A kernel has ended when all its blocks have (R43, R318). -/
def State.kernelEnd (s : State) (lid : Nat) : State :=
  s.modLaunch lid fun l =>
    if l.st == .running && l.next == l.desc.total && !s.blocks.any (·.lid == lid) then { l with st := .ended } else l

/-- A block leaves the device: its core's resources, its network groups, its records. -/
def State.removeBlock (s : State) (b : Block) (l : Machine.Launch) : State :=
  let s := s.leaveGroups b
  let s := s.dropLocal l b
  let s := { s with blocks := s.blocks.filter (·.uid != b.uid), reqs := s.reqs.filter (·.block != b.uid) }
  ((s.lastLoss b.core).kernelEnd l.id).preqCheck

/-! ### A compute die lost (R345) -/

/-- The error record of a die lost, or of the module's shutdown (R385). -/
def State.dieLost (s : State) (l : Machine.Launch) (info : Word) (die : Nat) : State :=
  (s.errorRecord l.id l.asid 0x12 0 0 0 info 0xFFFF 0xFF die 0xFFFF_FFFF).abortKernel l.id

/-- A launch cannot go on after the renumbering (R345 step 5): a chain past the new count, a die-scope barrier group whose die
would change, a cooperative launch that no longer fits; one that is still to start, where it is too large now. -/
def State.stranded (s t : State) (l : Machine.Launch) : Bool :=
  (l.st == .waiting || l.st == .sump) && (t.tooLarge l.desc).isSome ||
  l.st == .running && ((l.desc.chain && decide (t.numCores < l.chainBase.getD 0 + l.desc.total)) ||
  (t.tooLarge l.desc).isSome ||
  t.groups.any fun g => !g.pod && g.owner == l.id && g.bar.scope == .die && t.blocks.any fun b =>
    g.members.contains b.uid && (decide (t.numCores ≤ b.core) || t.dieOf b.core != s.dieOf b.core))

/-- A core's state under the new numbering: what is the silicon's stays with it, what goes by the number stays with that. -/
def Core.renumbered (k old : Core) : Core :=
  { k with trW := old.trW, trR := old.trR, trLast := old.trLast, trSet := old.trSet, trCount := old.trCount, trLost := old.trLost,
           pkts := old.pkts, pktSet := old.pktSet }

/-- The report of a die's loss (R345 step 6): once every block that was saved for it has been restored or is gone, but for those of
queues on hold. (DEDUCED, unsafe: notes/assumptions/47.md). -/
def State.reportDrop (s : State) : State :=
  match s.report with
  | none => s
  | some us =>
    let waits (b : Block) : Bool := us.contains b.uid && (match b.phase with | .saved _ => true | _ => false) &&
      (match s.launch? b.lid with | some l => !(s.queue l.queue).hold && l.st != .aborted | none => false)
    if s.blocks.any waits then s else ({ s with report := none } : State).degrade 0

/-- Renumber the cores, once no block is on a core, and end what cannot go on (R15, R345 steps 4 and 5). (DEDUCED, unsafe: notes/assumptions/47.md). -/
def State.finishDrops (s : State) : State :=
  match s.drops with
  | [] => s.reportDrop
  | d :: ds =>
    if s.blocks.any Block.present then s
    else
      let dies := (d :: ds).foldl (fun m x => m &&& ~~~(1#8 <<< x)) s.dev.dies
      let t : State := { s with dev := { s.dev with dies := dies }, drops := [] }
      let cores := (List.range t.numCores).filterMap fun c => match s.logical? (t.phys c) with
        | some o => if s.cores.any (fun x => x.1 == o || x.1 == c) then some (c, (s.core o).renumbered (s.core c)) else none
        | none => none
      let t := { t with cores := cores }
      let t := (s.launches.filter (s.stranded t)).foldl (fun (t : State) l => t.dieLost l (BitVec.ofNat 32 d) d) t
      ({ t with report := some (t.blocks.map (·.uid)) } : State).reportDrop

/-- The block may end: its warps have, its accesses are performed, its operations are over or its kernel aborted, and its
chain entries delivered (R20, R164, R240). -/
def State.blockEnds (s : State) (b : Block) (l : Machine.Launch) : Bool :=
  (b.present || l.st == .aborted) && b.warps.all Warp.ended && s.quiet b.uid &&
  (l.st == .aborted || (b.link.isEmpty && b.ops.all fun o => o.status != .pending))

/-- BLOCK_END (R20, R164, R207, R240, R357). -/
def execBlockEnd (uid : Nat) (s : State) : Host.Outcome State Fault Refusal :=
  match s.block? uid with
  | none => .fault .noSuchObject
  | some b => match s.launch? b.lid with
    | none => .fault .noSuchObject
    | some l =>
      if s.blockEnds b l then
        let s := s.blockRecord b l.asid (if l.st == .aborted then 2 else 0)
        let s := (s.cancelAll b).unreported b l
        .next (s.removeBlock b l).finishDrops
      else .fault .notEnabled

/-- The blocks of an ended or aborted kernel are gone, and its boundary is still to come. -/
def State.atBoundary (s : State) (l : Machine.Launch) : Bool :=
  (l.st == .ended || (l.st == .aborted && l.next != 0 && !l.boundary)) && !s.blocks.any (·.lid == l.id)

/-- KERNEL_BOUNDARY (R284): dirty local lines are written back, and every line of every L1 goes; locks stay. -/
def execKernelBoundary (lid : Nat) (s : State) : Host.Outcome State Fault Refusal :=
  match s.launch? lid with
  | none => .fault .noSuchObject
  | some l =>
    if s.atBoundary l then
      let s := (s.cores.map (·.1)).foldl (fun s c => s.dropLines c fun _ => true) s
      .next (s.modLaunch lid fun l => { l with boundary := true, st := if l.st == .ended then .completed else l.st, image := [] })
    else .fault .notEnabled

/-- The members of a launch's tree (R303). -/
def State.treeOf (s : State) (root : Nat) : List Machine.Launch := s.launches.filter (·.root == root)

/-- A packet of a queue has completed (R294, R295): its interrupt, and its place in the queue. -/
def State.packetDone (s : State) (q : Nat) (p : Pending) (vec : Option Nat) : State :=
  let s := s.modQueue q fun k => { k with pending := k.pending.erase p }
  match vec with | some v => s.raise v | none => s

/-- KERNEL_TREE_END (R303, R305): every member has ended or aborted; the final record is written, and the packet completes. -/
def execKernelTreeEnd (lid : Nat) (s : State) : Host.Outcome State Fault Refusal :=
  match s.launch? lid with
  | none => .fault .noSuchObject
  | some l =>
    let tree := s.treeOf lid
    if l.root == lid && !l.treeDone && tree.all Launch.over then
      let st := if tree.any (·.st == .aborted) then 3 else 2
      let s := s.statusWrite l.asid l.status (statusBytes st l.id l.chainBase 0 (l.start.getD 0) s.time)
      .next ((s.modLaunch lid fun l => { l with treeDone := true }).packetDone l.queue (.klaunch lid) l.vec)
    else .fault .notEnabled

end Sys2Proof.Machine
end

