-- ==== Sys2Proof/Machine/System.lean ====
section
/-! DEFINITION. Device-side launches (R241-R244) and the system and debug instructions (R245-R249, R353). -/

namespace Sys2Proof.Machine

/-! ### Reads of records in global memory -/

/-- Read a piece of at most 32 bytes as a load of the fragment does: translated, its check value tested, the horizons raised
(R242, R261, R270). -/
def State.loadPiece (s : State) (c : Ctx) (va n : Nat) : State × Except LaneErr (List Byte) :=
  match s.laneXlate c 0 va .rd true with
  | (s, .error e) => (s, .error e)
  | (s, .ok (pa, a)) =>
    let line := lineKey a.target pa
    match s.sendOut a.target .rd with
    | (s, some e) => (s, .error ⟨0, e.1, e.2, if e.1 = 0x0B then va / 32 * 32 else va⟩)
    | (s, none) =>
      let (s, bs) := s.attrBytes a pa n
      let (s, w) := match a.target with
        | .remote _ => let (k, s) := s.draw; (s, (Config.freeWord k).toNat)
        | t => (s, s.wctAt t pa)
      let w := if a.stable then 0 else w
      ((s.modW c fun x => x.foldRead a w).refresh c.b.core a.target line, .ok bs)

/-- Read n bytes, cut at sectors. (DEDUCED, unsafe: notes/assumptions/29.md). -/
def State.loadBytes (s : State) (c : Ctx) (va n : Nat) : State × Except LaneErr (List Byte) :=
  (List.range ((va % 32 + n + 31) / 32)).foldl (fun (st : State × Except LaneErr (List Byte)) k =>
    match st.2 with
    | .error e => (st.1, .error e)
    | .ok bs =>
      let lo := if k = 0 then va else va - va % 32 + 32 * k
      let hi := min (va + n) (va - va % 32 + 32 * k + 32)
      match st.1.loadPiece c (lo % 2 ^ 56) (hi - lo) with
      | (s, .error e) => (s, .error e)
      | (s, .ok x) => (s, .ok (bs ++ x))) (s, .ok [])

/-! ### LAUNCH and LQRY -/

/-- Write LAUNCH's result and flags (R242). -/
def launchDone (o : Sys2Proof.Launch) (c : Ctx) (r : Word) (z : Bool) (s : State) : Eff :=
  .ok (s.modW c fun w => ((w.setS o.d.toNat r).mark true (.s, o.d.toNat)).setCC o.h.ccSet c.f.mask fun _ =>
    { n := false, z := z, c := false, v := false })

/-- Step 4 of R242: offer the copied descriptor to the sump. -/
def launchOffer (o : Sys2Proof.Launch) (c : Ctx) (d : KDesc) (list : List Nat) (s : State) : Eff :=
  if s.condMet c .sumpRoom then
    let r := s.accept { desc := d, list := list, queue := c.l.queue, prio := c.l.prio, asid := c.l.asid,
                        parent := some c.l.id, after := !o.now, root := some c.l.root }
    launchDone o c (BitVec.ofNat 32 (launchIdent r.2)) true r.1
  else if o.wait then .wait .waitResource .sumpRoom s
  else launchDone o c 0x80000001 false s

/-- Steps 3 and 4 of R242: the release action of `.now`, and the offer, with the descriptor kept while it waits. -/
def launchCommit (o : Sys2Proof.Launch) (c : Ctx) (d : KDesc) (list : List Nat) (s : State) : Eff :=
  let s := s.modFrag c.ref fun f => { f with offer := some (d, list) }
  if o.now then withRelease { c with w := s.warpOf c } .rel .dev s (launchOffer o c d list) else launchOffer o c d list s

/-- A read of LAUNCH that failed: it fails for the whole fragment (R176, R242); while it is parked its destination is
empty. -/
def launchFail (o : Sys2Proof.Launch) (c : Ctx) (e : LaneErr) (s0 s : State) : Eff :=
  match failLanes c .rd c.f.mask ((lanesOf c.f.mask).map fun l => { e with lane := l }) s0 s with
  | .park lanes id s => .park lanes id (s.modW c fun w => w.mark false (.s, o.d.toNat))
  | r => r

/-- The physical lines that a read of n bytes reaches, as they are translated now. -/
def State.linesAt (s : State) (c : Ctx) (va n : Nat) : List Nat :=
  (List.range ((va % 128 + n + 127) / 128)).filterMap fun k =>
    match (s.xlate (s.quadOf c.b.core) c.l.asid ((va + 128 * k) % 2 ^ 56) .rd).2 with
    | .ok pa a => some (lineKey a.target pa)
    | .fault _ _ => none

/-- LAUNCH reads like a load (R242): behind the stores and atomics of its core to the same lines, which it waits for (R261, R271). (DEDUCED, unsafe: notes/assumptions/29.md). -/
def behindWrites (c : Ctx) (va n : Nat) (s : State) (k : Eff) : Eff :=
  let ls := s.linesAt c va n
  if s.condMet c (.linesQuiet ls) then k else .wait .waitFence (.linesQuiet ls) s

/-- The placement list of a descriptor that has one, read in step 1 of R242. -/
def State.loadList (s : State) (c : Ctx) (d : KDesc) : State × Except LaneErr (List Nat) :=
  if !d.hasList then (s, .ok [])
  else match s.loadBytes c (d.listAddr.toNat % 2 ^ 56) (4 * d.total) with
    | (s, .error e) => (s, .error e)
    | (s, .ok ws) => (s, .ok (listOf ws))

/-- LAUNCH (R242): the reads of step 1, then the checks of step 2. (DEDUCED, unsafe: notes/assumptions/73.md). -/
def launchEff (o : Sys2Proof.Launch) (c : Ctx) (_ : LaneMask) (s : State) : Eff :=
  match c.f.offer with
  | some x => launchCommit o c x.1 x.2 s
  | none =>
    let va := (c.w.sp o.a.toNat).toNat % 2 ^ 56
    let a : DWord := BitVec.ofNat 64 va
    if va % 128 != 0 then .trap (c.trap 6 128 a) s
    else behindWrites c va 128 s (match s.loadBytes c va 128 with
    | (s1, .error e) => launchFail o c e s s1
    | (s1, .ok bs) =>
      let d := descOf bs
      behindWrites c (d.listAddr.toNat % 2 ^ 56) (if d.hasList then 4 * d.total else 0) s1 (match s1.loadList c d with
      | (s2, .error e) => launchFail o c e s s2
      | (s2, .ok list) =>
        match badField bs with
        | some k => .trap (c.trap 0x13 (BitVec.ofNat 32 k) a) s2
        | none =>
          if (s.tooLarge d).isSome then .trap (c.trap 0x13 36 a) s2
          else if s.badList list then .trap (c.trap 0x13 64 a) s2 else launchCommit o c d list s2))

def execLaunch (o : Sys2Proof.Launch) (s : State) : Host.Outcome State Fault Refusal := issue (.launch o) (launchEff o) s

/-- LAUNCH_SUMP_ROOM (R242): a waiting LAUNCH finds room in the sump. -/
def execLaunchSumpRoom (r : FragRef) (s : State) : Host.Outcome State Fault Refusal :=
  wakeIf r (fun c => c.f.st == .waitResource && c.f.cond == .sumpRoom && s.condMet c .sumpRoom)
    Frag.wake s

/-- The launch an identifier names: the last one accepted with it (R302). (DEDUCED, unsafe: notes/assumptions/82.md). -/
def State.named (s : State) (id : Nat) : Option Machine.Launch := (s.launches.filter fun l => launchIdent l.id == id).getLast?

/-- What LQRY reports (R244, R318). -/
def lqryVal (s : State) (id : Nat) : Nat :=
  match s.named id with
  | none => 4
  | some l =>
    if l.devCount + 65536 ≤ s.devLaunches then 4
    else match l.st with
    | .waiting | .sump => 0
    | .running => 1
    | .ended | .completed => 2
    | .aborted => 3

/-- LQRY (R244). -/
def lqryEff (o : OpDA) (c : Ctx) (_ : LaneMask) (s : State) : Eff :=
  let id := (c.w.sr o.a.toNat).toNat
  .ok (s.modW c fun w => w.setS o.d.toNat (BitVec.ofNat 32 (if id = launchIdent c.l.id then 1 else lqryVal s id)))

def execLqry (o : OpDA) (s : State) : Host.Outcome State Fault Refusal := issue (.lqry o) (lqryEff o) s

/-! ### System and debug -/

/-- TRAP (R246). -/
def trapEff (o : Xi) (c : Ctx) (_ : LaneMask) (s : State) : Eff := .trap { c.trap 0x0F o.imm with pc := c.f.pc + 8 } s

def execTrap (o : Xi) (s : State) : Host.Outcome State Fault Refusal := issue (.trap o) (trapEff o) s

/-- RTE (R246, R338, R362). -/
def rteEff (c : Ctx) (_ : LaneMask) (s : State) : Eff :=
  if !c.f.handler then .trap (c.trap 3 0) s
  else if !c.rteMaskOk then .trap (c.trap 4 3) s
  else .went (s.land c ((s.warpOf c).leaveHandler c.ref.sel) [idxOf c.ref.sel])

def execRte (o : Head) (s : State) : Host.Outcome State Fault Refusal := issue (.rte o) rteEff s

/-- BKPT (R247, R353): halts where armed, passes after its halt, else traps. -/
def bkptEff (o : Xi) (c : Ctx) (_ : LaneMask) (s : State) : Eff :=
  if c.f.bkpt then .ok s
  else if s.dev.dbgArm && s.dev.dbgAsid == c.l.asid then
    .wait .ready .never ((({ s with dev := { s.dev with bkHit := true, dbgCore := c.b.core, dbgHalt := true } } : State).haltAll
      c.l.asid).modFrag c.ref fun f => { f with halted := true, stepped := false, bkpt := true })
  else .trap (c.trap 0x10 o.imm) s

def execBkpt (o : Xi) (s : State) : Host.Outcome State Fault Refusal := issue (.bkpt o) (bkptEff o) s

/-- TRACE (R247, R362, R365): a USR packet, and the trigger conditions that name it. -/
def traceEff (o : OpA) (c : Ctx) (m : LaneMask) (s : State) : Eff :=
  let v := c.w.sr o.a.toNat
  if m == 0 || !(s.traceOn c.b.core && c.l.asid == s.dev.trAsid) then .ok s
  else .ok (((s.firstSync c).packet c.b.core c.l.asid (some 0x50) (BitVec.ofNat 8 c.w.warpSlot :: leBytes 4 v.toNat)).trigNote c.b.core 2 v)

def execTrace (o : OpA) (s : State) : Host.Outcome State Fault Refusal := issue (.trace o) (traceEff o) s

/-- NOPRE (R248). -/
def execNopre (o : Head) (s : State) : Host.Outcome State Fault Refusal :=
  issue (.nopre o) (fun c _ s => .ok (s.modW c fun w => { w with nopre := true })) s

/-- PREOK (R248). -/
def execPreok (o : Head) (s : State) : Host.Outcome State Fault Refusal :=
  issue (.preok o) (fun c _ s => .ok (s.modW c fun w => { w with nopre := false })) s

end Sys2Proof.Machine
end

