-- ==== Sys2Proof/Machine/Predict.lean ====
section
/-! DEFINITION. Instructions performed for chosen lanes: repetitions, replays and repairs (R109, R171, R333), and branch mask
prediction (R35, R168-R173). -/

namespace Sys2Proof.Machine

/-- What an instruction does in the lanes of a mask: the lane operations, and the memory and other instructions that a
window, a repair or a replay can hold (R107, R170, R333); none for the others. -/
def bodyOf : Instr → Option (Ctx → LaneMask → State → Eff)
  | .iaddH2 o => some (lane (semIaddH2 o))
  | .isubH2 o => some (lane (semIsubH2 o))
  | .imulH2 o => some (lane (semImulH2 o))
  | .andH2 o => some (lane (semAndH2 o))
  | .orH2 o => some (lane (semOrH2 o))
  | .xorH2 o => some (lane (semXorH2 o))
  | .shlH2 o => some (lane (semShlH2 o))
  | .shrH2 o => some (lane (semShrH2 o))
  | .sarH2 o => some (lane (semSarH2 o))
  | .movH2 o => some (lane (semMovH2 o))
  | .moviH2 o => some (lane (semMoviH2 o))
  | .faddH2 o => some (lane (semFaddH2 o))
  | .fsubH2 o => some (lane (semFsubH2 o))
  | .fmulH2 o => some (lane (semFmulH2 o))
  | .fmaxH2 o => some (lane (semFmaxH2 o))
  | .fminH2 o => some (lane (semFminH2 o))
  | .iaddN3 o => some (lane (semIaddN3 o))
  | .isubN3 o => some (lane (semIsubN3 o))
  | .imulN3 o => some (lane (semImulN3 o))
  | .iminN3 o => some (lane (semIminN3 o))
  | .imaxN3 o => some (lane (semImaxN3 o))
  | .andN3 o => some (lane (semAndN3 o))
  | .orN3 o => some (lane (semOrN3 o))
  | .xorN3 o => some (lane (semXorN3 o))
  | .andnN3 o => some (lane (semAndnN3 o))
  | .shlN3 o => some (lane (semShlN3 o))
  | .shrN3 o => some (lane (semShrN3 o))
  | .sarN3 o => some (lane (semSarN3 o))
  | .faddN3 o => some (lane (semFaddN3 o))
  | .fsubN3 o => some (lane (semFsubN3 o))
  | .fmulN3 o => some (lane (semFmulN3 o))
  | .fminN3 o => some (lane (semFminN3 o))
  | .fmaxN3 o => some (lane (semFmaxN3 o))
  | .hadd2N3 o => some (lane (semHadd2N3 o))
  | .hmul2N3 o => some (lane (semHmul2N3 o))
  | .badd2N3 o => some (lane (semBadd2N3 o))
  | .bmul2N3 o => some (lane (semBmul2N3 o))
  | .movN3 o => some (lane (semMovN3 o))
  | .icmpN3 o => some (lane (semIcmpN3 o))
  | .fcmpN3 o => some (lane (semFcmpN3 o))
  | .iaddi o => some (lane (semIaddi o))
  | .shli o => some (lane (semShli o))
  | .shri o => some (lane (semShri o))
  | .sari o => some (lane (semSari o))
  | .andi o => some (lane (semAndi o))
  | .ori o => some (lane (semOri o))
  | .xori o => some (lane (semXori o))
  | .movi8 o => some (lane (semMovi8 o))
  | .icmpi o => some (lane (semIcmpi o))
  | .ld32 o => some (ld32Eff o)
  | .st32 o => some (st32Eff o)
  | .lds32 o => some (lds32Eff o)
  | .sts32 o => some (sts32Eff o)
  | .iadd o => some (lane (semIadd o))
  | .isub o => some (lane (semIsub o))
  | .iaddc o => some (lane (semIaddc o))
  | .isubb o => some (lane (semIsubb o))
  | .ineg o => some (lane (semIneg o))
  | .iabs o => some (lane (semIabs o))
  | .imul o => some (lane (semImul o))
  | .imulh o => some (lane (semImulh o))
  | .imad o => some (lane (semImad o))
  | .imadw o => some (lane (semImadw o))
  | .idiv o => some (lane (semIdiv o))
  | .irem o => some (lane (semIrem o))
  | .imin o => some (lane (semImin o))
  | .imax o => some (lane (semImax o))
  | .icmp o => some (lane (semIcmp o))
  | .isel o => some (lane (semIsel o))
  | .lea o => some (lane (semLea o))
  | .iadd64 o => some (lane (semIadd64 o))
  | .isub64 o => some (lane (semIsub64 o))
  | .shl o => some (lane (semShl o))
  | .shr o => some (lane (semShr o))
  | .sar o => some (lane (semSar o))
  | .rol o => some (lane (semRol o))
  | .ror o => some (lane (semRor o))
  | .fshl o => some (lane (semFshl o))
  | .fshr o => some (lane (semFshr o))
  | .and o => some (lane (semAnd o))
  | .or o => some (lane (semOr o))
  | .xor o => some (lane (semXor o))
  | .andn o => some (lane (semAndn o))
  | .not o => some (lane (semNot o))
  | .lut3 o => some (lane (semLut3 o))
  | .popc o => some (lane (semPopc o))
  | .clz o => some (lane (semClz o))
  | .ctz o => some (lane (semCtz o))
  | .brev o => some (lane (semBrev o))
  | .bfe o => some (lane (semBfe o))
  | .bfi o => some (lane (semBfi o))
  | .bysel o => some (lane (semBysel o))
  | .fadd o => some (lane (semFadd o))
  | .fsub o => some (lane (semFsub o))
  | .fmul o => some (lane (semFmul o))
  | .ffma o => some (lane (semFfma o))
  | .fmin o => some (lane (semFmin o))
  | .fmax o => some (lane (semFmax o))
  | .fminm o => some (lane (semFminm o))
  | .fmaxm o => some (lane (semFmaxm o))
  | .fcmp o => some (lane (semFcmp o))
  | .fsel o => some (lane (semFsel o))
  | .frnd o => some (lane (semFrnd o))
  | .fclass o => some (lane (semFclass o))
  | .fscale o => some (lane (semFscale o))
  | .hadd2 o => some (lane (semHadd2 o))
  | .hmul2 o => some (lane (semHmul2 o))
  | .hfma2 o => some (lane (semHfma2 o))
  | .badd2 o => some (lane (semBadd2 o))
  | .bmul2 o => some (lane (semBmul2 o))
  | .bfma2 o => some (lane (semBfma2 o))
  | .frcp o => some (lane (semFrcp o))
  | .frsq o => some (lane (semFrsq o))
  | .fsqrt o => some (lane (semFsqrt o))
  | .fexp2 o => some (lane (semFexp2 o))
  | .flog2 o => some (lane (semFlog2 o))
  | .fdiv o => some (lane (semFdiv o))
  | .cvt o => some (lane (semCvt o))
  | .cvt8 o => some (lane (semCvt8 o))
  | .wid8 o => some (lane (semWid8 o))
  | .cvt4 o => some (lane (semCvt4 o))
  | .wid4 o => some (lane (semWid4 o))
  | .mov o => some (lane (semMov o))
  | .movi o => some (lane (semMovi o))
  | .movs o => some (lane (semMovs o))
  | .rdsr o => some (rdsrEff o)
  | .shfl o => some (lane (shflSem o))
  | .vote o => some (lane (voteSem o))
  | .tred o => some (lane (tredSem o))
  | .xrng o => some (lane (xrngSem o))
  | .xsort o => some (lane (xsortSem o))
  | .xqnt o => some (lane (xqntSem o))
  | .xdqnt o => some (lane (xdqntSem o))
  | .nop _ => some (fun _ _ s => .ok s)
  | .ld o => some (ldEff o)
  | .st o => some (stEff o)
  | .lds o => some (ldsEff o)
  | .sts o => some (stsEff o)
  | .ldl o => some (ldlEff o)
  | .stl o => some (stlEff o)
  | .ldc o => some (ldcEff o)
  | .lda o => some (ldaEff o)
  | .atom o => some (globalAtom o (some o.d.toNat))
  | .red o => some (globalAtom o none)
  | .atoms o => some (atomsEff o)
  | .lr o => some (lrEff o)
  | .sc o => some (scEff o)
  | .waita o => some (waitaEff o)
  | .pref o => some (prefEff o)
  | .lock o => some (lockEff o)
  | .launch o => some (launchEff o)
  | _ => none

/-! ### The set-aside compare (R169) -/

/-- The compares a predicted BR can follow. -/
def cmpSem : Instr → LaneMask → Warp → Warp
  | .icmpN3 o => semIcmpN3 o
  | .fcmpN3 o => semFcmpN3 o
  | .icmpi o => semIcmpi o
  | .icmp o => semIcmp o
  | .fcmp o => semFcmp o
  | _ => fun _ w => w

/-- The predicted taken set of a BR (R169); none where it is not predicted. -/
def predSet (e : PredEntry) (h : PredHint) (m : LaneMask) : Option LaneMask :=
  match h with
  | .dynamic => if 2 ≤ e.conf then some (e.mask &&& m) else none
  | .uniform => some (if popcount m < 2 * popcount (e.mask &&& m) then m else 0)
  | .never => none

/-- A path's speculative fragment; none for no lanes. -/
def pathOf (f : Frag) (m : LaneMask) (pc : DWord) : Option Path :=
  if m == 0 then none
  else some { frag := { mask := m, pc := pc, join := f.join, depth := f.depth, rank := f.rank, handler := f.handler,
                        acquire := f.acquire } }

/-- Predict the BR that follows a compare waiting on an empty source, where R169 allows it. -/
def State.predict (s : State) (c : Ctx) (i : Instr) (regs : List (RegClass × Nat)) : Option State :=
  let l := i.layout
  let brPc := c.f.pc + BitVec.ofNat 64 i.len
  match c.ref.sel, l.ccOut with
  | .entry e, some set =>
    let empty := (l.opnds 1).any fun o => o.src && !o.regs.all (regFull c.b c.w)
    if !empty || c.l.desc.nopredict || c.b.phase != .resident || c.w.specs.any (·.entry == e) then none
    else match s.fetch c.l c.b.core brPc with
    | (_, .fault ..) => none
    | (s, .halves hs) => match decodeHalves hs with
      | .ok (.br o) =>
        if o.h.guard == .al || o.h.guard == .nv || o.h.gset != set || (c.w.parkEntry { c.f with pc := brPc }).isSome ||
            (o.h.stop && s.haltOf c.l.asid) then none
        else (predSet (tget {} (s.core c.b.core).pred (predIdx c.w brPc)) o.hint c.f.mask).map fun tp =>
          let p : Spec :=
            { entry := e, cmp := i, br := o, brPc := brPc, tp := tp, taken := pathOf c.f tp (relTarget brPc o.target),
              fall := pathOf c.f (c.f.mask &&& ~~~tp) (brPc + 8), since := s.nextReq, v0 := c.w.v, cc0 := c.w.cc0,
              cc1 := c.w.cc1 }
          (s.modW c fun w => { w with specs := w.specs ++ [p] }).modFrag c.ref fun f =>
            { f with st := .waitConfirm, cond := .full regs }
      | _ => none
  | _, _ => none

/-- Issue a compare: as any instruction, but one that waits on an empty source may be set aside (R169). -/
def issueCmp (i : Instr) (s : State) : Host.Outcome State Fault Refusal :=
  match s.cur.bind s.ctx? with
  | none => .fault .noIssuer
  | some c =>
    match gate s c i.layout with
    | some (.wait .waitReg (.full rs) s') => .next ((s.predict c i rs).getD (finish c i (.wait .waitReg (.full rs) s')))
    | some e => .next (finish c i e)
    | none => .next (finish c i (lane (cmpSem i) c (c.w.execMask c.f.mask i.layout.head) s))

/-- ICMP_N3: issue (R169). -/
def execIcmpN3 (o : N3) (s : State) : Host.Outcome State Fault Refusal := issueCmp (.icmpN3 o) s
/-- FCMP_N3: issue (R169). -/
def execFcmpN3 (o : N3) (s : State) : Host.Outcome State Fault Refusal := issueCmp (.fcmpN3 o) s
/-- ICMPI: issue (R169). -/
def execIcmpi (o : NI) (s : State) : Host.Outcome State Fault Refusal := issueCmp (.icmpi o) s
/-- ICMP: issue (R169). -/
def execIcmp (o : Xr) (s : State) : Host.Outcome State Fault Refusal := issueCmp (.icmp o) s
/-- FCMP: issue (R169). -/
def execFcmp (o : Xr) (s : State) : Host.Outcome State Fault Refusal := issueCmp (.fcmp o) s

/-! ### Discarding a window's results (R171, R172) -/

/-- A request of a window: of a path of an entry, sent since. -/
def Req.ofWindow (q : Req) (r : FragRef) (since : Nat) : Bool :=
  q.block == r.block && q.warp == r.warp && decide (since ≤ q.id) &&
  (match q.sel with | .path e _ => e == idxOf r.sel | .entry _ => false)

/-- Lanes return to the registers and flags of a checkpoint. -/
def Warp.restore (w : Warp) (m : LaneMask) (v : Vector (Lanes Word) 128) (cc0 cc1 : Lanes CC) : Warp :=
  if m == 0 then w
  else { w with v := Vector.ofFn fun n => lanesSet w.v[n] m fun l => v[n][l],
                cc0 := lanesSet w.cc0 m fun l => cc0[l], cc1 := lanesSet w.cc1 m fun l => cc1[l] }

/-- Take lanes out of the window's transform-pipe instructions; one left without lanes is over. -/
def State.trimPipe (s : State) (c : Ctx) (m : LaneMask) : State :=
  let cut (p : PipeItem) : PipeItem := if p.spec then { p with lanes := p.lanes &&& ~~~m } else p
  let gone := ((s.warpOf c).pipe.filter fun p => p.spec && p.lanes &&& ~~~m == 0).flatMap PipeItem.dests
  let s := s.modW c fun w => { w with pipe := (w.pipe.map cut).filter fun p => !(p.spec && p.lanes == 0) }
  gone.foldl (fun s r => if s.regsDue c.ref.block c.ref.warp 0 [r] then s else s.modW c fun w => w.mark true r) s

/-- Discard what a window did in some lanes. -/
def State.undoWindow (s : State) (c : Ctx) (since : Nat) (m : LaneMask) (v : Vector (Lanes Word) 128) (cc0 cc1 : Lanes CC) :
    State :=
  let s := s.discard fun q => q.ofWindow c.ref since && m.getLsbD q.lane
  ((s.modW c fun w => w.restore m v cc0 cc1).trimPipe c m)

/-- A REP started in a window that is discarded is over. -/
def Warp.dropRep (w : Warp) (sel : FragSel) : Warp :=
  match w.rep with
  | some r => if r.owner == sel then { w with rep := none, repc := 0 } else w
  | none => w

/-- Unwind an unconfirmed BR (R172): every speculative result is discarded, and the fragment stands at the set-aside
compare. -/
def State.unwind (s : State) (r : WarpRef) (p : Spec) : State :=
  match s.ctx? ⟨r.block, r.warp, .entry p.entry⟩ with
  | none => s
  | some c =>
    let s := s.undoWindow c p.since c.f.mask p.v0 p.cc0 p.cc1
    (s.modW c fun w =>
      { (w.dropRep (.path p.entry true)).dropRep (.path p.entry false) with
        specs := w.specs.filter (·.entry != p.entry) }).modFrag c.ref Frag.wake

/-- Unwind every unconfirmed BR of a warp. -/
def State.unwindAll (s : State) (r : WarpRef) : State :=
  match s.warp? r.block r.warp with
  | none => s
  | some w => w.specs.foldl (fun s p => s.unwind r p) s

/-! ### Confirmation (R171) -/

/-- The repair a path's child makes before it goes on: the path's instructions for the lanes left out. -/
def Path.repair (x : Path) (omitted : LaneMask) : List Redo :=
  if omitted == 0 then [] else x.log.map fun e => { pc := e.1, i := e.2, lanes := omitted, replay := false }

/-- The trap that a path's child takes for the one held on its path (R66, R172): an instruction's own, for the child's lanes, if one
of them executed it; one that some lanes caused, where they are all confirmed and none was left out, and else the instruction
issues again and is judged anew. (DEDUCED, unsafe: notes/assumptions/66.md). -/
def Path.trapOf (x : Path) (m : LaneMask) : Option TrapInfo :=
  match x.frag.held with
  | none => none
  | some t =>
    if t.mask &&& m == 0 then none
    else if t.mask == x.frag.mask && t.addr == 0 then some { t with mask := m }
    else if t.mask &&& ~~~m == 0 && m &&& ~~~x.frag.mask == 0 then some t
    else none

/-- A path's child after confirmation: at the PC its path reached, with its repair to make and the trap held for it. -/
def Frag.confirmed (g : Frag) (p : Spec) (x : Option Path) (start : DWord) (held : Option TrapInfo) : Frag :=
  let mine (t : TrapInfo) : Bool := t.mask &&& g.mask != 0
  let g := { g.settle with held := held.filter mine }
  match x with
  | none => g
  | some x =>
    let redo := x.repair (g.mask &&& ~~~x.frag.mask)
    { g with
      pc := x.frag.pc, redo := redo
      undo := if redo.isEmpty then none else
        some ⟨start, p.since, p.v0, p.cc0, p.cc1, if g.mask &&& x.frag.mask == 0 then none else x.tick⟩
      acquire := match g.acquire, x.frag.acquire with | some a, some b => some (max a b) | none, b => b | a, none => a
      held := (x.trapOf g.mask).orElse fun _ => g.held }

/-- The TICKHI half of a confirmed path is the warp's (R55), unless its child has repairs to make first. -/
def Warp.takeTick (w : Warp) (e : Fin 32) (x : Option Path) : Warp :=
  match w.split[e], x with
  | some g, some x => if g.redo.isEmpty && g.mask &&& x.frag.mask != 0 then { w with tick := laterTick w.tick x.tick } else w
  | _, _ => w

/-- The window's end for the pipe: instructions of lanes that have no repair to make are ordinary ones from now on. -/
def Warp.settlePipe (w : Warp) (m : LaneMask) : Warp :=
  { w with pipe := w.pipe.map fun p => if p.lanes &&& m == p.lanes then { p with spec := false } else p }

/-- The stop sites of a confirmed path are issued now (R348, R365). -/
def State.noteLog (s : State) (c : Ctx) (x : Option Path) : State :=
  match x with
  | none => s
  | some x => x.log.foldl (fun s e => s.noteIssue { c with f := { c.f with pc := e.1 } } e.2.layout) s

/-- Confirmation of a predicted BR once its compare can be evaluated. (DEDUCED, unsafe: notes/assumptions/66.md). -/
def State.confirm (s : State) (c : Ctx) (p : Spec) : State :=
  let m := c.f.mask
  let then_ : Warp := { c.w with v := p.v0, cc0 := p.cc0, cc1 := p.cc1 }
  let done := cmpSem p.cmp (then_.execMask m p.cmp.layout.head) then_
  let t := m &&& maskOf fun l => holds p.br.h.guard (done.cc p.br.h.gset l)
  let n := m &&& ~~~t
  let wrong (x : Option Path) (true_ : LaneMask) : LaneMask := match x with | some x => x.frag.mask &&& ~~~true_ | none => 0
  let s := (s.noteIssue c p.cmp.layout).noteIssue { c with f := { c.f with pc := p.brPc } } (Instr.br p.br).layout
  let s := s.undoWindow c p.since (wrong p.taken t ||| wrong p.fall n) p.v0 p.cc0 p.cc1
  let s := s.modW c fun w => w.setCC p.br.h.gset m fun l => done.cc p.br.h.gset l
  let s := s.predUpdate c p.brPc m t
  let s := s.packet c.b.core c.l.asid (some 0x40)
    ([BitVec.ofNat 8 c.w.warpSlot, BitVec.ofNat 8 (idxOf c.ref.sel).val] ++ leBytes 4 p.tp.toNat)
  let s := s.brm c t
  let fall := p.brPc + 8
  let target := relTarget p.brPc p.br.target
  let (w, l) := (s.warpOf c).resolveBr p.entry t target fall (joinAddr p.brPc p.br.join)
  let kids : List (Fin 32 × Option Path × DWord) :=
    if t == 0 then l.map fun k => (k, p.fall, fall) else if n == 0 then l.map fun k => (k, p.taken, target)
    else match l with
      | [a, b] => [(a, p.taken, target), (b, p.fall, fall)]
      | _ => []
  let w := kids.foldl (fun (w : Warp) k =>
    (w.modFrag (fun g => g.confirmed p k.2.1 k.2.2 c.f.held) (.entry k.1)).takeTick k.1 k.2.1) w
  let own (taken : Bool) (w : Warp) : Warp := match w.rep with
    | some r => if r.owner == .path p.entry taken then
        (match l, (if taken then t else n) == 0 with
          | _, true => { w with rep := none, repc := 0 }
          | [a], _ => { w with rep := some { r with owner := .entry a } }
          | [a, b], _ => { w with rep := some { r with owner := .entry (if taken then a else b) } }
          | _, _ => w)
      else w
    | none => w
  let w := own false (own true w)
  let settled := kids.foldl (fun (m : LaneMask) k => match w.split[k.1] with
    | some g => if g.redo.isEmpty then m ||| g.mask else m
    | none => m) 0
  let s := s.modW c fun _ => ({ w with specs := w.specs.filter (·.entry != p.entry) } : Warp).settlePipe settled
  let s := if t == 0 then s else s.noteLog c p.taken
  if n == 0 then s else s.noteLog c p.fall

/-- BRANCH_CONFIRM (R171): the sources of the set-aside compare are full. -/
def execBranchConfirm (r : FragRef) (s : State) : Host.Outcome State Fault Refusal :=
  match s.ctx? r with
  | none => .fault .noSuchObject
  | some c => match c.w.specs.find? fun p => r.sel == .entry p.entry with
    | none => .fault .notEnabled
    | some p => if s.condMet c c.f.cond then .next (s.confirm c p) else .fault .notEnabled

/-! ### Replays and repairs -/

/-- A repair that traps (R172): the child's lanes return to the path's start, and issue the path again. -/
def State.rollback (s : State) (c : Ctx) (u : Undo) : State :=
  let m := c.f.mask
  let s := s.discard fun q => q.block == c.ref.block && q.warp == c.ref.warp && decide (u.since ≤ q.id) && m.getLsbD q.lane
  let s := (s.modW c fun w => (w.restore m u.v u.cc0 u.cc1).dropRep c.ref.sel).trimPipe c m
  s.modFrag c.ref fun f => { f.wake with pc := u.pc, redo := [], undo := none, held := none }

/-- An instruction of the list has been performed: the next one is due; a repair at its end needs no checkpoint more. -/
def State.redoNext (s : State) (c : Ctx) : State :=
  let half := (s.warpOf c).pathTick c.ref.sel
  let s := s.modFrag c.ref fun f =>
    { f.wake with redo := f.redo.tail, undo := if f.redo.tail.isEmpty then none else f.undo
                  released := false, deadline := none, offer := none }
  if c.f.redo.tail.isEmpty then
    s.modW c fun w => ({ w with tick := laterTick w.tick half } : Warp).settlePipe c.f.mask
  else s

/-- The registers of an instruction that nothing more is to come for become full. -/
def State.settleRegs (s : State) (uid wi : Nat) (rs : List (RegClass × Nat)) : State :=
  rs.foldl (fun s r => if s.regsDue uid wi 0 [r] then s else s.modWarp uid wi fun w => w.mark true r) s

/-- What performing an instruction of the list again comes to; where it traps, nothing more is to come for what it was to write. -/
def redoFinish (c : Ctx) (x : Redo) : Eff → State
  | .ok s => s.redoNext c
  | .went s => s.redoNext c
  | .wait st cond s => s.modFrag c.ref fun f => { f with st := st, cond := cond }
  | .park lanes id s =>
    ((s.redoNext c).modW c fun w => w.markAll false (writesRegs x.i)).modFrag c.ref fun f =>
      { f with st := .parkedReplay, deadline := c.f.deadline, replay := some (.mem x.pc x.i lanes id c.seq) }
  | .trap t s =>
    let s := (s.modFrag c.ref fun f => { f with redo := [] }).settleRegs c.ref.block c.ref.warp (writesRegs x.i)
    match c.f.undo with
    | some u => s.rollback c u
    | none => s.takeTrap c t

/-- A repair's pipe instruction stays under the checkpoint until the repair is over. -/
def State.markPipe (s : State) (c : Ctx) (x : Redo) : State :=
  match x.i with
  | .xrng _ | .xdqnt _ => if x.replay then s else s.modW c fun w =>
      { w with pipe := w.pipe.dropLast ++ (w.pipe.getLast?.map fun p => { p with spec := true }).toList }
  | _ => s

/-- Perform the first instruction of a fragment's list (R171, R333): a replay in its unfinished lanes, once the core has room for their
requests (R2); a repair in the lanes
left out, its guard evaluated there, once its sources and destinations are full. -/
def State.redoStep (s : State) (r : FragRef) : State :=
  match s.ctx? r with
  | none => s
  | some c0 => match c0.f.redo with
    | [] => s
    | x :: _ =>
      let c : Ctx := { c0 with f := { c0.f with pc := x.pc }, seq := if x.replay then x.ins else c0.seq }
      match bodyOf x.i with
      | none => s.redoNext c
      | some body =>
        if x.replay then
          let room : WaitCond := .requestRoom (popcount x.lanes)
          redoFinish c x (if x.i.layout.sendsRequests && !s.condMet c room then .wait .waitResource room s else body c x.lanes s)
        else match gate s c x.i.layout true with
        | some e => redoFinish c x e
        | none => redoFinish c x (match body c (c.w.execMask x.lanes x.i.layout.head) s with
          | .ok s => .ok (s.markPipe c x)
          | e => e)

end Sys2Proof.Machine
end

