-- ==== Sys2Proof/Machine/Issue.lean ====
section
/-! DEFINITION. Issue: what a fragment does when its turn comes (R32, R86, R109, R112, R333, R351), and the choice a core's
schedulers make in a cycle (R311-R314), with the fairness and stall counts (R39, R356). -/

namespace Sys2Proof.Machine

/-! ### Loads issued again after a restore (R316) -/

/-- A fragment is parked on a load that was to be issued again: its instruction, the lanes and the fault. -/
def Frag.reissuing (f : Frag) : Option (Nat × LaneMask × Nat) :=
  match f.replay with | some (.reissue _ m id n) => some (n, m, id) | _ => none

/-- A load that a stop has cancelled may be issued again now: the core has room for it (R2), and its fragment is not parked on it or on
one before it. -/
def State.reissuable (s : State) (b : Block) (f : Frag) (q : Req) : Bool :=
  decide ((s.reqs.filter fun x => x.core == b.core).length < Config.maxRequests) &&
  (match f.reissuing with | some (n, m, _) => n == q.ins && !m.getLsbD q.lane | none => true)

/-- Issue one cancelled load again, as a new load (R316), once it may be: translated anew; a replayable fault parks the fragment with
the lanes that meet it, which issues nothing before its own (R331, R333), and any other traps (R336). -/
def State.reissueOne (s : State) (uid : Nat) (q : Req) : State :=
  match s.block? uid, s.warp? uid q.warp with
  | some b, some w => match w.frags.find? fun x => x.2.mask.getLsbD q.lane with
    | none => s
    | some (i, f) =>
      let keep (s : State) : State := s.modBlock uid fun b => { b with reissue := b.reissue ++ [q] }
      if !s.reissuable b f q then keep s
      else
        let q' : Req := { q with core := b.core, quad := s.quadOf b.core, die := s.dieOf b.core, st := .queued }
        match s.xlate (s.quadOf b.core) q.asid q.va .rd with
        | (s, .ok pa a) => s.send { q' with pa := pa, attr := a }
        | (s, .fault code mal) =>
          if code == 9 || !s.fq.en then
            let t := s.send q'
            match t.req? s.nextReq with
            | some x => t.failReq x (BitVec.ofNat 8 code) (if code == 9 then (if mal then 16 else 0) else 0)
            | none => t
          else
            let (s, id) := match f.reissuing with
              | some p => (s, p.2.2)
              | none => s.postFault code .rd q.asid q.va b.lid b.core w.warpSlot
            let lanes : LaneMask := (match f.reissuing with | some p => p.2.1 | none => 0) ||| (1#32 <<< q.lane)
            (keep s).modFrag ⟨uid, q.warp, .entry i⟩ fun f =>
              { f with st := .parkedReplay, replay := some (.reissue q.pc lanes id q.ins) }
  | _, _ => s

/-- Issue a block's cancelled loads again, in their order (R316). -/
def State.reissueAll (s : State) (uid : Nat) : State :=
  match s.block? uid with
  | none => s
  | some b => b.reissue.foldl (fun s q => s.reissueOne uid q) (s.modBlock uid fun b => { b with reissue := [] })

/-- The loads of a core's blocks that still wait to be issued again. -/
def State.reissueCore (s : State) (core : Nat) : State :=
  (s.blocks.filter fun b => b.core == core && b.phase == .resident && !b.reissue.isEmpty).foldl (fun s b => s.reissueAll b.uid) s

/-- A load of the warp waits to be issued again, for room and for no fault: the warp issues nothing before it (R316). -/
def Ctx.reissueDue (c : Ctx) : Bool :=
  c.b.reissue.any fun q => q.warp == c.ref.warp && !(c.w.frags.any fun x => x.2.mask.getLsbD q.lane && x.2.reissuing.isSome)

/-! ### The turn of one fragment -/

/-- A block's warps may issue (R316): it is resident, or being stopped while a warp inside a NOPRE region runs on; the window does not
run while the warp is halted (R354). -/
def mayIssue (now : Nat) (b : Block) (w : Warp) : Bool :=
  match b.phase with
  | .resident => true
  | .stopping t0 _ => w.nopre && decide (now < t0 + 2000 + w.windowHeld)
  | _ => false

/-- The fragment is one that issues now. -/
def State.issues (s : State) (c : Ctx) : Bool :=
  c.f.st == .ready && !c.f.isHalted && c.l.st != .aborted && mayIssue s.time c.b c.w

/-- A halted fragment that a STEP has let go moves on (R352). -/
def State.moveOn (s : State) (c : Ctx) : State × Ctx :=
  if c.f.halted then (s.modFrag c.ref fun f => { f with halted := false }, { c with f := { c.f with halted := false } }) else (s, c)

/-- The REP in progress that a fragment stands at (R109). -/
def Ctx.inRep (c : Ctx) : Option (RepState × RepFields) :=
  match c.w.rep with
  | some r => if r.owner == c.ref.sel && r.addr == c.f.pc then r.f.map (r, ·) else none
  | none => none

/-- The instruction of the iteration due (R108, R109). -/
def Ctx.repInstr (c : Ctx) (r : RepState) (f : RepFields) : Option Instr := stepped f r.len r.word (fieldOf c.w.repc 0 6)

/-- One iteration of a REP (R109): the stepped instruction, its trap at the address of the prefix. -/
def State.repStep (s : State) (c : Ctx) (r : RepState) (f : RepFields) : State :=
  match c.repInstr r f with
  | none => s.trapOr c (c.trap 1 4)
  | some j =>
    match gate s c j.layout true with
    | some e => finish c j e
    | none => match bodyOf j with
      | none => s.trapOr c (c.trap 1 3)
      | some body => match body c (c.w.execMask c.f.mask j.layout.head) s with
        | .ok s => (s.noteIssue c j.layout).modW c fun w => (w.noteWindow c.ref.sel c.f.pc j 0).repNext r f
        | e => finish c j e

/-- REP_ITERATION (R109). -/
def execRepIteration (r : WarpRef) (s : State) : Host.Outcome State Fault Refusal :=
  match s.warp? r.block r.warp with
  | none => .fault .noSuchObject
  | some w => match w.rep with
    | none => .fault .notEnabled
    | some p => match s.ctx? ⟨r.block, r.warp, p.owner⟩ with
      | none => .fault .noSuchObject
      | some c => match c.inRep with
        | some x =>
          if s.issues c && c.f.redo.isEmpty && c.f.held.isNone then
            let y := s.moveOn c
            .next (y.1.repStep y.2 x.1 x.2)
          else .fault .notEnabled
        | none => .fault .notEnabled

/-- A BKPT that ARM makes a halt of its own and that has not halted its fragment yet (R353). -/
def State.armedBkpt (s : State) (c : Ctx) (i : Instr) : Bool :=
  match i with
  | .bkpt _ => s.dev.dbgArm && s.dev.dbgAsid == c.l.asid && !c.f.bkpt
  | _ => false

/-- A fragment halts at a stop site of a halted context, unless it was let go there (R351, R352); at an armed BKPT that BKPT halts
it (R353). -/
def State.haltsAt (s : State) (c : Ctx) (i : Instr) : Bool :=
  i.layout.stop && s.haltOf c.l.asid && !c.f.resumed && !s.armedBkpt c i

/-- A fragment halts where it stands. -/
def State.haltFrag (s : State) (c : Ctx) : State :=
  s.modFrag c.ref fun f => if isPath c.ref.sel then { f with st := .waitConfirm, cond := .never } else { f with halted := true, stepped := false, site := true }

/-- A fragment takes the trap held for it, at the PC it has reached; in a window it waits for confirmation first. (DEDUCED, unsafe: notes/assumptions/37.md). -/
def State.takeHeld (s : State) (c : Ctx) (t : TrapInfo) : State :=
  if isPath c.ref.sel then s.modFrag c.ref fun f => { f with st := .waitConfirm, cond := .never }
  else (s.modFrag c.ref fun f => { f with held := none }).takeTrap { c with f := { c.f with held := none } } t

/-- What a fragment is about to do. -/
inductive Todo where
  | redo (x : Redo)
  | held (t : TrapInfo)
  | park (e : Fin 32)
  | rep (r : RepState) (f : RepFields)
  | noFetch (code : Nat) (info : Word) (va : Nat)
  | bad (e : DecErr)
  | halt
  | run (i : Instr)

/-- A path reaches the join address of the branch it speculates on: there the branch, once resolved, may make it park (R30, R32). -/
def Ctx.atOwnJoin (c : Ctx) : Bool :=
  match c.ref.sel with
  | .entry _ => false
  | .path e _ => match c.w.specs.find? (·.entry == e) with
    | some p => joinAddr p.brPc p.br.join == some c.f.pc
    | none => false

/-- The entry a fragment parks at, by R32 (R170): for a path at its own branch's join address, which the entry is made for at
confirmation only, any. -/
def Ctx.parksAt (c : Ctx) : Option (Fin 32) :=
  match c.w.parkEntry c.f with
  | some e => some e
  | none => if c.atOwnJoin then some 0 else none

/-- What a fragment is about to do: first what it owes, then its PC (R32, R86, R109, R112). -/
def State.todo (s : State) (c : Ctx) : State × Todo :=
  match c.f.redo with
  | x :: _ => (s, .redo x)
  | [] => match c.f.held with
    | some t => (s, .held t)
    | none => match c.parksAt with
      | some e => (s, .park e)
      | none => match c.inRep with
        | some (r, f) => (s, .rep r f)
        | none => match s.fetch c.l c.b.core c.f.pc with
          | (s, .fault code info va) => (s, .noFetch code info va)
          | (s, .halves hs) => match decodeHalves hs with
            | .error e => (s, .bad e)
            | .ok i => if s.haltsAt c i then (s, .halt) else (s, .run i)

/-- A fragment at a join address of its chain parks there (R32); in a window it waits for confirmation. -/
def State.parkFrag (s : State) (c : Ctx) (e : Fin 32) : State :=
  match c.ref.sel with
  | .entry i => s.afterMasks c ((s.warpOf c).parkAt i e)
  | .path _ _ => s.modFrag c.ref fun f => { f with st := .waitConfirm, cond := .never }

/-- A fetch that failed: in a window, the fragment waits for confirmation. -/
def State.noFetch (s : State) (c : Ctx) (code : Nat) (info : Word) (va : Nat) : State :=
  if isPath c.ref.sel then s.modFrag c.ref fun f => { f with st := .waitConfirm, cond := .never }
  else finish c (.nop ⟨false, false, false, .al, false⟩) (fetchFault c code info va s)

/-- A fragment that has stopped being ready in a halted context is halted where it stands (R351). -/
def Warp.haltNew (w : Warp) (before : Warp) : Warp :=
  { w with split := Vector.ofFn fun i => (w.split[i]).map fun f =>
      let was := match before.split[i] with | some g => g.st == .ready | none => true
      if was && f.st != .ready && f.st != .waitConfirm then { f with halted := true } else f }

/-- After a fragment's turn. -/
def State.afterTurn (s : State) (c : Ctx) : State :=
  if s.haltOf c.l.asid then s.modW c fun w => w.haltNew c.w else s

/-- The turn of a fragment the core has picked: it does what it is about to do, or has nothing to do. -/
def pickStep (run : Instr → State → Host.Outcome State Fault Refusal) (r : FragRef) (s : State) :
    Host.Outcome State Fault Refusal :=
  let s := { s with cur := some r }
  match s.ctx? r with
  | none => .next s
  | some c0 =>
    if !s.issues c0 || c0.reissueDue then .next s
    else
      let y := s.moveOn c0
      let c := y.2
      match y.1.todo c with
      | (s, .redo _) => .next ((s.redoStep r).afterTurn c)
      | (s, .held t) => .next ((s.takeHeld c t).afterTurn c)
      | (s, .park e) => .next ((s.parkFrag c e).afterTurn c)
      | (s, .rep p f) => .next ((s.repStep c p f).afterTurn c)
      | (s, .noFetch code info va) => .next ((s.noFetch c code info va).afterTurn c)
      | (s, .bad e) => .next ((s.trapOr c (c.trap (decCause e).1 (decCause e).2)).afterTurn c)
      | (s, .halt) => .next (s.haltFrag c)
      | (s, .run i) => match run i s with
        | .next t => .next (if s.haltOf c.l.asid then t.modW c fun w => w.haltNew c.w else t)
        | o => o

/-! ### The choice of a cycle (R311-R314) -/

/-- A fragment that would act in this cycle: an instruction that issues (with its layout and the v registers it reads), or
an action that takes no issue slot and the reason it will wait for (R356). -/
structure Cand where
  ref : FragRef
  l : Option Layout
  reads : List Nat
  reason : Nat
  deriving DecidableEq, Repr

/-- The stall reason of a fragment state (R356); of one held by R330, which the table does not name, that of the memory queue. (DEDUCED, unsafe: notes/assumptions/49.md). -/
def reasonOf (st : FragState) (cond : WaitCond) : Nat :=
  match st with
  | .ready => 15
  | .parkedJoin | .waitFragment => 8
  | .parkedReplay => 1
  | .waitReg => 3
  | .waitHandle => 4
  | .waitBarrier | .waitChain => 6
  | .waitObject => 7
  | .waitFence => 5
  | .sleeping | .waitAddress => 14
  | .waitResource => (match cond with | .opRecord | .sumpRoom => 13 | .requestRoom _ => 10 | _ => 9)
  | .waitConfirm => 2
  | .waitTranslation => 10

/-- The v registers an instruction reads, each once (R313). -/
def Layout.vReads (l : Layout) (dims : Nat) : List Nat :=
  (((l.opnds dims).filter fun o => o.src && o.cls == .v).flatMap fun o => o.regs.map (·.2)).dedup

/-- What the instructions that can wait in their own effect do, those of `bodyOf` apart: synchronisation, engines and resources. -/
def waitBody (i : Instr) : Option (Ctx → LaneMask → State → Eff) :=
  match i with
  | .fence o => some (fenceEff o)
  | .mst o => some (mstEff o)
  | .l1inv o => some (l1invEff o)
  | .bank o => some (bankEff o)
  | .barv o => some (barvEff o)
  | .bwait o => some (bwaitEff o)
  | .boarv o => some (boarvEff o)
  | .bowait o => some (bowaitEff o)
  | .copy o => some (copyEff o)
  | .copym o => some (copymEff o)
  | .copyl o => some (copylEff o)
  | .copyx o => some (copyxEff o)
  | .mlw o => some (mlwEff o)
  | .mma o => some (mmaEff o)
  | .mdr o => some (mdrEff o)
  | .mws o => some (mwsEff o)
  | .scan o => some (scanEff o)
  | .topk o => some (topkEff o)
  | .smax o => some (smaxEff o)
  | .samp o => some (sampEff o)
  | .csend o => some (csendEff o)
  | .crecv o => some (crecvEff o)
  | .cleave _ => some cleaveEff
  | .wrsr o => some (wrsrEff o)
  | .sleep o => some (sleepEff o)
  | .rep o => some (repEff (o.h.guard == .al) o.f 8)
  | .repNP o => some (repEff true o 4)
  | .bkpt o => some (bkptEff o)
  | i => bodyOf i

/-- The reason an instruction will wait for in its own effect, if it does: it does not issue then (R356). A SLEEP or WAITA has issued
once it waits. -/
def State.waitsFor (s : State) (c : Ctx) (i : Instr) : Option Nat :=
  let r : Option Eff := (waitBody i).map fun body => body c (c.w.execMask c.f.mask i.layout.head) s
  match r with
  | some (.wait st cond _) => if (st == .sleeping || st == .waitAddress) && c.f.deadline.isNone then none else some (reasonOf st cond)
  | _ => none

/-- What a fragment that issues would do in this cycle. (DEDUCED, unsafe: notes/assumptions/49.md). -/
def State.candidate (s : State) (c : Ctx) : Cand :=
  let act (n : Nat) : Cand := ⟨c.ref, none, [], n⟩
  let instr (s : State) (c : Ctx) (i : Instr) (free : Bool) : Cand :=
    let l := i.layout
    match gate s c l free with
    | some (.wait st cond _) => act (reasonOf st cond)
    | some _ => ⟨c.ref, some l, Layout.vReads l (vaultDims s c.l.asid c.w l), 15⟩
    | none => match s.waitsFor c i with
      | some n => act n
      | none => ⟨c.ref, some l, Layout.vReads l (vaultDims s c.l.asid c.w l), 15⟩
  match s.todo c with
  | (s, .redo x) => if x.replay then ⟨c.ref, some x.i.layout, Layout.vReads x.i.layout 1, 15⟩ else instr s { c with f := { c.f with pc := x.pc } } x.i true
  | (_, .held _) => act 15
  | (_, .park _) => act 8
  | (s, .rep r f) => (match c.repInstr r f with | some i => instr s c i true | none => act 15)
  | (_, .noFetch _ _ _) => act 0
  | (_, .bad _) => act 15
  | (_, .halt) => act 15
  | (s, .run i) => instr s c i false

/-- The fragments of a warp, its speculative ones included, with their ranks. -/
def Warp.allFrags (w : Warp) : List (FragSel × Frag) :=
  (w.frags.map fun x => (FragSel.entry x.1, x.2)) ++ w.specs.flatMap fun p =>
    (match p.taken with | some x => [(FragSel.path p.entry true, x.frag)] | none => []) ++
    (match p.fall with | some x => [(FragSel.path p.entry false, x.frag)] | none => [])

/-- The fragments of a core's scheduler that would act, in the order of R311. -/
def State.candidates (s : State) (core k : Nat) : List Cand :=
  let ws := (s.coreWarps core).filter fun x => x.2.2.sched == k
  let fs := ws.flatMap fun (b, i, w) => w.allFrags.map fun x => (w.age * 64 + x.2.rank.toNat * 2, (⟨b.uid, i, x.1⟩ : FragRef))
  (sortBy (·.1) fs).filterMap fun x => match s.ctx? x.2 with
    | none => none
    | some c => if s.issues c then some (if c.reissueDue then ⟨c.ref, none, [], 10⟩ else s.candidate c) else none

/-- The unit of the core an instruction needs (R314). -/
def Cand.unit? (x : Cand) : Option Nat := x.l.bind fun l => if l.pipe == .eng then some l.engUnit else none

/-- Two instructions read no more than two v registers of any bank (R313). -/
def bankOk (a b : List Nat) : Bool := (List.range 4).all fun k => decide (((a ++ b).filter fun n => n % 4 == k).length ≤ 2)

/-- A scheduler's choice among its candidates, without those whose unit serves another scheduler (R313). -/
def choose (cs : List Cand) (blocked : List Nat) : List Cand :=
  let ok := cs.filter fun x => x.l.isSome && (match x.unit? with | some u => !blocked.contains u | none => true)
  match ok with
  | [] => []
  | a :: r =>
    a :: (r.find? fun b => b.ref != a.ref && (b.l.map Layout.pipe) != (a.l.map Layout.pipe) && bankOk a.reads b.reads).toList

/-- The scheduler a unit serves: the first of those that ask after the one it served last (R314). -/
def serves (ptr : Nat) (asking : List Nat) : Option Nat :=
  ((List.range 4).map fun k => (ptr + 1 + k) % 4).find? asking.contains

/-- The pointer of a unit. -/
def Core.ptr (k : Core) (u : Nat) : Nat := if u = 0 then k.tpPtr else if u = 1 then k.mxPtr else if u = 2 then k.scPtr else k.portPtr

/-- Every scheduler's choice, the units given out, on fuel: each round turns away at most the schedulers a unit does not
serve. -/
def settleUnits (k : Core) (cs : List (List Cand)) : Nat → List (Nat × Nat) → List (List Cand)
  | 0, bl => (cs.zipIdx).map fun x => choose x.1 ((bl.filter (·.1 == x.2)).map (·.2))
  | n + 1, bl =>
    let picks := (cs.zipIdx).map fun x => choose x.1 ((bl.filter (·.1 == x.2)).map (·.2))
    let asks (u : Nat) : List Nat := ((picks.zipIdx).filter fun x => x.1.any fun y => y.unit? == some u).map (·.2)
    let lose := (List.range 4).flatMap fun u => match serves (k.ptr u) (asks u) with
      | none => []
      | some w => ((asks u).filter (· != w)).map (·, u)
    if lose.isEmpty then picks else settleUnits k cs n (bl ++ lose)

/-- The pointers after a cycle. -/
def Core.serve (k : Core) (picks : List (List Cand)) : Core :=
  let who (u : Nat) : Option Nat := ((picks.zipIdx).find? fun x => x.1.any fun y => y.unit? == some u).map (·.2)
  { k with tpPtr := (who 0).getD k.tpPtr, mxPtr := (who 1).getD k.mxPtr, scPtr := (who 2).getD k.scPtr,
           portPtr := (who 3).getD k.portPtr }

/-- A fragment's wait count after a cycle (R39). -/
def Frag.count (f : Frag) (issued other : Bool) : Frag :=
  if issued then { f with wait := 0 }
  else if other && f.st == .ready && !f.isHalted && f.wait.toNat < 8191 then { f with wait := f.wait + 1 } else f

/-- The stall reason of a warp none of whose fragments issues (R356), from those that are not halted (R351); `busy` are the units that have taken an instruction in the
cycle. (DEDUCED, unsafe: notes/assumptions/49.md). -/
def Warp.stallReason (w : Warp) (uid wi : Nat) (all : List Cand) (busy : List Nat) : Nat :=
  let reason (x : FragSel × Frag) : Nat :=
    match all.find? fun y => y.ref == ⟨uid, wi, x.1⟩ with
    | some y =>
      if y.unit? == some 0 && busy.contains 0 then 12 else if y.unit? == some 3 && busy.contains 3 then 13 else y.reason
    | none => reasonOf x.2.st x.2.cond
  ((w.allFrags.filter fun x => !x.2.isHalted).map reason).foldl min 15

/-- A warp's counts after a cycle (R39, R356). -/
def Warp.countCycle (w : Warp) (uid wi : Nat) (issued : List FragRef) (all : List Cand) (busy : List Nat) : Warp :=
  let mine := (issued.filter fun r => r.block == uid && r.warp == wi).map (·.sel)
  if mine.isEmpty then
    if w.frags.isEmpty || w.frags.all (·.2.isHalted) then w
    else
      let r := w.stallReason uid wi all busy
      { w with stalls := vset w.stalls r (satInc (vget 0 w.stalls r)), reason := r }
  else
    let upd (i : Fin 32) (f : Frag) : Frag := f.count (mine.contains (.entry i)) (mine.any (· != .entry i))
    { w with split := Vector.ofFn fun i => (w.split[i]).map (upd i), reason := 0xFF }

/-- The trigger conditions of a core's last cycle change a trigger's state (R365): never one with a reserved kind. -/
def State.trigDue (s : State) (c : Nat) (n : Fin 4) : Bool :=
  let e := (s.core c).trigEv[n]
  s.trigs[n].en && decide (s.trigs[n].start ≤ 3) && decide (s.trigs[n].stop ≤ 3) && (if s.trigOn c n then e.2 else e.1 && !e.2)

/-- The conditions of kind 3 that hold in a cycle (R365): the device time reaches their value in it, having been below it at the core's
last cycle and when the trigger was enabled or its operands were written. (DESIGN CHOICE, unsafe: notes/assumptions/93.md). -/
def State.timeNotes (s : State) (k : Core) : Vector (Bool × Bool) 4 :=
  let hit (t : Trigger) (kind : Nat) (v : Word) : Bool :=
    t.en && kind == 3 && decide (max k.cycleAt t.since < v.toNat * 65536) && decide (v.toNat * 65536 ≤ s.time)
  Vector.ofFn fun n => (hit s.trigs[n] s.trigs[n].start s.trigs[n].startV, hit s.trigs[n] s.trigs[n].stop s.trigs[n].stopV)

/-- The cycle of a core (R313): its schedulers choose; what they choose is done in the order of WARPSLOT, in which packets of one
nanosecond appear (R362). (DEDUCED, unsafe: notes/assumptions/49.md). -/
def State.cycle (s : State) (core : Nat) : State :=
  let s := s.reissueCore core
  let cs : List (List Cand) := (List.range 4).map fun k => s.candidates core k
  let picks := settleUnits (s.core core) cs 16 []
  let acts : List Cand := cs.flatten.filter (·.l.isNone)
  let issued : List FragRef := picks.flatten.map Cand.ref
  let busy : List Nat := picks.flatten.filterMap Cand.unit?
  let lost : List Cand := cs.flatten.filter fun x => !issued.contains x.ref
  let counted := s.blocks.map fun b => if b.core != core || !b.present then b else
    { b with warps := (b.warps.zipIdx).map fun x => x.1.countCycle b.uid x.2 issued lost busy }
  let slot (r : FragRef) : Nat := match s.warp? r.block r.warp with | some w => w.warpSlot | none => 0
  let s := { s with blocks := counted, picks := s.picks ++ sortBy slot (issued ++ acts.map Cand.ref) }
  s.modCore core fun k => { (k.serve picks) with trigEv := s.timeNotes k, cycleAt := s.time, wasOn := s.traceOn core }

/-- What a column's clock loses by droop, by heat and by the power limit, in thousandths of its nominal rate (R17, R383). -/
def Env.stretchOf (e : Env) (column : Nat) : Nat :=
  max (vget 0 e.droop column) (max e.power (if vget false e.hot column then 750 else 0))

/-- ISSUE_CYCLE (R311-R314). -/
def execIssueCycle (core : Nat) (s : State) : Host.Outcome State Fault Refusal :=
  if s.numCores ≤ core then .fault .noSuchObject
  else if 1000 ≤ s.env.stretchOf (s.columnOf core) then .fault .notEnabled
  else if (List.finRange 4).any fun n => s.trigDue core n then .fault .notEnabled
  else .next (s.cycle core)

end Sys2Proof.Machine
end

