-- ==== Sys2Proof/Machine/Packets.lean ====
section
/-! DEFINITION. Command queues and their packets (R293-R298), packet breakpoints (R355), and the queue registers. -/

namespace Sys2Proof.Machine

/-! ### A queue's registers (R293) -/

/-- The ring size is legal. -/
def Queue.sizeOk (k : Queue) : Bool := decide (6 ≤ k.size) && decide (k.size ≤ 16)

/-- QSTAT.HALT: a refusal or an overrun stands; an illegal size with EN sets BADPKT as well (R293), and keeps HALT at 1 also when BADPKT
has been cleared. (DESIGN CHOICE, unsafe: notes/assumptions/91.md). -/
def Queue.halt (k : Queue) : Bool := k.badpkt || k.overrun || (k.en && !k.sizeOk)

/-- ERR keeps the first cause while a flag is set. -/
def Queue.cause (k : Queue) (e : Nat) : Nat := if k.badpkt || k.overrun then k.err else e

/-- A packet is refused with an ERR; one that was read counts as read (R294). -/
def Queue.refuse (k : Queue) (e : Nat) : Queue :=
  { k with err := k.cause e, badpkt := true, rptr := if e = 3 then k.rptr else k.rptr + 1 }

/-- WPTR - RPTR beyond the ring's size, whichever write makes it so (R293). -/
def Queue.checkOver (k : Queue) : Queue :=
  if k.en && k.sizeOk && decide (2 ^ k.size < (k.wptr - k.rptr).toNat) then
    { k with err := k.cause 4, overrun := true } else k

/-- A write to QWPTR. -/
def Queue.setWptr (k : Queue) (v : Word) : Queue := ({ k with wptr := v } : Queue).checkOver

/-- A write to QCTL: EN from 0 to 1 zeroes the pointers, so that the next packet is another one (R355); an illegal size is taken, and
refused. -/
def Queue.setCtl (k : Queue) (v : Word) : Queue :=
  let on := v.getLsbD 31
  let k' : Queue := { k with en := on, prio := fieldOf v 24 2, asid := fieldOf v 8 16, size := fieldOf v 0 5 }
  let k' : Queue := if on && !k.en then { k' with wptr := 0, rptr := 0, bpDone := false } else k'
  if on && !k'.sizeOk then { k' with err := k'.cause 2, badpkt := true } else k'.checkOver

/-- A write to QSTAT: BADPKT and OVER clear where written 1, HOLD takes the bit; ERR is 0 while both flags are. -/
def Queue.setStat (k : Queue) (v : Word) : Queue :=
  let k' : Queue := { k with badpkt := k.badpkt && !v.getLsbD 30, overrun := k.overrun && !v.getLsbD 29, hold := v.getLsbD 28 }
  if k'.badpkt || k'.overrun then k' else { k' with err := 0 }

/-! ### The next packet -/

/-- Where the next packet lies. -/
def Queue.nextAddr (k : Queue) : Nat := k.base.toNat + 64 * (k.rptr.toNat % 2 ^ k.size)

/-- The queue's next packet, if it is due: none within, where it cannot be read (R295); none is while the device is not READY (R383). (DEDUCED, unsafe: notes/assumptions/39.md). -/
def State.nextPacket (s : State) (k : Queue) : Option (Option (List Byte)) :=
  if !s.dev.ready || !k.en || k.halt || k.hold || k.wptr == k.rptr then none
  else match s.virtRead k.asid k.nextAddr 64 with
    | none => if k.pending.isEmpty then some none else none
    | some n =>
      let bs := leBytes 64 n
      if k.pending.isEmpty || (n % 256 == 1 && n / 256 % 2 == 1) then some (some bs) else none

/-- The queue the command processor serves next (R297). -/
def State.served (s : State) : Option (Fin 64) :=
  let key (q : Fin 64) : Nat := (3 - (s.queue q).prio) * 64 + (q.val + 63 - s.lastQueue) % 64
  ((List.finRange 64).filter fun (q : Fin 64) => (s.nextPacket (s.queue q.val)).isSome).foldl (fun (b : Option (Fin 64)) q => match b with
    | none => some q
    | some p => if key q < key p then some q else some p) none

/-- A packet's fields (R294). -/
structure Pkt where
  ty : Nat
  conc : Bool
  irq : Bool
  x8 : Nat
  x16 : Nat
  x24 : Nat
  x32 : Nat
  deriving DecidableEq, Repr

def pktOf (bs : List Byte) : Pkt :=
  let u (o n : Nat) : Nat := leNat ((bs.drop o).take n)
  let h := u 0 4
  { ty := h % 256, conc := h / 256 % 2 == 1, irq := h / 512 % 2 == 1, x8 := u 8 8, x16 := u 16 8, x24 := u 24 8, x32 := u 32 4 }

/-- The interrupt vector field of a packet. -/
def Pkt.vecField (p : Pkt) : Nat := if p.ty = 5 then p.x32 / 65536 else p.x24 % 65536

/-- The vector raised when the packet completes. -/
def Pkt.vec (p : Pkt) : Option Nat := if p.irq then some p.vecField else none

/-- What is wrong with a packet's form (R294): 1 a reserved type, 2 a nonzero field or a misalignment. -/
def pktError (bs : List Byte) : Option Nat :=
  let u (o n : Nat) : Nat := leNat ((bs.drop o).take n)
  let p := pktOf bs
  if 5 < p.ty then some 1
  else if (p.conc && p.ty != 1) || u 0 4 / 1024 != 0 || u 4 4 != 0 || u 36 28 != 0 || (!p.irq && p.vecField != 0) ||
      (if p.ty = 5 then p.x32 % 65536 / 4 != 0 else p.x32 != 0 || p.x24 / 65536 != 0) ||
      (match p.ty with
      | 0 => p.x8 != 0 || p.x16 != 0
      | 1 => p.x8 % 128 != 0 || p.x16 % 32 != 0
      | 2 | 3 => decide (4096 ≤ p.x8)
      | 4 => decide (4096 ≤ p.x8) || p.x16 % 64 != 0
      | _ => p.x8 % 65536 != 0 || p.x16 % 65536 != 0 || p.x24 % 65536 != 0) then some 2
  else none

/-- A packet has been dispatched: it counts as read, and waits in the queue until it completes. -/
def Queue.took (k : Queue) (l : List Pending) : Queue :=
  { k with rptr := k.rptr + 1, pending := k.pending ++ l, bpDone := false }

/-- A packet that completes as it is dispatched. -/
def State.atOnce (s : State) (q : Fin 64) (p : Pkt) : State :=
  let s := s.modQueue q fun k => k.took []
  match p.vec with | some v => s.raise v | none => s

/-! ### KLAUNCH (R294, R299-R305, R355) -/

/-- A breakpoint matches the KLAUNCH of a queue. (DEDUCED, unsafe: notes/assumptions/40.md). -/
def PktBp.hits (b : PktBp) (q : Nat) (entry : Option Nat) : Bool :=
  b.en && (!b.mpc || entry == some b.pc.toNat) && (!b.mq || b.qn == q)

/-- A rejected KLAUNCH writes its record once and completes (R305). -/
def State.klReject (s : State) (q : Fin 64) (p : Pkt) (status info : Nat) : State :=
  (s.statusWrite (s.queue q).asid p.x16 (statusBytes status 0 none info 0 0)).atOnce q p

/-- The descriptor and the list of a KLAUNCH, read and checked; or the status it is rejected with. -/
def State.klCheck (s : State) (asid addr : Nat) : Except (Nat × Nat) (KDesc × List Nat) :=
  match s.virtRead asid addr 128 with
  | none => .error (0x14, 0)
  | some n =>
    let bs := leBytes 128 n
    let d := descOf bs
    match badField bs with
    | some o => .error (0x10, o)
    | none => match s.tooLarge d with
      | some e => .error (e, 0)
      | none =>
        if !d.hasList then .ok (d, [])
        else match s.virtRead asid d.listAddr.toNat (4 * d.total) with
          | none => .error (0x14, 0)
          | some m =>
            let l := listOf (leBytes (4 * d.total) m)
            if s.badList l then .error (0x13, 0) else .ok (d, l)

/-- Dispatch a KLAUNCH. (DEDUCED, unsafe: notes/assumptions/40.md). -/
def State.klDispatch (s : State) (q : Fin 64) (p : Pkt) : State :=
  let k := s.queue q
  let entry := s.virtRead k.asid p.x8 8
  if !k.bpDone && s.bps.toList.any (fun (b : PktBp) => b.hits q.val entry) then
    ({ s with bps := s.bps.map fun (b : PktBp) => if b.hits q.val entry then { b with hit := true } else b }).modQueue q
      fun k => { k with hold := true, bpDone := true }
  else
    let writable := (match (s.walk k.asid (p.x16 % 2 ^ 56)).map (pteResult · (p.x16 % 2 ^ 56) .wr) with
      | some (.ok _ _) => true
      | _ => false)
    if p.x16 != 0 && !writable then s.modQueue q fun k => { k.refuse 5 with bpDone := false }
    else match s.klCheck k.asid p.x8 with
      | .error (e, i) => s.klReject q p e i
      | .ok (d, l) =>
        let (s, id) := s.accept { desc := d, list := l, queue := q.val, prio := k.prio, asid := k.asid, status := p.x16,
                                  vec := p.vec }
        s.modQueue q fun k => k.took [.klaunch id]

/-! ### VDEF (R298) -/

/-- The tensor a vault descriptor defines; none where it breaks a limit. -/
def tensorOf (bs : List Byte) : Option Tensor :=
  let u (o n : Nat) : Nat := leNat ((bs.drop o).take n)
  let d := u 0 1
  let z := u 1 1
  let pl := u 2 1
  let ext := (List.range 4).map fun k => u (8 + 4 * k) 4
  let base := u 24 8
  let size := ext.foldl (· * ·) (2 ^ z)
  let legal := d != 0 && decide (d ≤ 4) && decide (z ≤ 4) && decide (pl ≤ 8) && u 3 1 == 0 && u 4 4 == 0 && u 32 32 == 0 &&
    ext.all (fun e => decide (1 ≤ e) && decide (e ≤ 65536)) && (ext.drop d).all (· == 1) && base % 128 == 0 &&
    decide ((if pl = 8 then base + ((size + 4095) / 4096 + 7) / 8 * 4096 else base + size) ≤ Config.vaultBytes)
  if legal then some { dims := d, size := z, place := pl, ext := ext, base := base } else none

def State.vdefDispatch (s : State) (q : Fin 64) (p : Pkt) : State :=
  let k := s.queue q
  let i := k.asid * 4096 + p.x8
  if p.x16 = 0 then ({ s with tensors := tdel s.tensors i }).atOnce q p
  else match s.virtRead k.asid p.x16 64 with
    | none => s.modQueue q fun k => k.refuse 5
    | some n => match tensorOf (leBytes 64 n) with
      | none => s.modQueue q fun k => k.refuse 2
      | some t => ({ s with tensors := tput s.tensors i t }).atOnce q p

/-! ### Dispatch -/

/-- Dispatch a queue's next packet. -/
def State.dispatch (s : State) (q : Fin 64) (bs : List Byte) : State :=
  let p := pktOf bs
  match pktError bs with
  | some e => s.modQueue q fun k => k.refuse e
  | none => match p.ty with
    | 0 => s.atOnce q p
    | 1 => s.klDispatch q p
    | 2 => ({ s with events := tput s.events p.x8 (BitVec.ofNat 64 p.x16) }).atOnce q p
    | 3 => s.modQueue q fun k => k.took [.evwait p.x8 (BitVec.ofNat 64 p.x16) p.vec]
    | 4 => s.vdefDispatch q p
    | _ => s.modQueue q fun k => k.took [.mapflush p.x8 p.x16 p.x24 (p.x32 % 2 == 1) (p.x32 / 2 % 2 == 1) p.vec]

/-- The command processor takes the packet of a queue, of the types an event stands for. -/
def packetStep (ok : Option Nat → Bool) (q : Fin 64) (s : State) : Host.Outcome State Fault Refusal :=
  if s.served != some q then .fault .notEnabled
  else
    let t := { s with lastQueue := q.val }
    match s.nextPacket (s.queue q) with
    | some (some bs) => if ok (some (pktOf bs).ty) then .next (t.dispatch q bs) else .fault .notEnabled
    | some none => if ok none then .next (t.modQueue q fun k => k.refuse 3) else .fault .notEnabled
    | none => .fault .notEnabled

/-- NOP_PACKET (R294, R295): a NOP; also a packet of a reserved type, or one that cannot be read, which are refused. (DEDUCED, unsafe: notes/assumptions/39.md). -/
def execNopPacket (q : Fin 64) (s : State) : Host.Outcome State Fault Refusal :=
  packetStep (fun t => match t with | none => true | some t => t == 0 || decide (5 < t)) q s
/-- KLAUNCH (R294). -/
def execKlaunch (q : Fin 64) (s : State) : Host.Outcome State Fault Refusal := packetStep (· == some 1) q s
/-- EVSIG (R295, R296). -/
def execEvsig (q : Fin 64) (s : State) : Host.Outcome State Fault Refusal := packetStep (· == some 2) q s
/-- EVWAIT (R295). -/
def execEvwait (q : Fin 64) (s : State) : Host.Outcome State Fault Refusal := packetStep (· == some 3) q s
/-- VDEF (R298). -/
def execVdef (q : Fin 64) (s : State) : Host.Outcome State Fault Refusal := packetStep (· == some 4) q s
/-- MAPFLUSH (R295). -/
def execMapflush (q : Fin 64) (s : State) : Host.Outcome State Fault Refusal := packetStep (· == some 5) q s

/-! ### Completion of the packets that wait -/

/-- A waiting EVWAIT whose event holds its value. -/
def State.evReady (s : State) : Pending → Option (Pending × Option Nat)
  | .evwait i v vec => if v ≤ tget 0 s.events i then some (.evwait i v vec, vec) else none
  | _ => none

/-- EVWAIT_SATISFIED (R295, R296). -/
def execEvwaitSatisfied (q : Fin 64) (s : State) : Host.Outcome State Fault Refusal :=
  match if s.dev.ready then (s.queue q).pending.findSome? s.evReady else none with
  | some (p, vec) => .next (s.packetDone q.val p vec)
  | none => .fault .notEnabled

/-- The pages of a context that a MAPFLUSH of a virtual range drops: those of the entries that touch it (R325), and the range. -/
def State.flushPages (s : State) (asid va len : Nat) : List (Nat × Nat) :=
  (va, len) :: (s.tlbs.flatMap (·.2)).filterMap fun e =>
    let z := 2 ^ pageShift e.size
    if e.asid == asid && decide (e.vpn * z < va + len) && decide (va < (e.vpn + 1) * z) then some (e.vpn * z, z) else none

/-- An operation of the scan engine has begun and not ended: it has its turn, or is suspended, or stopped with its block. -/
def State.engBegun (s : State) (e : Eng) : Bool :=
  let before (o : EngOp) : Bool := o.status == .pending && opUnit o.kind == opUnit e.o.kind && decide (o.id < e.o.id)
  s.engTurn e || e.o.status == .pending && (e.o.suspend.isSome || !e.b.present && !e.b.ops.any before)

/-- The global arrays of the scan engines' operations that have begun: their translations are held until they end (R334). -/
def State.heldArrays (s : State) (asid : Nat) : List (Nat × Nat) :=
  s.blocks.flatMap fun b => b.ops.flatMap fun o => match o.kind, s.eng? o.id with
    | .scan .., some e | .topk .., some e | .smax .., some e | .samp .., some e =>
      if e.l.asid == asid && s.engBegun e then
        let (src, dst) := o.kind.arrays
        ((src ++ dst.map (·.1)).filter fun a => !a.scratch).map fun a => (a.base, a.n)
      else []
    | _, _ => []

/-- Every access translated under an entry that a MAPFLUSH drops has been performed at its slice (R325), and no operation of the scan
engine holds one (R334). -/
def State.flushable (s : State) (asid va len : Nat) : Bool :=
  let pages := s.flushPages asid va len
  let open_ := (s.reqs.filter fun q => q.asid == asid && q.st == .queued).map fun q => (q.va, q.bytes)
  !(open_ ++ s.heldArrays asid).any fun x => pages.any fun p => decide (x.1 < p.1 + p.2) && decide (p.1 < x.1 + x.2)

/-- A waiting MAPFLUSH that can complete. -/
def State.flushReady (s : State) (asid : Nat) : Pending → Option Pending
  | .mapflush va pa len tlb l2 vec =>
    if !tlb || s.flushable asid va len then some (.mapflush va pa len tlb l2 vec) else none
  | _ => none

/-- Drop the TLB entries of a context whose pages touch a virtual range. -/
def State.flushTlbs (s : State) (asid va len : Nat) : State :=
  let out (e : TlbEntry) : Bool :=
    let z := 2 ^ pageShift e.size
    e.asid == asid && decide (e.vpn * z < va + len) && decide (va < (e.vpn + 1) * z)
  { s with tlbs := s.tlbs.map fun t => (t.1, t.2.filter fun e => !out e) }

/-- A MAPFLUSH covers a page whose translation is noted: its virtual range with TLB, its physical one with L2. (DEDUCED, unsafe: notes/assumptions/70.md). -/
def PageMap.covered (m : PageMap) (asid va pa len : Nat) (tlb l2 : Bool) : Bool :=
  let z := 2 ^ m.shift
  (tlb && m.asid == asid && decide (va ≤ m.page * z) && decide ((m.page + 1) * z ≤ va + len)) ||
  (l2 && decide (pa ≤ m.pa) && decide (m.pa + z ≤ pa + len))

/-- The values of the pages a MAPFLUSH covers are defined again (R264), and what they were translated to is forgotten: copies of them
that were not defined leave the L1s. -/
def State.redefine (s : State) (asid va pa len : Nat) (tlb l2 : Bool) : State :=
  let hit := s.maps.filter (·.covered asid va pa len tlb l2)
  let s : State := { s with maps := s.maps.filter fun m => !hit.contains m }
  let out (l : L1Line) : Bool := l.attr.undef && hit.any fun m => m.undef && m.holds l.asid (l.vline * 128)
  if !hit.any (·.undef) then s else (s.cores.map (·.1)).foldl (fun s c => s.dropLines c out) s

/-- The lines of a physical range leave the L2 (R295), and their lease records stand (R267): what failed its check there is in memory
now (R342), and host memory is read again (R292). -/
def State.flushL2 (s : State) (pa len : Nat) : State :=
  let here (a : Nat) : Bool := decide (pa ≤ a) && decide (a < pa + len)
  { s with bad := s.bad.map fun b => if 5 ≤ b.space && here b.at_ then { b with space := b.space - 4 } else b
           l2 := s.l2.map fun x => if here (lineBase x.1) then (x.1, { x.2 with gone := true }) else x
           hostStale := s.hostStale.filter fun k => !here (lineBase k) }

/-- MAPFLUSH_COMPLETE (R295, R325): the entries go; memory is what the L2 holds, and its lease records stand (R267). (DEDUCED, safe: notes/assumptions/41.md). -/
def execMapflushComplete (q : Fin 64) (s : State) : Host.Outcome State Fault Refusal :=
  let asid := (s.queue q).asid
  match if s.dev.ready then (s.queue q).pending.findSome? (s.flushReady asid) else none with
  | some (.mapflush va pa len tlb l2 vec) =>
    let s := if tlb then s.flushTlbs asid va len else s
    let s := (if l2 then s.flushL2 pa len else s).redefine asid va pa len tlb l2
    .next (s.packetDone q.val (.mapflush va pa len tlb l2 vec) vec)
  | _ => .fault .notEnabled

end Sys2Proof.Machine
end

