-- ==== Sys2Proof/Machine/Remote.lean ====
section
/-! DEFINITION. The Edond link: the requests of other pod devices and their windows (R268, R290, R376, R379), the answers to this
device's requests, and the target that does not answer (R380). -/

namespace Sys2Proof.Machine

/-- An open window holds an address (R379). -/
def inWindow (w : DWord × DWord) (pa : Nat) : Bool :=
  w.1.getLsbD 0 && decide (fieldOf w.1 16 40 ≤ pa / 65536) && decide (pa / 65536 ≤ fieldOf w.2 16 40)

/-- Every byte of a peer's request lies within an open window. -/
def State.admitsPeer (s : State) (pa len : Nat) : Bool :=
  (List.range (max len 1)).all fun k => s.dev.pod.toList.any fun w => inWindow w (pa + k)

/-- An address of this device's memory lies in the range of a port that is down (R377). -/
def State.portDown (s : State) (pa : Nat) : Bool := match s.cxlPortOf pa with | some p => !s.env.cxlUp[p] | none => false

/-- The sectors of a range include one that fails its check (R342), or that a port which is down serves (R377). -/
def State.badRange (s : State) (pa len : Nat) : Bool :=
  (List.range (max len 1)).any fun k => s.portDown (pa + k) || (s.badAt .device 0 (pa + k)).isSome

/-- Bytes of device memory. -/
def State.devBytes (s : State) (pa len : Nat) : List Byte := (List.range len).map fun k => s.mem.get (pa + k)

/-- A refused request of a peer. -/
def State.peerRefuse (s : State) : State := { s with hostRead := { unsupported := true } }

/-- A peer's read, answered with the line's write completion time and the expiry of a lease it asks for, which leaves DIES unchanged
(R268, R290). -/
def State.peerRead (s : State) (pa len : Nat) (lease : Option Nat) : State :=
  let r : HostRead := { data := s.devBytes pa len, poisoned := s.badRange pa len, wct := s.wctAt .device pa }
  match lease with
  | none => { s with hostRead := r }
  | some c =>
    let g := s.grant (lineKey .device pa) (leaseNs c) none
    { g.1 with hostRead := { r with expiry := some g.2 } }

/-- A write that arrives at a port (R268, R342, R376): an agent on no die; the sectors it covers whole become good, and where a port
of the second tier is down there is nothing to write (R377). With it, its times. -/
def State.portWrite (s : State) (pa : Nat) (bs : List Byte) : State × Nat × Nat :=
  if (List.range bs.length).any fun k => s.portDown (pa + k) then (s, s.time, s.time)
  else
    let r := s.sliceWrite .device pa bs none
    (r.1.goodSector .device pa bs.length, r.2)

/-- A peer's write, answered with its times (R290). -/
def State.peerWrite (s : State) (pa : Nat) (bs : List Byte) : State :=
  let r := s.portWrite pa bs
  { r.1 with hostRead := { wdie := r.2.1, wdev := r.2.2 } }

/-- A peer's atomic: not performed on a sector that fails its check. -/
def State.peerAtomic (s : State) (pa : Nat) (op : AtomOp) (w : Width) (b c : DWord) : State :=
  let old := s.physRead .device pa w.bytes
  if s.badRange pa w.bytes then { s with hostRead := { poisoned := true } }
  else
    let r := s.portWrite pa (leBytes w.bytes (atomNew op w.bytes old b.toNat c.toNat))
    { r.1 with hostRead := { data := leBytes w.bytes old, wct := s.wctAt .device pa, wdie := r.2.1, wdev := r.2.2 } }

/-- This device's request is on its way to another, the next of its source to its line (R290). -/
def State.away (s : State) (q : Req) : Bool := q.st == .queued && !q.here && s.first q

/-- The line of another device that a load gets under a lease, which lasts until 50 ns before its expiry (R290); a stable page's gets
none (R268, R286). -/
def State.remoteLine (s : State) (q : Req) (wct : Nat) (lease : Option (Nat × List Byte)) : State :=
  match lease with
  | none => s
  | some (expiry, bs) =>
    if q.kind != .fill || bs.length != 128 || (!q.attr.stable && decide (expiry ≤ s.time + 50)) || s.supersededCopy q then s
    else
      let own := s.reqs.filter fun x => x.core == q.core && x.line == q.line && x.st == .queued && x.kind == .write
      let data := own.foldl (fun d x => patchList d (x.pa % 128) (leBytes x.bytes x.data.toNat)) bs
      s.install q.core ⟨q.asid, q.va / 128, q.line, q.attr, data, if q.attr.stable then none else some (expiry - 50), wct, false, 0, []⟩

/-- The answer to a request: the value with the line's write completion time for a read, the times for a write (R268, R290); a write
that was performed clears this device's reservations on what it wrote (R185), and a value read past the L1 leaves no older copy in
it. -/
def State.answered (s : State) (q : Req) (data : BitVec 128) (wdie wdev : Nat) (lease : Option (Nat × List Byte)) : State :=
  let wrote (s : State) : State := s.clearResv q.attr.target q.pa q.bytes
  let fresh (s : State) : State := s.refresh q.core q.attr.target q.line
  let s := if q.lr then s.reserve q (some (q.attr.target, q.pa / 32)) else s
  let done (f : Req → Req) (s : State) : State := s.modReq q.id fun x => f { x with st := .performed }
  match q.kind with
  | .write => done (fun x => { x with wdie := wdie, wdev := wdev }) (wrote (s.ownTime q wdev))
  | .atomic _ => done (fun x => { x with value := data, wct := wdev, wdie := wdie, wdev := wdev }) (fresh (wrote s))
  | .sc =>
    let ok := s.holdsResv q && data != 0
    let s := s.reserve q none
    done (fun x => { x with scOk := ok, wdie := wdie, wdev := wdev }) (if ok then fresh (wrote s) else s)
  | _ =>
    let wct := if q.attr.stable then 0 else wdev
    let s := (if q.kind == .fill then s.remoteLine q wct lease else fresh s)
    if q.pref then s.dropReq q.id else done (fun x => { x with value := data, wct := wct }) s

/-- The access code of a request (R332). (DEDUCED, unsafe: notes/assumptions/58.md). -/
def Req.accCode (q : Req) : Nat := match q.kind with | .write | .sc => 1 | .atomic _ => if q.isRed then 1 else 2 | _ => 0

/-- REMOTE_REQUEST (R268, R290, R379). -/
def execRemoteRequest (r : RemoteEvent) (s : State) : Host.Outcome State Fault Refusal :=
  let mine (id : Nat) (k : Req → State) : Host.Outcome State Fault Refusal :=
    match s.req? id with
    | none => .fault .noSuchObject
    | some q => if s.away q && s.podUp then .next ((k q).settle q) else .fault .notEnabled
  let peer (pa len : Nat) (t : State) : Host.Outcome State Fault Refusal :=
    if !s.podUp || !s.dev.ready then .fault .notEnabled else .next (if s.admitsPeer pa len then t else s.peerRefuse)
  match r with
  | .peerRead pa len lease => peer pa len (s.peerRead pa len lease)
  | .peerWrite pa bs => peer pa bs.length (s.peerWrite pa bs)
  | .peerAtomic pa op w b c => peer pa w.bytes (s.peerAtomic pa op w b c)
  | .peerRefused pa => if s.admitsPeer pa 1 then .fault .notEnabled else .next s.peerRefuse
  | .answer id data wdie wdev lease => mine id fun q => s.answered q data wdie wdev lease
  | .refused id => mine id fun q => s.failReq q 9 (BitVec.ofNat 32 q.accCode)

/-- A failed remote write, to be reported at the fragment's next pod-scope release (R380). -/
def State.writeLost (s : State) (q : Req) : State :=
  (s.modBlock q.block fun b => { b with failedWrite := b.failedWrite ++ [(q.warp, q.lane, q.va)] }).dropReq q.id |>.settle q

/-- REMOTE_REQUEST_TIMEOUT (R380). -/
def execRemoteRequestTimeout (id : Nat) (s : State) : Host.Outcome State Fault Refusal :=
  match s.req? id with
  | none => .fault .noSuchObject
  | some q =>
    if s.away q && decide (q.sentAt + 200000 ≤ s.time) then
      let s := s.unreach q.attr.target
      .next (if q.kind == .write then s.writeLost q else s.failReq q 0x0B 5)
    else .fault .notEnabled

end Sys2Proof.Machine
end

