-- ==== Sys2Proof/Machine/Resume.lean ====
section
/-! DEFINITION. Fault records and what FRESUME does with the parked work (R331-R334). -/

namespace Sys2Proof.Machine

/-- The 32 bytes of a fault record (R332). -/
def FaultRec.bytes (f : FaultRec) : List Byte :=
  leBytes 4 f.id ++ leBytes 4 (f.code + 2 ^ 8 * f.access + 2 ^ 16 * f.asid) ++ leBytes 8 f.va ++ leBytes 4 (launchIdent f.lid) ++
  leBytes 4 (f.core + 2 ^ 16 * f.slot) ++ leBytes 8 f.time

/-- FAULT_RECORD_WRITE (R332): the oldest record held back finds room in the ring. -/
def execFaultRecordWrite (s : State) : Host.Outcome State Fault Refusal :=
  match s.faultQ with
  | [] => .fault .notEnabled
  | f :: rest =>
    if s.fq.en && 0 < s.fq.room then
      let a := s.fq.base.toNat + 32 * (s.fq.wptr.toNat % 2 ^ s.fq.size)
      .next (({ s with faultQ := rest, host := s.host.writeBytes a f.bytes, fq := { s.fq with wptr := s.fq.wptr + 1 } }).raise
        s.fq.vec)
    else .fault .notEnabled

/-- The fault identifier of a replay record. -/
def Replay.fault? : Replay → Option Nat
  | .mem _ _ _ id _ => some id
  | .fetch _ _ id => some id
  | .handle _ _ => none
  | .reissue _ _ id _ => some id

/-- The number of the instruction that a replay record leaves unfinished. -/
def Replay.ins? : Replay → Option Nat
  | .mem _ _ _ _ n | .reissue _ _ _ n => some n
  | .fetch _ _ _ | .handle _ _ => none

/-- The fragment parked under a fault identifier. -/
def State.parkedFrag (s : State) (id : Nat) : Option (FragRef × Replay) :=
  s.blocks.findSome? fun b => (b.warps.zipIdx).findSome? fun x => x.1.frags.findSome? fun y =>
    match y.2.replay with
    | some r => if y.2.st == .parkedReplay && r.fault? == some id then some (⟨b.uid, x.2, .entry y.1⟩, r) else none
    | none => none

/-- The suspended operation of a fault identifier. -/
def State.suspended (s : State) (id : Nat) : Option (Eng × Suspend) :=
  (s.blocks.flatMap fun b => b.ops).findSome? fun o => match o.suspend with
    | some x => if o.status == .pending && x.fault == id then (s.eng? o.id).map (·, x) else none
    | none => none

/-- A parked fragment's work is due again, before anything else it issues (R333). -/
def Frag.retry (f : Frag) : Frag :=
  let f' : Frag := { f.wake with replay := none }
  match f.replay with
  | some (.mem pc i lanes _ n) => { f' with redo := { pc := pc, i := i, lanes := lanes, replay := true, ins := n } :: f.redo }
  | _ => f'

/-- Whether what a fault identifier names is a block's that can go on: a saved block's work has been pre-empted (R333). -/
def State.retryable (s : State) (uid : Nat) : Bool := match s.block? uid with | some b => b.present | none => false

/-- RETRY: an identifier that names no parked work is ignored. -/
def State.retry (s : State) (id : Nat) : State :=
  match s.parkedFrag id with
  | some (r, _) => if s.retryable r.block then (s.modFrag r Frag.retry).reissueAll r.block else s
  | none => match s.suspended id with
    | some (e, _) =>
      if s.retryable e.b.uid then
        s.modBlock e.b.uid fun b =>
          ({ b with ops := updFirst (·.id == e.o.id) (fun (o : EngOp) => { o with suspend := none }) b.ops } : Block).unparkHandles
      else s
    | none => s

/-- A cancelled load that is not to be issued again: what it was to write becomes full. -/
def State.forgetReissue (s : State) (uid wi : Nat) (p : Replay) : State :=
  match p with
  | .reissue _ lanes _ ins =>
    let hit (q : Req) : Bool := q.warp == wi && q.ins == ins && lanes.getLsbD q.lane
    let gone := match s.block? uid with | some b => b.reissue.filter hit | none => []
    gone.foldl State.fill (s.modBlock uid fun b => { b with reissue := b.reissue.filter fun q => !hit q })
  | _ => s

/-- FAIL for a parked fragment: the trap of its code, with the unfinished lanes (R333), and no other of the same instruction (R336); in a
repair, the path is issued again (R172). -/
def State.failFrag (s : State) (r : FragRef) (p : Replay) (code va : Nat) : State :=
  let s := s.modFrag r fun f => { f.wake with replay := none }
  let (pc, lanes, regs) := match p with
    | .mem pc i lanes _ _ => (pc, lanes, writesRegs i)
    | .fetch _ lanes _ => (0, lanes, [])
    | .handle pc _ => (pc, 0, [])
    | .reissue pc lanes _ _ => (pc, lanes, [])
  let s := (s.settleRegs r.block r.warp regs).forgetReissue r.block r.warp p
  let s := match p.ins? with | some n => s.hushIns r.block r.warp n | none => s
  match s.ctx? r with
  | none => s
  | some c =>
    let at_ := match p with | .fetch _ _ _ => c.f.pc | _ => pc
    match c.f.undo with
    | some u => s.rollback c u
    | none => s.takeTrap c ⟨code, BitVec.ofNat 64 va, lanes, 0, at_⟩

/-- FAIL. -/
def State.failWork (s : State) (id : Nat) : State :=
  let (code, va) := tget (0x0A, 0) s.faultLog id
  match s.parkedFrag id with
  | some (r, p) => if s.retryable r.block then s.failFrag r p code va else s
  | none => match s.suspended id with
    | some (e, x) => if s.retryable e.b.uid then s.engStop e (.fault code (BitVec.ofNat 64 va) none) x.point else s
    | none => s

/-- A write to FRESUME takes effect (R332, R333). -/
def State.fresume (s : State) (v : Word) : State :=
  let act := fieldOf v 30 2
  let id := fieldOf v 0 30
  let s := { s with dev := { s.dev with fresAct := act, fresId := id } }
  let s := if act = 1 then s.retry id else if act = 2 then s.failWork id else s
  if act = 1 || act = 2 then { s with faultLog := tdel s.faultLog id } else s

end Sys2Proof.Machine
end

