-- ==== Sys2Proof/Machine/Preempt.lean ====
section
/-! DEFINITION. Pre-emption, saving and restoring of blocks (R315-R319, R343, R344, R354), and thermal migration (R320-R323). -/

namespace Sys2Proof.Machine

/-! ### The saved record (R343, R344) -/

/-- The bytes of a section, to the next multiple of 64. -/
def alignUp (n : Nat) : Nat := (n + 63) / 64 * 64

/-- Pending operations of a block. -/
def Block.pendingOps (b : Block) : Nat := (b.ops.filter (·.status == .pending)).length

/-- The size of a block's record (R344), each of its sections at a multiple of 64. -/
def recordSize (k : KDesc) (b : Block) : Nat :=
  256 + k.warps * (256 + 128 * k.regs + 384 + 64 + 64 + 32 * 64 + 32 * 24 + 64 * 16) + b.scrSize + 8192 * k.tiles + 2 * 8448 +
  128 + alignUp (8 * b.locked.length) + 64 * b.pendingOps

/-- Bytes cut or filled with zeros to a length. -/
def padTo (n : Nat) (bs : List Byte) : List Byte := bs.take n ++ leBytes (n - bs.length) 0

/-- A flag as a number. -/
def bit01 (b : Bool) : Nat := if b then 1 else 0

/-- The code of a fragment state (R28). -/
def FragState.code : FragState → Nat
  | .ready => 0 | .parkedJoin => 1 | .parkedReplay => 2 | .waitReg => 3 | .waitHandle => 4 | .waitBarrier => 5
  | .waitObject => 6 | .waitFence => 7 | .sleeping => 8 | .waitAddress => 9 | .waitChain => 10 | .waitResource => 11
  | .waitFragment => 12 | .waitConfirm => 13 | .waitTranslation => 14

/-- The replay record's fields in the split-table entry of a fragment's lanes (R344): kind, address, unfinished lanes (at a fetch or
at a read of a handle, all of them), handle register. -/
def Replay.saved (mask : LaneMask) : Option Replay → Nat × DWord × LaneMask × Nat
  | none => (0, 0, 0, 0)
  | some (.mem pc _ m _ _) => (1, pc, m, 0)
  | some (.fetch pc _ _) => (2, pc, mask, 0)
  | some (.handle pc h) => (3, pc, mask, h)
  | some (.reissue pc m _ _) => (1, pc, m, 0)

/-- The 64 bytes of a saved split-table entry (R344). -/
def splitBytes (f : Option Frag) : List Byte :=
  match f with
  | none => leBytes 64 0
  | some f =>
    let r := Replay.saved f.mask f.replay
    leBytes 4 f.mask.toNat ++
    leBytes 4 (1 + 2 * f.st.code + 2 ^ 5 * f.rank.toNat + 2 ^ 10 * f.join.toNat + 2 ^ 16 * f.depth.toNat) ++
    leBytes 8 f.pc.toNat ++ leBytes 8 (f.deadline.getD 0) ++ leBytes 8 r.2.1.toNat ++ leBytes 4 r.2.2.1.toNat ++
    leBytes 4 (r.1 + 16 * r.2.2.2) ++ leBytes 24 0

/-- The flags of a lane as four bits (R58). -/
def CC.nibble (c : CC) : Nat :=
  (if c.n then 8 else 0) + (if c.z then 4 else 0) + (if c.c then 2 else 0) + (if c.v then 1 else 0)

/-- The 24 bytes of a saved join-table entry: the fields of R28. (DESIGN CHOICE, unsafe: notes/assumptions/84.md). -/
def joinBytes (j : Option Join) : List Byte :=
  match j with
  | none => leBytes 24 0
  | some j => padTo 24 (leBytes 8 j.addr.toNat ++ leBytes 4 j.expected.toNat ++ leBytes 4 j.arrived.toNat ++
      [BitVec.ofNat 8 j.depth.toNat, BitVec.ofNat 8 j.parent.toNat, 1])

/-- The 1,024 bytes of a warp's reissue list: an entry for each cancelled load in issue order, with its address, its fragment and its
lanes. (DESIGN CHOICE, unsafe: notes/assumptions/84.md). -/
def reissueBytes (b : Block) (wi : Nat) : List Byte :=
  let mine := b.reissue.filter (·.warp == wi)
  padTo 1024 ((mine.map (·.ins)).eraseDups.flatMap fun n =>
    let qs := mine.filter (·.ins == n)
    match qs with
    | [] => []
    | q :: _ => padTo 16 (leBytes 8 q.pc.toNat ++ leBytes 4 (idxOf q.sel).val ++
        leBytes 4 (qs.foldl (fun (m : LaneMask) x => m ||| (1#32 <<< x.lane)) 0).toNat))

/-- The 256 bytes of a warp header: the fields R344 lists, in its order. (DESIGN CHOICE, unsafe: notes/assumptions/84.md). -/
def warpHeader (w : Warp) : List Byte :=
  padTo 256 (leBytes 4 w.part ++ leBytes 4 w.lfsr.toNat ++ leBytes 4 w.repc.toNat ++
    (match w.rep with | some r => leBytes 4 (1 + 256 * (idxOf r.owner).val) ++ leBytes 8 r.addr.toNat | none => leBytes 12 0) ++
    leBytes 4 w.amax.toNat ++ leBytes 4 (bit01 w.nanSeen) ++ leBytes 8 w.hdie ++ leBytes 8 w.hdev ++ leBytes 8 w.hpod ++
    (match w.tick with | some t => leBytes 4 1 ++ leBytes 4 t.toNat | none => leBytes 8 0) ++
    leBytes 4 w.x.cause.toNat ++ leBytes 8 w.x.pc.toNat ++ leBytes 8 w.x.addr.toNat ++ leBytes 4 w.x.mask.toNat ++
    leBytes 4 w.x.info.toNat ++
    (match w.handler with
    | some h => leBytes 4 (1 + 2 * bit01 h.owner + 256 * h.join.toNat + 65536 * h.depth.toNat) ++ leBytes 4 h.mask.toNat
    | none => leBytes 8 0) ++ leBytes 4 (bit01 w.nopre))

/-- A warp's part of the record (R344). -/
def warpBytes (b : Block) (regs wi : Nat) (w : Warp) : List Byte :=
  warpHeader w ++
  ((List.range regs).flatMap fun n => (List.finRange 32).flatMap fun l => leBytes 4 (w.vl n l).toNat) ++
  ((List.range 64).flatMap fun n => leBytes 4 (w.sr n).toNat) ++ ((List.range 16).flatMap fun n => leBytes 8 (w.hr n).toNat) ++
  padTo 64 ((List.finRange 32).flatMap fun l => [BitVec.ofNat 8 (w.cc0[l].nibble + 16 * w.cc1[l].nibble)]) ++
  padTo 64 (leBytes 16 w.vFull.toNat ++ leBytes 8 w.sFull.toNat ++ leBytes 2 w.hFull.toNat) ++
  (w.split.toList.flatMap splitBytes) ++ (w.join.toList.flatMap joinBytes) ++ reissueBytes b wi

/-- The image of a bank: its bytes, or a FIFO's words from its head on. (DESIGN CHOICE, unsafe: notes/assumptions/84.md). -/
def bankImage (b : Block) (k : Nat) (x : BankSt) : List Byte :=
  if x.fifo then padTo Config.bankBytes (x.queue.flatMap fun w => leBytes 4 w.toNat)
  else (List.range Config.bankBytes).map fun i => b.byte (k * Config.bankBytes + i)

/-- The 8,448 bytes of a weight slot: weights, bitmap, format, sw. (DESIGN CHOICE, unsafe: notes/assumptions/84.md). -/
def slotBytes (x : Option Slot) : List Byte :=
  match x with
  | none => leBytes 8448 0
  | some x => padTo 8448 ((x.w.flatMap fun r => r.flatMap fun v => leBytes 2 v.toNat) ++ (x.bitmap.flatMap fun v => leBytes 16 v.toNat) ++
      leBytes 4 (1 + 2 * bit01 x.sparse + 256 * (Ty.code x.fmt).toNat) ++ leBytes 4 x.sw.toNat)

/-- The 64 bytes of a receive entry: its sixteen words. (DESIGN CHOICE, unsafe: notes/assumptions/84.md). -/
def ChainEntry.saved : ChainEntry → List Byte
  | .message w _ | .carry _ _ w => padTo 64 (w.flatMap fun x => leBytes 4 x.toNat)

/-- A receive entry's twelve bytes of the block header: its kind and its horizon. (DESIGN CHOICE, unsafe: notes/assumptions/84.md). -/
def ChainEntry.head : ChainEntry → List Byte
  | .message _ h => leBytes 4 1 ++ leBytes 8 h
  | .carry op size _ => padTo 12 (leBytes 4 (2 + 256 * op + 65536 * size))

/-- The first chunk of its entry that a copy has not completed (R334). -/
def EngOp.nextChunk (o : EngOp) : Nat := ((List.range (o.chunks.length + 1)).find? fun k => !o.chunks.contains k).getD 0

/-- The 64 bytes of an engine record: the pending operation's handle and its progress point, with a copy's completed chunks as the
first that is not and a bit for each of the 128 from there. (DESIGN CHOICE, unsafe: notes/assumptions/84.md). -/
def EngOp.saved (o : EngOp) : List Byte :=
  let done := (List.range 128).foldl (fun n k => if o.chunks.contains (o.nextChunk + k) then n + 2 ^ k else n) 0
  padTo 64 (leBytes 8 o.handle.toNat ++ leBytes 8 o.pc.toNat ++ leBytes 4 (opUnit o.kind + 256 * o.warp + 65536 * (o.hreg.getD 16)) ++
    leBytes 4 o.entry ++ leBytes 4 o.progress ++ leBytes 8 o.bytes ++ leBytes 4 o.amax.toNat ++ leBytes 8 o.nextChunk ++ leBytes 16 done)

/-- The 256 bytes of a block header: the fields R344 lists, in its order; a FIFO's head is word 0, since its image begins there
(`bankImage`). (DESIGN CHOICE, unsafe: notes/assumptions/84.md). -/
def State.blockHeader (s : State) (d : KDesc) (b : Block) : List Byte :=
  let bars := ((s.groups.filter fun g => g.members.contains b.uid).map (·.bar)).take 16
  padTo 256 (leBytes 4 (launchIdent b.lid) ++ leBytes 4 b.index ++ leBytes 4 b.core ++ leBytes 1 d.regs ++ leBytes 1 d.warps ++ leBytes 2 d.tiles ++
    leBytes 4 b.scrSize ++ padTo 64 (b.banks.flatMap fun x => leBytes 1 (bit01 x.fifo) ++ leBytes 2 0 ++ leBytes 1 x.queue.length) ++
    leBytes 1 b.tileTag.toNat ++ leBytes 1 b.tileFull.toNat ++
    (match b.group with | some g => leBytes 4 g.first ++ leBytes 4 g.len ++ leBytes 1 (1 + 2 * bit01 g.ring) | none => leBytes 9 0) ++
    leBytes 1 b.chain.length ++ padTo 48 (bars.flatMap fun x => leBytes 1 (Scope.code x.scope).toNat ++ leBytes 2 x.g) ++
    leBytes 4 b.lockQuota ++ leBytes 4 b.locked.length ++ leBytes 4 b.pendingOps ++
    padTo 24 (b.chain.flatMap ChainEntry.head))

/-- A block's record (R344). -/
def State.recordBytes (s : State) (d : KDesc) (b : Block) : List Byte :=
  s.blockHeader d b ++ ((b.warps.zipIdx).flatMap fun x => warpBytes b d.regs x.2 x.1) ++
  ((b.banks.zipIdx).flatMap fun x => bankImage b x.2 x.1) ++
  ((List.range (128 * d.tiles)).flatMap fun r => (b.tileRow (r / 128) (r % 128)).flatMap fun x => leBytes 4 x.toNat) ++
  (b.slots.toList.flatMap slotBytes) ++ padTo 128 (b.chain.flatMap ChainEntry.saved) ++
  padTo (alignUp (8 * b.locked.length)) (b.locked.flatMap fun v => leBytes 8 (128 * v)) ++
  ((b.ops.filter (·.status == .pending)).flatMap EngOp.saved)

/-- The records that a queue's save area holds: offset and size, in 4 KiB pages. -/
def State.savedPages (s : State) (q : Nat) : List (Nat × Nat) :=
  s.blocks.filterMap fun b => match b.phase, s.launch? b.lid with
    | .saved a, some l => if l.queue == q then some ((a - (s.queue q).save.toNat) / 4096, (recordSize l.desc b + 4095) / 4096) else none
    | _, _ => none

/-- The lowest free page of the area that n pages fit at (R343). -/
def freePage (used : List (Nat × Nat)) (n : Nat) : Option Nat :=
  let fits (o : Nat) : Bool := decide (o + n ≤ 2 ^ 18) && used.all fun u => decide (o + n ≤ u.1) || decide (u.1 + u.2 ≤ o)
  ((0 :: used.map fun u => u.1 + u.2).filter fits).foldl (fun b o => match b with
    | none => some o
    | some p => some (min p o)) none

/-- Write bytes at a virtual address in pieces of 4 KiB, on fuel: the address of the first piece that does not translate. -/
def State.saveWrite (s : State) (asid : Nat) : Nat → Nat → List Byte → State × Option Nat
  | 0, _, _ => (s, none)
  | n + 1, va, bs =>
    if bs.isEmpty then (s, none)
    else match s.floorWrite asid va (bs.take 4096) with
      | none => (s, some va)
      | some s => s.saveWrite asid n (va + 4096) (bs.drop 4096)

/-! ### Stopping a block (R316) -/

/-- A block is to stop from now on: its predictions are unwound, but for the warps of a NOPRE region. -/
def State.stopBlock (s : State) (uid : Nat) (why : StopWhy) : State :=
  let s := s.modBlock uid fun b =>
    { b with phase := .stopping s.time why, warps := b.warps.map fun w => { w with windowHeld := 0 } }
  let n := match s.block? uid with | some b => b.warps.length | none => 0
  (List.range n).foldl (fun s i => match s.warp? uid i with
    | some w => if w.nopre then s else s.unwindAll ⟨uid, i⟩
    | none => s) s

/-- A pre-emption request reaches a block (R319). -/
def State.preempt (s : State) (uid : Nat) : State :=
  match s.block? uid with
  | none => s
  | some b => match b.phase with
    | .resident => s.stopBlock uid .preempt
    | .stopping _ (.migrate _) | .moving _ => s.modBlock uid fun b => { b with wantSave := true }
    | _ => s

/-- A warp has stopped issuing (R316, R354). -/
def Warp.stopped (w : Warp) : Bool := !w.nopre || w.frags.all (·.2.isHalted)

/-- A load that a stop cancels (R316). (DEDUCED, unsafe: notes/assumptions/43.md). -/
def Req.cancels (q : Req) : Bool := (match q.kind with | .fill | .read => true | _ => false) && !q.valueBack

/-- The block has come to rest: every warp has stopped, its stores and atomics have been performed and their times have
returned, its pipe is empty and its chain entries are delivered. -/
def State.atRest (s : State) (b : Block) : Bool :=
  b.warps.all (fun w => w.stopped && w.pipe.isEmpty) && b.link.isEmpty &&
  s.reqs.all fun q => q.block != b.uid || q.cancels || q.lingers

/-- Take a stopped block's context: predictions unwound, loads cancelled, reservations cleared, dirty local lines written
back (R185, R316). (DEDUCED, unsafe: notes/assumptions/43.md). -/
def State.takeContext (s : State) (b : Block) (l : Machine.Launch) : State :=
  let s := (List.range b.warps.length).foldl (fun s i => s.unwindAll ⟨b.uid, i⟩) s
  let mine (q : Req) : Bool := q.block == b.uid && q.cancels
  let again := (s.reqs.filter mine).filter fun q => !q.pref && !q.drop && q.dst.isSome
  let s := { s with reqs := s.reqs.filter fun q => !mine q }
  let s := s.dropLines b.core (localLineOf l b)
  s.modBlock b.uid fun b => { b with
    reissue := b.reissue ++ again
    warps := b.warps.map fun w => { w with resv := Vector.replicate 32 none } }

/-- A saved block's record of kind 1 goes to the profiling ring, and its counters restart at 0 (R357). -/
def State.countSave (s : State) (uid asid : Nat) : State :=
  match s.block? uid with
  | none => s
  | some b => (s.blockRecord b asid 1).modBlock uid fun b =>
      { b with warps := b.warps.map fun w => { w with stalls := Vector.replicate 16 0 } }

/-- A failed save aborts the kernel (R343, R385). -/
def State.saveFailed (s : State) (b : Block) (l : Machine.Launch) (addr : Nat) (info : Word) : State :=
  (s.errorRecord l.id l.asid 8 0 (BitVec.ofNat 64 addr) 0 info b.core 0xFF (s.dieOf b.core) 0xFFFF_FFFF).abortKernel l.id

/-- Write a block's record into its queue's save area: the block is saved, or its kernel aborts. (DEDUCED, unsafe: notes/assumptions/46.md). -/
def State.saveRecord (s : State) (b : Block) (l : Machine.Launch) : State :=
  let q := s.queue l.queue
  let size := recordSize l.desc b
  match freePage (s.savedPages l.queue) ((size + 4095) / 4096) with
  | none => s.saveFailed b l 0 1
  | some p =>
    let a := q.save.toNat + 4096 * p
    let bs := s.recordBytes l.desc b
    match s.saveWrite q.asid (size / 4096 + 1) a bs with
    | (s, some x) => s.saveFailed b l x 0
    | (s, none) =>
      ((s.countSave b.uid l.asid).modBlock b.uid fun b => { b with phase := .saved a, wantSave := false, record := bs }).lastLoss b.core

/-- The target column of a migration has a core that admits the block: the core and the places of its warps; of several cores, the one
R307 would prefer for a block placed anew. (DESIGN CHOICE, unsafe: notes/assumptions/90.md). -/
def State.targetCore (s : State) (k : KDesc) (column : Nat) : Option (Nat × List (Nat × Nat)) :=
  ((List.range s.numCores).filter fun c => s.columnOf c == column).foldl (fun b c => match b, s.admits k c with
    | none, some p => some (c, p)
    | some x, some p => if s.coreKey k c < s.coreKey k x.1 then some (c, p) else some x
    | b, none => b) none

/-- The context of a stopped block is taken and, for a pre-emption, its record written. -/
def State.save (s : State) (b : Block) (l : Machine.Launch) (why : StopWhy) : State :=
  let s := s.takeContext b l
  match why with
  | .migrate c => ((s.countSave b.uid l.asid).modBlock b.uid fun b => { b with phase := .moving c }).lastLoss b.core
  | .preempt => match s.block? b.uid with
    | some b => (s.saveRecord b l).preqCheck
    | none => s

/-- The block's context lies in its queue's save area. -/
def Block.isSaved (b : Block) : Bool := match b.phase with
  | .saved _ => true
  | _ => false

/-- The block and those that are pre-empted with it: all of a cooperative or chain launch, those under migration among them (R315, R319). -/
def State.withWhole (s : State) (b : Block) : List Nat :=
  match s.launch? b.lid with
  | some l => if l.desc.whole then (s.blocks.filter fun x => x.lid == b.lid && !x.isSaved).map (·.uid) else [b.uid]
  | none => [b.uid]

/-- A migration that cannot finish ends in a pre-emption (R315), of every block of a cooperative launch. -/
def State.stuckMove (s : State) (b : Block) (l : Machine.Launch) : State :=
  let s := ((s.withWhole b).filter (· != b.uid)).foldl State.preempt s
  (s.saveRecord b l).preqCheck

/-- A column's controller tries again after 1 ms (R320). -/
def State.retryLater (s : State) (column : Nat) : State :=
  { s with env := { s.env with retryAt := vset s.env.retryAt column (s.time + 1000000) } }

/-- A pre-emption that has waited for the migration applies to the block where it stands (R319). -/
def State.applyWant (s : State) (uid : Nat) : State :=
  match s.block? uid with
  | none => s
  | some b => if b.wantSave then (s.modBlock uid fun b => { b with wantSave := false }).preempt uid else s

/-- A block that no rule keeps from being migrated (R321): it is in no chain group and in no barrier group of a quad or die, and no warp
of it is parked for replay on a translation fault. -/
def State.mayMove (s : State) (b : Block) : Bool :=
  b.group.isNone && !(s.groups.any fun g => g.members.contains b.uid && (g.bar.scope == .quad || g.bar.scope == .die)) &&
  b.warps.all fun w => w.frags.all fun x => x.2.replay.isNone

/-- A migration is abandoned (R320, R322): the block goes on where it stopped, and a pre-emption that waited for it applies. -/
def State.abandonMove (s : State) (b : Block) : State :=
  ((s.modBlock b.uid fun b => { b with phase := .resident }).retryLater (s.columnOf b.core)).applyWant b.uid

/-- CONTEXT_SAVE_COMPLETE (R316, R322, R343, R344); a migration that cannot finish ends in a pre-emption (R315), and one of a block that
has come to be one R321 keeps where it is, while it was being stopped, is abandoned. (DESIGN CHOICE, safe: notes/assumptions/44.md). -/
def execContextSaveComplete (uid : Nat) (s : State) : Host.Outcome State Fault Refusal :=
  match s.block? uid with
  | none => .fault .noSuchObject
  | some b => match s.launch? b.lid with
    | none => .fault .noSuchObject
    | some l => match b.phase with
      | .stopping _ why =>
        if !s.atRest b || l.st == .aborted then .fault .notEnabled
        else if (match why with | .migrate _ => !s.mayMove b | .preempt => false) then .next (s.abandonMove b).finishDrops
        else .next (s.save b l why).finishDrops
      | .moving c =>
        if (s.targetCore l.desc c).isNone || !s.drops.isEmpty then .next (s.stuckMove b l).finishDrops else .fault .notEnabled
      | _ => .fault .notEnabled

/-! ### PREQ and automatic pre-emption (R315) -/

/-- A write of PREQ takes effect (R315): the blocks are pre-empted, and each tree's are restored together. -/
def State.preq (s : State) (v : Word) : State :=
  let q := fieldOf v 0 6
  let s := { s with dev := { s.dev with preqQ := q, preqGo := s.dev.preqGo || v.getLsbD 31 } }
  if v.getLsbD 31 then
    let hit := s.blocks.filter fun b => match s.launch? b.lid with | some l => l.queue == q && l.st != .aborted | none => false
    (hit.foldl (fun s b => (s.preempt b.uid).modBlock b.uid fun b =>
      { b with tree := b.tree || !b.isSaved }) s).preqCheck
  else s

/-- The blocks a waiting launch may displace: of lower queue priority, the lowest first, the youngest launch first. -/
def State.victims (s : State) (l : Machine.Launch) : List Block :=
  let key (b : Block) : Nat := match s.launch? b.lid with | some x => x.prio * 2 ^ 64 + (2 ^ 64 - x.order) | none => 0
  sortBy key (s.blocks.filter fun b => b.phase == .resident && (match s.launch? b.lid with
    | some x => decide (x.prio < l.prio) && x.st != .aborted
    | none => false))

/-- The device without some blocks can place the launch's next block. -/
def State.placesWithout (s : State) (l : Machine.Launch) (out : List Nat) : Bool :=
  (({ s with blocks := s.blocks.filter fun b => !out.contains b.uid } : State).placeLaunch l).isSome

/-- Displace victims in order until the launch fits; none if it never does. -/
def State.displace (s : State) (l : Machine.Launch) : List Block → List Nat → Option (List Nat)
  | [], out => if s.placesWithout l out then some out else none
  | b :: r, out => if s.placesWithout l out then some out else s.displace l r (out ++ s.withWhole b)

/-- Only the blocks that are needed: those displaced first are kept where the launch fits without them, `going` being on their way
out. -/
def State.needed (s : State) (l : Machine.Launch) (going out : List Nat) : List Nat :=
  out.foldl (fun acc u => match s.block? u with
    | none => acc
    | some b =>
      let less := acc.filter fun x => !(s.withWhole b).contains x
      if s.placesWithout l (going ++ less) then less else acc) out

/-- The blocks that a pre-emption is stopping. -/
def State.leaving (s : State) : List Nat :=
  (s.blocks.filter fun b => b.wantSave || (match b.phase with | .stopping _ .preempt => true | _ => false)).map (·.uid)

/-- AUTO_PREEMPT (R315): blocks that are being stopped already make room first. -/
def execAutoPreempt (lid : Nat) (s : State) : Host.Outcome State Fault Refusal :=
  match s.launch? lid with
  | none => .fault .noSuchObject
  | some l =>
    let going := s.leaving
    if s.dev.apre && l.st == .running && decide (l.next < l.desc.total) &&
        decide (l.waitSince + 1000 * s.dev.apdly < s.time) && !s.placesWithout l going then
      match s.displace l (s.victims l) going with
      | none => .fault .notEnabled
      | some out => .next ((s.needed l going (out.filter fun u => !going.contains u)).foldl State.preempt s)
    else .fault .notEnabled

/-- A fragment that takes the region-overrun trap: not one parked at a join, nor one whose work a fault holds or that has a
trap to take; in a handler, a fragment of it. (DESIGN CHOICE, safe: notes/assumptions/45.md). -/
def Warp.overrunFrags (w : Warp) : List (Fin 32 × Frag) :=
  let l := w.frags.filter fun x => (w.handler.isNone || x.2.handler) && x.2.st != .parkedJoin
  let m := l.filter fun x => x.2.replay.isNone && x.2.held.isNone
  if m.isEmpty then l else m

/-- NOPRE_WINDOW_EXPIRY (R248, R316): region overrun, taken by a fragment of the warp that the spec does not choose. (DESIGN CHOICE, safe: notes/assumptions/45.md). -/
def execNopreWindowExpiry (r : WarpRef) (s : State) : Host.Outcome State Fault Refusal :=
  match s.block? r.block with
  | none => .fault .noSuchObject
  | some b => match b.phase, b.warps[r.warp]? with
    | .stopping t0 .preempt, some w =>
      if w.nopre && !w.stopped && decide (t0 + 2000 + w.windowHeld ≤ s.time) then
        let s := s.unwindAll r
        let w := (s.warp? r.block r.warp).getD w
        let (n, s) := s.draw
        let l := w.overrunFrags
        match l[Config.victim n % max 1 l.length]? with
        | none => .next (s.modWarp r.block r.warp fun w => { w with nopre := false })
        | some (i, f) => match s.ctx? ⟨r.block, r.warp, .entry i⟩ with
          | none => .fault .noSuchObject
          | some c =>
            let pc := match f.replay with | some (.mem pc _ _ _ _) => pc | some (.reissue pc _ _ _) => pc | _ => f.pc
            .next ((s.takeTrap c { c.trap 0x0E 0 with pc := pc }).modWarp r.block r.warp fun w => { w with nopre := false })
      else .fault .notEnabled
    | _, _ => .fault .notEnabled

/-! ### Restoring a block (R317) -/

/-- A fragment as a restore finds it: its fairness count at 0, halted as the context is; a replay is due once without any
FRESUME (R333, R354); one that was halted at a BKPT or at a stop site has that behind it once it is let go (R353). -/
def Frag.restored (f : Frag) (halt : Bool) : Frag :=
  let f : Frag := match f.replay with
    | some (.mem ..) | some (.fetch ..) | some (.reissue ..) => f.retry
    | _ => f
  { f with wait := 0, halted := halt, resumed := false, stepped := false, site := halt && (f.site || f.resumed) }

/-- A warp as a restore finds it: another place and age, its last ordinal unknown; a REP's prefix is fetched again. -/
def Warp.restored (w : Warp) (place : Nat × Nat) (age : Nat) (halt : Bool) : Warp :=
  { w with
    sched := place.1, slot := place.2, age := age, ordinal := 0xFFFF_FFFF
    split := w.split.map (Option.map fun f => f.restored halt), rep := w.rep.map fun r => { r with f := none } }

/-- Put a block on a core, at the places found for its warps; one that a pre-emption waits for after a migration stays of its tree
(R315, R319). -/
def State.putBlock (s : State) (b : Block) (l : Machine.Launch) (core : Nat) (places : List (Nat × Nat)) : State :=
  let a := (s.core core).ageCtr
  let halt := s.haltOf l.asid
  let s := s.modBlock b.uid fun b =>
    ({ b with
      phase := .resident, core := core, since := s.time, tree := b.tree && b.wantSave, record := []
      ops := b.ops.map fun o => if o.status == .pending then { o with suspend := none } else o
      warps := ((b.warps.zip places).zipIdx).map fun x => x.1.1.restored x.1.2 (a + x.2) halt } : Block).unparkHandles
  let s := s.modCore core fun x =>
    { x with ageCtr := a + b.warps.length, sampleAt := if (s.residents core).length ≤ 1 then s.time else x.sampleAt }
  let s := (s.shrinkL1 core (s.core core).lines.length).reissueAll b.uid
  match s.block? b.uid with
  | none => s
  | some b => (sortBy Warp.warpSlot b.warps).foldl (fun s w => w.frags.foldl (fun s x => s.syncFrag core l.asid w x.1.val x.2) s) s

/-- Where a saved block goes: the logical core it left, or where R307 places it when that number is gone (R317, R345). -/
def State.restoreCore (s : State) (b : Block) (l : Machine.Launch) : Option (Nat × List (Nat × Nat)) :=
  if b.core < s.numCores then (s.admits l.desc b.core).map (b.core, ·)
  else s.chooseCore { l with next := b.index, desc := { l.desc with hasList := false } }

/-- The times of a block's engine writes, which nothing may have observed yet, have passed: at die scope, or at dev (R282). -/
def Block.writesPast (b : Block) (now : Nat) (die : Bool) : Bool :=
  b.ops.all fun o => decide ((if die then o.wdie else o.wdev) ≤ now)

/-- A save record as its area now holds it, through the page table. -/
def State.recordNow (s : State) (asid : Nat) : Nat → Nat → Nat → Option (List Byte)
  | 0, _, _ => some []
  | f + 1, va, n =>
    if n = 0 then some []
    else (s.virtRead asid va (min n 4096)).bind fun v =>
      (s.recordNow asid f (va + 4096) (n - 4096)).map fun r => leBytes (min n 4096) v ++ r

/-- Word i of what a restore reads in place of a record that has changed, by the number of its draw. -/
def lostWord (k i : Nat) : Word := Config.freeWord (2 ^ 64 * (k + 1) + i)

/-- Two such words as one value. -/
def lostPair (k i : Nat) : DWord := pairOf (lostWord k i) (lostWord k (i + 1))

/-- The lane flags of such a word. -/
def lostFlags (k i : Nat) : CC :=
  let x := lostWord k i
  ⟨x.getLsbD 0, x.getLsbD 1, x.getLsbD 2, x.getLsbD 3⟩

/-- A replay record of undefined address and lanes. -/
def Replay.lost (pc : DWord) (m : LaneMask) : Replay → Replay
  | .mem _ i _ n j => .mem pc i m n j
  | .fetch _ _ n => .fetch pc m n
  | .handle _ h => .handle pc h
  | .reissue _ _ n j => .reissue pc m n j

/-- A split-table entry of an undefined context, from word o on. -/
def Frag.lost (f : Frag) (k o : Nat) : Frag :=
  let x := lostWord k (o + 1)
  let pc (i : Nat) : DWord := lostPair k (o + i) &&& ~~~1#64
  { f with
    mask := lostWord k o, rank := x.extractLsb' 0 5, join := x.extractLsb' 5 6, depth := x.extractLsb' 11 8, pc := pc 2
    deadline := f.deadline.map fun _ => (lostPair k (o + 4)).toNat, replay := f.replay.map (Replay.lost (pc 6) (lostWord k (o + 8))) }

/-- A join-table entry of an undefined context, from word o on. -/
def Join.lost (k o : Nat) : Join :=
  let x := lostWord k (o + 4)
  ⟨lostPair k o &&& ~~~1#64, x.extractLsb' 0 8, lostWord k (o + 2), lostWord k (o + 3), x.extractLsb' 8 6⟩

/-- A warp of an undefined context, from word o on. -/
def Warp.lost (w : Warp) (k o : Nat) : Warp :=
  let x (i : Nat) : Word := lostWord k (o + i)
  let pair (i : Nat) : DWord := lostPair k (o + i)
  let y := x 5209
  { w with
    v := Vector.ofFn fun n => Vector.ofFn fun l => x (32 * n.val + l.val), s := Vector.ofFn fun n => x (4096 + n.val)
    h := Vector.ofFn fun n => pair (4608 + 2 * n.val), cc0 := Vector.ofFn fun l => lostFlags k (o + 5120 + l.val)
    cc1 := Vector.ofFn fun l => lostFlags k (o + 5152 + l.val), amax := x 5184, lfsr := x 5185, part := (x 5186).toNat % 6
    repc := (x 5187).extractLsb' 0 7, nanSeen := (x 5188).getLsbD 0, tick := if (x 5189).getLsbD 0 then some (x 5190) else none
    hdie := (pair 5192).toNat, hdev := (pair 5194).toNat, hpod := (pair 5196).toNat
    rep := w.rep.map fun r => { r with addr := pair 5198 &&& ~~~1#64 }, x := ⟨x 5200, pair 5202, pair 5204, x 5206, x 5207⟩
    handler := w.handler.map fun h => { h with mask := x 5208, join := y.extractLsb' 0 6, depth := y.extractLsb' 6 8 }
    nopre := (x 5210).getLsbD 0, vFull := pair 5212 ++ pair 5214, sFull := pair 5216, hFull := (x 5218).extractLsb' 0 16
    split := Vector.ofFn fun i => w.split[i].map fun f => f.lost k (o + 6144 + 16 * i.val)
    join := Vector.ofFn fun i => w.join[i].map fun _ => Join.lost k (o + 7168 + 8 * i.val) }

/-- A weight slot of an undefined context, from word o on. -/
def Slot.lost (x : Slot) (k o : Nat) : Slot :=
  { x with
    w := (x.w.zipIdx).map fun r => (r.1.zipIdx).map fun c => (lostWord k (o + 256 * r.2 + c.2)).extractLsb' 0 16
    bitmap := (x.bitmap.zipIdx).map fun r => lostPair k (o + 65536 + 4 * r.2) ++ lostPair k (o + 65538 + 4 * r.2), sw := lostWord k (o + 131072) }

/-- A receive entry of an undefined context, from word o on. -/
def ChainEntry.lost (k o : Nat) : ChainEntry → ChainEntry
  | .message w _ => .message ((w.zipIdx).map fun x => lostWord k (o + x.2)) (lostPair k (o + 16)).toNat
  | .carry op size w => .carry op size ((w.zipIdx).map fun x => lostWord k (o + x.2))

/-- A pending operation of an undefined context, from word o on: any of a copy's completed chunks may count as not completed. -/
def EngOp.lost (x : EngOp) (k o : Nat) : EngOp :=
  { x with
    handle := lostPair k o, entry := (lostWord k (o + 2)).toNat, progress := (lostWord k (o + 3)).toNat
    bytes := (lostPair k (o + 4)).toNat, amax := lostWord k (o + 6), chunks := x.chunks.filter fun c => (lostWord k (o + 8 + c)).getLsbD 0 }

/-- A context whose record has changed while it was saved: every value the record holds of it is undefined (R343); which entries of its
tables are valid and in which state, its sizes, and what joins it to other contexts stay. (DEDUCED, unsafe: notes/assumptions/46.md). -/
def Block.undefinedBy (b : Block) (k : Nat) : Block :=
  { b with
    tileTag := (lostWord k 0).extractLsb' 0 8, tileFull := (lostWord k 1).extractLsb' 0 8
    warps := (b.warps.zipIdx).map fun x => x.1.lost k (2 ^ 20 * (x.2 + 1))
    locked := (b.locked.zipIdx).map fun x => (lostPair k (2 ^ 26 + 2 * x.2)).toNat / 128
    chain := (b.chain.zipIdx).map fun x => x.1.lost k (2 ^ 27 + 64 * x.2)
    slots := Vector.ofFn fun i => b.slots[i].map fun x => x.lost k (2 ^ 28 + 2 ^ 20 * i.val)
    banks := (b.banks.zipIdx).map fun x =>
      { x.1 with queue := (x.1.queue.zipIdx).map fun y => lostWord k (2 ^ 29 + 2 ^ 16 * x.2 + y.2) }
    tiles := (List.range 1024).map fun r => (r, (List.range 16).map fun j => lostWord k (2 ^ 31 + 16 * r + j))
    scratch := (List.range b.scrSize).map fun i => (i, (lostWord k (2 ^ 32 + i)).extractLsb' 0 8)
    ops := (b.ops.zipIdx).map fun x => if x.1.status == .pending then x.1.lost k (2 ^ 36 * (x.2 + 1)) else x.1 }

/-- Read a saved block's record (R317, R343): a changed one makes the context undefined. (DEDUCED, unsafe: notes/assumptions/46.md). -/
def State.readRecord (s : State) (b : Block) (l : Machine.Launch) : State :=
  match b.phase with
  | .saved a =>
    if s.recordNow (s.queue l.queue).asid (b.record.length / 4096 + 1) a b.record.length == some b.record then s
    else
      let (k, s) := s.draw
      s.modBlock b.uid fun b => b.undefinedBy k
  | _ => s

/-- Restore one saved block. -/
def State.restoreOne (s : State) (uid : Nat) : Option State :=
  match s.block? uid with
  | none => none
  | some b => (s.launch? b.lid).bind fun l => match b.phase with
    | .saved _ =>
      if b.warps.all (fun w => decide (w.hdev ≤ s.time)) && b.writesPast s.time false then
        (s.restoreCore b l).map fun x => (s.readRecord b l).putBlock b l x.1 x.2
      else none
    | _ => none

/-- A block is restored with another: of the same cooperative or chain launch, or of the same tree that PREQ has pre-empted (R315). -/
def State.goesWith (s : State) (b : Block) (l : Machine.Launch) (x : Block) : Bool :=
  x.uid == b.uid || (match s.launch? x.lid with
    | some y => (l.desc.whole && y.id == l.id) || (b.tree && x.tree && y.root == l.root && y.st != .aborted)
    | none => false)

/-- Blocks restored with this one: every saved block of a cooperative or chain launch, or of a tree, once none of it is being
stopped. -/
def State.restoreSet (s : State) (b : Block) (l : Machine.Launch) : Option (List Nat) :=
  if !l.desc.whole && !b.tree then some [b.uid]
  else
    let bs := s.blocks.filter (s.goesWith b l)
    if bs.all Block.isSaved then some (bs.map (·.uid)) else none

/-- A launch waits for placement at the head of the order and holds this one back (R308). -/
def State.heldBack (s : State) (l : Machine.Launch) : Bool :=
  s.placeOrder.any fun x => x.holdsBack s.time && decide (x.orderKey < l.orderKey)

/-- The state after a block, with those that go with it, is restored. (DEDUCED, unsafe: notes/assumptions/46.md). -/
def State.restore (s : State) (uid : Nat) : Option State :=
  match s.block? uid with
  | none => none
  | some b => (s.launch? b.lid).bind fun l =>
    if (s.queue l.queue).hold || l.st == .aborted || s.heldBack l || !s.drops.isEmpty then none
    else (s.restoreSet b l).bind fun us => us.foldl (fun acc u => acc.bind fun s => s.restoreOne u) (some s)

/-- BLOCK_RESTORE (R317). -/
def execBlockRestore (uid : Nat) (s : State) : Host.Outcome State Fault Refusal :=
  match s.block? uid with
  | none => .fault .noSuchObject
  | some _ => match s.restore uid with
    | some t => .next t.reportDrop
    | none => .fault .notEnabled

/-! ### Thermal migration (R320-R323) -/

/-- A block that may be migrated (R320, R321): of a migratable kernel that runs. -/
def State.migratable (s : State) (b : Block) : Bool :=
  b.phase == .resident && (match s.launch? b.lid with | some l => l.desc.migratable && l.st == .running | none => false) && s.mayMove b

/-- The age of a block: its oldest warp's stamp (R311). -/
def Block.stamp (b : Block) : Nat := (b.warps.map (·.age)).foldl min ((b.warps.head?.map (·.age)).getD 0)

/-- A column's block is being migrated. -/
def State.migrating (s : State) (column : Nat) : Bool :=
  s.blocks.any fun b => s.columnOf b.core == column && (match b.phase with
    | .stopping _ (.migrate _) | .moving _ => true
    | _ => false)

/-- A column has stayed above its migration threshold for 1 ms, and its controller may try (R320). -/
def State.hotLong (s : State) (column : Nat) : Bool :=
  (match vget none s.env.hotSince column with | some t => decide (t + 1000000 ≤ s.time) | none => false) &&
  decide (vget 0 s.env.retryAt column ≤ s.time)

/-- A column at least 5 °C below its own threshold with a core that can admit a block (R320). -/
def State.takesMigrant (s : State) (k : KDesc) (here column : Nat) : Bool :=
  column != here && (match s.env.config.thresholds[column]? with | some t => decide (vget 0 s.env.temps column + 5 ≤ t) | none => false) &&
  (s.targetCore k column).isSome

/-- MIGRATION_START (R320-R322): of a column above its threshold, the oldest block that may leave it, to the coolest column that takes
it. (DESIGN CHOICE, safe: notes/assumptions/44.md). -/
def execMigrationStart (uid : Nat) (column : Fin 40) (s : State) : Host.Outcome State Fault Refusal :=
  match s.block? uid with
  | none => .fault .noSuchObject
  | some b => match s.launch? b.lid with
    | none => .fault .noSuchObject
    | some l =>
      let here := s.columnOf b.core
      let rivals := s.blocks.filter fun x => s.columnOf x.core == here && s.migratable x
      let cooler (c : Nat) : Bool := decide (vget 0 s.env.temps c < vget 0 s.env.temps column)
      if s.hotLong here && s.migratable b && !s.migrating here && rivals.all (fun x => decide (b.stamp ≤ x.stamp)) &&
          s.takesMigrant l.desc here column.val && !(List.range Config.numColumns).any (fun c => cooler c && s.takesMigrant l.desc here c) &&
          s.drops.isEmpty then
        .next (s.stopBlock uid (.migrate column.val))
      else .fault .notEnabled

/-- MIGRATION_ABANDON (R322): a NOPRE flag is still set after 2 µs; the block goes on where it stopped. -/
def execMigrationAbandon (uid : Nat) (s : State) : Host.Outcome State Fault Refusal :=
  match s.block? uid with
  | none => .fault .noSuchObject
  | some b => match b.phase with
    | .stopping t0 (.migrate _) =>
      if b.warps.any fun w => !w.stopped && decide (t0 + 2000 + w.windowHeld ≤ s.time) then
        .next (s.abandonMove b)
      else .fault .notEnabled
    | _ => .fault .notEnabled

/-- The block's accesses before a migration, its engines' among them, are synchronised with those after it (R282, R323). -/
def State.synchronised (s : State) (b : Block) (core : Nat) : Bool :=
  b.writesPast s.time (s.dieOf core == s.dieOf b.core) && b.warps.all fun w => if s.dieOf core == s.dieOf b.core then decide (w.hdie ≤ s.time) else decide (w.hdev ≤ s.time)

/-- MIGRATION_RESUME (R322, R323); a launch that waits at the head of the order (R308) does not hold it back. (DESIGN CHOICE, unsafe: notes/assumptions/90.md). -/
def execMigrationResume (uid : Nat) (s : State) : Host.Outcome State Fault Refusal :=
  match s.block? uid with
  | none => .fault .noSuchObject
  | some b => match s.launch? b.lid, b.phase with
    | some l, .moving column => match s.targetCore l.desc column with
      | none => .fault .notEnabled
      | some (core, places) =>
        if s.synchronised b core && l.st != .aborted && s.drops.isEmpty then .next ((s.putBlock b l core places).applyWant uid) else .fault .notEnabled
    | _, _ => .fault .notEnabled

end Sys2Proof.Machine
end

