-- ==== Sys2Proof/Machine/Boot.lean ====
section
/-! DEFINITION. Power good and the boot stages (R370), firmware verification (R372), function-level reset (R371) and recovery
(R373). -/

namespace Sys2Proof.Machine

/-- The firmware image is accepted (R372): both signatures verify, its security version is at least the fused minimum, and it
is for this device. -/
def State.imageOk (s : State) (img : FirmwareImage) : Bool :=
  img.edSigOk && img.mlSigOk && decide (s.env.minVersion ≤ img.version) && img.classOk

/-- What a reset of the whole device leaves: every register at its Reset column, no work, memory, L2 and vault zero with good check
values; what lies outside the device (host memory, the interrupts and writes it has sent, the device time, the temperatures, the size
the host has given the Memory BAR), the fuses and the model's own counters stay. (DESIGN CHOICE, unsafe: notes/assumptions/3.md). (DESIGN CHOICE, unsafe: notes/assumptions/5.md). (DESIGN CHOICE, safe: notes/assumptions/6.md). (DESIGN CHOICE, unsafe: notes/assumptions/52.md). -/
def State.cleared (s : State) : State :=
  { time := s.time, host := s.host, msix := s.msix, nextReq := s.nextReq, nextUid := s.nextUid, nextOp := s.nextOp,
    agenda := s.agenda, outside := s.outside, linkOut := s.linkOut, bad := s.bad.filter fun b => b.space == 2, fresh := s.fresh
    env := { minVersion := s.env.minVersion, temps := s.env.temps, watts := s.env.watts, barBytes := s.env.barBytes } }

/-- A window of the configuration block, its reserved fields zero (R379). -/
def windowOf (w : DWord × DWord) : DWord × DWord :=
  (w.1 &&& 0x00FF_FFFF_FFFF_0001, w.2 &&& 0x00FF_FFFF_FFFF_0000)

/-- SLMAP with the entries of the disabled slices remapped to other slices beneath the same die (R264); which ones, firmware
chooses. (DEDUCED, unsafe: notes/assumptions/47.md). -/
def State.remapSlices (s : State) (bad : List Nat) : State :=
  bad.foldl (fun s i =>
    let good := ((List.range 12).map fun k => 12 * (i / 12) + k).filter fun k => !bad.contains k
    let (n, s) := s.draw
    match good[Config.victim n % max 1 good.length]? with
    | some g => { s with slmap := tput s.slmap i g }
    | none => s) s

/-- A port's lanes: four, or two, or one, or none (R378). -/
def lanesOk (n : Nat) : Nat := if 4 ≤ n then 4 else if 2 ≤ n then 2 else n

/-- The ranges firmware programs into the CXL ports' decoders, which reach at most 16,384 GiB together (R377). -/
def cxlDecoders (l : List (Nat × Nat)) : Vector (Nat × Nat) 4 :=
  Vector.ofFn fun p =>
    let before := ((l.take p.val).map (·.2)).sum
    let r := l.getD p.val (0, 0)
    (r.1, min r.2 (Config.cxlBytes - before))

/-- Stages 3 to 5 of boot (R370): what training and self-test found, and READY. (DESIGN CHOICE, unsafe: notes/assumptions/13.md). -/
def State.bringUp (s : State) (tr : Training) : State :=
  let bad := tr.badSlices.filter fun i => decide (i < 96)
  let lanes : Vector Nat 18 := Vector.ofFn fun p => lanesOk (tr.linkLanes.getD p.val 4)
  let cxl : Vector Bool 4 := Vector.ofFn fun p => tr.cxlUp.getD p.val true
  let dev : DevRegs := { s.dev with
    ready := true, recovery := false, stage := 5, dies := tr.dies
    pod := Vector.ofFn fun n => windowOf (s.env.config.windows.getD n.val (0, 0)) }
  let env : Env := { s.env with badSlices := bad, linkLanes := lanes, cxlUp := cxl, cxlRanges := cxlDecoders tr.cxlRanges }
  let s : State := { s with dev := dev, env := env }
  let s := s.remapSlices bad
  let s := if tr.dies == 0xFF then s else s.degrade 0
  let s := if bad.isEmpty then s else s.degrade 1
  let s := if lanes.toList.all (fun n => decide (4 ≤ n)) then s else s.degrade 2
  if cxl.toList.all id then s else s.degrade 3

/-- An accepted image runs (R372): the fused minimum rises to its version, its configuration block is in force. (DESIGN CHOICE, unsafe: notes/assumptions/11.md). -/
def State.runImage (s : State) (img : FirmwareImage) (tr : Training) : State :=
  ({ s with env := { s.env with
    config := img.config, firmware := img.bytes, configBytes := img.blocks
    minVersion := if s.env.minVersion < img.version then img.version else s.env.minVersion } } : State).bringUp tr

/-- POWER_GOOD (R370, R372): the whole boot, to READY or to recovery. -/
def execPowerGood (img : FirmwareImage) (tr : Training) (s : State) : Host.Outcome State Fault Refusal :=
  let t := s.cleared
  if s.imageOk img then .next (t.runImage img tr)
  else .next { t with dev := { t.dev with recovery := true, stage := 15 } }

/-- FUNCTION_LEVEL_RESET (R371): stages 3 to 5 again; DEVCAUSE and what follows from it, the fuses and the verified firmware
stay. A device with no firmware running, or powered down, has no stage to repeat. (DEDUCED, unsafe: notes/assumptions/51.md). -/
def execFunctionLevelReset (tr : Training) (s : State) : Host.Outcome State Fault Refusal :=
  if !s.dev.ready then .next s
  else
    let c := s.cleared
    let t : State := { c with
      dev := { c.dev with cause := s.dev.cause, degraded := s.dev.degraded, replace := s.dev.replace }
      env := { c.env with
        config := s.env.config, firmware := s.env.firmware, configBytes := s.env.configBytes, droop := s.env.droop, hot := s.env.hot
        power := s.env.power, hotSince := s.env.hotSince, ratePasses := s.env.ratePasses } }
    .next (t.bringUp tr)

/-- The bytes that IMGADDR and IMGCTL name in host memory (R373). -/
def State.imageBytes (s : State) : List Byte :=
  (List.range (4096 * s.dev.imgLen)).map fun k => s.host.get (s.dev.imgAddr.toNat + k)

/-- RECOVERY_IMAGE_LOAD (R373): the image that lies where the host has said is fetched and verified, and FAIL says whether it failed; an
accepted one runs from stage 3. (DESIGN CHOICE, unsafe: notes/assumptions/11.md). -/
def execRecoveryImageLoad (img : FirmwareImage) (tr : Training) (s : State) : Host.Outcome State Fault Refusal :=
  if !(s.dev.recovery && s.dev.imgGo && img.bytes == s.imageBytes) then .fault .notEnabled
  else if s.imageOk img then .next (({ s with dev := { s.dev with imgGo := false, imgFail := false } } : State).runImage img tr)
  else .next { s with dev := { s.dev with imgGo := false, imgFail := true } }

end Sys2Proof.Machine
end

