-- ==== Sys2Proof/Machine/Degrade.lean ====
section
/-! DEFINITION. Service with less than the whole device: the loss of a compute die (R345, R346), links, ports and time
synchronisation (R377, R378, R381), error rates (R382), clocks and temperatures (R17, R383), and attestation (R374). -/

namespace Sys2Proof.Machine

/-! ### A compute die dropped (R345) -/

/-- Step 1, the fence: each write from the die that is in flight is performed whole, or not at all; its other requests go. -/
def State.fence (s : State) (die : Nat) : State :=
  (s.reqs.filter fun q => q.die == die).foldl (fun s q =>
    let (n, s) := s.draw
    let done : State :=
      if Config.victim n % 2 = 1 && s.atSlice q then
        (match q.kind with
        | .write => sliceWriteEff s q
        | .atomic _ | .sc => if (s.badAt q.attr.target q.attr.tier q.pa).isSome then s else sliceAtomicEff s q
        | _ => s)
      else s
    done.dropReq q.id) s

/-- The contexts with a block resident on a die. -/
def State.contextsOn (s : State) (die : Nat) : List Nat :=
  ((s.blocks.filter fun b => b.present && s.dieOf b.core == die).filterMap fun b => (s.launch? b.lid).map (·.asid)).dedup

/-- A compute die is lost (R345): steps 1 to 3; the rest follows when no block is on a core. (DEDUCED, unsafe: notes/assumptions/47.md). -/
def State.loseDie (s : State) (die : Nat) : State :=
  if !s.dev.ready || !s.dev.dies.getLsbD die || s.drops.contains die then s
  else
    let hit := s.contextsOn die
    let s := s.fence die
    let s := (s.launches.filter fun l => hit.contains l.asid && l.st == .running).foldl
      (fun s l => s.dieLost l (BitVec.ofNat 32 die) die) s
    let rest := s.blocks.filter fun b => match s.launch? b.lid with | some l => l.st != .aborted | none => false
    let s := rest.foldl (fun s b => s.preempt b.uid) s
    ({ s with drops := s.drops ++ [die] } : State).finishDrops

/-- A write of DEVCTL takes effect (R367). -/
def State.devctl (s : State) (v : Word) : State :=
  let d := fieldOf v 0 3
  let s : State := { s with dev := { s.dev with dropDie := d } }
  if v.getLsbD 31 then s.loseDie d else s

/-- DIE_FAILURE (R345): the die's error rate has passed its limit, or its ports have failed. -/
def execDieFailure (die : Fin 8) (s : State) : Host.Outcome State Fault Refusal := .next (s.loseDie die.val)

/-! ### Ports, time and error rates -/

/-- LINK_DEGRADE (R378): a port runs on two lanes, then on one, or is down. -/
def execLinkDegrade (port : Fin 18) (lanes : Nat) (s : State) : Host.Outcome State Fault Refusal :=
  if lanes < s.env.linkLanes[port] && lanes ≤ 2 then
    .next (({ s with env := { s.env with linkLanes := s.env.linkLanes.set port lanes } } : State).degrade 2)
  else .fault .notEnabled

/-- CXL_PORT_DOWN (R377). -/
def execCxlPortDown (port : Fin 4) (s : State) : Host.Outcome State Fault Refusal :=
  .next (({ s with env := { s.env with cxlUp := s.env.cxlUp.set port false } } : State).degrade 3)

/-- POD_SYNC_LOSS (R381): the ports leave pod service; SYNC and LINK are set. -/
def execPodSyncLoss (s : State) : Host.Outcome State Fault Refusal :=
  .next (({ s with env := { s.env with syncLost := true }, dev := { s.dev with cause := s.dev.cause ||| 4 } } : State).degrade 5)

/-- CORRECTED_ERROR_RATE_LIMIT (R367, R382): REPLACE only when the limit is passed twice within 24 hours. (DEDUCED, unsafe: notes/assumptions/54.md). -/
def execCorrectedErrorRateLimit (s : State) : Host.Outcome State Fault Refusal :=
  let twice := s.env.ratePasses.any fun t => decide (s.time ≤ t + 86400000000000)
  let t : State := { s with env := { s.env with ratePasses := s.env.ratePasses ++ [s.time] }
                            dev := { s.dev with replace := s.dev.replace || twice } }
  .next (t.degrade 4)

/-! ### Clocks and temperatures (R17, R383); a stretch is what a column's clock loses, in thousandths of its nominal rate -/

/-- The clocks of some cores' columns stop: what their cores' traces note (R363). -/
def State.noteStopped (s : State) : State :=
  ((List.range s.numCores).filter fun c => decide (1000 ≤ s.env.stretchOf (s.columnOf c))).foldl
    (fun s c => s.modCore c fun k => { k with stopped := true }) s

/-- DROOP_STRETCH (R17): one column's clock; a stretch of 1000 stops it. (DESIGN CHOICE, safe: notes/assumptions/55.md). -/
def execDroopStretch (column : Fin 40) (ratio : Nat) (s : State) : Host.Outcome State Fault Refusal :=
  .next ({ s with env := { s.env with droop := s.env.droop.set column ratio } } : State).noteStopped

/-- POWER_LIMIT_STRETCH (R383): every column by the same ratio, by none once the average has fallen. (DESIGN CHOICE, safe: notes/assumptions/55.md). -/
def execPowerLimitStretch (ratio : Nat) (s : State) : Host.Outcome State Fault Refusal :=
  .next ({ s with env := { s.env with power := ratio } } : State).noteStopped

/-- COLUMN_OVERTEMP (R383): at most 1.0 GHz of 4.0 GHz, whatever else stretches the column. -/
def execColumnOvertemp (column : Fin 40) (s : State) : Host.Outcome State Fault Refusal :=
  .next { s with env := { s.env with hot := s.env.hot.set column true } }

/-- MODULE_OVERTEMP_SHUTDOWN (R383): every context stops, with an error record for each running kernel and a block record for each of
its blocks, wherever its context is (R357); READY clears and the compute dies are down until the next power cycle. -/
def execModuleOvertempShutdown (s : State) : Host.Outcome State Fault Refusal :=
  let t := (s.launches.filter fun l => l.st == .running).foldl (fun s l => s.dieLost l 0xFF 0xFF) s
  let t := s.blocks.foldl (fun (t : State) b => match t.launch? b.lid with
    | some l => t.blockRecord b l.asid 2
    | none => t) t
  .next { t with dev := { t.dev with ready := false, dies := 0 }
                 blocks := [], reqs := [], picks := [], launches := t.launches.map fun (l : Machine.Launch) =>
                   if l.st == .completed then l else { l with st := .aborted }
                 deferred := [], drops := [], report := none }

/-! ### The management interface (R374) -/

/-- A flag at a bit of a word. -/
def flagAt (b : Bool) (n : Nat) : Nat := if b then 2 ^ n else 0

/-- DEVSTAT and DEVCAUSE (R367). -/
def State.devstat (s : State) : Word :=
  BitVec.ofNat 32 (flagAt s.dev.ready 31 + flagAt s.dev.degraded 30 + flagAt s.dev.replace 29 + flagAt s.dev.recovery 28 +
    2 ^ 24 * s.dev.stage + 2 ^ 16 * s.dev.dies.toNat)

/-- The measurements: SHA-384 of the ROM, the firmware image and each configuration block, with both signatures over them. -/
def State.measurements (s : State) : List Byte :=
  let m := Config.sha384 Config.rom ++ Config.sha384 s.env.firmware ++ s.env.configBytes.flatMap Config.sha384
  m ++ Config.signEd25519 m ++ Config.signMlDsa m

/-- ATTESTATION_REQUEST (R374): the signed measurements. (DESIGN CHOICE, unsafe: notes/assumptions/60.md). -/
def execAttestationRequest (s : State) : Host.Outcome State Fault Refusal :=
  .next { s with hostRead := { data := s.measurements } }

/-- What PLDM monitors (R374), as a little-endian word. (DESIGN CHOICE, unsafe: notes/assumptions/60.md). -/
def State.monitored (s : State) : MgmtRead → List Byte
  | .devstat => leBytes 4 s.devstat.toNat
  | .temperature c => leBytes 4 s.env.temps[c]
  | .power => leBytes 4 s.env.watts

end Sys2Proof.Machine
end

