-- ==== Sys2Proof/Machine/Debug.lean ====
section
/-! DEFINITION. The debugger (R349-R354), ring and trace control (R341, R357, R359), triggers (R365) and samples (R358). -/

namespace Sys2Proof.Machine

/-! ### Halting, resuming and stepping (R350-R352) -/

/-- Let a fragment go on (R352): under RESUME at once, with no stop site behind it; under STEP a halted one, past the stop site or the BKPT it is halted at, and one
halted in place when its condition is met. (DEDUCED, unsafe: notes/assumptions/48.md). -/
def Frag.letGo (f : Frag) (step : Bool) : Frag :=
  if step then
    (if f.halted then
      { f with halted := f.st != .ready, stepped := true, site := false, resumed := f.st == .ready && (f.site || f.bkpt) }
    else f)
  else { f with halted := false, stepped := false, site := false, resumed := false }

/-- Let every fragment of a context go on; a STEP, those of its resident warps. (DEDUCED, unsafe: notes/assumptions/48.md). -/
def State.letGoAll (s : State) (asid : Nat) (step : Bool) : State :=
  { s with blocks := s.blocks.map fun b =>
      if (b.present || !step) && ((s.launch? b.lid).map (·.asid)) == some asid then
        { b with warps := b.warps.map fun w =>
            { w with split := w.split.map (Option.map fun f => f.letGo step) } }
      else b }

/-- A write of DBGCTL takes effect (R350): a context that is no longer halted goes on; RESUME clears HALT; STEP keeps it. (DEDUCED, unsafe: notes/assumptions/48.md). -/
def State.dbgctl (s : State) (v : Word) : State :=
  let asid := fieldOf v 0 16
  let step := v.getLsbD 28
  let halt := (v.getLsbD 31 || (step && s.dev.dbgHalt)) && !v.getLsbD 29
  let was := s.dev.dbgHalt && s.dev.dbgAsid == asid
  let s := if s.dev.dbgHalt && !(halt && was) then s.letGoAll s.dev.dbgAsid false else s
  let s : State := { s with dev := { s.dev with dbgHalt := halt, dbgArm := v.getLsbD 30, dbgAsid := asid } }
  if halt && !was then s.haltAll asid
  else if halt && step then s.letGoAll asid true
  else s

/-- DBGSTAT.HALTED (R351): every fragment of the halted context is halted. -/
def State.halted (s : State) : Bool :=
  s.dev.dbgHalt && s.blocks.all fun b =>
    !(b.present && ((s.launch? b.lid).map (·.asid)) == some s.dev.dbgAsid) || b.warps.all fun w => w.frags.all (·.2.isHalted)

/-! ### DBGDATA (R349, R350) -/

/-- The resident warp DBGSEL names: of the context under debug control, while it is halted. -/
def State.debugWarp (s : State) : Option (Block × Nat × Warp × Machine.Launch) :=
  let core := fieldOf s.dev.dbgSel 0 10
  let slot := fieldOf s.dev.dbgSel 10 6
  if !s.halted then none
  else ((s.coreWarps core).find? fun x => x.2.2.warpSlot == slot).bind fun x => match s.launch? x.1.lid with
    | some l => if l.asid == s.dev.dbgAsid && !x.2.2.ended then some (x.1, x.2.1, x.2.2, l) else none
    | none => none

/-- What DBGDATA reads. (DEDUCED, unsafe: notes/assumptions/50.md). -/
def State.dbgdata (s : State) : DWord :=
  let n := fieldOf s.dev.dbgSel 16 7
  let lane : Lane := Fin.ofNat 32 (fieldOf s.dev.dbgSel 23 5)
  match s.debugWarp with
  | none => 0
  | some (_, _, w, l) => match fieldOf s.dev.dbgSel 28 4 with
    | 0 => if n < l.desc.regs then (w.vl n lane).zeroExtend 64 else 0
    | 1 => if n < 64 then (w.sr n).zeroExtend 64 else 0
    | 2 => if n < 16 then w.hr n else 0
    | 3 => BitVec.ofNat 64 (w.cc0[lane].nibble + 16 * w.cc1[lane].nibble)
    | 4 => (match w.split[n]?.join with | some f => f.pc | none => 0)
    | 5 => w.ordinal.zeroExtend 64
    | _ => 0

/-- The flags of four bits. -/
def CC.ofNibble (v : BitVec 4) : CC := ⟨v.getLsbD 3, v.getLsbD 2, v.getLsbD 1, v.getLsbD 0⟩

/-- The warp with the selected item written; a PC stays at a halfword. (DEDUCED, unsafe: notes/assumptions/50.md). -/
def Warp.dbgPut (w : Warp) (sel : Word) (regs : Nat) (v : DWord) : Warp :=
  let n := fieldOf sel 16 7
  let lane : Lane := Fin.ofNat 32 (fieldOf sel 23 5)
  match fieldOf sel 28 4 with
  | 0 => if n < regs then { w with v := vset w.v n ((vget (Vector.replicate 32 0) w.v n).set lane (loOf v)) } else w
  | 1 => if n < 64 then { w with s := vset w.s n (loOf v) } else w
  | 2 => if n < 16 then { w with h := vset w.h n v } else w
  | 3 => { w with cc0 := w.cc0.set lane (CC.ofNibble (v.extractLsb' 0 4)), cc1 := w.cc1.set lane (CC.ofNibble (v.extractLsb' 4 4)) }
  | 4 => { w with split := vset w.split n ((w.split[n]?.join).map fun f => { f with pc := v &&& ~~~1#64 }) }
  | _ => w

/-- DBGDATA_READ (R350). -/
def execDbgdataRead (s : State) : Host.Outcome State Fault Refusal :=
  .next { s with hostRead := { data := leBytes 8 s.dbgdata.toNat } }

/-! ### Rings (R332, R340, R341, R357, R359) -/

/-- A write of a ring's control register (R341): the enable of a disabled ring is refused with a size outside its range; the
size of an enabled ring is locked. (DEDUCED, unsafe: notes/assumptions/56.md). -/
def Ring.setCtl (r : Ring) (v : Word) (lo hi vec : Nat) : Ring :=
  let z := fieldOf v 0 5
  { r with en := v.getLsbD 31 && (r.en || (decide (lo ≤ z) && decide (z ≤ hi))), size := if r.en then r.size else z, vec := vec }

/-- A write of TRCTL (R341, R359): EN from 0 to 1 zeroes every stream's pointers, and what else a core keeps of its stream (the time of
its last packet and of its last SYNC set, the counts of packets and of dropped ones) stays as it is.
(DESIGN CHOICE, unsafe: notes/assumptions/92.md). (DEDUCED, unsafe: notes/assumptions/56.md). -/
def State.trctl (s : State) (v : Word) : State :=
  let s := s.flushTraces
  let rs := fieldOf v 16 5
  let en := v.getLsbD 31 && (s.dev.trEn || (decide (12 ≤ rs) && decide (rs ≤ 24)))
  let t : State := { s with dev := { s.dev with trEn := en, trRs := if s.dev.trEn then s.dev.trRs else rs, trAsid := fieldOf v 0 16 } }
  if en && !s.dev.trEn then { t with cores := t.cores.map fun x => (x.1, { x.2 with trW := 0, trR := 0 }) } else t

/-! ### Triggers (R365) -/

/-- A write of a trigger's TGCTL: at its enable its state in every core is on when START is 0, and off otherwise. -/
def State.tgctl (s : State) (n : Fin 4) (v : Word) : State :=
  let t := s.trigs[n]
  let start := fieldOf v 28 3
  let fresh := v.getLsbD 31 && !t.en
  let t' : Trigger := { t with
    en := v.getLsbD 31, start := start, stop := fieldOf v 25 3, base := if fresh then start == 0 else t.base
    since := if fresh then s.time else t.since }
  let s : State := { s with trigs := s.trigs.set n t' }
  if fresh then
    { s with cores := s.cores.map fun x =>
        (x.1, { x.2 with trig := x.2.trig.set n false, trigEv := x.2.trigEv.set n (false, false) }) }
  else s

/-- TRIGGER_STATE_CHANGE (R360, R362, R365): the conditions of the core's last cycle change the state; the TRG is written if
tracing was on before the cycle. -/
def execTriggerStateChange (core : Nat) (n : Fin 4) (s : State) : Host.Outcome State Fault Refusal :=
  if s.picks.isEmpty && s.trigDue core n then
    let on := !s.trigOn core n
    let t := s.packetIf (s.core core).wasOn core s.dev.trAsid (some 0x80) [BitVec.ofNat 8 n.val, if on then 1 else 0]
    .next (t.modCore core fun k => { k with trig := k.trig.set n (!k.trig[n]), trigEv := k.trigEv.set n (false, false) })
  else .fault .notEnabled

/-! ### Samples (R357, R358) -/

/-- The warp a core samples next: of the traced context, the first at or after the WARPSLOT due, else the first. (DEDUCED, unsafe: notes/assumptions/61.md). -/
def State.sampled (s : State) (core : Nat) : Option (Block × Warp) :=
  let ws := (s.coreWarps core).filter fun x => ((s.launch? x.1.lid).map (·.asid)) == some s.dev.trAsid && !x.2.2.ended
  ((ws.find? fun x => decide ((s.core core).sampleSlot ≤ x.2.2.warpSlot)).orElse fun _ => ws.head?).map fun x => (x.1, x.2.2)

/-- The 64 bytes of a sample record (R358). -/
def sampleBytes (b : Block) (w : Warp) (asid time : Nat) : List Byte :=
  leBytes 4 (3 + 2 ^ 8 + 2 ^ 16 * asid) ++ leBytes 4 (launchIdent b.lid) ++ leBytes 4 b.index ++
  leBytes 4 (b.core + 2 ^ 10 * w.warpSlot) ++ leBytes 8 time ++ leBytes 8 w.reason ++ leBytes 4 w.ordinal.toNat ++ leBytes 28 0

/-- PROFILE_SAMPLE (R358): a core samples every 2^PER ns; where it has no warp of the traced context, the moment passes. (DEDUCED, unsafe: notes/assumptions/61.md). -/
def execProfileSample (core : Nat) (s : State) : Host.Outcome State Fault Refusal :=
  if s.pr.en && s.dev.prSmp && (s.core core).sampleAt / 2 ^ s.dev.prPer != s.time / 2 ^ s.dev.prPer then
    match s.sampled core with
    | none => .next (s.modCore core fun k => { k with sampleAt := s.time })
    | some (b, w) =>
      .next ((s.profRecord [sampleBytes b w s.dev.trAsid s.time]).modCore core fun k =>
        { k with sampleAt := s.time, sampleSlot := w.warpSlot + 1 })
  else .fault .notEnabled

/-- A write of PRCTL (R341, R357): the samples of a period begin at its next multiple (R358). -/
def State.prctl (s : State) (v : Word) : State :=
  { s with
    pr := s.pr.setCtl v 6 20 0
    dev := { s.dev with prSmp := v.getLsbD 30, prPer := max 10 (min 24 (fieldOf v 16 5)) }
    cores := s.cores.map fun x => (x.1, { x.2 with sampleAt := s.time }) }

end Sys2Proof.Machine
end

