-- ==== Sys2Proof/Machine/Registers.lean ====
section
/-! DEFINITION. The host port: the register BAR (R7, R366, R367), writes that wait for the host's earlier writes to memory
(R368), and the memory BAR (R366-R368, R376). -/

namespace Sys2Proof.Machine

/-! ### The register BAR -/

/-- One half of a 64-bit register replaced, its reserved fields zero. -/
def halfPut (x : DWord) (high : Bool) (v : Word) (mask : DWord) : DWord :=
  (if high then pairOf (loOf x) v else pairOf v (hiOf x)) &&& mask

/-- One half of a 64-bit register. -/
def halfGet (x : DWord) (high : Bool) : Word := if high then hiOf x else loOf x

/-- Registers of the low offsets that are the device's own (R327, R332, R340, R357, R350, R359, R315, R367), but for those that start or
resume work. -/
def State.writeLow (s : State) (off : Nat) (v : Word) : State :=
  let d := s.dev
  match off with
  | 0x020 => { s with dev := { d with hwin := halfPut d.hwin false v 0x00FF_FFFF_C000_0000 } }
  | 0x024 => { s with dev := { d with hwin := halfPut d.hwin true v 0x00FF_FFFF_C000_0000 } }
  | 0x104 => { s with dev := { d with apre := v.getLsbD 31, apdly := fieldOf v 0 16 } }
  | 0x200 => { s with dev := { d with ctxBase := halfPut d.ctxBase false v 0x00FF_FFFF_FFE0_0000 } }
  | 0x204 => { s with dev := { d with ctxBase := halfPut d.ctxBase true v 0x00FF_FFFF_FFE0_0000 } }
  | 0x300 => { s with fq := { s.fq with base := halfPut s.fq.base false v 0xFFFF_FFFF_FFFF_F000 } }
  | 0x304 => { s with fq := { s.fq with base := halfPut s.fq.base true v 0xFFFF_FFFF_FFFF_F000 } }
  | 0x308 => { s with fq := s.fq.setCtl v 6 16 (fieldOf v 16 11) }
  | 0x310 => { s with fq := { s.fq with rptr := v } }
  | 0x320 => { s with el := { s.el with base := halfPut s.el.base false v 0xFFFF_FFFF_FFFF_F000 } }
  | 0x324 => { s with el := { s.el with base := halfPut s.el.base true v 0xFFFF_FFFF_FFFF_F000 } }
  | 0x328 => { s with el := s.el.setCtl v 4 16 (fieldOf v 16 11) }
  | 0x330 => { s with el := { s.el with rptr := v } }
  | 0x334 => { s with el := { s.el with lost := s.el.lost &&& ~~~v } }
  | 0x340 => { s with pr := { s.pr with base := halfPut s.pr.base false v 0xFFFF_FFFF_FFFF_F000 } }
  | 0x344 => { s with pr := { s.pr with base := halfPut s.pr.base true v 0xFFFF_FFFF_FFFF_F000 } }
  | 0x348 => s.prctl v
  | 0x350 => { s with pr := { s.pr with rptr := v } }
  | 0x354 => { s with pr := { s.pr with lost := s.pr.lost &&& ~~~v } }
  | 0x404 => { s with dev := { d with bkHit := d.bkHit && !v.getLsbD 30 } }
  | 0x408 => { s with dev := { d with dbgSel := v } }
  | 0x500 => { s.flushTraces with dev := { d with trBase := halfPut d.trBase false v 0x00FF_FFFF_FFFF_F000 } }
  | 0x504 => { s.flushTraces with dev := { d with trBase := halfPut d.trBase true v 0x00FF_FFFF_FFFF_F000 } }
  | 0x508 => s.trctl v
  | _ => s

/-- A write of DBGDATA (R349, R350). -/
def State.putDbgdata (s : State) (v : DWord) : State :=
  match s.debugWarp with
  | none => s
  | some (b, i, _, l) => s.modWarp b.uid i fun w => w.dbgPut s.dev.dbgSel l.desc.regs v

/-- DBGDATA is written a word at a time: the other half keeps its value. -/
def State.writeDbgdata (s : State) (high : Bool) (v : Word) : State :=
  s.putDbgdata (halfPut s.dbgdata high v 0xFFFF_FFFF_FFFF_FFFF)

/-- A packet breakpoint's register (R355). -/
def PktBp.write (b : PktBp) (r : Nat) (v : Word) : PktBp :=
  if r = 0 then { b with pc := halfPut b.pc false v 0x00FF_FFFF_FFFF_FFFE }
  else if r = 4 then { b with pc := halfPut b.pc true v 0x00FF_FFFF_FFFF_FFFE }
  else if r = 8 then
    { b with en := v.getLsbD 31, mpc := v.getLsbD 30, mq := v.getLsbD 29, hit := b.hit && !v.getLsbD 28, qn := fieldOf v 0 6 }
  else b

/-- A trigger's register (R365). -/
def State.writeTrigger (s : State) (n : Fin 4) (r : Nat) (v : Word) : State :=
  if r = 0 then s.tgctl n v
  else if r = 4 then { s with trigs := s.trigs.set n { s.trigs[n] with startV := v, since := s.time } }
  else if r = 8 then { s with trigs := s.trigs.set n { s.trigs[n] with stopV := v, since := s.time } }
  else s

/-- A pod window's register (R379). -/
def windowPut (w : DWord × DWord) (r : Nat) (v : Word) : DWord × DWord :=
  if r = 0 then (halfPut w.1 false v 0x00FF_FFFF_FFFF_0001, w.2)
  else if r = 4 then (halfPut w.1 true v 0x00FF_FFFF_FFFF_0001, w.2)
  else if r = 8 then (w.1, halfPut w.2 false v 0x00FF_FFFF_FFFF_0000)
  else (w.1, halfPut w.2 true v 0x00FF_FFFF_FFFF_0000)

/-- A queue's register (R293). -/
def State.writeQueue (s : State) (q : Fin 64) (r : Nat) (v : Word) : State :=
  let m (f : Queue → Queue) : State := s.modQueue q.val f
  if r = 0x00 then m fun k => { k with base := halfPut k.base false v 0x00FF_FFFF_FFFF_F000 }
  else if r = 0x04 then m fun k => { k with base := halfPut k.base true v 0x00FF_FFFF_FFFF_F000 }
  else if r = 0x14 then (m fun k => k.setStat v).reportDrop
  else if r = 0x18 then m fun k => { k with save := halfPut k.save false v 0x00FF_FFFF_FFFF_F000 }
  else if r = 0x1C then m fun k => { k with save := halfPut k.save true v 0x00FF_FFFF_FFFF_F000 }
  else s

/-- The recovery registers (R373), which respond before READY. -/
def State.writeRecovery (s : State) (off : Nat) (v : Word) : State :=
  let d := s.dev
  match off with
  | 0x030 => { s with dev := { d with imgAddr := halfPut d.imgAddr false v 0xFFFF_FFFF_FFFF_FFFF } }
  | 0x034 => { s with dev := { d with imgAddr := halfPut d.imgAddr true v 0xFFFF_FFFF_FFFF_FFFF } }
  | 0x038 => { s with dev := { d with
      imgGo := d.imgGo || (d.recovery && v.getLsbD 31), imgFail := d.imgFail && !v.getLsbD 30, imgLen := fieldOf v 0 24 } }
  | _ => s

/-- A word of the register BAR takes a value, but for the registers that start or resume work (R7, R366, R367): unassigned and
misaligned offsets, and RO and reserved fields, ignore it. (DEDUCED, unsafe: notes/assumptions/59.md). -/
def State.regPut (s : State) (off : Nat) (v : Word) : State :=
  if off % 4 != 0 then s
  else if 0x030 ≤ off ∧ off ≤ 0x038 then s.writeRecovery off v
  else if !s.dev.ready then s
  else if off = 0x410 then s.writeDbgdata false v
  else if off = 0x414 then s.writeDbgdata true v
  else if 0x440 ≤ off ∧ off < 0x480 then
    let n := (off - 0x440) / 16
    { s with bps := vset s.bps n ((vget {} s.bps n).write (off % 16) v) }
  else if 0x520 ≤ off ∧ off < 0x560 then s.writeTrigger (Fin.ofNat 4 ((off - 0x520) / 16)) (off % 16) v
  else if 0x600 ≤ off ∧ off < 0x680 then
    let n := (off - 0x600) / 16
    { s with dev := { s.dev with pod := vset s.dev.pod n (windowPut (vget (0, 0) s.dev.pod n) (off % 16) v) } }
  else if 0x1000 ≤ off ∧ off < 0x1000 + 8 * Config.numCores then
    if off % 8 = 4 then (s.modCore ((off - 0x1000) / 8) fun k => { k with trR := v }).lastLoss ((off - 0x1000) / 8) else s
  else if 0x10000 ≤ off ∧ off < 0x11000 then s.writeQueue (Fin.ofNat 64 ((off - 0x10000) / 64)) (off % 64) v
  else s.writeLow off v

/-! ### Host writes in their order (R368) -/

/-- A host write to memory is performed (R368): an agent-on-no-die write. -/
def State.hostStore (s : State) (off : Nat) (bytes : List Byte) : State :=
  let r := s.portWrite (s.dev.hwin.toNat + off) bytes
  { r.1 with hostWdev := max r.1.hostWdev r.2.2 }

/-- The write takes effect. -/
def State.applyDeferred (s : State) (d : Deferred) : State :=
  match d with
  | .qwptr q v => s.modQueue q.val fun k => k.setWptr v
  | .qctl q v => s.modQueue q.val fun k => k.setCtl v
  | .event i v => { s with events := tput s.events i v }
  | .eventHalf i high v =>
    let x := tget 0 s.events i
    { s with events := tput s.events i (if high then pairOf (loOf x) v else pairOf v (hiOf x)) }
  | .fresume v => s.fresume v
  | .preq v => s.preq v
  | .dbgctl v => s.dbgctl v
  | .devctl v => s.devctl v
  | .reg off v => s.regPut off v
  | .dbgdata v => s.putDbgdata v
  | .memory off bytes => s.hostStore off bytes

/-- The write starts or resumes work, and so waits for the times of the host's earlier writes to memory (R368). -/
def Deferred.starts : Deferred → Bool
  | .reg _ _ | .dbgdata _ | .memory _ _ => false
  | _ => true

/-- The host makes a write: at once, or after the earlier ones that wait, and one that starts or resumes work when the device time has
passed the completion time of every earlier host write to memory; before READY, none (R367, R368). -/
def State.hostStarts (s : State) (d : Deferred) : State :=
  if !s.dev.ready then s
  else if s.deferred.isEmpty && (!d.starts || decide (s.hostWdev ≤ s.time)) then s.applyDeferred d
  else { s with deferred := s.deferred ++ [(if d.starts then s.hostWdev else 0, d)] }

/-- HOST_WRITE_TAKES_EFFECT (R368): the oldest write that waits. -/
def execHostWriteTakesEffect (s : State) : Host.Outcome State Fault Refusal :=
  match s.deferred with
  | [] => .fault .notEnabled
  | (t, d) :: rest =>
    if t ≤ s.time && (!d.starts || decide (s.hostWdev ≤ s.time)) then .next (({ s with deferred := rest } : State).applyDeferred d)
    else .fault .notEnabled

/-- QWPTR_WRITE (R293). -/
def execQwptrWrite (q : Fin 64) (v : Word) (s : State) : Host.Outcome State Fault Refusal := .next (s.hostStarts (.qwptr q v))
/-- QCTL_WRITE (R293). -/
def execQctlWrite (q : Fin 64) (v : Word) (s : State) : Host.Outcome State Fault Refusal := .next (s.hostStarts (.qctl q v))
/-- QSTAT_WRITE (R293). -/
def execQstatWrite (q : Fin 64) (v : Word) (s : State) : Host.Outcome State Fault Refusal :=
  .next (s.hostStarts (.reg (0x10014 + 64 * q.val) v))
/-- EVENT_COUNTER_WRITE (R296). -/
def execEventCounterWrite (idx : Fin 4096) (v : DWord) (s : State) : Host.Outcome State Fault Refusal :=
  .next (s.hostStarts (.event idx.val v))
/-- FRESUME_RETRY (R333). -/
def execFresumeRetry (id : Nat) (s : State) : Host.Outcome State Fault Refusal :=
  .next (s.hostStarts (.fresume (BitVec.ofNat 32 (2 ^ 30 + id % 2 ^ 30))))
/-- FRESUME_FAIL (R333). -/
def execFresumeFail (id : Nat) (s : State) : Host.Outcome State Fault Refusal :=
  .next (s.hostStarts (.fresume (BitVec.ofNat 32 (2 ^ 31 + id % 2 ^ 30))))
/-- PREQ_GO (R315). -/
def execPreqGo (q : Fin 64) (s : State) : Host.Outcome State Fault Refusal :=
  .next (s.hostStarts (.preq (BitVec.ofNat 32 (2 ^ 31 + q.val))))
/-- DIE_DROP (R345, R367). -/
def execDieDrop (die : Fin 8) (s : State) : Host.Outcome State Fault Refusal :=
  .next (s.hostStarts (.devctl (BitVec.ofNat 32 (2 ^ 31 + die.val))))
/-- DEBUG_HALT (R350, R351): the value written to DBGCTL has HALT set. -/
def execDebugHalt (v : Word) (s : State) : Host.Outcome State Fault Refusal :=
  .next (s.hostStarts (.dbgctl (setBit v 31 true)))
/-- DEBUG_RESUME (R350, R352): the value written to DBGCTL has RESUME set. -/
def execDebugResume (v : Word) (s : State) : Host.Outcome State Fault Refusal :=
  .next (s.hostStarts (.dbgctl (setBit v 29 true)))
/-- DEBUG_STEP (R350, R352): the value written to DBGCTL has STEP set, and RESUME clear. -/
def execDebugStep (v : Word) (s : State) : Host.Outcome State Fault Refusal :=
  .next (s.hostStarts (.dbgctl (setBit (setBit v 29 false) 28 true)))

/-- FAULT_RING_CONTROL (R332, R341). -/
def execFaultRingControl (v : Word) (s : State) : Host.Outcome State Fault Refusal := .next (s.hostStarts (.reg 0x308 v))
/-- ERROR_RING_CONTROL (R340, R341). -/
def execErrorRingControl (v : Word) (s : State) : Host.Outcome State Fault Refusal := .next (s.hostStarts (.reg 0x328 v))
/-- PROFILING_RING_CONTROL (R341, R357). -/
def execProfilingRingControl (v : Word) (s : State) : Host.Outcome State Fault Refusal := .next (s.hostStarts (.reg 0x348 v))
/-- TRACE_CONTROL (R359). -/
def execTraceControl (v : Word) (s : State) : Host.Outcome State Fault Refusal := .next (s.hostStarts (.reg 0x508 v))
/-- TGCTL_WRITE (R365). -/
def execTgctlWrite (n : Fin 4) (v : Word) (s : State) : Host.Outcome State Fault Refusal :=
  .next (s.hostStarts (.reg (0x520 + 16 * n.val) v))
/-- DBGDATA_WRITE (R349, R350). -/
def execDbgdataWrite (v : DWord) (s : State) : Host.Outcome State Fault Refusal := .next (s.hostStarts (.dbgdata v))

/-- The register at an offset that starts or resumes work (R368), with the write to it. -/
def startOf (off : Nat) (v : Word) : Option Deferred :=
  let q : Fin 64 := Fin.ofNat 64 ((off - 0x10000) / 64)
  if off = 0x008 then some (.devctl v) else if off = 0x100 then some (.preq v) else if off = 0x314 then some (.fresume v)
  else if off = 0x400 then some (.dbgctl v)
  else if 0x10000 ≤ off ∧ off < 0x11000 then
    (if off % 64 = 0x08 then some (.qctl q v) else if off % 64 = 0x0C then some (.qwptr q v) else none)
  else if 0x20000 ≤ off ∧ off < 0x28000 ∧ off % 4 = 0 then some (.eventHalf ((off - 0x20000) / 8) (off % 8 == 4) v)
  else none

/-- A host write of a word of the register BAR (R7, R366-R368); the recovery registers respond before READY. -/
def State.regWrite (s : State) (off : Nat) (v : Word) : State :=
  match startOf off v with
  | some d => s.hostStarts d
  | none => if s.deferred.isEmpty then s.regPut off v else s.hostStarts (.reg off v)

/-- REGISTER_WRITE (R7). -/
def execRegisterWrite (off : Nat) (v : Word) (s : State) : Host.Outcome State Fault Refusal := .next (s.regWrite off v)

/-! ### What a read of the register BAR answers -/

/-- A ring's control register. -/
def Ring.ctl (r : Ring) : Nat := flagAt r.en 31 + 2 ^ 16 * r.vec + r.size

/-- Registers of the low offsets. -/
def State.readLow (s : State) (off : Nat) : Word :=
  let d := s.dev
  match off with
  | 0x008 => BitVec.ofNat 32 d.dropDie
  | 0x020 => halfGet d.hwin false
  | 0x024 => halfGet d.hwin true
  | 0x100 => BitVec.ofNat 32 (flagAt d.preqGo 31 + d.preqQ)
  | 0x104 => BitVec.ofNat 32 (flagAt d.apre 31 + d.apdly)
  | 0x200 => halfGet d.ctxBase false
  | 0x204 => halfGet d.ctxBase true
  | 0x300 => halfGet s.fq.base false
  | 0x304 => halfGet s.fq.base true
  | 0x308 => BitVec.ofNat 32 s.fq.ctl
  | 0x30C => s.fq.wptr
  | 0x310 => s.fq.rptr
  | 0x314 => BitVec.ofNat 32 (2 ^ 30 * d.fresAct + d.fresId)
  | 0x320 => halfGet s.el.base false
  | 0x324 => halfGet s.el.base true
  | 0x328 => BitVec.ofNat 32 s.el.ctl
  | 0x32C => s.el.wptr
  | 0x330 => s.el.rptr
  | 0x334 => s.el.lost
  | 0x340 => halfGet s.pr.base false
  | 0x344 => halfGet s.pr.base true
  | 0x348 => BitVec.ofNat 32 (flagAt s.pr.en 31 + flagAt d.prSmp 30 + 2 ^ 16 * d.prPer + s.pr.size)
  | 0x34C => s.pr.wptr
  | 0x350 => s.pr.rptr
  | 0x354 => s.pr.lost
  | 0x400 => BitVec.ofNat 32 (flagAt d.dbgHalt 31 + flagAt d.dbgArm 30 + d.dbgAsid)
  | 0x404 => BitVec.ofNat 32 (flagAt s.halted 31 + flagAt d.bkHit 30 + d.dbgCore)
  | 0x408 => d.dbgSel
  | 0x410 => halfGet s.dbgdata false
  | 0x414 => halfGet s.dbgdata true
  | 0x500 => halfGet d.trBase false
  | 0x504 => halfGet d.trBase true
  | 0x508 => BitVec.ofNat 32 (flagAt d.trEn 31 + 2 ^ 16 * d.trRs + d.trAsid)
  | _ => 0

/-- A packet breakpoint's registers. -/
def PktBp.read (b : PktBp) (r : Nat) : Word :=
  if r = 0 then halfGet b.pc false
  else if r = 4 then halfGet b.pc true
  else if r = 8 then BitVec.ofNat 32 (flagAt b.en 31 + flagAt b.mpc 30 + flagAt b.mq 29 + flagAt b.hit 28 + b.qn)
  else 0

/-- A trigger's registers. -/
def Trigger.read (t : Trigger) (r : Nat) : Word :=
  if r = 0 then BitVec.ofNat 32 (flagAt t.en 31 + 2 ^ 28 * t.start + 2 ^ 25 * t.stop)
  else if r = 4 then t.startV else if r = 8 then t.stopV else 0

/-- A queue's registers. -/
def Queue.read (k : Queue) (r : Nat) : Word :=
  if r = 0x00 then halfGet k.base false
  else if r = 0x04 then halfGet k.base true
  else if r = 0x08 then BitVec.ofNat 32 (flagAt k.en 31 + 2 ^ 24 * k.prio + 2 ^ 8 * k.asid + k.size)
  else if r = 0x0C then k.wptr
  else if r = 0x10 then k.rptr
  else if r = 0x14 then
    BitVec.ofNat 32 (flagAt k.halt 31 + flagAt k.badpkt 30 + flagAt k.overrun 29 + flagAt k.hold 28 + 2 ^ 8 * k.err)
  else if r = 0x18 then halfGet k.save false
  else if r = 0x1C then halfGet k.save true
  else 0

/-- The word a read of the register BAR answers (R7, R366, R367). (DEDUCED, unsafe: notes/assumptions/59.md). -/
def State.regRead (s : State) (off : Nat) : Word :=
  let d := s.dev
  if off % 4 != 0 then 0
  else if off = 0x000 then s.devstat
  else if off = 0x004 then d.cause.zeroExtend 32
  else if off = 0x030 then halfGet d.imgAddr false
  else if off = 0x034 then halfGet d.imgAddr true
  else if off = 0x038 then BitVec.ofNat 32 (flagAt d.imgGo 31 + flagAt d.imgFail 30 + d.imgLen)
  else if !d.ready then 0
  else if 0x440 ≤ off ∧ off < 0x480 then (vget {} s.bps ((off - 0x440) / 16)).read (off % 16)
  else if 0x520 ≤ off ∧ off < 0x560 then (vget {} s.trigs ((off - 0x520) / 16)).read (off % 16)
  else if 0x600 ≤ off ∧ off < 0x680 then
    let w := vget (0, 0) d.pod ((off - 0x600) / 16)
    halfGet (if off % 16 < 8 then w.1 else w.2) (off % 8 == 4)
  else if 0x1000 ≤ off ∧ off < 0x1000 + 8 * Config.numCores then
    let k := s.core ((off - 0x1000) / 8)
    if off % 8 = 4 then k.trR else k.trW
  else if 0x10000 ≤ off ∧ off < 0x11000 then (s.queue ((off - 0x10000) / 64)).read (off % 64)
  else if 0x20000 ≤ off ∧ off < 0x28000 then halfGet (tget 0 s.events ((off - 0x20000) / 8)) (off % 8 == 4)
  else s.readLow off

/-! ### The memory BAR (R366-R368, R376) -/

/-- An access lies within the Memory BAR as the host has sized it (R366), and the device accepts one (R367). -/
def State.barAccess (s : State) (off len : Nat) : Bool := s.dev.ready && decide (off + len ≤ s.env.barBytes)

/-- HOST_MEMORY_WRITE (R368). -/
def execHostMemoryWrite (off : Nat) (bytes : List Byte) (s : State) : Host.Outcome State Fault Refusal :=
  if !s.barAccess off bytes.length then .next { s with hostRead := { unsupported := true } }
  else .next (s.hostStarts (.memory off bytes))

/-- HOST_MEMORY_READ (R368, R376): the value at the owning slice, poisoned where a check fails, once the host's earlier writes have
been performed. -/
def execHostMemoryRead (off len : Nat) (s : State) : Host.Outcome State Fault Refusal :=
  if !s.barAccess off len then .next { s with hostRead := { unsupported := true } }
  else if !s.deferred.isEmpty then .fault .notEnabled
  else
    let a := s.dev.hwin.toNat + off
    .next { s with hostRead := { data := s.devBytes a len, poisoned := s.badRange a len } }

end Sys2Proof.Machine
end

