-- ==== Sys2Proof/Machine/Default.lean ====
section
/-! DEFINITION. What the device does when the agenda names no event (notes/assumptions/1.md): the first event of its own whose
condition holds, in a fixed order; else the next core's cycle; else a nanosecond passes. -/

namespace Sys2Proof.Machine

/-- The state an event leads to, if it is enabled. (DESIGN CHOICE, safe: notes/assumptions/64.md). -/
def nextOf (o : Host.Outcome State Fault Refusal) : Option State :=
  match o with
  | .next t => some t
  | _ => none

/-- The first enabled of some events. -/
def firstOf (l : List (State → Host.Outcome State Fault Refusal)) (s : State) : Option State := l.findSome? fun e => nextOf (e s)

/-- The events of a request. -/
def reqEvents (q : Req) : List (State → Host.Outcome State Fault Refusal) :=
  [execSliceWrite q.id, execSliceAtomic q.id, execSliceLeaseRequest q.id, execSliceRead q.id, execLoadResult q.id,
   execWriteTimesReturn q.id, execLdaDelivery q.id, execRemoteRequestTimeout q.id]

/-- The events of a warp and of its fragments. -/
def warpEvents (uid wi : Nat) (w : Warp) : List (State → Host.Outcome State Fault Refusal) :=
  [execTransformPipeReply ⟨uid, wi⟩, execFairnessRotation ⟨uid, wi⟩, execNopreWindowExpiry ⟨uid, wi⟩] ++
  w.allFrags.flatMap fun x =>
    let r : FragRef := ⟨uid, wi, x.1⟩
    [execBranchConfirm r, execFenceReleaseEnd r, execSleepWake r, waitaWritten r, execWaitaTimeout r, execWaitaReread r, execLaunchSumpRoom r,
     execFragmentWake r]

/-- The events of an engine operation. -/
def opEvents (o : EngOp) : List (State → Host.Outcome State Fault Refusal) :=
  [execMlwLoadComplete o.id, execMmaRow o.id, execMdrRow o.id, execMzrEngineZero o.id, execCopyChunk o.id o.nextChunk,
   execScanEngineRun o.id, execEngineComplete o.id]

/-- The events of a block that runs or leaves its core. -/
def blockEvents (b : Block) : List (State → Host.Outcome State Fault Refusal) :=
  (b.warps.zipIdx).flatMap (fun x => warpEvents b.uid x.2 x.1) ++ b.ops.flatMap opEvents ++
  [execChainEntryDeliver b.uid, execBlockEnd b.uid, execContextSaveComplete b.uid, execMigrationAbandon b.uid,
   execMigrationResume b.uid]

/-- The events of the barrier groups. -/
def groupEvents (s : State) : List (State → Host.Outcome State Fault Refusal) :=
  (s.groups.zipIdx).flatMap fun x => (x.1.members.map fun b => execBarrierArrival x.2 b) ++ [execBarrierComplete x.2]

/-- The events of a launch. -/
def launchEvents (l : Machine.Launch) : List (State → Host.Outcome State Fault Refusal) :=
  [execLaunchStart l.id, execCoopLaunchPlace l.id, execChainLaunchPlace l.id, execCoopHeadWaitExpiry l.id, execAutoPreempt l.id,
   execKernelBoundary l.id, execKernelTreeEnd l.id]

/-- The events of a queue. -/
def queueEvents (q : Fin 64) : List (State → Host.Outcome State Fault Refusal) :=
  [execNopPacket q, execKlaunch q, execEvsig q, execEvwait q, execVdef q, execMapflush q, execEvwaitSatisfied q,
   execMapflushComplete q]

/-- The events of the queue served next and of those with a packet that waits. -/
def State.queueWork (s : State) : List (State → Host.Outcome State Fault Refusal) :=
  (s.served.toList ++ (List.finRange 64).filter fun q => !(s.queue q.val).pending.isEmpty).flatMap queueEvents

/-- A column's controller (R320): it starts a migration, or tries again in 1 ms. (DESIGN CHOICE, safe: notes/assumptions/44.md). -/
def State.migrationTurn (s : State) (column : Nat) : Option State :=
  if !s.hotLong column || s.migrating column then none
  else firstOf ((s.blocks.filter fun b => s.columnOf b.core == column).flatMap fun b =>
    (List.finRange 40).map fun k => execMigrationStart b.uid k) s <|> some (s.retryLater column)

/-- The events of a core's triggers and samples. -/
def coreEvents (c : Nat) : List (State → Host.Outcome State Fault Refusal) :=
  ((List.finRange 4).map fun n => execTriggerStateChange c n) ++ [execProfileSample c]

/-- The device time reaches the value of a trigger in a core's cycle (R365). -/
def State.timeDue (s : State) (c : Nat) : Bool := (s.timeNotes (s.core c)).toList.any fun e => e.1 || e.2

/-- The cores whose turn is still to come in this nanosecond: those that have a warp, or in whose cycle the device time reaches the
value of a trigger. -/
def State.turnsLeft (s : State) : List Nat :=
  (List.range s.numCores).filter fun c => decide (s.turn ≤ c) && (!(s.coreWarps c).isEmpty || s.timeDue c)

/-- Time passes: the packets of the nanosecond that ends are written (R362); a warp all of whose fragments are halted is not charged
with it for its NOPRE window (R354). -/
def State.advance (s : State) (dt : Nat) : State :=
  let hold (w : Warp) : Warp := if w.nopre && w.frags.all (·.2.isHalted) then { w with windowHeld := w.windowHeld + dt } else w
  let held (b : Block) : Block := match b.phase with
    | .stopping .. => { b with warps := b.warps.map hold }
    | _ => b
  let s := if dt = 0 then s else s.flushTraces
  { s with time := s.time + dt, blocks := s.blocks.map held }

/-! ### What comes from outside and no event names (notes/assumptions/85.md) -/

/-- A store of the host to its own memory (R292): a line the device has cached is not seen to change, and its value is undefined to a
kernel from then on. -/
def State.hostOwnStore (s : State) (a : Nat) (bs : List Byte) : State :=
  let lo := lineKey .host a
  let hi := lineKey .host (a + bs.length - 1)
  let reached (k : Nat) : Bool := decide (lo ≤ k) && decide (k ≤ hi)
  let old (l : L1Line) : L1Line := if reached l.pline then { l with attr := { l.attr with undef := true } } else l
  let s := s.physWrite .host a bs
  { s with
    hostStale := (((s.l2.filter fun x => !x.2.gone).map (·.1)).filter fun k => reached k && !s.hostStale.contains k) ++ s.hostStale
    bad := s.bad.filter fun b => !(b.space == 2 && decide (a ≤ b.at_) && decide (b.at_ + 32 ≤ a + bs.length))
    cores := s.cores.map fun c => (c.1, { c.2 with lines := c.2.lines.map old }) }

/-- The bytes of a space replaced. -/
def State.spacePut (s : State) (space a : Nat) (bs : List Byte) : State :=
  if space = 3 then { s with vault := s.vault.writeBytes a bs }
  else s.physPut (if space = 2 || space = 6 then .host else .device) a bs

/-- An upset of a sector (R342, R375): its bytes and its check value change, and the check fails unless the two still agree. -/
def State.upset (s : State) (space sector : Nat) (flip : List Byte) (check : BitVec 16) : State :=
  let at_ := sector * 32
  let held := s.checkOf space at_ ^^^ check
  let bs := (List.range 32).map fun k => s.spaceGet space (at_ + k) ^^^ flip.getD k 0
  let t := s.spacePut space at_ bs
  let rest := t.bad.filter fun b => !(b.space == space && b.at_ == at_)
  { t with bad := if crc16 bs == held then rest else ⟨space, at_, crc16 bs ^^^ held⟩ :: rest }

/-- A measurement (R320, R383): since when each column is above its threshold, which are above 105 °C, and no stretch for power below
2,800 W. -/
def State.measured (s : State) (temps : List Nat) (watts : Nat) : State :=
  let v : Vector Nat 40 := Vector.ofFn fun c => temps.getD c.val 0
  let above (c : Fin 40) : Bool := match s.env.config.thresholds[c.val]? with
    | some t => decide (t < v[c])
    | none => false
  { s with env := { s.env with
      temps := v, watts := watts, hot := Vector.ofFn fun c => decide (105 < v[c]), power := if watts < 2800 then 0 else s.env.power
      hotSince := Vector.ofFn fun c => if above c then some (s.env.hotSince[c].getD s.time) else none } }

/-- What an input from outside does. A Memory BAR has 1 to 512 GiB (R366). (DESIGN CHOICE, safe: notes/assumptions/85.md). -/
def State.arrive (s : State) (x : Outside) : State :=
  match x with
  | .hostStore a bs => s.hostOwnStore a bs
  | .upset space sector flip check => s.upset space sector flip check
  | .lineUpset core asid vline sector => s.modCore core fun k => { k with lines := k.lines.map fun l =>
      if l.asid == asid && l.vline == vline then { l with bad := tput l.bad (sector % 4) 0 } else l }
  | .measured temps watts => s.measured temps watts
  | .manage r => { s with hostRead := { data := s.monitored r } }
  | .barSize gib => if 1 ≤ gib && gib ≤ 512 then { s with env := { s.env with barBytes := gib * 2 ^ 30 } } else s

/-- The first input whose time has come. -/
def State.inputDue (s : State) : Option State :=
  match s.outside with
  | (t, x) :: rest => if t ≤ s.time then some (({ s with outside := rest } : State).arrive x) else none
  | [] => none

/-- The cycle of the next core, or a nanosecond. (DESIGN CHOICE, unsafe: notes/assumptions/68.md). -/
def State.tick (s : State) : State :=
  match s.turnsLeft.findSome? fun c => (nextOf (execIssueCycle c s)).map fun t => ({ t with turn := c + 1 } : State) with
  | some t => t
  | none => { s.advance 1 with turn := 0 }

/-- What the device does by itself. (DESIGN CHOICE, unsafe: notes/assumptions/1.md). (DESIGN CHOICE, unsafe: notes/assumptions/68.md). -/
def State.onward (s : State) : State :=
  (s.inputDue
    <|> firstOf (s.reqs.flatMap reqEvents) s
    <|> firstOf (s.blocks.flatMap blockEvents) s
    <|> firstOf (groupEvents s) s
    <|> firstOf (s.launches.flatMap launchEvents) s
    <|> firstOf [execBlockPlace, execFaultRecordWrite, execHostWriteTakesEffect] s
    <|> firstOf (s.blocks.map fun b => execBlockRestore b.uid) s
    <|> (List.range Config.numColumns).findSome? s.migrationTurn
    <|> firstOf s.queueWork s
    <|> firstOf ((s.cores.map (·.1)).flatMap coreEvents) s).getD s.tick

end Sys2Proof.Machine
end

