-- ==== Sys2Proof/Machine/Dispatch.lean ====
section
/-! DEFINITION. The meaning of every instruction and of every event of the device: one arm per constructor of `Instr`. -/

namespace Sys2Proof.Machine

def exec (i : Instr) (s : State) : Host.Outcome State Fault Refusal :=
  match i with
  | .iaddH2 o => Sys2Proof.Machine.execIaddH2 o s
  | .isubH2 o => Sys2Proof.Machine.execIsubH2 o s
  | .imulH2 o => Sys2Proof.Machine.execImulH2 o s
  | .andH2 o => Sys2Proof.Machine.execAndH2 o s
  | .orH2 o => Sys2Proof.Machine.execOrH2 o s
  | .xorH2 o => Sys2Proof.Machine.execXorH2 o s
  | .shlH2 o => Sys2Proof.Machine.execShlH2 o s
  | .shrH2 o => Sys2Proof.Machine.execShrH2 o s
  | .sarH2 o => Sys2Proof.Machine.execSarH2 o s
  | .movH2 o => Sys2Proof.Machine.execMovH2 o s
  | .moviH2 o => Sys2Proof.Machine.execMoviH2 o s
  | .faddH2 o => Sys2Proof.Machine.execFaddH2 o s
  | .fsubH2 o => Sys2Proof.Machine.execFsubH2 o s
  | .fmulH2 o => Sys2Proof.Machine.execFmulH2 o s
  | .fmaxH2 o => Sys2Proof.Machine.execFmaxH2 o s
  | .fminH2 o => Sys2Proof.Machine.execFminH2 o s
  | .iaddN3 o => Sys2Proof.Machine.execIaddN3 o s
  | .isubN3 o => Sys2Proof.Machine.execIsubN3 o s
  | .imulN3 o => Sys2Proof.Machine.execImulN3 o s
  | .iminN3 o => Sys2Proof.Machine.execIminN3 o s
  | .imaxN3 o => Sys2Proof.Machine.execImaxN3 o s
  | .andN3 o => Sys2Proof.Machine.execAndN3 o s
  | .orN3 o => Sys2Proof.Machine.execOrN3 o s
  | .xorN3 o => Sys2Proof.Machine.execXorN3 o s
  | .andnN3 o => Sys2Proof.Machine.execAndnN3 o s
  | .shlN3 o => Sys2Proof.Machine.execShlN3 o s
  | .shrN3 o => Sys2Proof.Machine.execShrN3 o s
  | .sarN3 o => Sys2Proof.Machine.execSarN3 o s
  | .faddN3 o => Sys2Proof.Machine.execFaddN3 o s
  | .fsubN3 o => Sys2Proof.Machine.execFsubN3 o s
  | .fmulN3 o => Sys2Proof.Machine.execFmulN3 o s
  | .fminN3 o => Sys2Proof.Machine.execFminN3 o s
  | .fmaxN3 o => Sys2Proof.Machine.execFmaxN3 o s
  | .hadd2N3 o => Sys2Proof.Machine.execHadd2N3 o s
  | .hmul2N3 o => Sys2Proof.Machine.execHmul2N3 o s
  | .badd2N3 o => Sys2Proof.Machine.execBadd2N3 o s
  | .bmul2N3 o => Sys2Proof.Machine.execBmul2N3 o s
  | .movN3 o => Sys2Proof.Machine.execMovN3 o s
  | .icmpN3 o => Sys2Proof.Machine.execIcmpN3 o s
  | .fcmpN3 o => Sys2Proof.Machine.execFcmpN3 o s
  | .iaddi o => Sys2Proof.Machine.execIaddi o s
  | .shli o => Sys2Proof.Machine.execShli o s
  | .shri o => Sys2Proof.Machine.execShri o s
  | .sari o => Sys2Proof.Machine.execSari o s
  | .andi o => Sys2Proof.Machine.execAndi o s
  | .ori o => Sys2Proof.Machine.execOri o s
  | .xori o => Sys2Proof.Machine.execXori o s
  | .movi8 o => Sys2Proof.Machine.execMovi8 o s
  | .icmpi o => Sys2Proof.Machine.execIcmpi o s
  | .ld32 o => Sys2Proof.Machine.execLd32 o s
  | .st32 o => Sys2Proof.Machine.execSt32 o s
  | .lds32 o => Sys2Proof.Machine.execLds32 o s
  | .sts32 o => Sys2Proof.Machine.execSts32 o s
  | .jmpNJ o => Sys2Proof.Machine.execJmpNJ o s
  | .repNP o => Sys2Proof.Machine.execRepNP o s
  | .iadd o => Sys2Proof.Machine.execIadd o s
  | .isub o => Sys2Proof.Machine.execIsub o s
  | .iaddc o => Sys2Proof.Machine.execIaddc o s
  | .isubb o => Sys2Proof.Machine.execIsubb o s
  | .ineg o => Sys2Proof.Machine.execIneg o s
  | .iabs o => Sys2Proof.Machine.execIabs o s
  | .imul o => Sys2Proof.Machine.execImul o s
  | .imulh o => Sys2Proof.Machine.execImulh o s
  | .imad o => Sys2Proof.Machine.execImad o s
  | .imadw o => Sys2Proof.Machine.execImadw o s
  | .idiv o => Sys2Proof.Machine.execIdiv o s
  | .irem o => Sys2Proof.Machine.execIrem o s
  | .imin o => Sys2Proof.Machine.execImin o s
  | .imax o => Sys2Proof.Machine.execImax o s
  | .icmp o => Sys2Proof.Machine.execIcmp o s
  | .isel o => Sys2Proof.Machine.execIsel o s
  | .lea o => Sys2Proof.Machine.execLea o s
  | .iadd64 o => Sys2Proof.Machine.execIadd64 o s
  | .isub64 o => Sys2Proof.Machine.execIsub64 o s
  | .shl o => Sys2Proof.Machine.execShl o s
  | .shr o => Sys2Proof.Machine.execShr o s
  | .sar o => Sys2Proof.Machine.execSar o s
  | .rol o => Sys2Proof.Machine.execRol o s
  | .ror o => Sys2Proof.Machine.execRor o s
  | .fshl o => Sys2Proof.Machine.execFshl o s
  | .fshr o => Sys2Proof.Machine.execFshr o s
  | .and o => Sys2Proof.Machine.execAnd o s
  | .or o => Sys2Proof.Machine.execOr o s
  | .xor o => Sys2Proof.Machine.execXor o s
  | .andn o => Sys2Proof.Machine.execAndn o s
  | .not o => Sys2Proof.Machine.execNot o s
  | .lut3 o => Sys2Proof.Machine.execLut3 o s
  | .popc o => Sys2Proof.Machine.execPopc o s
  | .clz o => Sys2Proof.Machine.execClz o s
  | .ctz o => Sys2Proof.Machine.execCtz o s
  | .brev o => Sys2Proof.Machine.execBrev o s
  | .bfe o => Sys2Proof.Machine.execBfe o s
  | .bfi o => Sys2Proof.Machine.execBfi o s
  | .bysel o => Sys2Proof.Machine.execBysel o s
  | .fadd o => Sys2Proof.Machine.execFadd o s
  | .fsub o => Sys2Proof.Machine.execFsub o s
  | .fmul o => Sys2Proof.Machine.execFmul o s
  | .ffma o => Sys2Proof.Machine.execFfma o s
  | .fmin o => Sys2Proof.Machine.execFmin o s
  | .fmax o => Sys2Proof.Machine.execFmax o s
  | .fminm o => Sys2Proof.Machine.execFminm o s
  | .fmaxm o => Sys2Proof.Machine.execFmaxm o s
  | .fcmp o => Sys2Proof.Machine.execFcmp o s
  | .fsel o => Sys2Proof.Machine.execFsel o s
  | .frnd o => Sys2Proof.Machine.execFrnd o s
  | .fclass o => Sys2Proof.Machine.execFclass o s
  | .fscale o => Sys2Proof.Machine.execFscale o s
  | .hadd2 o => Sys2Proof.Machine.execHadd2 o s
  | .hmul2 o => Sys2Proof.Machine.execHmul2 o s
  | .hfma2 o => Sys2Proof.Machine.execHfma2 o s
  | .badd2 o => Sys2Proof.Machine.execBadd2 o s
  | .bmul2 o => Sys2Proof.Machine.execBmul2 o s
  | .bfma2 o => Sys2Proof.Machine.execBfma2 o s
  | .frcp o => Sys2Proof.Machine.execFrcp o s
  | .frsq o => Sys2Proof.Machine.execFrsq o s
  | .fsqrt o => Sys2Proof.Machine.execFsqrt o s
  | .fexp2 o => Sys2Proof.Machine.execFexp2 o s
  | .flog2 o => Sys2Proof.Machine.execFlog2 o s
  | .fdiv o => Sys2Proof.Machine.execFdiv o s
  | .cvt o => Sys2Proof.Machine.execCvt o s
  | .cvt8 o => Sys2Proof.Machine.execCvt8 o s
  | .wid8 o => Sys2Proof.Machine.execWid8 o s
  | .cvt4 o => Sys2Proof.Machine.execCvt4 o s
  | .wid4 o => Sys2Proof.Machine.execWid4 o s
  | .mov o => Sys2Proof.Machine.execMov o s
  | .movi o => Sys2Proof.Machine.execMovi o s
  | .movs o => Sys2Proof.Machine.execMovs o s
  | .rdl o => Sys2Proof.Machine.execRdl o s
  | .rdsr o => Sys2Proof.Machine.execRdsr o s
  | .wrsr o => Sys2Proof.Machine.execWrsr o s
  | .shfl o => Sys2Proof.Machine.execShfl o s
  | .vote o => Sys2Proof.Machine.execVote o s
  | .tred o => Sys2Proof.Machine.execTred o s
  | .part o => Sys2Proof.Machine.execPart o s
  | .xrng o => Sys2Proof.Machine.execXrng o s
  | .xsort o => Sys2Proof.Machine.execXsort o s
  | .xqnt o => Sys2Proof.Machine.execXqnt o s
  | .xdqnt o => Sys2Proof.Machine.execXdqnt o s
  | .br o => Sys2Proof.Machine.execBr o s
  | .bru o => Sys2Proof.Machine.execBru o s
  | .jmp o => Sys2Proof.Machine.execJmp o s
  | .jmpr o => Sys2Proof.Machine.execJmpr o s
  | .brx o => Sys2Proof.Machine.execBrx o s
  | .call o => Sys2Proof.Machine.execCall o s
  | .callr o => Sys2Proof.Machine.execCallr o s
  | .ret o => Sys2Proof.Machine.execRet o s
  | .exit o => Sys2Proof.Machine.execExit o s
  | .join o => Sys2Proof.Machine.execJoin o s
  | .yield o => Sys2Proof.Machine.execYield o s
  | .nop o => Sys2Proof.Machine.execNop o s
  | .rep o => Sys2Proof.Machine.execRep o s
  | .sleep o => Sys2Proof.Machine.execSleep o s
  | .ld o => Sys2Proof.Machine.execLd o s
  | .st o => Sys2Proof.Machine.execSt o s
  | .lds o => Sys2Proof.Machine.execLds o s
  | .sts o => Sys2Proof.Machine.execSts o s
  | .ldl o => Sys2Proof.Machine.execLdl o s
  | .stl o => Sys2Proof.Machine.execStl o s
  | .ldc o => Sys2Proof.Machine.execLdc o s
  | .lda o => Sys2Proof.Machine.execLda o s
  | .atom o => Sys2Proof.Machine.execAtom o s
  | .red o => Sys2Proof.Machine.execRed o s
  | .atoms o => Sys2Proof.Machine.execAtoms o s
  | .lr o => Sys2Proof.Machine.execLr o s
  | .sc o => Sys2Proof.Machine.execSc o s
  | .fence o => Sys2Proof.Machine.execFence o s
  | .waita o => Sys2Proof.Machine.execWaita o s
  | .pref o => Sys2Proof.Machine.execPref o s
  | .lock o => Sys2Proof.Machine.execLock o s
  | .unlock o => Sys2Proof.Machine.execUnlock o s
  | .bank o => Sys2Proof.Machine.execBank o s
  | .mst o => Sys2Proof.Machine.execMst o s
  | .barv o => Sys2Proof.Machine.execBarv o s
  | .bwait o => Sys2Proof.Machine.execBwait o s
  | .bgrp o => Sys2Proof.Machine.execBgrp o s
  | .boinit o => Sys2Proof.Machine.execBoinit o s
  | .boarv o => Sys2Proof.Machine.execBoarv o s
  | .bowait o => Sys2Proof.Machine.execBowait o s
  | .botest o => Sys2Proof.Machine.execBotest o s
  | .boexp o => Sys2Proof.Machine.execBoexp o s
  | .mlw o => Sys2Proof.Machine.execMlw o s
  | .mma o => Sys2Proof.Machine.execMma o s
  | .mdr o => Sys2Proof.Machine.execMdr o s
  | .mzr o => Sys2Proof.Machine.execMzr o s
  | .mrs o => Sys2Proof.Machine.execMrs o s
  | .mws o => Sys2Proof.Machine.execMws o s
  | .copy o => Sys2Proof.Machine.execCopy o s
  | .copym o => Sys2Proof.Machine.execCopym o s
  | .copyl o => Sys2Proof.Machine.execCopyl o s
  | .copyx o => Sys2Proof.Machine.execCopyx o s
  | .hwait o => Sys2Proof.Machine.execHwait o s
  | .htest o => Sys2Proof.Machine.execHtest o s
  | .hcan o => Sys2Proof.Machine.execHcan o s
  | .hsav o => Sys2Proof.Machine.execHsav o s
  | .hld o => Sys2Proof.Machine.execHld o s
  | .scan o => Sys2Proof.Machine.execScan o s
  | .topk o => Sys2Proof.Machine.execTopk o s
  | .smax o => Sys2Proof.Machine.execSmax o s
  | .samp o => Sys2Proof.Machine.execSamp o s
  | .cjoin o => Sys2Proof.Machine.execCjoin o s
  | .csend o => Sys2Proof.Machine.execCsend o s
  | .crecv o => Sys2Proof.Machine.execCrecv o s
  | .cleave o => Sys2Proof.Machine.execCleave o s
  | .launch o => Sys2Proof.Machine.execLaunch o s
  | .lqry o => Sys2Proof.Machine.execLqry o s
  | .trap o => Sys2Proof.Machine.execTrap o s
  | .rte o => Sys2Proof.Machine.execRte o s
  | .bkpt o => Sys2Proof.Machine.execBkpt o s
  | .trace o => Sys2Proof.Machine.execTrace o s
  | .nopre o => Sys2Proof.Machine.execNopre o s
  | .preok o => Sys2Proof.Machine.execPreok o s
  | .l1inv o => Sys2Proof.Machine.execL1inv o s
  | .powerGood img tr => Sys2Proof.Machine.execPowerGood img tr s
  | .functionLevelReset tr => Sys2Proof.Machine.execFunctionLevelReset tr s
  | .recoveryImageLoad img tr => Sys2Proof.Machine.execRecoveryImageLoad img tr s
  | .registerWrite off v => Sys2Proof.Machine.execRegisterWrite off v s
  | .qwptrWrite q v => Sys2Proof.Machine.execQwptrWrite q v s
  | .qctlWrite q v => Sys2Proof.Machine.execQctlWrite q v s
  | .qstatWrite q v => Sys2Proof.Machine.execQstatWrite q v s
  | .eventCounterWrite idx v => Sys2Proof.Machine.execEventCounterWrite idx v s
  | .nopPacket q => Sys2Proof.Machine.execNopPacket q s
  | .klaunch q => Sys2Proof.Machine.execKlaunch q s
  | .evsig q => Sys2Proof.Machine.execEvsig q s
  | .evwait q => Sys2Proof.Machine.execEvwait q s
  | .evwaitSatisfied q => Sys2Proof.Machine.execEvwaitSatisfied q s
  | .vdef q => Sys2Proof.Machine.execVdef q s
  | .mapflush q => Sys2Proof.Machine.execMapflush q s
  | .mapflushComplete q => Sys2Proof.Machine.execMapflushComplete q s
  | .launchStart lid => Sys2Proof.Machine.execLaunchStart lid s
  | .blockPlace => Sys2Proof.Machine.execBlockPlace s
  | .coopLaunchPlace lid => Sys2Proof.Machine.execCoopLaunchPlace lid s
  | .chainLaunchPlace lid => Sys2Proof.Machine.execChainLaunchPlace lid s
  | .coopHeadWaitExpiry lid => Sys2Proof.Machine.execCoopHeadWaitExpiry lid s
  | .issueCycle core => Sys2Proof.Machine.execIssueCycle core s
  | .fairnessRotation w => Sys2Proof.Machine.execFairnessRotation w s
  | .joinPark f => Sys2Proof.Machine.execJoinPark f s
  | .branchConfirm f => Sys2Proof.Machine.execBranchConfirm f s
  | .repIteration w => Sys2Proof.Machine.execRepIteration w s
  | .fragmentWake f => Sys2Proof.Machine.execFragmentWake f s
  | .sleepWake f => Sys2Proof.Machine.execSleepWake f s
  | .waitaWake f => Sys2Proof.Machine.execWaitaWake f s
  | .waitaTimeout f => Sys2Proof.Machine.execWaitaTimeout f s
  | .waitaReread f => Sys2Proof.Machine.execWaitaReread f s
  | .fenceReleaseEnd f => Sys2Proof.Machine.execFenceReleaseEnd f s
  | .loadResult id => Sys2Proof.Machine.execLoadResult id s
  | .writeTimesReturn id => Sys2Proof.Machine.execWriteTimesReturn id s
  | .transformPipeReply w => Sys2Proof.Machine.execTransformPipeReply w s
  | .sliceLeaseRequest id => Sys2Proof.Machine.execSliceLeaseRequest id s
  | .sliceWrite id => Sys2Proof.Machine.execSliceWrite id s
  | .sliceRead id => Sys2Proof.Machine.execSliceRead id s
  | .sliceAtomic id => Sys2Proof.Machine.execSliceAtomic id s
  | .remoteRequest r => Sys2Proof.Machine.execRemoteRequest r s
  | .remoteRequestTimeout id => Sys2Proof.Machine.execRemoteRequestTimeout id s
  | .hostMemoryWrite off bytes => Sys2Proof.Machine.execHostMemoryWrite off bytes s
  | .hostMemoryRead off len => Sys2Proof.Machine.execHostMemoryRead off len s
  | .faultRecordWrite => Sys2Proof.Machine.execFaultRecordWrite s
  | .fresumeRetry id => Sys2Proof.Machine.execFresumeRetry id s
  | .fresumeFail id => Sys2Proof.Machine.execFresumeFail id s
  | .blockEnd b => Sys2Proof.Machine.execBlockEnd b s
  | .kernelBoundary lid => Sys2Proof.Machine.execKernelBoundary lid s
  | .kernelTreeEnd lid => Sys2Proof.Machine.execKernelTreeEnd lid s
  | .preqGo q => Sys2Proof.Machine.execPreqGo q s
  | .autoPreempt lid => Sys2Proof.Machine.execAutoPreempt lid s
  | .nopreWindowExpiry w => Sys2Proof.Machine.execNopreWindowExpiry w s
  | .contextSaveComplete b => Sys2Proof.Machine.execContextSaveComplete b s
  | .blockRestore b => Sys2Proof.Machine.execBlockRestore b s
  | .migrationStart b column => Sys2Proof.Machine.execMigrationStart b column s
  | .migrationAbandon b => Sys2Proof.Machine.execMigrationAbandon b s
  | .migrationResume b => Sys2Proof.Machine.execMigrationResume b s
  | .dieDrop die => Sys2Proof.Machine.execDieDrop die s
  | .dieFailure die => Sys2Proof.Machine.execDieFailure die s
  | .droopStretch column ratio => Sys2Proof.Machine.execDroopStretch column ratio s
  | .powerLimitStretch ratio => Sys2Proof.Machine.execPowerLimitStretch ratio s
  | .columnOvertemp column => Sys2Proof.Machine.execColumnOvertemp column s
  | .moduleOvertempShutdown => Sys2Proof.Machine.execModuleOvertempShutdown s
  | .linkDegrade port lanes => Sys2Proof.Machine.execLinkDegrade port lanes s
  | .cxlPortDown port => Sys2Proof.Machine.execCxlPortDown port s
  | .podSyncLoss => Sys2Proof.Machine.execPodSyncLoss s
  | .attestationRequest => Sys2Proof.Machine.execAttestationRequest s
  | .debugHalt v => Sys2Proof.Machine.execDebugHalt v s
  | .debugResume v => Sys2Proof.Machine.execDebugResume v s
  | .debugStep v => Sys2Proof.Machine.execDebugStep v s
  | .dbgdataRead => Sys2Proof.Machine.execDbgdataRead s
  | .dbgdataWrite v => Sys2Proof.Machine.execDbgdataWrite v s
  | .faultRingControl v => Sys2Proof.Machine.execFaultRingControl v s
  | .errorRingControl v => Sys2Proof.Machine.execErrorRingControl v s
  | .profilingRingControl v => Sys2Proof.Machine.execProfilingRingControl v s
  | .traceControl v => Sys2Proof.Machine.execTraceControl v s
  | .tgctlWrite n v => Sys2Proof.Machine.execTgctlWrite n v s
  | .triggerStateChange core n => Sys2Proof.Machine.execTriggerStateChange core n s
  | .profileSample core => Sys2Proof.Machine.execProfileSample core s
  | .engineComplete id => Sys2Proof.Machine.execEngineComplete id s
  | .mlwLoadComplete id => Sys2Proof.Machine.execMlwLoadComplete id s
  | .mmaRow id => Sys2Proof.Machine.execMmaRow id s
  | .mdrRow id => Sys2Proof.Machine.execMdrRow id s
  | .mzrEngineZero id => Sys2Proof.Machine.execMzrEngineZero id s
  | .copyChunk id chunk => Sys2Proof.Machine.execCopyChunk id chunk s
  | .ldaDelivery id => Sys2Proof.Machine.execLdaDelivery id s
  | .scanEngineRun id => Sys2Proof.Machine.execScanEngineRun id s
  | .chainEntryDeliver b => Sys2Proof.Machine.execChainEntryDeliver b s
  | .barrierArrival g b => Sys2Proof.Machine.execBarrierArrival g b s
  | .barrierComplete g => Sys2Proof.Machine.execBarrierComplete g s
  | .launchSumpRoom f => Sys2Proof.Machine.execLaunchSumpRoom f s
  | .correctedErrorRateLimit => Sys2Proof.Machine.execCorrectedErrorRateLimit s
  | .hostWriteTakesEffect => Sys2Proof.Machine.execHostWriteTakesEffect s

end Sys2Proof.Machine
end

