-- ==== Sys2Proof/Machine/Step.lean ====
section
/-! DEFINITION. One step of the device (notes/assumptions/1.md): the turn of a fragment a core has picked; else the next event
of the agenda, at its time; else what the device does by itself; and what the change of a page table leaves undefined is noted (R264). -/

namespace Sys2Proof.Machine

def step (s : State) : Host.Outcome State Fault Refusal :=
  s.settled (match s.picks with
    | r :: rest => pickStep exec r { s with picks := rest }
    | [] => match s.agenda with
      | (dt, i) :: rest => exec i { s.advance dt with agenda := rest, cur := none }
      | [] => .next s.onward)

/-- The launch that `withFetchWord` runs: one warp, every register a block can have, code at 0x10000. -/
def fetchDesc : KDesc :=
  { entry := 0x10000, cbank := 0x20000, trapPc := 0, localBase := 0x30000, localBytes := 16, gx := 1, gy := 1, gz := 1
    seed := 1, regs := 128, warps := 1, tiles := 8, chain := false, coop := false, migratable := false, nopredict := false
    hasList := false, hintValid := false, prio := 0, scratch := 262144, lockQuota := 0, hint := 0, listAddr := 0, zsafe := 0 }

/-- The page-table entry of the code page: 64 KiB at physical 0x10000, readable, writable, executable. -/
def fetchPte : BitVec 128 := BitVec.ofNat 128 (1 + 2 + 2 ^ 4 + 2 ^ 5 + 2 ^ 6 + 2 ^ 48 + 2 ^ 88)

/-- A warp of a running launch on core 0 that stands at an instruction and is next to issue (notes/assumptions/1.md). (DESIGN CHOICE, unsafe: notes/assumptions/1.md). -/
def State.withFetchWord (s : State) (nbits w : Nat) : State :=
  let mem := s.mem.writeBytes 0x10000 (tableBytes nbits w)
  let l : Machine.Launch :=
    { id := s.nextLid, desc := fetchDesc, queue := 0, prio := 0, asid := 0, parent := none, root := s.nextLid
      st := .running, devCount := s.devLaunches, next := 1, start := some s.time, begun := s.time, image := mem }
  let b : Block :=
    { uid := s.nextUid, lid := s.nextLid, index := 0, core := 0, since := s.time, banks := List.replicate 16 {},
      warps := [startWarp fetchDesc 0 0 (0, 0) 0 false] }
  { s with
    mem := mem, dev := { s.dev with ready := true, dies := 0xFF }, launches := s.launches ++ [l], blocks := s.blocks ++ [b]
    tlbs := tput s.tlbs 0 (⟨0, 0, 1, fetchPte⟩ :: tget [] s.tlbs 0)
    picks := [⟨s.nextUid, 0, .entry 0⟩], nextLid := s.nextLid + 1, nextUid := s.nextUid + 1 }

end Sys2Proof.Machine
end

