-- ==== Sys2Proof/WellFormed.lean ====
section
/-! DEFINITION. Which instructions are well formed: the limits R95, R106, R126, R174, R192 and the instruction chapters put on
the fields of each layout (the code points and zero fields of R112's orders 3 and 4, said of the fields). A device event has no
encoding; whether it may happen is judged by its meaning. -/

namespace Sys2Proof

/-- `p` holds wherever the condition does. -/
def implies (c p : Bool) : Bool := !c || p

/-- The head (R95, R384): GSET needs a guard, CCSET needs C, and C as the instruction has it. -/
def Head.wf (h : Head) (cc : CcRule) : Bool :=
  implies (h.guard == .al) (!h.gset) && implies (cc == .never) (!h.c) && implies (!h.c) (!h.ccSet)
    && implies (cc == .must) h.c

/-- R90: the halfword 0x0000 is no instruction. -/
def H2.wf (op : BitVec 4) (o : H2) : Bool := !(op == 0 && o == ⟨false, 0, 0⟩)

/-- R93: MOV reads no B; a compare writes CC and no D. -/
def N3.wf (op : BitVec 7) (o : N3) : Bool :=
  implies (op == 0x15) (o.b == 0) && implies (op == 0x16 || op == 0x17) (o.c && o.d == 0)

/-- R93: a shift amount is below 32, MOVI8 reads no A, a compare writes CC and no D. -/
def NI.wf (op : BitVec 7) (o : NI) : Bool :=
  implies (op == 0x41 || op == 0x42 || op == 0x43) (decide (o.imm.toNat < 32)) && implies (op == 0x47) (o.a == 0)
    && implies (op == 0x48) (o.c && o.d == 0)

/-- Whether an immediate stands for B, and whether the XR tail's source is one its row accepts (R126, R129, R147). -/
def XrSrc.wf (r : XrRow) : XrSrc → Bool
  | .regs b c => implies (!r.useB) (b == 0) && implies (!r.useC && !r.kC) (c == 0) && implies r.kC (decide (c.toNat < 32))
  | .imm i => r.imm && implies r.lane (decide (i.toNat < 32)) && !r.kC

def XrSrc.isImm : XrSrc → Bool
  | .imm _ => true
  | .regs _ _ => false

/-- The default layout of M (R96, R126). -/
def Xr.wf (op : BitVec 10) (o : Xr) : Bool :=
  let r := xrRow op.toNat
  o.h.wf r.cc && o.src.wf r && r.types.contains o.ty && implies (!r.rnd) (o.rnd == .rne) && implies (!r.useD) (o.d == 0)
    && implies (!r.useC) (!o.eC) && implies (!r.useB || o.src.isImm) (!o.eB)
    && implies (!r.neg || !r.useB) (!o.absB && !o.negB) && implies (!r.neg) (!o.absA && !o.negA) && implies (!r.sat) (!o.sat)

/-- R134: only FSEL has absolute values and negations. (DEDUCED, unsafe: notes/assumptions/18.md). -/
def Sel.wf (op : BitVec 10) (o : Sel) : Bool :=
  o.h.wf .may && implies (op == 0xf) (!o.absB && !o.absA && !o.negB && !o.negA)

/-- CVT (R144). -/
def Cvt.wf (o : Cvt) : Bool :=
  match cvtRow o.src o.dst with
  | none => false
  | some (useB, sat) => o.h.wf .may && implies (!useB) (o.b == 0 && !o.eB)
      && implies (!(o.src == .f16x2 || o.src == .bf16x2)) (!o.half) && implies (!sat) (!o.sat)

/-- CVT8, WID8, CVT4 and WID4 (R145). -/
def Pack.wf (op : BitVec 10) (o : Pack) : Bool :=
  let eight := op == 0x107 || op == 0x108
  let cvt := op == 0x107 || op == 0x109
  o.h.wf (if cvt then .may else .never) && (if eight then [Ty.e4m3x4, .e5m2x4] else [.e2m1x8]).contains o.ty
    && implies (!(eight && cvt)) (!o.sat) && implies (!cvt) (!o.amax)

/-- RDSR and WRSR (R54, R148). -/
def Sr.wf (op : BitVec 10) (o : Sr) : Bool :=
  o.h.wf .never && (if op == 0x145 then srWritable o.d else srReadable o.a && !(o.a == 0 && o.sreg))

/-- SHFL (R150). -/
def Shfl.wf (o : Shfl) : Bool :=
  o.h.wf .may && implies o.ib (decide (o.b.toNat < 32) && !o.eB) && implies (!o.ms) (o.c == 0 && !o.eC)

/-- VOTE (R151). -/
def Vote.wf (o : Vote) : Bool := o.h.wf .may && implies (!o.ms) (o.c == 0 && !o.eC)

/-- The types of TRED (R152). -/
def TredOp.types : TredOp → List Ty
  | .and | .or | .xor => [.n32]
  | _ => [.n32, .i32, .f32]

/-- TRED (R152). -/
def Tred.wf (o : Tred) : Bool := o.h.wf .may && o.op.types.contains o.ty && implies (!o.ms) (o.c == 0 && !o.eC)

/-- The XM tail (R174). (DEDUCED, unsafe: notes/assumptions/15.md). -/
def Xm.wf (op : BitVec 10) (o : Xm) : Bool :=
  let r := xmRow op.toNat
  o.h.wf r.cc && r.widths.contains o.width && r.ords.contains o.ord && implies (r.ords == [.rlx]) (o.scope == .core)
    && implies (r.mst && o.ord == .rel) (o.scope == .quad || o.scope == .die) && implies (!r.hint) (o.hint == .default)
    && implies (!r.useD) (o.d == 0) && implies (!r.useA) (o.a == 0) && sx r.useB o.width o.b
where
  /-- The B field where it is SX, and where there is none (R177). -/
  sx (useB : Option Bool) (w : Width) (b : RegField) : Bool :=
    match useB with
    | some true => true
    | some false => if w == .w8 || w == .w16 then decide (b.toNat < 2) else b == 0
    | none => b == 0

/-- The private address field (R175). (DEDUCED, unsafe: notes/assumptions/15.md). -/
def Xp.wf (op : BitVec 10) (o : Xp) : Bool :=
  let r := xmRow op.toNat
  o.h.wf r.cc && r.widths.contains o.width && r.ords.contains o.ord && implies (!r.hint) (o.hint == .default)
    && implies (!r.useD) (o.d == 0) && Xm.wf.sx r.useB o.width o.b

/-- R183: some operations exist at width 32 only. -/
def AtomOp.widthOk (op : AtomOp) (w : Width) : Bool := w == .w32 || (w == .w64 && !op.only32)

/-- ATOM and RED (R183). -/
def Xa.wf (op : BitVec 10) (o : Xa) : Bool :=
  let red := op == 0x209
  o.h.wf .never && o.op.widthOk o.width
    && implies red (!(o.op == .exch || o.op == .cas) && (o.ord == .rlx || o.ord == .rel) && o.d == 0)

/-- ATOMS (R183). -/
def Xas.wf (o : Xas) : Bool := o.h.wf .never && o.op.widthOk o.width

/-- WAITA (R187). -/
def Waita.wf (o : Waita) : Bool := o.h.wf .must && (o.width == .w32 || o.width == .w64) && (o.ord == .rlx || o.ord == .acq)

/-- The synchronisation group (R192). -/
def Xs.wf (op : BitVec 10) (o : Xs) : Bool :=
  let r := xsRow op.toNat
  o.h.wf r.cc && r.scopes.contains o.scope && r.ords.contains o.ord && implies (!r.next) (!o.next)
    && implies (!r.useD) (o.d == 0) && implies (!r.useB) (o.b == 0)

/-- COPY, COPYM and COPYL (R224-R226). -/
def Copy.wf (op : BitVec 10) (o : Copy) : Bool :=
  o.h.wf .never && implies (op == 0x301) (o.bo && o.red == .none) && implies (op == 0x300 && !o.bo) (o.b == 0)
    && implies (op == 0x300 || (op == 0x302 && !o.bo)) (o.c == 0)

/-- The formats of a transform (R227). -/
def CopyXf.wf : CopyXf → Bool
  | .qnt f _ | .dqnt f => narrowTypes.contains f
  | .cast f => f == .f16x2 || f == .bf16x2
  | .tr => true

/-- Whether a transform reads a scale address from C (R227). -/
def CopyXf.scaled : CopyXf → Bool
  | .qnt _ _ | .dqnt _ => true
  | _ => false

/-- The limits of each layout. -/
def Layout.wf : Layout → Bool
  | .event | .nj _ | .np _ | .nm _ _ => true
  | .h2 op o => o.wf op
  | .n3 op o => o.wf op
  | .ni op o => o.wf op
  | .xr op o => o.wf op
  | .sel op o => o.wf op
  | .lut3 _ o => o.h.wf .may
  | .fscale _ o => o.h.wf .may
  | .cvt _ o => o.wf
  | .pack op o => o.wf op
  | .movi _ o => o.h.wf .may
  | .movs _ o => o.h.wf .never
  | .sr op o => o.wf op
  | .shfl _ o => o.wf
  | .vote _ o => o.wf
  | .tred _ o => o.wf
  | .part _ o => o.h.wf .never && decide (1 ≤ o.p.toNat ∧ o.p.toNat ≤ 5)
  | .xrng _ o => o.h.wf .never
  | .xsort _ o => o.h.wf .never && [Ty.n32, .i32, .f32].contains o.ty && !(o.c == o.d)
  | .xqnt _ o => o.h.wf .never
  | .xdqnt _ o => o.h.wf .never && [Ty.e4m3x4, .e5m2x4].contains o.ty
  | .br _ o => o.h.wf .never
  | .jump _ o => o.h.wf .never
  | .jumpReg _ o => o.h.wf .never
  | .brx _ o => o.h.wf .never && !(o.hint == .uniform)
  | .bare _ h => h.wf .never
  | .rep _ o => o.h.wf .never && !o.h.stop
  | .xi op o => o.h.wf .never && implies (op == 0x384) o.h.stop
  | .xm op o => o.wf op
  | .xp op o => o.wf op
  | .xa op o => o.wf op
  | .xas _ o => o.wf
  | .waita _ o => o.wf
  | .bank _ o => o.h.wf .never
  | .xs op o => o.wf op
  | .mlw _ o => o.h.wf .never && mmaTypes.contains o.fmt
  | .mma _ o => o.h.wf .never && mmaTypes.contains o.fmt && implies o.fmt.isInt8 (o.c == 0)
  | .mdr _ o => o.h.wf .never && mdrTypes.contains o.fmt && implies o.sat (o.fmt == .e4m3x4 || o.fmt == .e5m2x4)
  | .mzr _ o => o.h.wf .never
  | .mrs _ o => o.h.wf .never && implies o.col (o.row == 0)
  | .mws _ o => o.h.wf .never && (o.ty == .f32 || o.ty == .i32) && implies o.col (o.row == 0)
  | .copy op o => o.wf op
  | .copyx _ o => o.h.wf .never && o.xf.wf && implies (!o.bo) (o.b == 0) && implies (!o.xf.scaled) (o.c == 0)
  | .hw op o => o.h.wf (if op == 0x305 then .must else .never) && implies (op == 0x305) (o.d == 0)
  | .opA _ o => o.h.wf .never
  | .opD _ o => o.h.wf .never
  | .opDA _ o => o.h.wf .never
  | .opAB _ o => o.h.wf .never
  | .scan _ o => o.h.wf .never && o.op.types.contains o.ty
  | .chainOp _ o => o.h.wf .never
  | .cjoin _ o => o.h.wf .never
  | .launch _ o => o.h.wf .must

/-- An instruction whose fields are within the limits of its encoding. -/
def Instr.wellFormed (i : Instr) : Bool := i.layout.wf

/-- The instructions that stand in memory; the other rows of the table are events of the device. -/
def Instr.encodable (i : Instr) : Bool := !(i.len == 0)

end Sys2Proof
end

