-- ==== Sys2Proof/Safety.lean ====
section
/-! DEFINITION. The terms in which claims are made: canonical memory, the fragment that issues and when an instruction executes
normally (R63, R89, R112, R186, R202, R207), and what of the machine an instruction leaves as it was. -/

namespace Sys2Proof

/-- The compares, which a predicted BR can follow (R169). -/
def Instr.isCompare : Instr → Bool
  | .icmpN3 _ | .fcmpN3 _ | .icmpi _ | .icmp _ | .fcmp _ => true
  | _ => false

end Sys2Proof

namespace Sys2Proof.Machine

/-- The memories are in their canonical form (notes/assumptions/4.md, 5.md). -/
def State.memOk (s : State) : Prop := s.mem.wf ∧ s.host.wf ∧ s.vault.wf

/-- Every request in flight has a number of its own, below the next. -/
abbrev State.numbered (s : State) : Prop := (s.reqs.map (·.id)).Nodup ∧ ∀ q ∈ s.reqs, q.id < s.nextReq

/-- An instruction executes normally: it is well formed; its fragment issues, outside a speculation window; the block has tiles for the matrix
group (R27); every register it names is one the block has (R89); its guard is AL where it must be; every register it reads or
writes is full (R63); it reads no handle of a suspended operation and issues to no engine that has one (R207); an engine instruction
has the whole warp (R202); no acquire action holds back an access (R186); the translations of the fragment's earlier accesses have ended (R330); and the core has
room for a request of every lane (R2). -/
structure Issues (i : Instr) (s : State) (c : Ctx) : Prop where
  wf : i.wellFormed = true
  cur : s.cur = some c.ref
  ctx : s.ctx? c.ref = some c
  here : isPath c.ref.sel = false
  tiles : i.layout.isMatrix = true → 0 < c.l.desc.tiles
  legal : ∀ o ∈ i.layout.opnds (vaultDims s c.l.asid c.w i.layout), o.legal c.l.desc.regs c.l.desc.tiles = true
  guard : i.layout.needsAl = true → ∀ h, i.layout.head = some h → h.guard = .al
  full : ∀ o ∈ i.layout.opnds (vaultDims s c.l.asid c.w i.layout), o.src = true ∨ o.dst = true →
    ∀ r ∈ o.regs, regFull c.b c.w r = true
  quiet : suspendedOn c.b c.ref.warp c.w i.layout (i.layout.opnds (vaultDims s c.l.asid c.w i.layout)) = none
  whole : i.layout.isEngine = true → c.f.mask = 0xFFFF_FFFF
  open_ : i.layout.isAccess = true → c.f.acquire = none
  walked : i.layout.awaitsWalk = true → c.f.walkEnd ≤ s.time
  room : i.layout.sendsRequests = true →
    (s.reqs.filter fun q => q.core == c.b.core).length + popcount c.f.mask ≤ Config.maxRequests

/-- The lanes an instruction executes in: the fragment's, less those whose guard does not hold (R60). -/
def Ctx.lanes (c : Ctx) (i : Instr) : LaneMask := c.w.execMask c.f.mask i.layout.head

/-! ### What an instruction leaves as it was -/

/-- The memories, the requests in flight, the launches, the tables of the device and its registers are as they were. -/
structure SameOutside (s t : State) : Prop where
  mem : t.mem = s.mem
  host : t.host = s.host
  vault : t.vault = s.vault
  l2 : t.l2 = s.l2
  reqs : t.reqs = s.reqs
  launches : t.launches = s.launches
  groups : t.groups = s.groups
  queues : t.queues = s.queues
  events : t.events = s.events
  tensors : t.tensors = s.tensors
  tlbs : t.tlbs = s.tlbs
  dev : t.dev = s.dev
  time : t.time = s.time

/-- Every other warp is as it was. -/
def SameOtherWarps (c : Ctx) (s t : State) : Prop :=
  ∀ uid wi, (uid, wi) ≠ (c.ref.block, c.ref.warp) → t.warp? uid wi = s.warp? uid wi

/-- The scratchpad, tiles, barriers, operations and banks of the issuing block are as they were. -/
def SameBlock (c : Ctx) (t : State) : Prop :=
  ∃ b, t.block? c.ref.block = some b ∧ b = { c.b with warps := b.warps }

/-- The special registers, the joins, the horizons and the exited lanes of a warp are as they were. -/
structure SameSpecials (w w' : Warp) : Prop where
  x : w'.x = w.x
  part : w'.part = w.part
  lfsr : w'.lfsr = w.lfsr
  repc : w'.repc = w.repc
  tick : w'.tick = w.tick
  join : w'.join = w.join
  exited : w'.exited = w.exited
  handler : w'.handler = w.handler
  nopre : w'.nopre = w.nopre
  hdie : w'.hdie = w.hdie
  hdev : w'.hdev = w.hdev
  hpod : w'.hpod = w.hpod

/-- The registers, the flags and the special registers of a warp but the LFSR are as they were. -/
structure SameData (w w' : Warp) : Prop where
  v : w'.v = w.v
  s : w'.s = w.s
  h : w'.h = w.h
  cc0 : w'.cc0 = w.cc0
  cc1 : w'.cc1 = w.cc1
  vFull : w'.vFull = w.vFull
  sFull : w'.sFull = w.sFull
  hFull : w'.hFull = w.hFull
  x : w'.x = w.x
  part : w'.part = w.part
  amax : w'.amax = w.amax
  nanSeen : w'.nanSeen = w.nanSeen
  tick : w'.tick = w.tick
  repc : w'.repc = w.repc
  nopre : w'.nopre = w.nopre

/-- Every full/empty bit is as it was. -/
structure SameFull (w w' : Warp) : Prop where
  v : w'.vFull = w.vFull
  s : w'.sFull = w.sFull
  h : w'.hFull = w.hFull

/-- The fragment stands, ready, at the fall-through address (R86); its lanes, join, depth and rank are as they were. -/
structure Fallen (i : Instr) (f f' : Frag) : Prop where
  pc : f'.pc = f.pc + BitVec.ofNat 64 i.len
  st : f'.st = .ready
  mask : f'.mask = f.mask
  join : f'.join = f.join
  depth : f'.depth = f.depth
  rank : f'.rank = f.rank
  handler : f'.handler = f.handler

/-- The fragment stands, ready, at an address; its lanes, join, depth and rank are as they were. -/
structure StandsAt (pc : DWord) (f f' : Frag) : Prop where
  pc : f'.pc = pc
  st : f'.st = .ready
  mask : f'.mask = f.mask
  join : f'.join = f.join
  depth : f'.depth = f.depth
  rank : f'.rank = f.rank
  handler : f'.handler = f.handler

/-- The registers and flags an instruction does not write are as they were (R51, R58, R65): every register but its
destinations, every lane that does not execute, every CC set but the one it names. -/
structure SameRegs (i : Instr) (c : Ctx) (w' : Warp) : Prop where
  v : ∀ n l, ((RegClass.v, n) ∉ writesRegs i ∨ (c.lanes i).getLsbD l.val = false) → w'.vl n l = c.w.vl n l
  s : ∀ n, (RegClass.s, n) ∉ writesRegs i → w'.sr n = c.w.sr n
  h : ∀ n, (RegClass.h, n) ∉ writesRegs i → w'.hr n = c.w.hr n
  cc : ∀ k l, (i.layout.ccOut ≠ some k ∨ (c.lanes i).getLsbD l.val = false) → w'.cc k l = c.w.cc k l

/-- An instruction carries the AMAX update (R67). -/
def setsAmax : Layout → Bool
  | .pack _ o => o.amax
  | _ => false

/-- An instruction of the fragment's own warp has retired: the fragment stands at its fall-through address, the warp's other
fragments stand as they were, and nothing outside the warp has changed; the packets of its core are written when the nanosecond ends
(R362). -/
structure Retired (i : Instr) (s : State) (c : Ctx) (t : State) (w : Warp) : Prop where
  frag : ∃ f, w.frag? c.ref.sel = some f ∧ Fallen i c.f f
  otherFrags : ∀ r, r ≠ c.ref.sel → w.frag? r = c.w.frag? r
  outside : SameOutside s t ∧ SameOtherWarps c s t ∧ SameBlock c t ∧ w.resv = c.w.resv

/-- What a lane instruction leaves as it was. -/
structure LaneFrame (i : Instr) (s : State) (c : Ctx) (t : State) (w : Warp) : Prop where
  retired : Retired i s c t w
  regs : SameRegs i c w
  full : SameFull c.w w
  specials : SameSpecials c.w w
  amax : setsAmax i.layout = false → w.amax = c.w.amax ∧ w.nanSeen = c.w.nanSeen

/-! ### Memory accesses -/

/-- An address is translated by an entry the quad's TLB holds, as its page was translated before, and the access is permitted (R264,
R325, R329). -/
abbrev Maps (s : State) (c : Ctx) (va : Nat) (acc : Acc) (pa : Nat) (a : Attr) : Prop :=
  (s.tlbFind (s.quadOf c.b.core) c.l.asid va).isSome = true ∧ s.xlate (s.quadOf c.b.core) c.l.asid va acc = (s, .ok pa a)

/-- So for every lane that executes; a port serves the address (R377), and where the access reads, the sector's check value is good
(R342). -/
abbrev LanesMap (s : State) (c : Ctx) (i : Instr) (addr : Lane → Nat) (acc : Acc) (reads : Bool) (pa : Lane → Nat)
    (a : Lane → Attr) : Prop :=
  ∀ l : Lane, (c.lanes i).getLsbD l.val = true →
    Maps s c (addr l) acc (pa l) (a l) ∧ s.lostAt (a l).tier (pa l) = none ∧
      (reads = true → s.badAt (a l).target (a l).tier (pa l) = none)

/-- Every lane that executes has an aligned address (step 1 of R176). -/
abbrev Aligned (c : Ctx) (i : Instr) (n : Nat) (addr : Lane → Nat) : Prop :=
  ∀ l : Lane, (c.lanes i).getLsbD l.val = true → addr l % n = 0

/-- Every lane that executes has its bytes below a bound (step 2 of R176). -/
abbrev Within (c : Ctx) (i : Instr) (lim n : Nat) (addr : Lane → Nat) : Prop :=
  ∀ l : Lane, (c.lanes i).getLsbD l.val = true → addr l + n ≤ lim

/-- The release action of an order at a scope has ended, or the order has none (R186); no failed remote write is to be
reported (R380). -/
abbrev Released (s : State) (c : Ctx) (ord : Ord) (sc : Scope) : Prop :=
  ord = .rel ∨ ord = .acqrel → (c.f.released = true ∨ s.condMet c (.release sc) = true) ∧ (sc = .pod → c.failed = [])

/-- No line of any L1 holds local data still to be written back (R253). -/
def NoDirty (s : State) : Prop := ∀ k, ∀ x ∈ (s.core k).lines, x.dirty = 0

/-- The acquire action a retired access leaves in its fragment (R186). -/
def acquired (ord : Ord) (sc : Scope) (n : Nat) (old : Option Nat) : Option Nat :=
  if (ord = .acq ∨ ord = .acqrel) ∧ sc ≠ .core then some n else old

/-- An access has retired with one request on its way for each lane that executes, in ascending order (R62, R176, R262): no
register's value, flag or special register changes; the destinations are empty where a lane executes; and, while
no L1 holds dirty local data, no byte of memory changes before the slice performs the requests. -/
structure Sent (i : Instr) (s : State) (c : Ctx) (t : State) (w : Warp) (dst : List (RegClass × Nat)) (acq : Option Nat)
    (f : Lane → Req) : Prop where
  frag : ∃ g, w.frag? c.ref.sel = some g ∧ Fallen i c.f g ∧ g.acquire = acq
  otherFrags : ∀ r, r ≠ c.ref.sel → w.frag? r = c.w.frag? r
  rv : w.v = c.w.v
  rs : w.s = c.w.s
  rh : w.h = c.w.h
  cc0 : w.cc0 = c.w.cc0
  cc1 : w.cc1 = c.w.cc1
  specials : SameSpecials c.w w
  amax : w.amax = c.w.amax ∧ w.nanSeen = c.w.nanSeen
  vFull : ∀ r, r < 128 → w.vFull.getLsbD r = (c.w.vFull.getLsbD r && !(c.lanes i != 0 && dst.contains (.v, r)))
  sFull : w.sFull = c.w.sFull
  hFull : w.hFull = c.w.hFull
  reqs : t.reqs = s.reqs ++ (lanesOf (c.lanes i)).zipIdx.map fun x => { f x.1 with id := s.nextReq + x.2, sentAt := s.time }
  next : t.nextReq = s.nextReq + (lanesOf (c.lanes i)).length
  memory : NoDirty s → t.mem = s.mem ∧ t.host = s.host ∧ t.vault = s.vault

/-- A retired access to the block's own scratchpad: registers but the destinations, flags, special registers, memory and every
other block are as they were. -/
structure ScratchDone (i : Instr) (s : State) (c : Ctx) (t : State) (w : Warp) : Prop where
  frag : ∃ g, w.frag? c.ref.sel = some g ∧ Fallen i c.f g
  otherFrags : ∀ r, r ≠ c.ref.sel → w.frag? r = c.w.frag? r
  regs : SameRegs i c w
  full : SameFull c.w w
  specials : SameSpecials c.w w
  outside : SameOutside s t ∧ ∀ u, u ≠ c.ref.block → t.block? u = s.block? u

/-! ### Completion and results -/

/-- The instruction completes where it executes normally and `P` holds: `exec` answers a next state `t` whose issuing warp is
`w`, and `Q s c t w`. -/
def CompletesIf (i : Instr) (P : State → Ctx → Prop) (Q : State → Ctx → State → Warp → Prop) : Prop :=
  ∀ s c, Issues i s c → P s c → ∃ t w, exec i s = .next t ∧ t.warp? c.ref.block c.ref.warp = some w ∧ Q s c t w

/-- Where it executes normally and `P` holds, the instruction takes the trap of a cause at its own PC, with no effect of its own
(R112, R337). -/
def TrapsWhere (i : Instr) (P : State → Ctx → Prop) (cause : Nat) (info : Word) : Prop :=
  ∀ s c, Issues i s c → P s c →
    exec i s = .next (s.takeTrap c { cause := cause, pc := c.f.pc, addr := 0, mask := c.f.mask, info := info })

/-- The instruction completes: where it executes normally, `exec` answers a next state `t` whose issuing warp is `w`, and
`Q s c t w`. -/
def Completes (i : Instr) (Q : State → Ctx → State → Warp → Prop) : Prop :=
  ∀ s c, Issues i s c → ∃ t w, exec i s = .next t ∧ t.warp? c.ref.block c.ref.warp = some w ∧ Q s c t w

/-- Where `P` holds, the fragment goes on, whole, at an address; no register, flag, special register, join entry or other
fragment of the warp changes, and nothing outside it does. -/
def GoesTo (i : Instr) (P : State → Ctx → Prop) (pc : Ctx → DWord) : Prop :=
  CompletesIf i P fun s c t w => (∃ f, w.frag? c.ref.sel = some f ∧ StandsAt (pc c) c.f f) ∧
    (∀ r, r ≠ c.ref.sel → w.frag? r = c.w.frag? r) ∧ SameData c.w w ∧ w.lfsr = c.w.lfsr ∧ w.join = c.w.join ∧
    w.exited = c.w.exited ∧ w.handler = c.w.handler ∧
    SameOutside s t ∧ SameOtherWarps c s t ∧ SameBlock c t

/-- In every lane that executes, register `d` takes the result of `f` on the lane's operands, and with C = 1 the named CC set
takes its flags; the rest is the lane frame. -/
def GivesWord (i : Instr) (d : Nat) (f : Warp → Lane → Word × CC) : Prop :=
  Completes i fun s c t w => LaneFrame i s c t w ∧
    ∀ l, (c.lanes i).getLsbD l.val = true →
      w.vl d l = (f c.w l).1 ∧ ∀ k, i.layout.ccOut = some k → w.cc k l = (f c.w l).2

/-- The same of an instruction in which lanes work together: `f` is given the lanes that execute. -/
def GivesCoop (i : Instr) (d : Nat) (f : LaneMask → Warp → Lane → Word × CC) : Prop :=
  Completes i fun s c t w => LaneFrame i s c t w ∧
    ∀ l, (c.lanes i).getLsbD l.val = true →
      w.vl d l = (f (c.lanes i) c.w l).1 ∧ ∀ k, i.layout.ccOut = some k → w.cc k l = (f (c.lanes i) c.w l).2

/-- The same of a pair (R49). -/
def GivesPair (i : Instr) (d : Nat) (f : Warp → Lane → DWord × CC) : Prop :=
  Completes i fun s c t w => LaneFrame i s c t w ∧
    ∀ l, (c.lanes i).getLsbD l.val = true →
      w.vp d l = (f c.w l).1 ∧ ∀ k, i.layout.ccOut = some k → w.cc k l = (f c.w l).2

/-- A compare: flags only (R134, R140). -/
def GivesFlags (i : Instr) (f : Warp → Lane → CC) : Prop :=
  Completes i fun s c t w => LaneFrame i s c t w ∧
    ∀ l, (c.lanes i).getLsbD l.val = true → ∀ k, i.layout.ccOut = some k → w.cc k l = f c.w l

/-- A group of `n` registers takes a list of values. -/
def GivesGroup (i : Instr) (d : Nat) (n : Nat) (f : Warp → Lane → List Nat) : Prop :=
  Completes i fun s c t w => LaneFrame i s c t w ∧
    ∀ l, (c.lanes i).getLsbD l.val = true → ∀ e, e < n → w.vl (d + e) l = BitVec.ofNat 32 ((f c.w l).getD e 0)

/-- The instruction is sent to the transform pipe (R154): no register, flag or special register changes; the pipe holds an
item for the lanes that execute, whose value `e` in a lane is `f`'s, for register `ds[e]`; those registers are empty. -/
def SendsToPipe (i : Instr) (ds : List Nat) (sr : Option (Nat × (LaneMask → Warp → Word)))
    (f : LaneMask → Warp → Lane → List Word) : Prop :=
  Completes i fun s c t w => Retired i s c t w ∧ SameSpecials c.w w ∧ w.v = c.w.v ∧ w.s = c.w.s ∧ w.h = c.w.h ∧
    w.cc0 = c.w.cc0 ∧ w.cc1 = c.w.cc1 ∧ w.amax = c.w.amax ∧ w.nanSeen = c.w.nanSeen ∧ w.hFull = c.w.hFull ∧
    ∃ p, w.pipe = c.w.pipe ++ [p] ∧ p.lanes = c.lanes i ∧ p.v.map (·.1) = ds ∧
      (∀ e n x l, p.v[e]? = some (n, x) → (c.lanes i).getLsbD l.val = true → x[l] = (f (c.lanes i) c.w l).getD e 0) ∧
      p.s = sr.map (fun x => (x.1, x.2 (c.lanes i) c.w)) ∧
      (∀ r, r < 128 → w.vFull.getLsbD r = (c.w.vFull.getLsbD r && !ds.contains r)) ∧
      (∀ r, r < 64 → w.sFull.getLsbD r = (c.w.sFull.getLsbD r && !(sr.map (·.1)).toList.contains r))

end Sys2Proof.Machine
end

