-- ==== Sys2Proof/Certificates/Slice0/Obligations.lean ====
section
/-! DEFINITION. The statements for the provers, from the spec's numbered rules: encodings, results, flags and frames of every
instruction, where each completes and where it traps, what each device event does, and the invariant every step keeps. -/

open Sys2Proof Sys2Proof.Machine

/-! ### Lane instructions: results, flags and frames -/

/-- R90, R91: the 16-bit instructions compute D := D op S in every lane that executes; with C = 1 cc0 takes the flags. -/
def ShortFormsGiveTheirResults : Prop :=
  ∀ o : H2,
    GivesWord (.iaddH2 o) o.d.toNat (fun w l => (w.vl o.d.toNat l + w.vl o.s.toNat l, ccAdd (w.vl o.d.toNat l) (w.vl o.s.toNat l) 0)) ∧
    GivesWord (.isubH2 o) o.d.toNat (fun w l => (w.vl o.d.toNat l - w.vl o.s.toNat l, ccSub (w.vl o.d.toNat l) (w.vl o.s.toNat l) 0)) ∧
    GivesWord (.imulH2 o) o.d.toNat (fun w l => resW (w.vl o.d.toNat l * w.vl o.s.toNat l)) ∧
    GivesWord (.andH2 o) o.d.toNat (fun w l => resW (w.vl o.d.toNat l &&& w.vl o.s.toNat l)) ∧
    GivesWord (.orH2 o) o.d.toNat (fun w l => resW (w.vl o.d.toNat l ||| w.vl o.s.toNat l)) ∧
    GivesWord (.xorH2 o) o.d.toNat (fun w l => resW (w.vl o.d.toNat l ^^^ w.vl o.s.toNat l)) ∧
    GivesWord (.shlH2 o) o.d.toNat (fun w l => resW (w.vl o.d.toNat l <<< ((w.vl o.s.toNat l).toNat % 32))) ∧
    GivesWord (.shrH2 o) o.d.toNat (fun w l => resW (w.vl o.d.toNat l >>> ((w.vl o.s.toNat l).toNat % 32))) ∧
    GivesWord (.sarH2 o) o.d.toNat (fun w l => resW ((w.vl o.d.toNat l).sshiftRight ((w.vl o.s.toNat l).toNat % 32))) ∧
    GivesWord (.movH2 o) o.d.toNat (fun w l => resW (w.vl o.s.toNat l)) ∧
    GivesWord (.moviH2 o) o.d.toNat (fun _ _ => resW (o.s.signExtend 32)) ∧
    GivesWord (.faddH2 o) o.d.toNat (fun w l => faddW .rne (w.vl o.d.toNat l) (w.vl o.s.toNat l)) ∧
    GivesWord (.fsubH2 o) o.d.toNat (fun w l => fsubW .rne (w.vl o.d.toNat l) (w.vl o.s.toNat l)) ∧
    GivesWord (.fmulH2 o) o.d.toNat (fun w l => fmulW .rne (w.vl o.d.toNat l) (w.vl o.s.toNat l)) ∧
    GivesWord (.fmaxH2 o) o.d.toNat (fun w l => fminmaxW fp32.maxNum (w.vl o.d.toNat l) (w.vl o.s.toNat l)) ∧
    GivesWord (.fminH2 o) o.d.toNat (fun w l => fminmaxW fp32.minNum (w.vl o.d.toNat l) (w.vl o.s.toNat l))

/-- R92, R93: the N3 instructions compute D := A op B in every lane that executes; the compares write cc0 alone. -/
def ThreeRegisterFormsGiveTheirResults : Prop :=
  ∀ o : N3,
    GivesWord (.iaddN3 o) o.d.toNat (fun w l => (w.vl o.a.toNat l + w.vl o.b.toNat l, ccAdd (w.vl o.a.toNat l) (w.vl o.b.toNat l) 0)) ∧
    GivesWord (.isubN3 o) o.d.toNat (fun w l => (w.vl o.a.toNat l - w.vl o.b.toNat l, ccSub (w.vl o.a.toNat l) (w.vl o.b.toNat l) 0)) ∧
    GivesWord (.imulN3 o) o.d.toNat (fun w l => resW (w.vl o.a.toNat l * w.vl o.b.toNat l)) ∧
    GivesWord (.iminN3 o) o.d.toNat (fun w l => minmaxT .i32 true (w.vl o.a.toNat l) (w.vl o.b.toNat l)) ∧
    GivesWord (.imaxN3 o) o.d.toNat (fun w l => minmaxT .i32 false (w.vl o.a.toNat l) (w.vl o.b.toNat l)) ∧
    GivesWord (.andN3 o) o.d.toNat (fun w l => resW (w.vl o.a.toNat l &&& w.vl o.b.toNat l)) ∧
    GivesWord (.orN3 o) o.d.toNat (fun w l => resW (w.vl o.a.toNat l ||| w.vl o.b.toNat l)) ∧
    GivesWord (.xorN3 o) o.d.toNat (fun w l => resW (w.vl o.a.toNat l ^^^ w.vl o.b.toNat l)) ∧
    GivesWord (.andnN3 o) o.d.toNat (fun w l => resW (w.vl o.a.toNat l &&& ~~~w.vl o.b.toNat l)) ∧
    GivesWord (.shlN3 o) o.d.toNat (fun w l => resW (w.vl o.a.toNat l <<< ((w.vl o.b.toNat l).toNat % 32))) ∧
    GivesWord (.shrN3 o) o.d.toNat (fun w l => resW (w.vl o.a.toNat l >>> ((w.vl o.b.toNat l).toNat % 32))) ∧
    GivesWord (.sarN3 o) o.d.toNat (fun w l => resW ((w.vl o.a.toNat l).sshiftRight ((w.vl o.b.toNat l).toNat % 32))) ∧
    GivesWord (.faddN3 o) o.d.toNat (fun w l => faddW .rne (w.vl o.a.toNat l) (w.vl o.b.toNat l)) ∧
    GivesWord (.fsubN3 o) o.d.toNat (fun w l => fsubW .rne (w.vl o.a.toNat l) (w.vl o.b.toNat l)) ∧
    GivesWord (.fmulN3 o) o.d.toNat (fun w l => fmulW .rne (w.vl o.a.toNat l) (w.vl o.b.toNat l)) ∧
    GivesWord (.fminN3 o) o.d.toNat (fun w l => fminmaxW fp32.minNum (w.vl o.a.toNat l) (w.vl o.b.toNat l)) ∧
    GivesWord (.fmaxN3 o) o.d.toNat (fun w l => fminmaxW fp32.maxNum (w.vl o.a.toNat l) (w.vl o.b.toNat l)) ∧
    GivesWord (.hadd2N3 o) o.d.toNat (fun w l => packF2 fp16 false (fp16.add .rne) (w.vl o.a.toNat l) (w.vl o.b.toNat l)) ∧
    GivesWord (.hmul2N3 o) o.d.toNat (fun w l => packF2 fp16 false (fp16.mul .rne) (w.vl o.a.toNat l) (w.vl o.b.toNat l)) ∧
    GivesWord (.badd2N3 o) o.d.toNat (fun w l => packF2 bf16 false (bf16.add .rne) (w.vl o.a.toNat l) (w.vl o.b.toNat l)) ∧
    GivesWord (.bmul2N3 o) o.d.toNat (fun w l => packF2 bf16 false (bf16.mul .rne) (w.vl o.a.toNat l) (w.vl o.b.toNat l)) ∧
    GivesWord (.movN3 o) o.d.toNat (fun w l => resW (w.vl o.a.toNat l)) ∧
    GivesFlags (.icmpN3 o) (fun w l => ccSub (w.vl o.a.toNat l) (w.vl o.b.toNat l) 0) ∧
    GivesFlags (.fcmpN3 o) (fun w l => ccFcmp fp32 (w.vl o.a.toNat l).toNat (w.vl o.b.toNat l).toNat)

/-- R92, R93: the NI instructions, whose B is an 8-bit immediate: sign-extended for IADDI, MOVI8 and ICMPI, zero-extended for
the logic, a shift amount below 32 for the shifts. -/
def ImmediateFormsGiveTheirResults : Prop :=
  ∀ o : NI,
    GivesWord (.iaddi o) o.d.toNat (fun w l => (w.vl o.a.toNat l + o.imm.signExtend 32, ccAdd (w.vl o.a.toNat l) (o.imm.signExtend 32) 0)) ∧
    GivesWord (.shli o) o.d.toNat (fun w l => resW (w.vl o.a.toNat l <<< o.imm.toNat)) ∧
    GivesWord (.shri o) o.d.toNat (fun w l => resW (w.vl o.a.toNat l >>> o.imm.toNat)) ∧
    GivesWord (.sari o) o.d.toNat (fun w l => resW ((w.vl o.a.toNat l).sshiftRight o.imm.toNat)) ∧
    GivesWord (.andi o) o.d.toNat (fun w l => resW (w.vl o.a.toNat l &&& o.imm.zeroExtend 32)) ∧
    GivesWord (.ori o) o.d.toNat (fun w l => resW (w.vl o.a.toNat l ||| o.imm.zeroExtend 32)) ∧
    GivesWord (.xori o) o.d.toNat (fun w l => resW (w.vl o.a.toNat l ^^^ o.imm.zeroExtend 32)) ∧
    GivesWord (.movi8 o) o.d.toNat (fun _ _ => resW (o.imm.signExtend 32)) ∧
    GivesFlags (.icmpi o) (fun w l => ccSub (w.vl o.a.toNat l) (o.imm.signExtend 32) 0)

/-- R90-R93: the lane instructions of 16 and 32 bits. -/
def Obligations.ShortInstructionsGiveTheirResults : Prop :=
  ShortFormsGiveTheirResults ∧ ThreeRegisterFormsGiveTheirResults ∧ ImmediateFormsGiveTheirResults

/-- R129-R132, R137: the integer instructions of A and B with a 32-bit result; B is a register or the immediate (R126). -/
def IntegerInstructionsGiveTheirResults : Prop :=
  ∀ o : Xr,
    GivesWord (.iadd o) o.d.toNat (fun w l => arithT o.ty o.sat (· + ·) (fun a b => ccAdd a b 0) (w.vl o.a.toNat l) (xrB o w l)) ∧
    GivesWord (.isub o) o.d.toNat (fun w l => arithT o.ty o.sat (· - ·) (fun a b => ccSub a b 0) (w.vl o.a.toNat l) (xrB o w l)) ∧
    GivesWord (.ineg o) o.d.toNat (fun w l => arithT o.ty o.sat (fun _ x => -x) (fun _ x => ccSub 0 x 0) (w.vl o.a.toNat l) (w.vl o.a.toNat l)) ∧
    GivesWord (.iabs o) o.d.toNat (fun w l => arithT o.ty o.sat (fun _ x => x.natAbs)
      (fun _ x => { ccInt (absW x) with v := x == 0x8000_0000 }) (w.vl o.a.toNat l) (w.vl o.a.toNat l)) ∧
    GivesWord (.imul o) o.d.toNat (fun w l => arithT o.ty o.sat (· * ·) (fun a b => ccInt (a * b)) (w.vl o.a.toNat l) (xrB o w l)) ∧
    GivesWord (.iaddc o) o.d.toNat (fun w l =>
      let cin := if (w.cc o.h.gset l).c then 1 else 0
      (w.vl o.a.toNat l + xrB o w l + BitVec.ofNat 32 cin, ccAdd (w.vl o.a.toNat l) (xrB o w l) cin)) ∧
    GivesWord (.isubb o) o.d.toNat (fun w l =>
      let bin := if (w.cc o.h.gset l).c then 0 else 1
      (w.vl o.a.toNat l - xrB o w l - BitVec.ofNat 32 bin, ccSub (w.vl o.a.toNat l) (xrB o w l) bin)) ∧
    GivesWord (.imulh o) o.d.toNat (fun w l => resW (mulHi o.ty (w.vl o.a.toNat l) (xrB o w l))) ∧
    GivesWord (.imad o) o.d.toNat (fun w l => resW (w.vl o.a.toNat l * xrB o w l + w.vl (xrC o) l)) ∧
    GivesWord (.imin o) o.d.toNat (fun w l => minmaxT o.ty true (w.vl o.a.toNat l) (xrB o w l)) ∧
    GivesWord (.imax o) o.d.toNat (fun w l => minmaxT o.ty false (w.vl o.a.toNat l) (xrB o w l))

/-- R129, R130, R135, R136: the logic, rotate, funnel-shift, count and field instructions. -/
def LogicInstructionsGiveTheirResults : Prop :=
  (∀ o : Xr,
    GivesWord (.rol o) o.d.toNat (fun w l => resW ((w.vl o.a.toNat l).rotateLeft ((xrB o w l).toNat % 32))) ∧
    GivesWord (.ror o) o.d.toNat (fun w l => resW ((w.vl o.a.toNat l).rotateRight ((xrB o w l).toNat % 32))) ∧
    GivesWord (.fshl o) o.d.toNat (fun w l =>
      resW (hiOf ((w.vl o.a.toNat l ++ xrB o w l : DWord) <<< ((w.vl (xrC o) l).toNat % 32)))) ∧
    GivesWord (.fshr o) o.d.toNat (fun w l =>
      resW (loOf ((w.vl o.a.toNat l ++ xrB o w l : DWord) >>> ((w.vl (xrC o) l).toNat % 32)))) ∧
    GivesWord (.and o) o.d.toNat (fun w l => resW (w.vl o.a.toNat l &&& xrB o w l)) ∧
    GivesWord (.or o) o.d.toNat (fun w l => resW (w.vl o.a.toNat l ||| xrB o w l)) ∧
    GivesWord (.xor o) o.d.toNat (fun w l => resW (w.vl o.a.toNat l ^^^ xrB o w l)) ∧
    GivesWord (.andn o) o.d.toNat (fun w l => resW (w.vl o.a.toNat l &&& ~~~xrB o w l)) ∧
    GivesWord (.not o) o.d.toNat (fun w l => resW (~~~w.vl o.a.toNat l)) ∧
    GivesWord (.popc o) o.d.toNat (fun w l => resW (BitVec.ofNat 32 (popcount (w.vl o.a.toNat l)))) ∧
    GivesWord (.clz o) o.d.toNat (fun w l => resW (BitVec.ofNat 32 (clzW (w.vl o.a.toNat l)))) ∧
    GivesWord (.ctz o) o.d.toNat (fun w l => resW (BitVec.ofNat 32 (ctzW (w.vl o.a.toNat l)))) ∧
    GivesWord (.brev o) o.d.toNat (fun w l => resW (w.vl o.a.toNat l).reverse) ∧
    GivesWord (.bfe o) o.d.toNat (fun w l => resW (bfeW o.ty (w.vl o.a.toNat l) (xrB o w l))) ∧
    GivesWord (.bfi o) o.d.toNat (fun w l => resW (bfiW (w.vl o.a.toNat l) (xrB o w l) (w.vl (xrC o) l))) ∧
    GivesWord (.bysel o) o.d.toNat (fun w l => resW (byselW (w.vl o.a.toNat l) (xrB o w l) (w.vl (xrC o) l)))) ∧
  (∀ o : Lut3, GivesWord (.lut3 o) o.d.toNat (fun w l =>
    resW (lut3W o.table (w.vl o.a.toNat l) (w.vl o.b.toNat l) (w.vl o.c.toNat l))))

/-- R129-R132, R135-R137: the integer and logic instructions of 64 bits with a 32-bit result. -/
def Obligations.IntegerAndLogicInstructionsGiveTheirResults : Prop :=
  IntegerInstructionsGiveTheirResults ∧ LogicInstructionsGiveTheirResults

/-- R129, R130, R134, R146: the instructions of 64-bit pairs, the shifts and moves of both widths, the compare and the select. -/
def Obligations.PairInstructionsGiveTheirResults : Prop :=
  (∀ o : Xr,
    GivesPair (.imadw o) o.d.toNat (fun w l =>
      let r : DWord := BitVec.ofInt 64 (extInt o.ty (w.vl o.a.toNat l) * extInt o.ty (xrB o w l)) + w.vp (xrC o) l
      (r, ccInt r)) ∧
    GivesPair (.iadd64 o) o.d.toNat (fun w l => (w.vp o.a.toNat l + xrB64 o w l, ccAdd (w.vp o.a.toNat l) (xrB64 o w l) 0)) ∧
    GivesPair (.isub64 o) o.d.toNat (fun w l => (w.vp o.a.toNat l - xrB64 o w l, ccSub (w.vp o.a.toNat l) (xrB64 o w l) 0)) ∧
    GivesFlags (.icmp o) (fun w l => if o.ty.is64 then ccSub (w.vp o.a.toNat l) (xrB64 o w l) 0
      else ccSub (w.vl o.a.toNat l) (xrB o w l) 0)) ∧
  (∀ o : Xr, o.ty.is64 = true →
    GivesPair (.lea o) o.d.toNat (fun w l =>
      let t : DWord := (if o.ty == .i64 then (xrB o w l).signExtend 64 else (xrB o w l).zeroExtend 64) <<< xrC o
      (w.vp o.a.toNat l + t, ccAdd (w.vp o.a.toNat l) t 0)) ∧
    GivesPair (.shl o) o.d.toNat (fun w l =>
      let r := w.vp o.a.toNat l <<< ((xrB o w l).toNat % 64)
      (r, ccInt r)) ∧
    GivesPair (.shr o) o.d.toNat (fun w l =>
      let r := w.vp o.a.toNat l >>> ((xrB o w l).toNat % 64)
      (r, ccInt r)) ∧
    GivesPair (.sar o) o.d.toNat (fun w l =>
      let r := (w.vp o.a.toNat l).sshiftRight ((xrB o w l).toNat % 64)
      (r, ccInt r)) ∧
    GivesPair (.mov o) o.d.toNat (fun w l => (w.vp o.a.toNat l, ccInt (w.vp o.a.toNat l)))) ∧
  (∀ o : Xr, o.ty.is64 = false →
    GivesWord (.lea o) o.d.toNat (fun w l =>
      let t := xrB o w l <<< xrC o
      (w.vl o.a.toNat l + t, ccAdd (w.vl o.a.toNat l) t 0)) ∧
    GivesWord (.shl o) o.d.toNat (fun w l => resW (w.vl o.a.toNat l <<< ((xrB o w l).toNat % 32))) ∧
    GivesWord (.shr o) o.d.toNat (fun w l => resW (w.vl o.a.toNat l >>> ((xrB o w l).toNat % 32))) ∧
    GivesWord (.sar o) o.d.toNat (fun w l => resW ((w.vl o.a.toNat l).sshiftRight ((xrB o w l).toNat % 32))) ∧
    GivesWord (.mov o) o.d.toNat (fun w l => resW (w.vl o.a.toNat l))) ∧
  (∀ o : Sel, GivesWord (.isel o) o.d.toNat (fun w l =>
    resW (if holds o.cond (w.cc o.set l) then w.vl o.a.toNat l else w.vl o.b.toNat l)))

/-- R71-R73, R126, R138-R142: the floating-point instructions on their modified operands, saturated where the form says so. -/
def FloatInstructionsGiveTheirResults : Prop :=
  (∀ o : Xr,
    GivesWord (.fadd o) o.d.toNat (fun w l => satF o (faddW o.rnd (xfA o w l) (xfB o w l))) ∧
    GivesWord (.fsub o) o.d.toNat (fun w l => satF o (fsubW o.rnd (xfA o w l) (xfB o w l))) ∧
    GivesWord (.fmul o) o.d.toNat (fun w l => satF o (fmulW o.rnd (xfA o w l) (xfB o w l))) ∧
    GivesWord (.ffma o) o.d.toNat (fun w l => satF o (resF (f3 (fp32.fma o.rnd) (xfA o w l) (xfB o w l) (w.vl (xrC o) l)))) ∧
    GivesWord (.fmin o) o.d.toNat (fun w l => fminmaxW fp32.minNum (xfA o w l) (xfB o w l)) ∧
    GivesWord (.fmax o) o.d.toNat (fun w l => fminmaxW fp32.maxNum (xfA o w l) (xfB o w l)) ∧
    GivesWord (.fminm o) o.d.toNat (fun w l => fminmaxW fp32.minimum (xfA o w l) (xfB o w l)) ∧
    GivesWord (.fmaxm o) o.d.toNat (fun w l => fminmaxW fp32.maximum (xfA o w l) (xfB o w l)) ∧
    GivesFlags (.fcmp o) (fun w l => ccFcmp fp32 (xfA o w l).toNat (xfB o w l).toNat) ∧
    GivesWord (.frnd o) o.d.toNat (fun w l => resF (f1 (fp32.rnd o.rnd) (xfA o w l))) ∧
    GivesWord (.fclass o) o.d.toNat (fun w l => resW (BitVec.ofNat 32 (2 ^ fp32.classBit (xfA o w l).toNat)))) ∧
  (∀ o : Sel, GivesWord (.fsel o) o.d.toNat (fun w l => resF (if holds o.cond (w.cc o.set l)
    then signMods o.absA o.negA (w.vl o.a.toNat l) else signMods o.absB o.negB (w.vl o.b.toNat l)))) ∧
  (∀ o : Fscale, GivesWord (.fscale o) o.d.toNat (fun w l => resF (f1 (fscale · o.n.toInt) (w.vl o.a.toNat l))))

/-- R70, R139: the packed 16-bit floating-point instructions, element by element. -/
def PackedFloatInstructionsGiveTheirResults : Prop :=
  ∀ o : Xr,
    GivesWord (.hadd2 o) o.d.toNat (fun w l => packF2 fp16 o.sat (fp16.add o.rnd) (signMods2 o.absA o.negA (w.vl o.a.toNat l)) (xpB fp16 o w l)) ∧
    GivesWord (.hmul2 o) o.d.toNat (fun w l => packF2 fp16 o.sat (fp16.mul o.rnd) (signMods2 o.absA o.negA (w.vl o.a.toNat l)) (xpB fp16 o w l)) ∧
    GivesWord (.hfma2 o) o.d.toNat (fun w l =>
      packF3 fp16 o.sat (fp16.fma o.rnd) (signMods2 o.absA o.negA (w.vl o.a.toNat l)) (xpB fp16 o w l) (w.vl (xrC o) l)) ∧
    GivesWord (.badd2 o) o.d.toNat (fun w l => packF2 bf16 o.sat (bf16.add o.rnd) (signMods2 o.absA o.negA (w.vl o.a.toNat l)) (xpB bf16 o w l)) ∧
    GivesWord (.bmul2 o) o.d.toNat (fun w l => packF2 bf16 o.sat (bf16.mul o.rnd) (signMods2 o.absA o.negA (w.vl o.a.toNat l)) (xpB bf16 o w l)) ∧
    GivesWord (.bfma2 o) o.d.toNat (fun w l =>
      packF3 bf16 o.sat (bf16.fma o.rnd) (signMods2 o.absA o.negA (w.vl o.a.toNat l)) (xpB bf16 o w l) (w.vl (xrC o) l))

/-- R70-R73, R126, R138-R142: the floating-point instructions of 64 bits. -/
def Obligations.FloatingPointInstructionsGiveTheirResults : Prop :=
  FloatInstructionsGiveTheirResults ∧ PackedFloatInstructionsGiveTheirResults

/-- The upper 16-bit element of a word. -/
def hiOf16 (x : Word) : Nat := x.toNat / 2 ^ 16

/-- The AMAX update of R67 over some inputs: the largest magnitude of those that are no NaN, and whether one was. -/
def AmaxTakes (xs : List Nat) (w w' : Warp) : Prop :=
  w'.nanSeen = (w.nanSeen || xs.any fun x => (fp32.decode x).isNan) ∧
  w'.amax = BitVec.ofNat 32 (fp32.maxNum w.amax.toNat
    ((xs.filter fun x => !(fp32.decode x).isNan).foldl (fun m x => fp32.maxNum m (fp32.abs x)) 0))

/-- The inputs of a group of `g` v registers in the executing lanes. -/
def groupInputs (w : Warp) (m : LaneMask) (a g : Nat) : List Nat :=
  (lanesOf m).flatMap fun l => (List.range g).map fun e => (w.vl (a + e) l).toNat

/-- The least and the greatest value of an integer type (R75, R144). -/
def intRange (t : Ty) : Int × Int :=
  match t with
  | .i32 => (-2 ^ 31, 2 ^ 31 - 1)
  | .n64 => (0, 2 ^ 64 - 1)
  | .i64 => (-2 ^ 63, 2 ^ 63 - 1)
  | _ => (0, 2 ^ 32 - 1)

/-- R74-R78, R143-R146: the special functions, the conversions and the moves, a clause for each row of CVT's table. CVT8 and CVT4
narrow groups of 4 and 8 registers, WID8 and WID4 write them. That V of a conversion to a packed type says that sat has changed an
element is notes/assumptions/81.md's. -/
def Obligations.ConversionsGiveTheirResults : Prop :=
  (∀ o : Xr,
    GivesWord (.frcp o) o.d.toNat (fun w l => resF (f1 frcp (xfA o w l))) ∧
    GivesWord (.frsq o) o.d.toNat (fun w l => resF (f1 frsq (xfA o w l))) ∧
    GivesWord (.fsqrt o) o.d.toNat (fun w l => resF (f1 fsqrt (xfA o w l))) ∧
    GivesWord (.fexp2 o) o.d.toNat (fun w l => resF (f1 fexp2 (xfA o w l))) ∧
    GivesWord (.flog2 o) o.d.toNat (fun w l => resF (f1 flog2 (xfA o w l))) ∧
    GivesWord (.fdiv o) o.d.toNat (fun w l => resF (f2 fdiv (xfA o w l) (xfB o w l)))) ∧
  (∀ o : Cvt, Completes (.cvt o) fun s c t w => LaneFrame (.cvt o) s c t w) ∧
  (∀ o : Cvt, o.src = .f32 → o.dst = .f16x2 ∨ o.dst = .bf16x2 → GivesWord (.cvt o) o.d.toNat (fun w l =>
    let xs := [(w.vl o.a.toNat l).toNat, (w.vl o.b.toNat l).toNat]
    let r := packElems 16 (xs.map (convert fp32 (fmtOf o.dst) o.rnd o.sat))
    (r, { ccPacked 16 true r with
          v := xs.any fun x => convert fp32 (fmtOf o.dst) o.rnd o.sat x != convert fp32 (fmtOf o.dst) o.rnd false x }))) ∧
  (∀ o : Cvt, o.src = .f16x2 ∨ o.src = .bf16x2 → o.dst = .f32 → GivesWord (.cvt o) o.d.toNat (fun w l =>
    resF (BitVec.ofNat 32 (convert (fmtOf o.src) fp32 .rne false
      (if o.half then hiOf16 (w.vl o.a.toNat l) else (w.vl o.a.toNat l).toNat % 2 ^ 16))))) ∧
  (∀ o : Cvt, (o.src = .f16x2 ∧ o.dst = .bf16x2) ∨ (o.src = .bf16x2 ∧ o.dst = .f16x2) → GivesWord (.cvt o) o.d.toNat (fun w l =>
    let xs := [(w.vl o.a.toNat l).toNat % 2 ^ 16, hiOf16 (w.vl o.a.toNat l)]
    let conv (sat : Bool) := convert (fmtOf o.src) (fmtOf o.dst) o.rnd sat
    let r := packElems 16 (xs.map (conv o.sat))
    (r, { ccPacked 16 true r with v := xs.any fun x => conv o.sat x != conv false x }))) ∧
  (∀ o : Cvt, o.src = .f32 → o.dst = .n32 ∨ o.dst = .i32 → GivesWord (.cvt o) o.d.toNat (fun w l =>
    let x := fp32.toInt o.rnd (intRange o.dst).1 (intRange o.dst).2 (w.vl o.a.toNat l).toNat
    (BitVec.ofInt 32 x.1, { ccInt (BitVec.ofInt 32 x.1 : Word) with v := x.2 }))) ∧
  (∀ o : Cvt, o.src = .f32 → o.dst = .n64 ∨ o.dst = .i64 → GivesPair (.cvt o) o.d.toNat (fun w l =>
    let x := fp32.toInt o.rnd (intRange o.dst).1 (intRange o.dst).2 (w.vl o.a.toNat l).toNat
    (BitVec.ofInt 64 x.1, { ccInt (BitVec.ofInt 64 x.1 : DWord) with v := x.2 }))) ∧
  (∀ o : Cvt, o.src = .n32 ∨ o.src = .i32 → o.dst = .f32 → GivesWord (.cvt o) o.d.toNat (fun w l =>
    resF (BitVec.ofNat 32 (fp32.ofInt o.rnd (if o.src = .i32 then (w.vl o.a.toNat l).toInt else (w.vl o.a.toNat l).toNat))))) ∧
  (∀ o : Cvt, o.src = .n64 ∨ o.src = .i64 → o.dst = .f32 → GivesWord (.cvt o) o.d.toNat (fun w l =>
    resF (BitVec.ofNat 32 (fp32.ofInt o.rnd (if o.src = .i64 then (w.vp o.a.toNat l).toInt else (w.vp o.a.toNat l).toNat))))) ∧
  (∀ o : Cvt, o.src = .n32 ∨ o.src = .i32 → o.dst = .n64 ∨ o.dst = .i64 → GivesPair (.cvt o) o.d.toNat (fun w l =>
    let r : DWord := if o.src = .i32 then (w.vl o.a.toNat l).signExtend 64 else (w.vl o.a.toNat l).zeroExtend 64
    (r, ccInt r))) ∧
  (∀ o : Cvt, (o.src = .n64 ∨ o.src = .i64) ∨ (o.src = .n32 ∧ o.dst = .i32) ∨ (o.src = .i32 ∧ o.dst = .n32) →
    o.dst = .n32 ∨ o.dst = .i32 → GivesWord (.cvt o) o.d.toNat (fun w l =>
    let x : Int := match o.src with
      | .n64 => (w.vp o.a.toNat l).toNat
      | .i64 => (w.vp o.a.toNat l).toInt
      | .i32 => (w.vl o.a.toNat l).toInt
      | _ => (w.vl o.a.toNat l).toNat
    let lo := (intRange o.dst).1
    let hi := (intRange o.dst).2
    let r : Word := BitVec.ofInt 32 (if o.sat then max lo (min hi x) else x)
    (r, { ccInt r with v := o.sat && (decide (x < lo) || decide (hi < x)) }))) ∧
  (∀ o : Pack, GivesWord (.cvt8 o) o.d.toNat (fun w l =>
    let r := packElems 8 ((List.range 4).map fun e => narrow (fmtOf o.ty) o.sat (w.vl (o.a.toNat + e) l).toNat (w.sr o.b.toNat).toNat)
    (r, ccPacked 8 true r))) ∧
  (∀ o : Pack, GivesWord (.cvt4 o) o.d.toNat (fun w l =>
    let r := packElems 4 ((List.range 8).map fun e => narrow (fmtOf o.ty) o.sat (w.vl (o.a.toNat + e) l).toNat (w.sr o.b.toNat).toNat)
    (r, ccPacked 4 true r))) ∧
  (∀ o : Pack, o.amax = true →
    (Completes (.cvt8 o) fun _ c _ w => AmaxTakes (groupInputs c.w (c.lanes (.cvt8 o)) o.a.toNat 4) c.w w) ∧
    Completes (.cvt4 o) fun _ c _ w => AmaxTakes (groupInputs c.w (c.lanes (.cvt4 o)) o.a.toNat 8) c.w w) ∧
  (∀ o : Pack, GivesGroup (.wid8 o) o.d.toNat 4 (fun w l => widenAll o.ty (w.vl o.a.toNat l) (w.sr o.b.toNat).toNat) ∧
    GivesGroup (.wid4 o) o.d.toNat 8 (fun w l => widenAll o.ty (w.vl o.a.toNat l) (w.sr o.b.toNat).toNat)) ∧
  (∀ o : Movi, GivesWord (.movi o) o.d.toNat (fun _ _ => resW o.imm)) ∧
  (∀ o : Movs, Completes (.movs o) fun s c t w => LaneFrame (.movs o) s c t w ∧
    match o.op with
    | .vFromS a => ∀ l, (c.lanes (.movs o)).getLsbD l.val = true → w.vl o.d.toNat l = c.w.sr a.toNat
    | .sImm i => w.sr o.d.toNat = if o.d.toNat = 0 then 0 else i.signExtend 32
    | .sFromS a => w.sr o.d.toNat = if o.d.toNat = 0 then 0 else c.w.sr a.toNat)

/-! ### Special registers, warp cooperation and the transform pipe -/

/-- R50: s0 reads as zero whatever the register file holds, a write to it changes nothing, the pair s0:s1 reads as cat(s1, 0),
and a write to that pair changes only s1. -/
def Obligations.TheFirstScalarRegisterIsZero : Prop :=
  ∀ (b : Block) (w : Warp) (x : Word) (y : DWord),
    w.sr 0 = 0 ∧ w.setS 0 x = w ∧ w.sp 0 = w.sr 1 ++ (0 : Word) ∧
      (w.setSP 0 y).sr 1 = y.extractLsb' 32 32 ∧ (∀ n, n ≠ 1 → (w.setSP 0 y).sr n = w.sr n) ∧ regFull b w (.s, 0) = true

/-- R60 after a compare (R134): the unsigned and signed orders and equality of the compared words. -/
def Obligations.GuardsAfterACompareReadTheOrder : Prop :=
  ∀ a b : Word,
    holds .eq (ccSub a b 0) = decide (a = b) ∧ holds .ne (ccSub a b 0) = decide (a ≠ b) ∧
    holds .cs (ccSub a b 0) = decide (b.toNat ≤ a.toNat) ∧ holds .cc (ccSub a b 0) = decide (a.toNat < b.toNat) ∧
    holds .hi (ccSub a b 0) = decide (b.toNat < a.toNat) ∧ holds .ls (ccSub a b 0) = decide (a.toNat ≤ b.toNat) ∧
    holds .ge (ccSub a b 0) = decide (b.toInt ≤ a.toInt) ∧ holds .lt (ccSub a b 0) = decide (a.toInt < b.toInt) ∧
    holds .gt (ccSub a b 0) = decide (b.toInt < a.toInt) ∧ holds .le (ccSub a b 0) = decide (a.toInt ≤ b.toInt)

/-- R133: IDIV and IREM complete on every operand; the cases of the table, and otherwise the truncated quotient and the remainder,
a = q × b + r. V is set exactly in the cases of the table, N and Z follow the result, and C is 0. -/
def Obligations.DivisionFollowsItsTable : Prop :=
  (∀ o : Xr, GivesWord (.idiv o) o.d.toNat (fun w l => divT o.ty (w.vl o.a.toNat l) (xrB o w l)) ∧
    GivesWord (.irem o) o.d.toNat (fun w l => remT o.ty (w.vl o.a.toNat l) (xrB o w l))) ∧
  (∀ x : Word, divT .n32 x 0 = (0xFFFF_FFFF, { ccInt (0xFFFF_FFFF : Word) with v := true }) ∧
    remT .n32 x 0 = (x, { ccInt x with v := true }) ∧
    (0 ≤ x.toInt → divT .i32 x 0 = (0x7FFF_FFFF, { ccInt (0x7FFF_FFFF : Word) with v := true })) ∧
    (x.toInt < 0 → divT .i32 x 0 = (0x8000_0000, { ccInt (0x8000_0000 : Word) with v := true })) ∧
    remT .i32 x 0 = (x, { ccInt x with v := true })) ∧
  divT .i32 0x8000_0000 0xFFFF_FFFF = (0x8000_0000, { ccInt (0x8000_0000 : Word) with v := true }) ∧
  remT .i32 0x8000_0000 0xFFFF_FFFF = (0, { ccInt (0 : Word) with v := true }) ∧
  (∀ x y : Word, y ≠ 0 →
    (divT .n32 x y).1.toNat = x.toNat / y.toNat ∧ (remT .n32 x y).1.toNat = x.toNat % y.toNat ∧
    (divT .n32 x y).2 = ccInt (divT .n32 x y).1 ∧ (remT .n32 x y).2 = ccInt (remT .n32 x y).1) ∧
  (∀ x y : Word, y ≠ 0 → ¬(x = 0x8000_0000 ∧ y = 0xFFFF_FFFF) →
    (divT .i32 x y).1.toInt = x.toInt.tdiv y.toInt ∧ (remT .i32 x y).1.toInt = x.toInt.tmod y.toInt ∧
    (divT .i32 x y).2 = ccInt (divT .i32 x y).1 ∧ (remT .i32 x y).2 = ccInt (remT .i32 x y).1)

/-- R54-R57, R148: RDSR reads a special register into an s register, or into a v register in the lanes that execute; a read of
TICKLO latches the upper half, in the repair of a prediction for the repair alone (R171); one of AMAX or AMAXF waits for the updates
that are pending. -/
def RdsrReadsTheSpecialRegister : Prop :=
  (∀ o : Sr, CompletesIf (.rdsr o) (fun _ c => o.a.toNat = 16 ∨ o.a.toNat = 17 → amaxPending c.b c.ref.warp c.w = false)
    fun s c t w => Retired (.rdsr o) s c t w ∧ SameRegs (.rdsr o) c w ∧ SameFull c.w w ∧
      SameSpecials { c.w with tick := w.tick } w ∧ w.amax = c.w.amax ∧ w.nanSeen = c.w.nanSeen ∧
      w.tick = (if o.a.toNat = 13 ∧ c.f.undo = none then some (BitVec.ofNat 32 (s.time / 2 ^ 32)) else c.w.tick) ∧
      (o.sreg = true → w.sr o.d.toNat = if o.d.toNat = 0 then 0 else specialVal s c o.a.toNat 0) ∧
      (o.sreg = false → ∀ l, (c.lanes (.rdsr o)).getLsbD l.val = true → w.vl o.d.toNat l = specialVal s c o.a.toNat l)) ∧
  (∀ (o : Sr) s c, Issues (.rdsr o) s c → (o.a.toNat = 16 ∨ o.a.toNat = 17) → amaxPending c.b c.ref.warp c.w = true →
    exec (.rdsr o) s = .next (s.modFrag c.ref fun f => { f with st := .waitReg, cond := .amaxDone })) ∧
  (∀ s c l,
    let n (x : Nat) : Word := BitVec.ofNat 32 x
    let k := c.l.desc
    specialVal s c 0 l = n l.val ∧ specialVal s c 1 l = n (16 * c.w.sched + c.w.slot) ∧ specialVal s c 2 l = n c.ref.warp ∧
    specialVal s c 3 l = n (c.b.index % k.gx) ∧ specialVal s c 4 l = n (c.b.index / k.gx % k.gy) ∧
    specialVal s c 5 l = n (c.b.index / k.gx / k.gy) ∧ specialVal s c 6 l = n k.gx ∧ specialVal s c 7 l = n k.gy ∧
    specialVal s c 8 l = n k.gz ∧ specialVal s c 9 l = n c.b.core ∧ specialVal s c 10 l = n (c.b.core / 4) ∧
    specialVal s c 11 l = n (s.dieOf c.b.core) ∧ specialVal s c 12 l = n s.env.config.devid ∧ specialVal s c 13 l = n s.time ∧
    (isPath c.ref.sel = false → c.w.frag? c.ref.sel = some c.f → c.f.undo = none →
      specialVal s c 14 l = (match c.w.tick with | some h => h | none => n (s.time / 2 ^ 32))) ∧
    specialVal s c 15 l = n c.w.part ∧ specialVal s c 16 l = c.w.amax ∧ specialVal s c 17 l = (if c.w.nanSeen then 1 else 0) ∧
    specialVal s c 18 l = c.w.lfsr ∧ specialVal s c 19 l = c.w.repc.zeroExtend 32 ∧
    specialVal s c 20 l = n (c.b.lockQuota * 2 ^ 16 + (c.b.lockQuota - c.b.locked.length)) ∧
    specialVal s c 21 l = k.cbank.extractLsb' 0 32 ∧ specialVal s c 22 l = k.cbank.extractLsb' 32 32 &&& 0x00FF_FFFF ∧
    specialVal s c 23 l = n (Config.bankBytes * c.b.banks.length) ∧ specialVal s c 24 l = c.w.x.cause ∧
    specialVal s c 25 l = c.w.x.pc.extractLsb' 0 32 ∧ specialVal s c 26 l = c.w.x.pc.extractLsb' 32 32 ∧
    specialVal s c 27 l = c.w.x.addr.extractLsb' 0 32 ∧ specialVal s c 28 l = c.w.x.addr.extractLsb' 32 32 ∧
    specialVal s c 29 l = c.w.x.mask ∧ specialVal s c 30 l = c.w.x.info ∧
    specialVal s c 31 l = (if k.chain then n c.b.index else 0xFFFF_FFFF) ∧
    specialVal s c 32 l = (if k.chain then n (k.gx * k.gy * k.gz) else 0) ∧ specialVal s c 33 l = n (launchIdent c.l.id))

/-- The s value, or the value in the lowest executing lane, that a WRSR writes; none where no lane executes. -/
def wrsrValue (o : Sr) (c : Ctx) : Option Word :=
  if o.sreg then some (c.w.sr o.a.toNat)
  else ((lanesOf (c.lanes (.wrsr o))).head?).map fun l => c.w.vl o.a.toNat l

/-- R54, R57, R148: WRSR writes AMAX, AMAXF, LFSR and, in the handler, the trap registers; outside the handler those trap as
privileged and nothing is written. -/
def WrsrWritesTheSpecialRegister : Prop :=
  (∀ o : Sr, CompletesIf (.wrsr o) (fun _ c => (24 ≤ o.d.toNat → c.f.handler = true) ∧
      (o.d.toNat = 16 ∨ o.d.toNat = 17 → amaxPending c.b c.ref.warp c.w = false))
    fun s c t w => Retired (.wrsr o) s c t w ∧ SameRegs (.wrsr o) c w ∧ SameFull c.w w ∧
      w.part = c.w.part ∧ w.repc = c.w.repc ∧ w.tick = c.w.tick ∧ w.join = c.w.join ∧ w.exited = c.w.exited ∧
      w.handler = c.w.handler ∧ w.nopre = c.w.nopre ∧
      (∀ v, wrsrValue o c = some v →
        w.lfsr = (if o.d.toNat = 18 then (if v = 0 then 1 else v) else c.w.lfsr) ∧
        w.amax = (if o.d.toNat = 16 then (if (fp32.decode (v &&& 0x7FFF_FFFF).toNat).isNan then 0 else v &&& 0x7FFF_FFFF)
          else c.w.amax) ∧
        w.nanSeen = (if o.d.toNat = 16 then (c.w.nanSeen || (fp32.decode (v &&& 0x7FFF_FFFF).toNat).isNan)
          else if o.d.toNat = 17 then v.getLsbD 0 else c.w.nanSeen) ∧
        w.x = { cause := if o.d.toNat = 24 then v else c.w.x.cause
                pc := if o.d.toNat = 25 then hiOf c.w.x.pc ++ v else if o.d.toNat = 26 then v ++ loOf c.w.x.pc else c.w.x.pc
                addr := if o.d.toNat = 27 then hiOf c.w.x.addr ++ v
                  else if o.d.toNat = 28 then v ++ loOf c.w.x.addr else c.w.x.addr
                mask := if o.d.toNat = 29 then v else c.w.x.mask
                info := if o.d.toNat = 30 then v else c.w.x.info }) ∧
      (wrsrValue o c = none → w.lfsr = c.w.lfsr ∧ w.amax = c.w.amax ∧ w.nanSeen = c.w.nanSeen ∧ w.x = c.w.x)) ∧
  (∀ o : Sr, TrapsWhere (.wrsr o) (fun _ c => 24 ≤ o.d.toNat ∧ c.f.handler = false) 3 0)

/-- R54-R57, R148: RDSR and WRSR. -/
def Obligations.SpecialRegistersAreReadAndWritten : Prop :=
  RdsrReadsTheSpecialRegister ∧ WrsrWritesTheSpecialRegister

/-- R41, R147, R149-R152: RDL reads a lane of the fragment; SHFL moves values within a tile; VOTE and TRED combine those of a
tile's contributing lanes, TRED in the Kogge-Stone order. -/
def CooperationGivesItsResults : Prop :=
  (∀ o : Xr, Completes (.rdl o) fun s c t w => LaneFrame (.rdl o) s c t w ∧
    let l : Lane := match o.src with
      | .imm i => Fin.ofNat 32 i.toNat
      | .regs b _ => Fin.ofNat 32 ((c.w.sr b.toNat).toNat % 32)
    (o.ty.is64 = false → w.sr o.d.toNat =
      if o.d.toNat = 0 then 0 else if c.f.mask.getLsbD l.val then c.w.vl o.a.toNat l else 0) ∧
    (o.ty.is64 = true → w.sp o.d.toNat =
      (if c.f.mask.getLsbD l.val then hiOf (c.w.vp o.a.toNat l) else 0) ++
      (if o.d.toNat = 0 then (0 : Word) else if c.f.mask.getLsbD l.val then loOf (c.w.vp o.a.toNat l) else 0))) ∧
  (∀ o : Shfl, GivesCoop (.shfl o) o.d.toNat fun m w l =>
    let b := if o.ib then o.b.toNat % 32 else (w.vl o.b.toNat l).toNat % 32
    let mem : LaneMask := if o.ms then w.sr o.c.toNat else 0xFFFF_FFFF
    let r : Word × Bool := match shflSource o.mode (2 ^ w.part) l b with
      | none => (w.vl o.a.toNat l, false)
      | some k => if mem.getLsbD l.val = false then (w.vl o.a.toNat l, false)
        else if m.getLsbD k.val && mem.getLsbD k.val then (w.vl o.a.toNat k, true) else (0, false)
    (r.1, { ccInt r.1 with c := r.2 })) ∧
  (∀ o : Vote, GivesCoop (.vote o) o.d.toNat fun m w l =>
    let mem : LaneMask := if o.ms then w.sr o.c.toNat else 0xFFFF_FFFF
    resW (voteVal o.mode (((tileLanes w l).filter fun k => m.getLsbD k.val && mem.getLsbD k.val).map fun k => (k, w.vl o.a.toNat k)))) ∧
  (∀ o : Tred, GivesCoop (.tred o) o.d.toNat fun m w l =>
    let mem : LaneMask := if o.ms then w.sr o.c.toNat else 0xFFFF_FFFF
    let xs := (tileLanes w l).map fun k =>
      if m.getLsbD k.val && mem.getLsbD k.val then (w.vl o.a.toNat k).toNat else (tredOp o.op o.ty).2
    let r : Word := BitVec.ofNat 32 ((kogge (tredOp o.op o.ty).1 6 1 xs).getLastD (tredOp o.op o.ty).2)
    (r, if o.ty = .f32 then ccF32 r else ccInt r))

/-- R42, R153: PART sets the tile size in a fragment that holds every lane not exited, and traps in any other. -/
def PartSetsTheTileSize : Prop :=
  (∀ o : PartOp, CompletesIf (.part o) (fun _ c => c.f.mask = ~~~c.w.exited) fun s c t w =>
    Retired (.part o) s c t w ∧ SameRegs (.part o) c w ∧ SameFull c.w w ∧ SameSpecials { c.w with part := w.part } w ∧
      w.part = o.p.toNat) ∧
  (∀ o : PartOp, TrapsWhere (.part o) (fun _ c => c.f.mask ≠ ~~~c.w.exited) 4 0)

/-- R41, R42, R147, R149-R153: the instructions in which the lanes of a warp work together. -/
def Obligations.WarpsCooperate : Prop :=
  CooperationGivesItsResults ∧ PartSetsTheTileSize

/-- R62, R67, R154-R157: the four transform-pipe instructions read their sources at issue and mark their destinations empty; XQNT's
update of AMAX is over its inputs. What XQNT gives for minus infinity is notes/assumptions/80.md's. -/
def PipeInstructionsAreSent : Prop :=
  (∀ o : Xrng, SendsToPipe (.xrng o) ((List.range 4).map (o.d.toNat + ·)) none fun _ w l => xrngLane o w l) ∧
  (∀ o : Xsort, SendsToPipe (.xsort o) [o.d.toNat, o.c.toNat] none fun m w l =>
    [(xsortLane o m w l).1, (xsortLane o m w l).2]) ∧
  (∀ o : Xqnt, SendsToPipe (.xqnt o) [o.d.toNat]
    (some (o.b.toNat, fun m w => BitVec.ofNat 32 (quantScale e4m3
      (maxMag ((lanesOf m).flatMap fun l => (List.range 4).map fun e => (w.vl (o.a.toNat + e) l).toNat)))))
    fun m w l =>
      let k := quantScale e4m3 (maxMag ((lanesOf m).flatMap fun l => (List.range 4).map fun e => (w.vl (o.a.toNat + e) l).toNat))
      [packElems 8 ((List.range 4).map fun e => narrow e4m3 true (fdiv (w.vl (o.a.toNat + e) l).toNat k) 0x3F800000)]) ∧
  (∀ o : Xdqnt, SendsToPipe (.xdqnt o) ((List.range 4).map (o.d.toNat + ·)) none fun _ w l =>
    (widenAll o.ty (w.vl o.a.toNat l) (w.sr o.b.toNat).toNat).map (BitVec.ofNat 32)) ∧
  (∀ o : Xqnt, Completes (.xqnt o) fun _ c _ w => ∃ p u, w.pipe = c.w.pipe ++ [p] ∧ p.amax = some u ∧
    ∀ x : Warp, AmaxTakes (groupInputs c.w (c.lanes (.xqnt o)) o.a.toNat 4) x (x.amaxUpd u))

/-- R67, R154: the pipe answers a warp's instructions in issue order: the oldest one's values reach their registers in its lanes, those
registers are full, and its update of AMAX is made. -/
def ThePipeRepliesInOrder : Prop :=
  ∀ (r : WarpRef) (s : State) (w : Warp) (p : PipeItem) (rest : List PipeItem),
    s.warp? r.block r.warp = some w → w.pipe = p :: rest → (p.v.map (·.1)).Nodup → (∀ x ∈ p.v, x.1 < 128) →
    ∃ t w', exec (.transformPipeReply r) s = .next t ∧ t.warp? r.block r.warp = some w' ∧ w'.pipe = rest ∧
      (∀ x ∈ p.v, ∀ l : Lane, w'.vl x.1 l = if p.lanes.getLsbD l.val then x.2[l] else w.vl x.1 l) ∧
      (∀ n l, (∀ x ∈ p.v, x.1 ≠ n) → w'.vl n l = w.vl n l) ∧
      (∀ x ∈ p.v, w'.vFull.getLsbD x.1 = true) ∧
      (∀ n y, p.s = some (n, y) → n < 64 → w'.sr n = (if n = 0 then 0 else y) ∧ w'.sFull.getLsbD n = true) ∧
      (∀ n, (∀ y, p.s ≠ some (n, y)) → w'.sr n = w.sr n) ∧ w'.cc0 = w.cc0 ∧ w'.cc1 = w.cc1 ∧ w'.h = w.h ∧
      (∀ x nan, p.amax = some (x, nan) → w'.amax = BitVec.ofNat 32 (fp32.maxNum w.amax.toNat x.toNat) ∧
        w'.nanSeen = (w.nanSeen || nan)) ∧
      (p.amax = none → w'.amax = w.amax ∧ w'.nanSeen = w.nanSeen) ∧ SameOutside s t

/-- R62, R67, R154-R157: the transform pipe (what XQNT gives for minus infinity: assumption 80). -/
def Obligations.TheTransformPipeTakesAndReplies : Prop :=
  PipeInstructionsAreSent ∧ ThePipeRepliesInOrder

/-! ### Control flow -/

/-- R30, R159-R161: BR whose guard holds in every lane and in none, BRU in the same cases, JMP, the 32-bit JMP and JMPR move the
whole fragment; BRU on a mixed condition traps. -/
def Obligations.UniformBranchesMoveTheFragment : Prop :=
  (∀ o : Br, GoesTo (.br o) (fun _ c => c.lanes (.br o) = c.f.mask) (fun c => c.f.pc + BitVec.ofInt 64 (2 * o.target.toInt)) ∧
    GoesTo (.br o) (fun _ c => c.lanes (.br o) = 0 ∧ c.f.mask ≠ 0) (fun c => c.f.pc + 8)) ∧
  (∀ o : Jump,
    GoesTo (.bru o) (fun _ c => c.lanes (.bru o) = c.f.mask) (fun c => c.f.pc + BitVec.ofInt 64 (2 * o.target.toInt)) ∧
    GoesTo (.bru o) (fun _ c => c.lanes (.bru o) = 0 ∧ c.f.mask ≠ 0) (fun c => c.f.pc + 8) ∧
    TrapsWhere (.bru o) (fun _ c => c.lanes (.bru o) ≠ 0 ∧ c.lanes (.bru o) ≠ c.f.mask) 4 1 ∧
    GoesTo (.jmp o) (fun _ _ => True) (fun c => c.f.pc + BitVec.ofInt 64 (2 * o.target.toInt))) ∧
  (∀ o : NJ, GoesTo (.jmpNJ o) (fun _ _ => True) (fun c => c.f.pc + BitVec.ofInt 64 (2 * o.off.toInt))) ∧
  (∀ o : JumpReg, GoesTo (.jmpr o) (fun _ _ => True) (fun c => c.w.sp o.a.toNat &&& ~~~1#64))

/-- R30: the join index `k` of the children of a split with join field `j`: the fragment's own with field 0 or under the loop rule, with
the table as it was; else that of a new entry at the lowest free index. -/
def JoinsAt (c : Ctx) (w : Warp) (j : BitVec 14) (k : BitVec 6) : Prop :=
  let ja : DWord := c.f.pc + BitVec.ofNat 64 (2 * j.toNat)
  (j = 0 → k = c.f.join ∧ w.join = c.w.join) ∧
  (∀ e q, j ≠ 0 → c.w.joinAt c.f.join = some (q, e) → e.addr = ja → e.depth = c.f.depth → k = c.f.join ∧ w.join = c.w.join) ∧
  (∀ q : Fin 32, j ≠ 0 → (∀ p e, c.w.joinAt c.f.join = some (p, e) → ¬(e.addr = ja ∧ e.depth = c.f.depth)) →
    c.w.join[q] = none → (∀ p : Fin 32, p < q → c.w.join[p] ≠ none) →
    k = BitVec.ofNat 6 q.val ∧ w.join[q] = some ⟨ja, c.f.depth, c.f.mask, 0, c.f.join⟩ ∧
    ∀ p : Fin 32, p ≠ q → w.join[p] = c.w.join[p])

/-- R30, R36, R159: a divergent BR splits the fragment: the taken lanes at the target in its own entry, the others at the
fall-through address in the lowest free one; one LFSR step prefers a child; the join is inherited, or a new entry is made. -/
def ADivergentBranchSplits : Prop :=
  ∀ (o : Br) (k : Fin 32), CompletesIf (.br o)
    (fun _ c => c.lanes (.br o) ≠ 0 ∧ c.lanes (.br o) ≠ c.f.mask ∧ c.w.freeSplits.head? = some k)
    fun _ c _ w =>
      let t := c.lanes (.br o)
      SameData c.w w ∧ w.lfsr = (lfsrStep c.w.lfsr).2 ∧ w.exited = c.w.exited ∧
      (∃ f g, w.frag? c.ref.sel = some f ∧ w.frag? (.entry k) = some g ∧
        f.mask = t ∧ f.pc = c.f.pc + BitVec.ofInt 64 (2 * o.target.toInt) ∧ g.mask = c.f.mask &&& ~~~t ∧ g.pc = c.f.pc + 8 ∧
        f.st = .ready ∧ g.st = .ready ∧ f.depth = c.f.depth ∧ g.depth = c.f.depth ∧ g.join = f.join ∧
        (f.rank, g.rank) = (if c.w.lfsr.getLsbD 0 then (c.f.rank, c.f.rank + 1) else (c.f.rank + 1, c.f.rank)) ∧
        JoinsAt c w o.join f.join) ∧
      (∀ (j : Fin 32) h, .entry j ≠ c.ref.sel → c.w.frag? (.entry j) = some h →
        w.frag? (.entry j) = some { h with rank := if h.rank > c.f.rank then h.rank + 1 else h.rank })

/-- R29, R162, R163: CALL, and BRX, CALLR and RET where every lane has one target: the link pair, the depth and the PC. -/
def Obligations.CallsAndReturnsWithOneTarget : Prop :=
  (∀ o : Jump, CompletesIf (.call o) (fun _ _ => True) fun _ c _ w =>
    (∃ f, w.frag? c.ref.sel = some f ∧ f.pc = c.f.pc + BitVec.ofInt 64 (2 * o.target.toInt) ∧ f.depth = c.f.depth + 1 ∧
      f.mask = c.f.mask ∧ f.join = c.f.join ∧ f.st = .ready) ∧
    (∀ l : Lane, c.f.mask.getLsbD l.val = true → w.vp 0 l = c.f.pc + 8) ∧ SameRegs (.call o) c w ∧ SameFull c.w w ∧
    SameSpecials c.w w) ∧
  (∀ (o : JumpReg) (a : DWord), CompletesIf (.callr o)
    (fun _ c => c.f.mask ≠ 0 ∧ ∀ l : Lane, c.f.mask.getLsbD l.val = true → c.w.vp o.a.toNat l &&& ~~~1#64 = a) fun _ c _ w =>
    (∃ f, w.frag? c.ref.sel = some f ∧ f.pc = a ∧ f.depth = c.f.depth + 1 ∧ f.mask = c.f.mask ∧ f.join = c.f.join ∧
      f.st = .ready) ∧
    (∀ l : Lane, c.f.mask.getLsbD l.val = true → w.vp 0 l = c.f.pc + 8) ∧ SameRegs (.callr o) c w ∧ SameFull c.w w ∧
    SameSpecials c.w w) ∧
  (∀ (o : JumpReg) (a : DWord), CompletesIf (.ret o)
    (fun _ c => c.f.mask ≠ 0 ∧ ∀ l : Lane, c.f.mask.getLsbD l.val = true → c.w.vp o.a.toNat l &&& ~~~1#64 = a) fun _ c _ w =>
    (∃ f, w.frag? c.ref.sel = some f ∧ f.pc = a ∧ f.depth = c.f.depth - 1 ∧ f.mask = c.f.mask ∧ f.join = c.f.join ∧
      f.st = .ready) ∧ SameData c.w w ∧ SameSpecials c.w w) ∧
  (∀ (o : Brx) (a : DWord), GoesTo (.brx o)
    (fun _ c => c.f.mask ≠ 0 ∧ ∀ l : Lane, c.f.mask.getLsbD l.val = true →
      (c.f.pc + (c.w.vl o.a.toNat l).signExtend 64) &&& ~~~1#64 = a) (fun _ => a))

/-- A lane's target of a BRX (R162). -/
def brxTarget (o : Brx) (c : Ctx) (l : Lane) : DWord := (c.f.pc + (c.w.vl o.a.toNat l).signExtend 64) &&& ~~~1#64

/-- A lane's target of a CALLR or a RET (R163). -/
def pairTarget (o : JumpReg) (c : Ctx) (l : Lane) : DWord := c.w.vp o.a.toNat l &&& ~~~1#64

/-- The targets of a fragment's lanes are several, `as` in ascending order, and the split table has room for a child at each. -/
def Targets (c : Ctx) (t : Lane → DWord) (as : List DWord) : Prop :=
  as.Pairwise (fun a b => a.toNat < b.toNat) ∧ (∀ a, a ∈ as ↔ ∃ l : Lane, c.f.mask.getLsbD l.val = true ∧ t l = a) ∧
  2 ≤ as.length ∧ as.length ≤ c.w.freeSplits.length + 1

/-- R30, R36: the fragment has split to the targets `as` of its lanes: the children take them in ascending order, the first in the
fragment's own entry and the others in the lowest free ones, at a depth and under the join of a join field; the LFSR's next value prefers
one, which takes the fragment's rank, and the others follow it in that order; every higher rank rises. -/
def SplitsTo (c : Ctx) (w : Warp) (t : Lane → DWord) (as : List DWord) (join : BitVec 14) (depth : BitVec 8) : Prop :=
  let x := (lfsrStep c.w.lfsr).2
  let pref := x.toNat % as.length
  let idx := idxOf c.ref.sel :: c.w.freeSplits
  w.lfsr = x ∧ w.exited = c.w.exited ∧
  (∃ k, JoinsAt c w join k ∧ ∀ q, q < as.length → ∃ f, w.frag? (.entry (idx.getD q 0)) = some f ∧ f.pc = as.getD q 0 ∧
    (∀ l : Lane, f.mask.getLsbD l.val = (c.f.mask.getLsbD l.val && t l == as.getD q 0)) ∧
    f.st = .ready ∧ f.depth = depth ∧ f.join = k ∧
    f.rank = (if q = pref then c.f.rank else c.f.rank + BitVec.ofNat 5 (if q < pref then q + 1 else q))) ∧
  (∀ (j : Fin 32) h, .entry j ≠ c.ref.sel → c.w.frag? (.entry j) = some h →
    w.frag? (.entry j) = some { h with rank := if h.rank > c.f.rank then h.rank + BitVec.ofNat 5 (as.length - 1) else h.rank })

/-- R30, R36, R162: after a BRX, every lane of the fragment stands in a ready fragment at its own target. -/
def EveryLaneOfABrxReachesItsTarget : Prop :=
  (∀ (o : Brx) (as : List DWord), CompletesIf (.brx o) (fun _ c => Targets c (brxTarget o c) as)
    fun _ c _ w => SameData c.w w ∧ SplitsTo c w (brxTarget o c) as o.join c.f.depth) ∧
  ∀ o : Brx, CompletesIf (.brx o) (fun _ c => (groupTargets c.f.mask (brxTarget o c)).length ≤ c.w.freeSplits.length + 1)
    fun _ c _ w => SameData c.w w ∧ ∀ l : Lane, c.f.mask.getLsbD l.val = true →
      ∃ (j : Fin 32) (f : Frag), w.frag? (.entry j) = some f ∧ f.mask.getLsbD l.val = true ∧ f.st = .ready ∧ f.pc = brxTarget o c l

/-- R29, R30, R163: a CALLR and a RET whose lanes have several targets split the fragment as a BRX does: of a CALLR the join address is the
fall-through address (join field 4), the children are one deeper, and every lane's link pair holds that address; of a RET the join is
inherited (join field 0) and the children are one less deep. -/
def CallsAndReturnsWithSeveralTargetsSplit : Prop :=
  ∀ (o : JumpReg) (as : List DWord),
    CompletesIf (.callr o) (fun _ c => Targets c (pairTarget o c) as) (fun _ c _ w =>
      (∀ l : Lane, c.f.mask.getLsbD l.val = true → w.vp 0 l = c.f.pc + 8) ∧ SameRegs (.callr o) c w ∧ SameFull c.w w ∧
      SameSpecials { c.w with lfsr := w.lfsr, join := w.join } w ∧ SplitsTo c w (pairTarget o c) as 4 (c.f.depth + 1)) ∧
    CompletesIf (.ret o) (fun _ c => Targets c (pairTarget o c) as) fun _ c _ w =>
      SameData c.w w ∧ SplitsTo c w (pairTarget o c) as 0 (c.f.depth - 1)

/-- R29, R30, R36, R159, R162, R163: the branches, calls and returns that split a fragment. -/
def Obligations.DivergentBranchesSplit : Prop :=
  ADivergentBranchSplits ∧ EveryLaneOfABrxReachesItsTarget ∧ CallsAndReturnsWithSeveralTargetsSplit

/-- R33: an entry whose lanes have all arrived is free afterwards, fused or, where none of its lanes is left, for nothing. -/
def leftOf (x : Option Join) : Option Join := x.bind fun y => if y.arrived = y.expected then none else some y

/-- R33: the last lanes of entry `k` have arrived: `p` is the warp with its fragment parked, or its lanes exited, `w` the warp after the
fusion. The entry is free; the fragments parked there are one, at the lowest of their indices, with the arrived lanes, at the join
address, under the entry's parent and at its depth, with the lowest of their ranks; the ranks have no gaps; an entry that no lanes are
left of is free as well; nothing else of the warp has changed. -/
def FusesAt (p w : Warp) (k : Fin 32) (x : Join) : Prop :=
  let there (f : Frag) : Bool := f.st == .parkedJoin && f.join == BitVec.ofNat 6 k.val
  let below (r : BitVec 5) : Nat := (p.frags.filter fun g => !there g.2 && decide (g.2.rank < r)).length
  SameData p w ∧ w.exited = p.exited ∧ w.join[k] = none ∧ (∀ q : Fin 32, q ≠ k → w.join[q] = leftOf p.join[q]) ∧
  ∃ (i : Fin 32) (low : BitVec 5) (g : Frag),
    (∀ (j : Fin 32) f, p.split[j] = some f → there f = true → i ≤ j ∧ low ≤ f.rank) ∧
    (∃ f, p.split[i] = some f ∧ there f = true) ∧ (∃ (j : Fin 32) (f : Frag), p.split[j] = some f ∧ there f = true ∧ f.rank = low) ∧
    w.split[i] = some g ∧ g.mask = x.arrived ∧ g.pc = x.addr ∧ g.join = x.parent ∧ g.depth = x.depth ∧ g.st = .ready ∧
    g.rank = BitVec.ofNat 5 (below low) ∧
    ∀ j : Fin 32, j ≠ i → w.split[j] = (p.split[j]).bind fun f =>
      if there f then none else some { f with rank := BitVec.ofNat 5 (below f.rank + if low < f.rank then 1 else 0) }

/-- No entry has all its lanes, but those that no lanes are left of: nothing fuses. -/
abbrev NoneFuses (join : Fin 32 → Option Join) : Prop := ∀ k, ∀ y ∈ join k, y.arrived = y.expected → y.expected = 0

/-- Exactly entry `k` has all its lanes, of those that lanes are left of, and a fragment is parked there. -/
def AllArrived (p : Warp) (k : Fin 32) (x : Join) : Prop :=
  p.join[k] = some x ∧ x.arrived = x.expected ∧ x.expected ≠ 0 ∧
  (∃ (j : Fin 32) (f : Frag), p.split[j] = some f ∧ f.st = .parkedJoin ∧ f.join = BitVec.ofNat 6 k.val) ∧
  ∀ (q : Fin 32) y, q ≠ k → p.join[q] = some y → y.arrived = y.expected → y.expected = 0

/-- R34: the join table once lanes of a fragment have exited: every entry on its chain expects them no more. -/
def exitJoin (c : Ctx) (m : LaneMask) (k : Fin 32) : Option Join :=
  (c.w.join[k]).map fun y => if (c.w.joinChain 32 c.f.join).any (·.1 == k) then { y with expected := y.expected &&& ~~~m } else y

/-- R32: the join table once a fragment has parked at entry `e` of its chain: its lanes have arrived there, and the entries within it
expect them no more. -/
def parkJoin (c : Ctx) (e k : Fin 32) : Option Join :=
  (c.w.join[k]).map fun y => if k = e then { y with arrived := y.arrived ||| c.f.mask }
    else if ((c.w.joinChain 32 c.f.join).takeWhile (·.1 != e)).any (·.1 == k) then { y with expected := y.expected &&& ~~~c.f.mask } else y

/-- The warp once the lanes of an EXIT have exited and before fusion is checked, its registers' full bits as the discarded loads leave
them (R34, R164). -/
def exitedWarp (o : Head) (c : Ctx) (w : Warp) : Warp :=
  { (c.w.modFrag (fun f => f.retire 8) c.ref.sel).exitLanes (idxOf c.ref.sel) (c.lanes (.exit o)) with
    vFull := w.vFull, sFull := w.sFull, hFull := w.hFull }

/-- R32, R33, R34, R164, R165: EXIT removes the lanes in which its guard holds, from its fragment and from what the entries of its chain
expect; JOIN parks the fragment at its own entry; a fragment that comes to a join address of its chain parks there; the last of an
entry's lanes to park, or the exit of the last that had not, fuses them. That a fragment parked at an outer entry names that entry is
notes/assumptions/74.md's. -/
def Obligations.ExitAndJoinChangeTheFragments : Prop :=
  (∀ o : Head, CompletesIf (.exit o) (fun _ c => c.lanes (.exit o) = 0)
    fun s c t w => LaneFrame (.exit o) s c t w) ∧
  (∀ o : Head, CompletesIf (.exit o) (fun _ c => c.lanes (.exit o) ≠ 0) fun _ c _ w =>
    w.exited = c.w.exited ||| c.lanes (.exit o) ∧ w.v = c.w.v ∧ w.s = c.w.s ∧ w.h = c.w.h ∧ w.cc0 = c.w.cc0 ∧ w.cc1 = c.w.cc1 ∧
    (∀ l : Lane, (c.lanes (.exit o)).getLsbD l.val = true → w.resv[l] = none) ∧
    (NoneFuses (exitJoin c (c.lanes (.exit o))) →
      (∀ k : Fin 32, w.join[k] = leftOf (exitJoin c (c.lanes (.exit o)) k)) ∧
      (c.f.mask &&& ~~~c.lanes (.exit o) = 0 → w.frag? c.ref.sel = none) ∧
      (c.f.mask &&& ~~~c.lanes (.exit o) ≠ 0 → ∃ f, w.frag? c.ref.sel = some f ∧ f.pc = c.f.pc + 8 ∧ f.st = .ready ∧
        f.mask = c.f.mask &&& ~~~c.lanes (.exit o) ∧ f.join = c.f.join ∧ f.depth = c.f.depth)) ∧
    (∀ k x, AllArrived (exitedWarp o c w) k x → FusesAt (exitedWarp o c w) w k x) ∧
    (∀ k : Fin 32, (exitedWarp o c w).join[k] = exitJoin c (c.lanes (.exit o)) k) ∧
    ∀ j : Fin 32, .entry j ≠ c.ref.sel → ((exitedWarp o c w).split[j]).map (fun f => { f with rank := 0 }) =
      (c.w.split[j]).map fun f => { f with rank := 0 }) ∧
  (∀ o : Head, CompletesIf (.join o) (fun _ c => c.w.joinAt c.f.join = none)
    fun s c t w => LaneFrame (.join o) s c t w) ∧
  (∀ (o : Head) (e : Fin 32) (j : Join), CompletesIf (.join o)
    (fun _ c => c.w.joinAt c.f.join = some (e, j) ∧ NoneFuses (parkJoin c e)) fun _ c _ w =>
      SameData c.w w ∧ w.exited = c.w.exited ∧ (∀ k : Fin 32, w.join[k] = leftOf (parkJoin c e k)) ∧
      ∃ f, w.frag? c.ref.sel = some f ∧ f.st = .parkedJoin ∧ f.join = BitVec.ofNat 6 e.val ∧ f.mask = c.f.mask) ∧
  (∀ (s : State) (c : Ctx) (i e : Fin 32), s.ctx? c.ref = some c → c.ref.sel = .entry i → c.f.st = .ready →
    c.w.parkEntry c.f = some e → NoneFuses (parkJoin c e) →
    ∃ t w f, exec (.joinPark c.ref) s = .next t ∧ t.warp? c.ref.block c.ref.warp = some w ∧ w.frag? c.ref.sel = some f ∧
      f.st = .parkedJoin ∧ f.join = BitVec.ofNat 6 e.val ∧ f.mask = c.f.mask ∧ SameData c.w w ∧
      ∀ k : Fin 32, w.join[k] = leftOf (parkJoin c e k)) ∧
  (∀ (c : Ctx) (i e k : Fin 32), c.w.split[i] = some c.f → (c.w.parkAt i e).join[k] = parkJoin c e k) ∧
  (∀ (o : Head) (e k : Fin 32) (j x : Join), CompletesIf (.join o)
    (fun _ c => c.w.joinAt c.f.join = some (e, j) ∧ AllArrived (c.w.parkAt (idxOf c.ref.sel) e) k x) fun _ c _ w =>
      FusesAt (c.w.parkAt (idxOf c.ref.sel) e) w k x) ∧
  (∀ (s : State) (c : Ctx) (i e k : Fin 32) (x : Join), s.ctx? c.ref = some c → c.ref.sel = .entry i → c.f.st = .ready →
    c.w.parkEntry c.f = some e → AllArrived (c.w.parkAt i e) k x →
    ∃ t w, exec (.joinPark c.ref) s = .next t ∧ t.warp? c.ref.block c.ref.warp = some w ∧ FusesAt (c.w.parkAt i e) w k x)

/-- R165, R166, R248: NOP has no effect; YIELD gives its fragment the highest rank; SLEEP stops its fragment until a device
time; NOPRE and PREOK set and clear the warp's flag. -/
def NopYieldSleepAndPreemptionFlags : Prop :=
  (∀ o : Head, Completes (.nop o) fun s c t w => LaneFrame (.nop o) s c t w) ∧
  (∀ o : Head, CompletesIf (.yield o) (fun _ c => c.w.frags.length ≤ 1)
    fun s c t w => LaneFrame (.yield o) s c t w) ∧
  (∀ o : Head, CompletesIf (.yield o) (fun _ c => 1 < c.w.frags.length) fun _ c _ w =>
    SameData c.w w ∧ SameSpecials c.w w ∧ ∃ f, w.frag? c.ref.sel = some f ∧ f.pc = c.f.pc + 8 ∧ f.mask = c.f.mask ∧
      f.st = .ready ∧ f.wait = 0 ∧ f.rank = BitVec.ofNat 5 (c.w.frags.length - 1)) ∧
  (∀ o : Xi, Completes (.sleep o) fun s c _ w => SameData c.w w ∧ SameSpecials c.w w ∧
    ∃ f, w.frag? c.ref.sel = some f ∧ f.pc = c.f.pc + 8 ∧ f.mask = c.f.mask ∧ f.st = .sleeping ∧
      f.deadline = some (s.time + o.imm.toNat)) ∧
  (∀ (s : State) (c : Ctx) (n : Nat), s.ctx? c.ref = some c → c.f.st = .sleeping → c.f.cond = .deadline n → n ≤ s.time →
    exec (.sleepWake c.ref) s =
      .next (s.modFrag c.ref fun f => { f with st := .ready, cond := .never, deadline := none })) ∧
  (∀ o : Head, Completes (.nopre o) fun s c t w => Retired (.nopre o) s c t w ∧ SameRegs (.nopre o) c w ∧ SameFull c.w w ∧
    SameSpecials { c.w with nopre := true } w ∧ w.nopre = true) ∧
  (∀ o : Head, Completes (.preok o) fun s c t w => Retired (.preok o) s c t w ∧ SameRegs (.preok o) c w ∧ SameFull c.w w ∧
    SameSpecials { c.w with nopre := false } w ∧ w.nopre = false)

/-- R39: where a wait count has reached 4096, the ready fragment with the largest count takes rank 0 and the counts are 0. -/
def FairnessRotatesTheRanks : Prop :=
  ∀ (s : State) (r : WarpRef) (w : Warp), s.warp? r.block r.warp = some w → (∃ x ∈ w.frags, 4096 ≤ x.2.wait.toNat) →
    ∃ t w', exec (.fairnessRotation r) s = .next t ∧ t.warp? r.block r.warp = some w' ∧ SameData w w' ∧
      (∀ (i : Fin 32) f, w'.frag? (.entry i) = some f → f.wait = 0) ∧
      (∀ (i : Fin 32) f, w.frag? (.entry i) = some f → f.st = .ready →
        (∀ (j : Fin 32) g, j ≠ i → w.frag? (.entry j) = some g → g.st = .ready → g.wait < f.wait) →
        ∃ f', w'.frag? (.entry i) = some f' ∧ f'.rank = 0 ∧ f'.mask = f.mask ∧ f'.pc = f.pc)

/-- R39, R165, R166, R248: NOP, YIELD, SLEEP, the pre-emption flag and fairness rotation. -/
def Obligations.SchedulingFollowsTheProgramAndTheWaitCounts : Prop :=
  NopYieldSleepAndPreemptionFlags ∧ FairnessRotatesTheRanks

/-- R106-R110: a REP of either length activates REPC before the lane operation that follows it; an iteration performs the
stepped instruction in the fragment's lanes and advances REPC; after the last one the fragment stands past both. -/
def Obligations.TheRepeatPrefixRepeats : Prop :=
  (∀ (i : Instr) (f : RepFields) (preLen : Nat) (j : Instr) (hs : List Half),
    ((∃ o : Rep, i = .rep o ∧ f = o.f ∧ preLen = 8) ∨ i = .repNP f ∧ preLen = 4) → CompletesIf i
    (fun s c => c.w.rep = none ∧ (s.fetch c.l c.b.core (c.f.pc + BitVec.ofNat 64 preLen)).2 = .halves hs ∧
      decodeHalves hs = .ok j ∧ staticCheck c.l.desc j.layout (j.layout.opnds 1) = none ∧
      repMisuse c.l.desc f j j.len (halvesWord hs) = none)
    fun _ c _ w => w.repc = 0x40 ∧ w.rep = some ⟨c.ref.sel, c.f.pc, some f, halvesWord hs, j.len, preLen⟩ ∧
      w.v = c.w.v ∧ w.s = c.w.s ∧ w.h = c.w.h ∧ w.cc0 = c.w.cc0 ∧ w.cc1 = c.w.cc1 ∧
      ∃ g, w.frag? c.ref.sel = some g ∧ g.pc = c.f.pc ∧ g.mask = c.f.mask) ∧
  (∀ (s : State) (c : Ctx) (p : RepState) (f : RepFields) (j : Instr) (g : LaneMask → Warp → Warp),
    s.ctx? c.ref = some c → isPath c.ref.sel = false → c.w.rep = some p → p.owner = c.ref.sel → p.addr = c.f.pc → p.f = some f →
    s.issues c = true → c.f.redo = [] → c.f.held = none → stepped f p.len p.word (c.w.repc.toNat % 64) = some j →
    gate s c j.layout true = none → bodyOf j = some (lane g) →
    (∀ m x, (g m x).split = x.split ∧ (g m x).rep = x.rep ∧ (g m x).repc = x.repc) →
    ∃ t w, exec (.repIteration ⟨c.ref.block, c.ref.warp⟩) s = .next t ∧ t.warp? c.ref.block c.ref.warp = some w ∧
      w.v = (g (c.lanes j) c.w).v ∧ w.cc0 = (g (c.lanes j) c.w).cc0 ∧ w.cc1 = (g (c.lanes j) c.w).cc1 ∧ w.s = (g (c.lanes j) c.w).s ∧
      (c.w.repc.toNat % 64 + 1 < f.count → w.repc = BitVec.ofNat 7 (0x40 + c.w.repc.toNat % 64 + 1) ∧ w.rep = some p) ∧
      (f.count ≤ c.w.repc.toNat % 64 + 1 → w.repc = 0 ∧ w.rep = none ∧
        ∃ q, w.frag? c.ref.sel = some q ∧ q.pc = p.addr + BitVec.ofNat 64 (p.preLen + p.len) ∧ q.mask = c.f.mask))

/-! ### The checks before an effect, traps and their return -/

/-- R2, R63, R89, R112, R186, R202, R330, R336: what stops an instruction before it has any effect, in this order: a register or a
tile the block has not (XINFO 2); a guard that must be AL (XINFO 6; of a REP, once the instruction it repeats is legal); an empty source
whose E bit is set (cause 5); an empty source or destination, which the fragment waits for; an engine instruction without the whole
warp (cause 4, XINFO 2); a translation of the fragment that has not ended; no room for its requests; an acquire action. The states it
waits in there are notes/assumptions/73.md's. -/
def ChecksComeBeforeEffects : Prop :=
  ∀ (i : Instr) (s : State) (c : Ctx), i.encodable = true → s.cur = some c.ref → s.ctx? c.ref = some c →
    isPath c.ref.sel = false →
    let ops := i.layout.opnds (vaultDims s c.l.asid c.w i.layout)
    let named := (i.layout.isMatrix = true → c.l.desc.tiles ≠ 0) ∧ ∀ o ∈ ops, o.legal c.l.desc.regs c.l.desc.tiles = true
    let guarded := i.layout.needsAl = true → i.layout.isRep = false → ∀ h, i.layout.head = some h → h.guard = .al
    let unset := ∀ o ∈ ops, o.src = true → o.e = true → ∀ r ∈ o.regs, regFull c.b c.w r = true
    let full := ∀ o ∈ ops, o.src = true ∨ o.dst = true → ∀ r ∈ o.regs, regFull c.b c.w r = true
    let free := ∀ e ∈ c.b.ops, e.warp = c.ref.warp → e.suspend = none
    (¬named → exec i s = .next (s.takeTrap c ⟨1, 0, c.f.mask, 2, c.f.pc⟩)) ∧
    (named → ¬guarded → exec i s = .next (s.takeTrap c ⟨1, 0, c.f.mask, 6, c.f.pc⟩)) ∧
    (∀ (o : Rep) (hs : List Half) (j : Instr) (u : State), i = .rep o → named → o.h.guard ≠ .al → c.w.rep = none →
      s.fetch c.l c.b.core (c.f.pc + 8) = (u, .halves hs) → decodeHalves hs = .ok j →
      staticCheck c.l.desc j.layout (j.layout.opnds 1) ≠ some 2 →
      exec i s = .next (u.takeTrap c ⟨1, 0, c.f.mask, (repMisuse c.l.desc o.f j j.len (halvesWord hs)).getD 6, c.f.pc⟩)) ∧
    (∀ o, named → guarded → ops.find? (fun o => o.src && o.e && !o.regs.all (regFull c.b c.w)) = some o →
      exec i s = .next (s.takeTrap c ⟨5, 0, c.f.mask, emptyInfo o, c.f.pc⟩)) ∧
    (named → guarded → unset → ¬full → free → i.isCompare = false →
      ∃ st rs, (st = .waitReg ∨ st = .waitHandle) ∧ (∃ r ∈ rs, regFull c.b c.w r = false) ∧
        exec i s = .next (s.modFrag c.ref fun f => { f with st := st, cond := .full rs })) ∧
    (named → guarded → full → free → i.layout.isEngine = true → c.f.mask ≠ 0xFFFF_FFFF →
      exec i s = .next (s.takeTrap c ⟨4, 0, c.f.mask, 2, c.f.pc⟩)) ∧
    (∀ n, named → guarded → full → free → (i.layout.isEngine = true → c.f.mask = 0xFFFF_FFFF) → i.layout.isAccess = true →
      (i.layout.awaitsWalk = true → c.f.walkEnd ≤ s.time) →
      (i.layout.sendsRequests = true →
        (s.reqs.filter fun q => q.core == c.b.core).length + popcount c.f.mask ≤ Config.maxRequests) →
      c.f.acquire = some n → s.condMet c (.loadsBefore n) = false →
      exec i s = .next (s.modFrag c.ref fun f => { f with st := .waitFence, cond := .loadsBefore n })) ∧
    (named → guarded → full → free → (i.layout.isEngine = true → c.f.mask = 0xFFFF_FFFF) → i.layout.awaitsWalk = true →
      s.time < c.f.walkEnd →
      exec i s = .next (s.modFrag c.ref fun f => { f with st := .waitTranslation, cond := .translation })) ∧
    (named → guarded → full → free → (i.layout.isEngine = true → c.f.mask = 0xFFFF_FFFF) → c.f.walkEnd ≤ s.time →
      i.layout.sendsRequests = true →
      Config.maxRequests < (s.reqs.filter fun q => q.core == c.b.core).length + popcount c.f.mask →
      exec i s = .next (s.modFrag c.ref fun f => { f with st := .waitResource, cond := .requestRoom (popcount c.f.mask) }))

/-- R86, R112: a fragment at a halfword 0x0000, a reserved operation, a reserved code point or a field that must be zero takes
the illegal-instruction or the reserved-bits trap at its own address, and nothing else. -/
def WordsThatAreNoInstructionTrap : Prop :=
  ∀ (run : Instr → State → Host.Outcome State Fault Refusal) (s : State) (r : FragRef) (c : Ctx) (s' : State) (e : DecErr),
    ({ s with cur := some r } : State).ctx? r = some c → isPath r.sel = false →
    ({ s with cur := some r } : State).issues c = true → ({ s with cur := some r } : State).todo c = (s', .bad e) →
    s'.haltOf c.l.asid = false →
    pickStep run r s = .next (s'.takeTrap c { cause := (decCause e).1, addr := 0, mask := c.f.mask, info := (decCause e).2, pc := c.f.pc }) ∧
    decCause .zeroHalf = (1, 5) ∧ decCause .reservedOp = (1, 0) ∧ decCause .codePoint = (1, 1) ∧
    (∀ b, decCause (.mustBeZero b) = (2, BitVec.ofNat 32 (0x100 + b)))

/-- R2, R63, R86, R89, R112, R186, R202, R330, R336: what comes before any effect (the states of a wait: assumption 73). -/
def Obligations.WhatStopsAnInstruction : Prop :=
  ChecksComeBeforeEffects ∧ WordsThatAreNoInstructionTrap

/-- R337: taking a trap in a kernel with a handler: the trap registers, the reservations of the fragment's lanes, the entry
record, handler mode and the handler's address; no other register changes. -/
def TrapEntrySavesAndEnters : Prop :=
  ∀ (s : State) (c : Ctx) (t : TrapInfo), s.ctx? c.ref = some c → isPath c.ref.sel = false → c.f.handler = false →
    c.w.handler = none → c.l.desc.trapPc ≠ 0 →
    ∃ w, (s.takeTrap c t).warp? c.ref.block c.ref.warp = some w ∧
      w.x = { cause := BitVec.ofNat 32 t.cause, pc := t.pc, addr := t.addr, mask := t.mask, info := t.info } ∧
      (∀ l : Lane, w.resv[l] = if c.f.mask.getLsbD l.val then none else c.w.resv[l]) ∧
      (∃ h, w.handler = some h ∧ h.mask = c.f.mask ∧ h.join = c.f.join ∧ h.depth = c.f.depth) ∧
      (∃ f, w.frag? c.ref.sel = some f ∧ f.pc = c.l.desc.trapPc &&& ~~~1#64 ∧ f.handler = true ∧ f.st = .ready ∧ f.mask = c.f.mask ∧
        f.join = c.f.join ∧ f.depth = c.f.depth ∧ f.rank = c.f.rank) ∧
      (∀ r, r ≠ c.ref.sel → w.frag? r = c.w.frag? r) ∧ SameData { c.w with x := w.x, nopre := w.nopre } w ∧
      w.nopre = (c.w.nopre && t.cause != 0x0E) ∧ w.lfsr = c.w.lfsr ∧ w.join = c.w.join ∧ w.exited = c.w.exited

/-- R337, R339: a trap met while another fragment is in the handler waits for it; one in the handler, or in a kernel without a
handler, aborts the kernel. -/
def TrapsThatWaitOrAbort : Prop :=
  ∀ (s : State) (c : Ctx) (t : TrapInfo), s.ctx? c.ref = some c → isPath c.ref.sel = false →
    (c.w.handler.isSome = true → c.f.handler = false →
      s.takeTrap c t = s.modFrag c.ref fun f => { f with st := .waitFragment, cond := .handlerFree, held := some t }) ∧
    (c.f.handler = true ∨ (c.w.handler = none ∧ c.l.desc.trapPc = 0) → c.l.st ≠ .completed →
      (∃ l, (s.takeTrap c t).launch? c.l.id = some l ∧ l.st = .aborted) ∧
      ∃ w, (s.takeTrap c t).warp? c.ref.block c.ref.warp = some w ∧ w.frags = [] ∧ w.exited = 0xFFFF_FFFF)

/-- R337, R339: taking a trap. -/
def Obligations.TrapsEnterTheHandler : Prop :=
  TrapEntrySavesAndEnters ∧ TrapsThatWaitOrAbort

/-- R110, R246, R338: RTE in the handler, with the entry mask less the lanes exited since, resumes its fragment at XPC with the
mask, join and depth it had; a repetition its fragment owns is resumed at its recorded address and given up at another; elsewhere
RTE traps. -/
def Obligations.RteReturnsFromTheHandler : Prop :=
  (∀ (o : Head) (h : Handler), CompletesIf (.rte o)
    (fun _ c => c.f.handler = true ∧ c.w.handler = some h ∧ c.f.mask = h.mask &&& ~~~c.w.exited ∧ h.owner = false)
    fun _ c _ w => w.handler = none ∧ SameData c.w w ∧ w.lfsr = c.w.lfsr ∧ w.join = c.w.join ∧ w.exited = c.w.exited ∧ w.rep = c.w.rep ∧
      ∃ f, w.frag? c.ref.sel = some f ∧ f.pc = c.w.x.pc &&& ~~~1#64 ∧ f.handler = false ∧ f.st = .ready ∧ f.mask = c.f.mask ∧
        f.join = h.join ∧ f.depth = h.depth) ∧
  (∀ (o : Head) (h : Handler) (r : RepState), CompletesIf (.rte o)
    (fun _ c => c.f.handler = true ∧ c.w.handler = some h ∧ c.f.mask = h.mask &&& ~~~c.w.exited ∧ h.owner = true ∧ c.w.rep = some r)
    fun _ c _ w => w.handler = none ∧ w.v = c.w.v ∧ w.s = c.w.s ∧ w.h = c.w.h ∧ w.join = c.w.join ∧ w.exited = c.w.exited ∧
      (r.addr = c.w.x.pc &&& ~~~1#64 → w.repc = c.w.repc ∧ w.rep = some { r with f := none, owner := c.ref.sel }) ∧
      (r.addr ≠ c.w.x.pc &&& ~~~1#64 → w.repc = 0 ∧ w.rep = none) ∧
      ∃ f, w.frag? c.ref.sel = some f ∧ f.pc = c.w.x.pc &&& ~~~1#64 ∧ f.handler = false ∧ f.st = .ready ∧ f.mask = c.f.mask ∧
        f.join = h.join ∧ f.depth = h.depth) ∧
  (∀ o : Head, TrapsWhere (.rte o) (fun _ c => c.f.handler = false) 3 0) ∧
  (∀ (o : Head) (h : Handler), TrapsWhere (.rte o)
    (fun _ c => c.f.handler = true ∧ c.w.handler = some h ∧ c.f.mask ≠ h.mask &&& ~~~c.w.exited) 4 3)

/-- R246, R247, R348, R353: TRAP, once issued, enters the handler with cause 0x0F, its immediate and its fall-through address; BKPT halts the context
where a debugger has armed it, passes once it has been let go, and otherwise traps with cause 0x10 at its own address. -/
def TrapAndBkptTakeTheirTraps : Prop :=
  (∀ (o : Xi) s c, Issues (.trap o) s c →
    exec (.trap o) s = .next ((s.noteIssue c (Instr.trap o).layout).takeTrap c { cause := 0x0F, addr := 0, mask := c.f.mask, info := o.imm, pc := c.f.pc + 8 })) ∧
  (∀ o : Xi, TrapsWhere (.bkpt o) (fun s c => c.f.bkpt = false ∧ ¬(s.dev.dbgArm = true ∧ s.dev.dbgAsid = c.l.asid)) 0x10 o.imm) ∧
  (∀ o : Xi, CompletesIf (.bkpt o) (fun s c => c.f.bkpt = false ∧ s.dev.dbgArm = true ∧ s.dev.dbgAsid = c.l.asid)
    fun _ c t w => t.dev.bkHit = true ∧ t.dev.dbgHalt = true ∧ t.dev.dbgCore = c.b.core ∧ SameData c.w w ∧
      ∃ f, w.frag? c.ref.sel = some f ∧ f.halted = true ∧ f.pc = c.f.pc ∧ f.mask = c.f.mask) ∧
  (∀ o : Xi, CompletesIf (.bkpt o) (fun _ c => c.f.bkpt = true) fun s c t w => LaneFrame (.bkpt o) s c t w)

/-- R247, R360, R362: TRACE retires; while tracing is on for its core and its context, a USR packet with the warp's slot and the value
of A is emitted, after the SYNC of the warp's first instruction if it is that; else it has no other effect. -/
def TraceRetires : Prop :=
  (∀ o : OpA, Completes (.trace o) fun _ c _ w => SameData c.w w ∧ SameSpecials c.w w ∧
    ∃ f, w.frag? c.ref.sel = some f ∧ Fallen (.trace o) c.f f) ∧
  (∀ o : OpA, CompletesIf (.trace o) (fun s c => s.traceOn c.b.core = false ∨ c.l.asid ≠ s.dev.trAsid)
    fun s c t w => LaneFrame (.trace o) s c t w) ∧
  (∀ o : OpA, CompletesIf (.trace o) (fun s c => s.traceOn c.b.core = true ∧ c.l.asid = s.dev.trAsid ∧ c.lanes (.trace o) ≠ 0)
    fun s c t _ => t.mem = s.mem ∧ t.host = s.host ∧ ∃ l, l.length ≤ 1 ∧ (∀ p ∈ l, p.hdr = none) ∧
      (t.core c.b.core).pkts = (s.core c.b.core).pkts ++ l ++
        [⟨some 0x50, BitVec.ofNat 8 c.w.warpSlot :: leBytes 4 (c.w.sr o.a.toNat).toNat⟩])

/-- R246, R247, R348, R353, R360, R362: TRAP, BKPT and TRACE. -/
def Obligations.SystemInstructionsTrapHaltAndTrace : Prop :=
  TrapAndBkptTakeTheirTraps ∧ TraceRetires

/-! ### Memory: loads, stores, atomics and their requests -/

/-- R93, R175-R177, R185, R260, R324: a global load whose lanes are aligned and translated sends one request a lane, to fill the
L1 or to read at the slice; a lane that a live line of the L1 serves has its value at once, some value where the page or the line is
undefined (R264, R292; notes/assumptions/70.md). LD, its 32-bit form and LR. -/
def Obligations.GlobalLoadsSendTheirRequests : Prop :=
  ∀ (i : Instr) (g : Ctx → LoadArgs),
    ((∃ o : Xm, i = .ld o ∧ g = fun c => ⟨o.d.toNat, o.width.bytes, o.b.getLsbD 0, o.hint, o.ord, o.scope, false,
        gAddr c.w o.a o.off.toInt o.width.bytes⟩) ∨
     (∃ o : NM, i = .ld32 o ∧ g = fun c => ⟨o.d.toNat, 4, false, .default, .rlx, .core, false, gAddr c.w o.a o.off.toInt 4⟩) ∨
     (∃ o : Xm, i = .lr o ∧ g = fun c => ⟨o.d.toNat, o.width.bytes, false, o.hint, o.ord, o.scope, true,
        gAddr c.w o.a o.off.toInt o.width.bytes⟩)) →
    (∀ (pa : Lane → Nat) (a : Lane → Attr), CompletesIf i
      (fun s c => Aligned c i (g c).n (g c).addr ∧ LanesMap s c i (g c).addr .rd true pa a ∧
        ∀ l : Lane, (c.lanes i).getLsbD l.val = true → (g c).lr = true ∨ (g c).hint = .noL1 ∨ s.l1Find c ((g c).addr l) = none)
      fun s c t w => Sent i s c t w (vRegs (g c).d (g c).n)
        (acquired (g c).ord (g c).scope (s.nextReq + (lanesOf (c.lanes i)).length) c.f.acquire) fun l =>
          { baseReq s c l (loadKind (a l) (g c).hint) ((g c).addr l) (pa l) (a l) (g c).n with
            dst := some (g c).d, sx := (g c).sx, lr := (g c).lr }) ∧
    (∀ ln : Lane → L1Line, CompletesIf i
      (fun s c => (g c).lr = false ∧ (g c).hint ≠ .noL1 ∧ Aligned c i (g c).n (g c).addr ∧
        ∀ l : Lane, (c.lanes i).getLsbD l.val = true → s.l1Find c ((g c).addr l) = some (ln l) ∧ (ln l).attr.r = true ∧
          (ln l).badAt ((g c).addr l) = none ∧ (ln l).attr.undef = false)
      fun s c t w => Sent i s c t w (vRegs (g c).d (g c).n)
        (acquired (g c).ord (g c).scope (s.nextReq + (lanesOf (c.lanes i)).length) c.f.acquire) fun l =>
          { baseReq s c l .read ((g c).addr l) (lineBase (ln l).pline + (g c).addr l % 128) (ln l).attr (g c).n with
            dst := some (g c).d, sx := (g c).sx, st := .performed
            value := BitVec.ofNat 128 (leNat (((ln l).data.drop ((g c).addr l % 128)).take (g c).n))
            wct := if (ln l).attr.stable then 0 else (ln l).wct }) ∧
    (∀ (k : Lane) (ln : L1Line), CompletesIf i
      (fun s c => (g c).lr = false ∧ (g c).hint ≠ .noL1 ∧ Aligned c i (g c).n (g c).addr ∧ lanesOf (c.lanes i) = [k] ∧
        s.l1Find c ((g c).addr k) = some ln ∧ ln.attr.r = true ∧ ln.badAt ((g c).addr k) = none ∧ ln.attr.undef = true)
      fun s c t w => ∃ v, Sent i s c t w (vRegs (g c).d (g c).n)
        (acquired (g c).ord (g c).scope (s.nextReq + 1) c.f.acquire) fun l =>
          { baseReq s c l .read ((g c).addr l) (lineBase ln.pline + (g c).addr l % 128) ln.attr (g c).n with
            dst := some (g c).d, sx := (g c).sx, st := .performed, value := v
            wct := if ln.attr.stable then 0 else ln.wct })

/-- The stores of an instruction's lanes, `n` bytes each, cover the whole 32-byte sector of a lane's (R342). -/
def sectorWhole (m : LaneMask) (n : Nat) (pa : Lane → Nat) (a : Lane → Attr) (l : Lane) : Bool :=
  (((lanesOf m).filter fun k => (a k).target == (a l).target && pa k / 32 == pa l / 32).map pa).eraseDups.length * n == 32

/-- R93, R175, R176, R178, R179, R262, R342: a global store sends one request a lane with the lane's data, after the release action
of its order, marked where the instruction covers the sector; the bytes are written when the slice performs them. ST and its 32-bit
form. -/
def Obligations.GlobalStoresSendTheirRequests : Prop :=
  (∀ (o : Xm) (pa : Lane → Nat) (a : Lane → Attr), CompletesIf (.st o)
    (fun s c => Aligned c (.st o) o.width.bytes (gAddr c.w o.a o.off.toInt o.width.bytes) ∧
      LanesMap s c (.st o) (gAddr c.w o.a o.off.toInt o.width.bytes) .wr false pa a ∧ Released s c o.ord o.scope ∧ s.numbered)
    fun s c t w => Sent (.st o) s c t w [] c.f.acquire fun l =>
      { baseReq s c l .write (gAddr c.w o.a o.off.toInt o.width.bytes l) (pa l) (a l) o.width.bytes with
        data := BitVec.ofNat 128 (c.w.data o.b.toNat o.width.bytes l)
        whole := sectorWhole (c.lanes (.st o)) o.width.bytes pa a l }) ∧
  (∀ (o : NM) (pa : Lane → Nat) (a : Lane → Attr), CompletesIf (.st32 o)
    (fun s c => Aligned c (.st32 o) 4 (gAddr c.w o.a o.off.toInt 4) ∧
      LanesMap s c (.st32 o) (gAddr c.w o.a o.off.toInt 4) .wr false pa a ∧ s.numbered)
    fun s c t w => Sent (.st32 o) s c t w [] c.f.acquire fun l =>
      { baseReq s c l .write (gAddr c.w o.a o.off.toInt 4 l) (pa l) (a l) 4 with
        data := BitVec.ofNat 128 (c.w.vl o.d.toNat l).toNat
        whole := sectorWhole (c.lanes (.st32 o)) 4 pa a l }) ∧
  (∀ (o : Xm) s c, Issues (.st o) s c → Aligned c (.st o) o.width.bytes (gAddr c.w o.a o.off.toInt o.width.bytes) →
    o.ord = .rel → c.f.released = false → s.condMet c (.release o.scope) = false →
    exec (.st o) s = .next (s.modFrag c.ref fun f => { f with st := .waitFence, cond := .release o.scope }))

/-- R174, R183, R184: ATOM and RED send one indivisible read-modify-write a lane; RED returns no value and marks no register. -/
def AtomicsSendTheirRequests : Prop :=
  (∀ (o : Xa) (pa : Lane → Nat) (a : Lane → Attr), CompletesIf (.atom o)
    (fun s c => Aligned c (.atom o) o.width.bytes (gAddr c.w o.a o.off.toInt o.width.bytes) ∧
      LanesMap s c (.atom o) (gAddr c.w o.a o.off.toInt o.width.bytes) .rmw true pa a ∧ Released s c o.ord o.scope)
    fun s c t w => Sent (.atom o) s c t w (vRegs o.d.toNat o.width.bytes)
      (acquired o.ord o.scope (s.nextReq + (lanesOf (c.lanes (.atom o))).length) c.f.acquire) fun l =>
        { baseReq s c l (.atomic o.op) (gAddr c.w o.a o.off.toInt o.width.bytes l) (pa l) (a l) o.width.bytes with
          data := BitVec.ofNat 128 (c.w.data o.b.toNat o.width.bytes l)
          arg2 := BitVec.ofNat 128 (if o.op = .cas then c.w.data (o.b.toNat + o.width.bytes / 4) o.width.bytes l else 0)
          dst := some o.d.toNat }) ∧
  (∀ (o : Xa) (pa : Lane → Nat) (a : Lane → Attr), CompletesIf (.red o)
    (fun s c => Aligned c (.red o) o.width.bytes (gAddr c.w o.a o.off.toInt o.width.bytes) ∧
      LanesMap s c (.red o) (gAddr c.w o.a o.off.toInt o.width.bytes) .wr true pa a ∧ Released s c o.ord o.scope)
    fun s c t w => Sent (.red o) s c t w []
      (acquired o.ord o.scope (s.nextReq + (lanesOf (c.lanes (.red o))).length) c.f.acquire) fun l =>
        { baseReq s c l (.atomic o.op) (gAddr c.w o.a o.off.toInt o.width.bytes l) (pa l) (a l) o.width.bytes with
          data := BitVec.ofNat 128 (c.w.data o.b.toNat o.width.bytes l)
          arg2 := BitVec.ofNat 128 (if o.op = .cas then c.w.data (o.b.toNat + o.width.bytes / 4) o.width.bytes l else 0)
          valueBack := true })

/-- R175-R177, R181: LDS and its 32-bit form read the block's scratchpad; narrow values extend; a bank in FIFO mode gives its
oldest words and loses them. -/
def ScratchLoadsReadTheScratchpad : Prop :=
  ∀ (i : Instr) (d n : Nat) (sx : Bool) (addr : Ctx → Lane → Nat),
    ((∃ o : Xp, i = .lds o ∧ d = o.d.toNat ∧ n = o.width.bytes ∧ sx = o.b.getLsbD 0 ∧
        addr = fun c => pAddr c.w o.a o.sreg o.off.toInt n) ∨
     (∃ o : NM, i = .lds32 o ∧ d = o.d.toNat ∧ n = 4 ∧ sx = false ∧ addr = fun c => pAddr c.w o.a false o.off.toInt 4)) →
    CompletesIf i
      (fun _ c => Aligned c i n (addr c) ∧ Within c i c.b.scrSize n (addr c) ∧
        ∀ l : Lane, (c.lanes i).getLsbD l.val = true → c.b.fifoAt (addr c l) = false)
      (fun s c t w => ScratchDone i s c t w ∧ (∃ b, t.block? c.ref.block = some b ∧ b = { c.b with warps := b.warps }) ∧
        ∀ l : Lane, (c.lanes i).getLsbD l.val = true →
          (4 ≤ n → w.data d n l = c.b.read (addr c l) n) ∧
          (n < 4 → w.vl d l = BitVec.ofNat 32 (intBits 32 (intVal (8 * n) sx (c.b.read (addr c l) n))))) ∧
    ∀ (l : Lane) (k : Nat) (x : BankSt), CompletesIf i
      (fun _ c => Aligned c i n (addr c) ∧ Within c i c.b.scrSize n (addr c) ∧ (n = 4 ∨ n = 8) ∧ lanesOf (c.lanes i) = [l] ∧
        addr c l / Config.bankBytes = k ∧ c.b.banks[k]? = some x ∧ x.fifo = true ∧ n / 4 ≤ x.queue.length)
      (fun s c t w => ScratchDone i s c t w ∧
        (∃ b, t.block? c.ref.block = some b ∧ b.scratch = c.b.scratch ∧
          b.banks[k]? = some { x with queue := x.queue.drop (n / 4) } ∧ ∀ j, j ≠ k → b.banks[j]? = c.b.banks[j]?) ∧
        (∀ e, e < n / 4 → some (w.vl (d + e) l) = x.queue[e]?))

/-- R175, R176, R178, R181: STS and its 32-bit form write the block's scratchpad, the highest lane last; every other byte stays;
a bank in FIFO mode takes the words at its end. -/
def ScratchStoresWriteTheScratchpad : Prop :=
  ∀ (i : Instr) (n : Nat) (ord : Ord) (addr data : Ctx → Lane → Nat),
    ((∃ o : Xp, i = .sts o ∧ n = o.width.bytes ∧ ord = o.ord ∧ addr = (fun c => pAddr c.w o.a o.sreg o.off.toInt n) ∧
        data = fun c => c.w.data o.b.toNat n) ∨
     (∃ o : NM, i = .sts32 o ∧ n = 4 ∧ ord = .rlx ∧ addr = (fun c => pAddr c.w o.a false o.off.toInt 4) ∧
        data = fun c l => (c.w.vl o.d.toNat l).toNat)) →
    CompletesIf i
      (fun s c => Aligned c i n (addr c) ∧ Within c i c.b.scrSize n (addr c) ∧ Released s c ord .core ∧
        ∀ l : Lane, (c.lanes i).getLsbD l.val = true → c.b.fifoAt (addr c l) = false)
      (fun s c t w => ScratchDone i s c t w ∧ w.v = c.w.v ∧ ∃ b, t.block? c.ref.block = some b ∧
        b = { c.b with warps := b.warps, scratch := b.scratch, spoilt := b.spoilt } ∧
        ((∀ k, s.objPending c.ref.block k = false) → b.spoilt = c.b.spoilt) ∧
        (∀ x, (∀ l : Lane, (c.lanes i).getLsbD l.val = true → x < addr c l ∨ addr c l + n ≤ x) → b.byte x = c.b.byte x) ∧
        (∀ (l : Lane) k, (c.lanes i).getLsbD l.val = true → k < n →
          (∀ j : Lane, l < j → (c.lanes i).getLsbD j.val = true → addr c j ≠ addr c l) →
          b.byte (addr c l + k) = byteOf (data c l) k)) ∧
    ∀ (l : Lane) (k : Nat) (x : BankSt), CompletesIf i
      (fun s c => Aligned c i n (addr c) ∧ Within c i c.b.scrSize n (addr c) ∧ Released s c ord .core ∧ (n = 4 ∨ n = 8) ∧
        lanesOf (c.lanes i) = [l] ∧ addr c l / Config.bankBytes = k ∧ c.b.banks[k]? = some x ∧ x.fifo = true ∧
        x.queue.length + n / 4 ≤ Config.fifoWords)
      (fun s c t w => ScratchDone i s c t w ∧ w.v = c.w.v ∧ ∃ b, t.block? c.ref.block = some b ∧ b.scratch = c.b.scratch ∧
        b.banks[k]? = some { x with
          queue := x.queue ++ (List.range (n / 4)).map fun e => BitVec.ofNat 32 (data c l / 2 ^ (32 * e)) } ∧
        ∀ j, j ≠ k → b.banks[j]? = c.b.banks[j]?)

/-- The value at a lane's address as the atomics of the lanes before it leave it (R183). -/
def atomsBefore (op : AtomOp) (n : Nat) (addr : Lane → Nat) (opnd : Lane → Nat × Nat) (ls : List Lane) (a v : Nat) : Nat :=
  ls.foldl (fun v k => if addr k = a then atomNew op n v (opnd k).1 (opnd k).2 % 2 ^ (8 * n) else v) v

/-- R183, R184: ATOMS performs its lanes in ascending order on the scratchpad: a lane's register takes the value the lanes
below it have left at its address, and the last lane's result stays; every other byte stays. -/
def ScratchAtomicsRunInLaneOrder : Prop :=
  ∀ o : Xas,
    let n := o.width.bytes
    let addr (c : Ctx) := pAddr c.w o.a o.sreg o.off.toInt n
    let opnd (c : Ctx) := atomOpnd c.w o.op o.b.toNat n
    CompletesIf (.atoms o)
      (fun s c => Aligned c (.atoms o) n (addr c) ∧ Within c (.atoms o) c.b.scrSize n (addr c) ∧ Released s c o.ord .core ∧
        ∀ l : Lane, (c.lanes (.atoms o)).getLsbD l.val = true → c.b.fifoAt (addr c l) = false)
      (fun s c t w => ScratchDone (.atoms o) s c t w ∧ ∃ b, t.block? c.ref.block = some b ∧
        b = { c.b with warps := b.warps, scratch := b.scratch } ∧
        (∀ x, (∀ l : Lane, (c.lanes (.atoms o)).getLsbD l.val = true → x < addr c l ∨ addr c l + n ≤ x) →
          b.byte x = c.b.byte x) ∧
        ∀ l : Lane, (c.lanes (.atoms o)).getLsbD l.val = true →
          b.read (addr c l) n = atomsBefore o.op n (addr c) (opnd c) (lanesOf (c.lanes (.atoms o))) (addr c l) (c.b.read (addr c l) n) ∧
          w.data o.d.toNat n l = atomsBefore o.op n (addr c) (opnd c)
            ((lanesOf (c.lanes (.atoms o))).filter (· < l)) (addr c l) (c.b.read (addr c l) n))

/-- R175-R178, R181, R183: the accesses to the block's scratchpad. -/
def Obligations.ScratchpadAccessesTakeEffectAtOnce : Prop :=
  ScratchLoadsReadTheScratchpad ∧ ScratchStoresWriteTheScratchpad ∧ ScratchAtomicsRunInLaneOrder

/-- The local line of the L1 that holds a lane's local address (R253). -/
def localHit (s : State) (c : Ctx) (va : Nat) : Option L1Line :=
  (s.core c.b.core).lines.find? fun x => x.asid == c.l.asid && x.vline == va / 128 && x.loc

/-- R180, R253, R300, R324: LDL reads each lane's own local memory: from the local lines of the L1 where those serve every lane, with
cache hint 3 once it is translated; or, for one lane, from memory, with a new line. -/
def LocalLoadsReadTheLanesOwnMemory : Prop :=
  (∀ (o : Xp) (ln : Lane → L1Line),
    let va (c : Ctx) (l : Lane) := localVa c l (pAddr c.w o.a o.sreg o.off.toInt o.width.bytes l)
    CompletesIf (.ldl o)
      (fun s c => Aligned c (.ldl o) o.width.bytes (pAddr c.w o.a o.sreg o.off.toInt o.width.bytes) ∧
        Within c (.ldl o) c.l.desc.localBytes o.width.bytes (pAddr c.w o.a o.sreg o.off.toInt o.width.bytes) ∧
        (o.hint = .noL1 → ∃ pa a, LanesMap s c (.ldl o) (va c) .rd false pa a) ∧
        ∀ l : Lane, (c.lanes (.ldl o)).getLsbD l.val = true → localHit s c (va c l) = some (ln l) ∧
          (o.hint ≠ .noL1 → (ln l).attr.r = true) ∧ (ln l).badIn (va c l) o.width.bytes = none ∧ (ln l).attr.undef = false ∧
          va c l % 128 + o.width.bytes ≤ 128)
      fun s c t w => Sent (.ldl o) s c t w (vRegs o.d.toNat o.width.bytes) c.f.acquire fun l =>
        { baseReq s c l .read (va c l) (lineBase (ln l).pline + va c l % 128) (ln l).attr o.width.bytes with
          dst := some o.d.toNat, sx := o.b.getLsbD 0, loc := true, st := .performed
          value := BitVec.ofNat 128 (leNat (((ln l).data.drop (va c l % 128)).take o.width.bytes)) }) ∧
  (∀ (o : Xp) (l : Lane) (pa : Lane → Nat) (a : Lane → Attr),
    let va (c : Ctx) (l : Lane) := localVa c l (pAddr c.w o.a o.sreg o.off.toInt o.width.bytes l)
    CompletesIf (.ldl o)
      (fun s c => Aligned c (.ldl o) o.width.bytes (pAddr c.w o.a o.sreg o.off.toInt o.width.bytes) ∧
        Within c (.ldl o) c.l.desc.localBytes o.width.bytes (pAddr c.w o.a o.sreg o.off.toInt o.width.bytes) ∧
        lanesOf (c.lanes (.ldl o)) = [l] ∧ localHit s c (va c l) = none ∧ va c l % 128 + o.width.bytes ≤ 128 ∧
        LanesMap s c (.ldl o) (va c) .rd true pa a ∧ s.badIn (a l) (va c l) (pa l) o.width.bytes = none ∧ (a l).target = .device ∧
        s.undefAt (a l) (pa l) o.width.bytes = false ∧ NoDirty s)
      fun s c t w => (∃ q, t.reqs = s.reqs ++ [q] ∧ q.dst = some o.d.toNat ∧ q.lane = l.val ∧ q.st = .performed ∧ q.loc = true ∧
          q.value = BitVec.ofNat 128 (s.mem.read (pa l) o.width.bytes)) ∧
        w.v = c.w.v ∧ w.s = c.w.s ∧ w.cc0 = c.w.cc0 ∧ w.cc1 = c.w.cc1 ∧
        ∃ g, w.frag? c.ref.sel = some g ∧ Fallen (.ldl o) c.f g)

/-- R180, R253, R300, R324: STL of one lane, once translated, writes a local line of the L1 and marks its words dirty, with no byte of
memory changed; past the L1, on a page of another policy, it writes exactly its bytes of memory; a line it does not find is filled
first, once the quad's older copies of it are written back (R326), and where none can be kept its bytes go to memory. -/
def LocalStoresWriteTheLanesOwnMemory : Prop :=
  (∀ (o : Xp) (l : Lane) (ln : L1Line) (pa : Lane → Nat) (a : Lane → Attr),
    let va (c : Ctx) (l : Lane) := localVa c l (pAddr c.w o.a o.sreg o.off.toInt o.width.bytes l)
    CompletesIf (.stl o)
      (fun s c => Aligned c (.stl o) o.width.bytes (pAddr c.w o.a o.sreg o.off.toInt o.width.bytes) ∧
        Within c (.stl o) c.l.desc.localBytes o.width.bytes (pAddr c.w o.a o.sreg o.off.toInt o.width.bytes) ∧
        lanesOf (c.lanes (.stl o)) = [l] ∧ localHit s c (va c l) = some ln ∧ va c l % 128 + o.width.bytes ≤ 128 ∧
        LanesMap s c (.stl o) (va c) .wr false pa a)
      fun s c t w => t.reqs = s.reqs ∧ SameData c.w w ∧ SameSpecials c.w w ∧
        (∃ g, w.frag? c.ref.sel = some g ∧ Fallen (.stl o) c.f g) ∧
        t.mem = s.mem ∧ t.host = s.host ∧
        localHit t c (va c l) = some (ln.storeLocal (va c l) (leBytes o.width.bytes (c.w.data o.b.toNat o.width.bytes l)))) ∧
  (∀ (o : Xp) (l : Lane) (pa : Lane → Nat) (a : Lane → Attr),
    let va (c : Ctx) (l : Lane) := localVa c l (pAddr c.w o.a o.sreg o.off.toInt o.width.bytes l)
    CompletesIf (.stl o)
      (fun s c => Aligned c (.stl o) o.width.bytes (pAddr c.w o.a o.sreg o.off.toInt o.width.bytes) ∧
        Within c (.stl o) c.l.desc.localBytes o.width.bytes (pAddr c.w o.a o.sreg o.off.toInt o.width.bytes) ∧
        lanesOf (c.lanes (.stl o)) = [l] ∧ localHit s c (va c l) = none ∧ va c l % 128 + o.width.bytes ≤ 128 ∧
        LanesMap s c (.stl o) (va c) .wr false pa a ∧ (a l).target = .device ∧ (a l).policy ≠ 0 ∧ s.memOk)
      fun s c t w => t.reqs = s.reqs ∧ SameData c.w w ∧ SameSpecials c.w w ∧
        (∃ g, w.frag? c.ref.sel = some g ∧ Fallen (.stl o) c.f g) ∧
        (t.host = s.host ∧
          (∀ x, x < pa l ∨ pa l + o.width.bytes ≤ x → t.mem.get x = s.mem.get x) ∧
          ∀ k, k < o.width.bytes → t.mem.get (pa l + k) = byteOf (c.w.data o.b.toNat o.width.bytes l) k)) ∧
  (∀ (o : Xp) (l : Lane) (pa : Lane → Nat) (a : Lane → Attr),
    let va (c : Ctx) (l : Lane) := localVa c l (pAddr c.w o.a o.sreg o.off.toInt o.width.bytes l)
    CompletesIf (.stl o)
      (fun s c => Aligned c (.stl o) o.width.bytes (pAddr c.w o.a o.sreg o.off.toInt o.width.bytes) ∧
        Within c (.stl o) c.l.desc.localBytes o.width.bytes (pAddr c.w o.a o.sreg o.off.toInt o.width.bytes) ∧
        lanesOf (c.lanes (.stl o)) = [l] ∧ localHit s c (va c l) = none ∧ va c l % 128 + o.width.bytes ≤ 128 ∧
        LanesMap s c (.stl o) (va c) .wr false pa a ∧ (a l).target = .device ∧ (a l).policy = 0)
      fun s c t w => t.reqs = s.reqs ∧ SameData c.w w ∧ SameSpecials c.w w ∧
        (∃ g, w.frag? c.ref.sel = some g ∧ Fallen (.stl o) c.f g) ∧
        (let key := lineKey .device (pa l)
         let u := s.removeOlder c.b.core key
         (s.core c.b.core).lines.length < 128 * s.cacheBanks c.b.core → localHit t c (va c l) = some (L1Line.storeLocal
          ⟨c.l.asid, va c l / 128, key, a l, u.lineBytes .device (lineBase key), none, 0, true, 0, u.badSectors c.b.core (a l) key⟩
          (va c l) (leBytes o.width.bytes (c.w.data o.b.toNat o.width.bytes l)))) ∧
        (localHit t c (va c l) = none → s.memOk →
          ∀ k, k < o.width.bytes → t.mem.get (pa l + k) = byteOf (c.w.data o.b.toNat o.width.bytes l) k))

/-- R180, R253, R300: LDL and STL. -/
def Obligations.LocalAccessesReadAndWriteTheLanesOwnMemory : Prop :=
  LocalLoadsReadTheLanesOwnMemory ∧ LocalStoresWriteTheLanesOwnMemory

/-- R180, R254: LDC reads the constant bank as it stood at the launch, one request a lane; a word changed since has some value. -/
def ConstantLoadsReadTheBank : Prop :=
  ∀ (o : Xp) (pa : Lane → Nat) (a : Lane → Attr),
    let addr (c : Ctx) := pAddr c.w o.a o.sreg o.off.toInt o.width.bytes
    let va (c : Ctx) (l : Lane) := (c.l.desc.cbank.toNat + addr c l) % 2 ^ 56
    CompletesIf (.ldc o)
      (fun s c => Aligned c (.ldc o) o.width.bytes (addr c) ∧ Within c (.ldc o) 65536 o.width.bytes (addr c) ∧
        LanesMap s c (.ldc o) (va c) .rd true pa a ∧ ∀ l : Lane, (c.lanes (.ldc o)).getLsbD l.val = true →
          (a l).target = .device ∧ s.undefAt (a l) (pa l) o.width.bytes = false ∧
          c.l.image.read (pa l) o.width.bytes = s.mem.read (pa l) o.width.bytes ∧
          ∀ p ∈ s.past, ¬(p.target = .device ∧ c.l.begun ≤ p.until_ ∧ p.at_ < pa l + o.width.bytes ∧ pa l < p.at_ + 2))
      (fun s c t w => Sent (.ldc o) s c t w (vRegs o.d.toNat o.width.bytes) c.f.acquire fun l =>
        { baseReq s c l .read (va c l) (pa l) (a l) o.width.bytes with
          dst := some o.d.toNat, sx := o.b.getLsbD 0, loc := true, st := .performed
          value := BitVec.ofNat 128 (c.l.image.read (pa l) o.width.bytes) }) ∧
    ∀ l : Lane, CompletesIf (.ldc o)
      (fun s c => Aligned c (.ldc o) o.width.bytes (addr c) ∧ Within c (.ldc o) 65536 o.width.bytes (addr c) ∧
        lanesOf (c.lanes (.ldc o)) = [l] ∧ LanesMap s c (.ldc o) (va c) .rd true pa a ∧ (a l).target = .device)
      (fun s c t w => ∃ v, Sent (.ldc o) s c t w (vRegs o.d.toNat o.width.bytes) c.f.acquire fun l =>
        { baseReq s c l .read (va c l) (pa l) (a l) o.width.bytes with
          dst := some o.d.toNat, sx := o.b.getLsbD 0, loc := true, st := .performed, value := v })

/-- R176, R182: LDA sends one request a lane, whose bytes are to land at the lane's offset of the scratchpad and to be counted
into a barrier object. -/
def AsyncLoadsSendTheirRequests : Prop :=
  ∀ (o : Xm) (pa : Lane → Nat) (a : Lane → Attr),
    let n := o.width.bytes
    let off (c : Ctx) (l : Lane) := (c.w.vl o.d.toNat l).toNat
    CompletesIf (.lda o)
      (fun s c => Aligned c (.lda o) n (gAddr c.w o.a o.off.toInt n) ∧ Aligned c (.lda o) n (off c) ∧
        Within c (.lda o) c.b.scrSize n (off c) ∧ objCheck c (c.w.sr o.b.toNat).toNat = none ∧
        LanesMap s c (.lda o) (gAddr c.w o.a o.off.toInt n) .rd true pa a ∧
        ∀ l : Lane, ((c.lanes (.lda o)).getLsbD l.val = true → c.b.fifoAt (off c l) = false) ∧
          (o.hint = .noL1 ∨ s.l1Find c (gAddr c.w o.a o.off.toInt n l) = none))
      fun s c t w => Sent (.lda o) s c t w [] c.f.acquire fun l =>
        { baseReq s c l (.deliver (off c l) (c.w.sr o.b.toNat).toNat) (gAddr c.w o.a o.off.toInt n l) (pa l) (a l) n with
          epoch := c.b.bankEpoch (off c l / Config.bankBytes) }

/-- R180, R182: LDC and LDA. -/
def Obligations.ConstantAndAsynchronousLoadsSendTheirRequests : Prop :=
  ConstantLoadsReadTheBank ∧ AsyncLoadsSendTheirRequests

/-- R185: SC sends its lanes' requests and waits; once every lane's outcome is back, D is 0 where the store was made and 1
where it was not, and with C = 1 Z says the same. -/
def StoreConditionalReportsItsOutcome : Prop :=
  (∀ (o : Xm) (pa : Lane → Nat) (a : Lane → Attr) s c, Issues (.sc o) s c →
    Aligned c (.sc o) o.width.bytes (gAddr c.w o.a o.off.toInt o.width.bytes) → Released s c o.ord o.scope →
    LanesMap s c (.sc o) (gAddr c.w o.a o.off.toInt o.width.bytes) .wr true pa a → c.lanes (.sc o) ≠ 0 →
    s.scReqs c (c.lanes (.sc o)) = [] → NoDirty s →
    (∀ q ∈ s.reqs, q.block = c.ref.block → q.warp = c.ref.warp → q.lr = true → q.st ≠ .queued) →
    ∃ t, exec (.sc o) s = .next t ∧
      t.reqs = s.reqs ++ ((lanesOf (c.lanes (.sc o))).zipIdx.map fun x =>
        { baseReq s c x.1 .sc (gAddr c.w o.a o.off.toInt o.width.bytes x.1) (pa x.1) (a x.1) o.width.bytes with
          data := BitVec.ofNat 128 (c.w.data o.b.toNat o.width.bytes x.1), id := s.nextReq + x.2, sentAt := s.time }) ∧
      t.warp? c.ref.block c.ref.warp = some (c.w.modFrag (fun f => { f with st := .waitFence, cond := .scReturned }) c.ref.sel)) ∧
  (∀ (o : Xm) (q : Lane → Req), CompletesIf (.sc o)
    (fun s c => Aligned c (.sc o) o.width.bytes (gAddr c.w o.a o.off.toInt o.width.bytes) ∧ Released s c o.ord o.scope ∧
      s.scReqs c (c.lanes (.sc o)) = (lanesOf (c.lanes (.sc o))).map q ∧
      (∀ l : Lane, (q l).lane = l.val ∧ (q l).valueBack = true) ∧
      (∀ q ∈ s.reqs, q.block = c.ref.block → q.warp = c.ref.warp → q.lr = true → q.st ≠ .queued))
    fun _ c _ w => (∃ g, w.frag? c.ref.sel = some g ∧ Fallen (.sc o) c.f g) ∧ SameRegs (.sc o) c w ∧ SameFull c.w w ∧
      SameSpecials c.w w ∧
      ∀ l : Lane, (c.lanes (.sc o)).getLsbD l.val = true → w.vl o.d.toNat l = (if (q l).scOk then 0 else 1) ∧
        ∀ k, (Instr.sc o).layout.ccOut = some k → w.cc k l = { n := false, z := (q l).scOk, c := false, v := false })

/-- R183-R185: the global atomics and SC. -/
def Obligations.AtomicsAndStoreConditionalsSendTheirRequests : Prop :=
  AtomicsSendTheirRequests ∧ StoreConditionalReportsItsOutcome

/-- R176, R180, R335: a lane out of line takes the misaligned-access trap (6) with the width in bytes as XINFO, the lowest such
lane's address and the lanes; one past its space's bound the bounds trap (7). Nothing is performed. -/
def MisalignedAndOutOfBoundsAccessesTrap : Prop :=
  (∀ (i : Instr) (n : Nat) (addr : Ctx → Lane → Nat),
    ((∃ o : Xm, (i = .ld o ∨ i = .st o ∨ i = .lr o ∨ i = .sc o ∨ i = .lda o) ∧ n = o.width.bytes ∧
        addr = fun c => gAddr c.w o.a o.off.toInt n) ∨
     (∃ o : NM, (i = .ld32 o ∨ i = .st32 o) ∧ n = 4 ∧ addr = fun c => gAddr c.w o.a o.off.toInt 4) ∨
     (∃ o : Xa, (i = .atom o ∨ i = .red o) ∧ n = o.width.bytes ∧ addr = fun c => gAddr c.w o.a o.off.toInt n) ∨
     (∃ o : Xp, (i = .lds o ∨ i = .sts o ∨ i = .ldl o ∨ i = .stl o ∨ i = .ldc o) ∧ n = o.width.bytes ∧
        addr = fun c => pAddr c.w o.a o.sreg o.off.toInt n) ∨
     (∃ o : Xas, i = .atoms o ∧ n = o.width.bytes ∧ addr = fun c => pAddr c.w o.a o.sreg o.off.toInt n)) →
    ∀ s c l r, Issues i s c → ((lanesOf (c.lanes i)).filter fun l => addr c l % n != 0) = l :: r →
      exec i s = .next (s.takeTrap c ⟨6, BitVec.ofNat 64 (addr c l),
        maskOf fun k => (c.lanes i).getLsbD k.val && addr c k % n != 0, BitVec.ofNat 32 n, c.f.pc⟩)) ∧
  (∀ (i : Instr) (lim : Ctx → Nat) (info : Word) (o : Xp),
    ((i = .lds o ∨ i = .sts o) ∧ lim = (fun c => c.b.scrSize) ∧ info = 0 ∨
     (i = .ldl o ∨ i = .stl o) ∧ lim = (fun c => c.l.desc.localBytes) ∧ info = 1 ∨
     i = .ldc o ∧ lim = (fun _ => 65536) ∧ info = 2) →
    let addr (c : Ctx) := pAddr c.w o.a o.sreg o.off.toInt o.width.bytes
    ∀ s c l r, Issues i s c → Aligned c i o.width.bytes (addr c) →
      ((lanesOf (c.lanes i)).filter fun l => decide (lim c < addr c l + o.width.bytes)) = l :: r →
      exec i s = .next (s.takeTrap c ⟨7, BitVec.ofNat 64 (addr c l),
        maskOf fun k => (c.lanes i).getLsbD k.val && decide (lim c < addr c k + o.width.bytes), info, c.f.pc⟩))

/-- R331, R332: a load of one lane whose translation finds no entry posts a fault record and parks its fragment past the load, its
destination empty; with the fault ring off it traps with the code. -/
def AMissingTranslationParksOrTraps : Prop :=
  ∀ (o : Xm) (l : Lane) s c, Issues (.ld o) s c →
    Aligned c (.ld o) o.width.bytes (gAddr c.w o.a o.off.toInt o.width.bytes) → lanesOf (c.lanes (.ld o)) = [l] →
    let va := gAddr c.w o.a o.off.toInt o.width.bytes l
    s.l1Find c va = none → s.tlbFind (s.quadOf c.b.core) c.l.asid va = none → s.walk c.l.asid va = none →
    (s.fq.en = true → ∃ t w f, exec (.ld o) s = .next t ∧ t.warp? c.ref.block c.ref.warp = some w ∧
      t.faultQ = s.faultQ ++ [⟨s.nextFault, 0x0A, Acc.rd.code, c.l.asid, va, c.l.id, c.b.core, c.w.warpSlot, s.time⟩] ∧
      w.frag? c.ref.sel = some f ∧ f.st = .parkedReplay ∧ f.pc = c.f.pc + 8 ∧ w.v = c.w.v ∧ t.reqs = s.reqs ∧
      ∀ r, r < 128 → w.vFull.getLsbD r = (c.w.vFull.getLsbD r && !(vRegs o.d.toNat o.width.bytes).contains (.v, r))) ∧
    (s.fq.en = false → exec (.ld o) s = .next ((s.noteIssue c (Instr.ld o).layout).takeTrap c ⟨0x0A, BitVec.ofNat 64 va, 1#32 <<< l.val, 0, c.f.pc⟩))

/-- R176, R330, R331: the checks of an access. -/
def Obligations.AccessesThatFailTrapOrPark : Prop :=
  MisalignedAndOutOfBoundsAccessesTrap ∧ AMissingTranslationParksOrTraps

/-! ### Requests at their slices and what comes back -/

/-- A request waits at a slice of this device, first in its port's order at its line (R262). -/
def AtSlice (s : State) (id : Nat) (q : Req) : Prop :=
  s.req? id = some q ∧ q.st = .queued ∧ (∀ d, q.attr.target ≠ .remote d) ∧ s.first q = true ∧ s.numbered

/-- No lane of a request's instruction has failed (R336). -/
def NoneFailed (s : State) (q : Req) : Prop :=
  ∀ x ∈ s.reqs, x.block = q.block → x.warp = q.warp → x.ins = q.ins → x.failure = none

/-- The lease a slice keeps for a line is over (R268). -/
def leaseOver (s : State) (q : Req) : Bool := decide ((tget {} s.l2 q.line).lexp ≤ s.time)

/-- R177, R185, R262, R268, R342: a slice performs a store: its bytes of device memory, and no other, take the data; the times are the
lease's; every reservation on a granule it reaches is cleared; no register changes, and no sector becomes bad. -/
def ASliceWriteStoresExactlyItsBytes : Prop :=
  ∀ (s : State) (id : Nat) (q : Req), AtSlice s id q → q.kind = .write → q.attr.target = .device → s.memOk →
    s.lostAt q.attr.tier q.pa = none → q.pa % 128 + q.bytes ≤ 128 → 0 < q.bytes →
    ∃ t, exec (.sliceWrite id) s = .next t ∧ t.host = s.host ∧ t.vault = s.vault ∧
      (∀ a, a < q.pa ∨ q.pa + q.bytes ≤ a → t.mem.get a = s.mem.get a) ∧
      (∀ k, k < q.bytes → t.mem.get (q.pa + k) = byteOf q.data.toNat k) ∧
      (let wdev := max s.time (tget {} s.l2 q.line).lexp
       let held := !leaseOver s q && (tget {} s.l2 q.line).dies.getLsbD q.die
       t.req? id = some { q with st := .performed, wdev := wdev, wdie := if held then wdev else s.time } ∧
       (tget {} t.l2 q.line).wct = wdev) ∧
      (∀ u i w, s.warp? u i = some w → ∃ w', t.warp? u i = some w' ∧ w'.v = w.v ∧ w'.s = w.s ∧ w'.h = w.h ∧
        (NoneFailed s q → w'.split = w.split) ∧
        ∀ l : Lane, w'.resv[l] = match w.resv[l] with
          | some g => if g.1 = .device ∧ q.pa / 32 ≤ g.2 ∧ g.2 ≤ (q.pa + q.bytes - 1) / 32 then none else some g
          | none => none) ∧
      (∀ x ∈ t.bad, x ∈ s.bad) ∧ (q.whole = false → t.bad = s.bad)

/-- R177, R185, R268, R269: a slice answers a read, and a lease request, with the value that stands in memory, where that is defined
(R264, R292; notes/assumptions/70.md), and the line's write completion time; LR's reservation begins; no byte of memory changes while
no L1 holds dirty local data. -/
def SliceReadsReturnMemory : Prop :=
  (∀ (s : State) (id : Nat) (q : Req), AtSlice s id q → (q.kind = .read ∨ ∃ o b, q.kind = .deliver o b) →
    s.badAt q.attr.target q.attr.tier q.pa = none → s.undefAt q.attr q.pa q.bytes = false →
    ∃ t x, exec (.sliceRead id) s = .next t ∧ t.req? id = some x ∧ x.st = .performed ∧
      x.value = BitVec.ofNat 128 (s.physRead q.attr.target q.pa q.bytes) ∧
      x.wct = (if q.attr.stable then 0 else (tget {} s.l2 q.line).wct) ∧ t.mem = s.mem ∧ t.host = s.host ∧
      (∀ k, { tget {} t.l2 k with gone := false } = { tget {} s.l2 k with gone := false }) ∧
      (q.lr = true → q.lane < 32 → ∀ w, s.warp? q.block q.warp = some w →
        ∃ w', t.warp? q.block q.warp = some w' ∧ vget none w'.resv q.lane = some (q.attr.target, q.pa / 32))) ∧
  (∀ (s : State) (id : Nat) (q : Req), AtSlice s id q → q.kind = .fill → q.pref = false →
    s.badAt q.attr.target q.attr.tier q.pa = none → s.undefAt q.attr q.pa q.bytes = false → NoDirty s →
    ∃ t x, exec (.sliceLeaseRequest id) s = .next t ∧ t.req? id = some x ∧ x.st = .performed ∧
      x.value = BitVec.ofNat 128 (s.physRead q.attr.target q.pa q.bytes) ∧ t.mem = s.mem ∧ t.host = s.host ∧
      (q.attr.stable = false → (tget {} t.l2 q.line).lexp = max (tget {} s.l2 q.line).lexp
          (s.time + if q.attr.lease = 0 then 64 else if q.attr.lease = 1 then 512 else 4096) ∧
        (tget {} t.l2 q.line).dies = (tget {} s.l2 q.line).dies ||| (1#8 <<< q.die)) ∧
      (q.attr.stable = true → ∀ k, { tget {} t.l2 k with gone := false } = { tget {} s.l2 k with gone := false })) ∧
  (∀ (s : State) (id : Nat) (q : Req), AtSlice s id q → q.kind = .fill → q.pref = true →
    s.badAt q.attr.target q.attr.tier q.pa = none →
    ∃ t, exec (.sliceLeaseRequest id) s = .next t ∧ ∀ x ∈ t.reqs, x.id ≠ id) ∧
  (∀ (s : State) (id : Nat) (q : Req), AtSlice s id q → q.kind = .read → s.badAt q.attr.target q.attr.tier q.pa = none →
    s.undefAt q.attr q.pa q.bytes = true → ∃ t x, exec (.sliceRead id) s = .next t ∧ t.req? id = some x ∧ x.st = .performed ∧
      t.mem = s.mem)

/-- R184, R185, R342: an atomic is one indivisible read-modify-write of its bytes, whose old value goes back, some value where memory's
is undefined; SC stores where its lane holds a reservation on the granule, and else writes nothing; either way the lane's reservation
is gone. In a bad sector neither is performed, and the request has failed. -/
def SliceAtomicsAreIndivisible : Prop :=
  (∀ (s : State) (id : Nat) (q : Req) (op : AtomOp), AtSlice s id q → q.kind = .atomic op → q.attr.target = .device → s.memOk →
    s.badAt .device q.attr.tier q.pa = none → s.undefAt q.attr q.pa q.bytes = false →
    let old := s.mem.read q.pa q.bytes
    ∃ t x, exec (.sliceAtomic id) s = .next t ∧ t.req? id = some x ∧ x.st = .performed ∧ x.value = BitVec.ofNat 128 old ∧
      t.host = s.host ∧ (∀ a, a < q.pa ∨ q.pa + q.bytes ≤ a → t.mem.get a = s.mem.get a) ∧
      t.mem.read q.pa q.bytes = atomNew op q.bytes old q.data.toNat q.arg2.toNat % 2 ^ (8 * q.bytes)) ∧
  (∀ (s : State) (id : Nat) (q : Req) (w : Warp), AtSlice s id q → q.kind = .sc → q.attr.target = .device → s.memOk →
    s.badAt .device q.attr.tier q.pa = none → s.warp? q.block q.warp = some w → q.lane < 32 →
    ∃ t x w', exec (.sliceAtomic id) s = .next t ∧ t.req? id = some x ∧ x.st = .performed ∧
      t.warp? q.block q.warp = some w' ∧ vget none w'.resv q.lane = none ∧ t.host = s.host ∧
      (∀ a, a < q.pa ∨ q.pa + q.bytes ≤ a → t.mem.get a = s.mem.get a) ∧
      (vget none w.resv q.lane = some (.device, q.pa / 32) → x.scOk = true ∧
        t.mem.read q.pa q.bytes = q.data.toNat % 2 ^ (8 * q.bytes)) ∧
      (vget none w.resv q.lane ≠ some (.device, q.pa / 32) → x.scOk = q.scOk ∧ t.mem = s.mem)) ∧
  (∀ (s : State) (id : Nat) (q : Req) (op : AtomOp), AtSlice s id q → q.kind = .atomic op → q.attr.target = .device → s.memOk →
    s.badAt .device q.attr.tier q.pa = none → s.undefAt q.attr q.pa q.bytes = true →
    ∃ t x v, exec (.sliceAtomic id) s = .next t ∧ t.req? id = some x ∧ x.st = .performed ∧ x.value = BitVec.ofNat 128 v ∧
      t.host = s.host ∧ (∀ a, a < q.pa ∨ q.pa + q.bytes ≤ a → t.mem.get a = s.mem.get a) ∧
      t.mem.read q.pa q.bytes = atomNew op q.bytes v q.data.toNat q.arg2.toNat % 2 ^ (8 * q.bytes)) ∧
  (∀ (s : State) (id : Nat) (q : Req) (info : Word), AtSlice s id q → (∃ op, q.kind = .atomic op) ∨ q.kind = .sc → q.pref = false →
    s.badAt q.attr.target q.attr.tier q.pa = some info → ∃ t, exec (.sliceAtomic id) s = .next t ∧ t.mem = s.mem ∧
      t.host = s.host ∧ (t.req? id = none ∨ t.req? id = some { q with st := .failed 0x0B info }))

/-- R184, R185, R262, R268-R270: what a slice does with a request. -/
def Obligations.SlicesPerformTheirRequests : Prop :=
  ASliceWriteStoresExactlyItsBytes ∧ SliceReadsReturnMemory ∧ SliceAtomicsAreIndivisible

/-- R62, R177, R184, R270: a load's value comes back: its lane's registers take it, extended where it is narrow, the horizons its
write completion time, and, with no more due for them, the registers are full; a store's times come back into the horizons, and a
RED's with the time of its read. -/
def ResultsAndTimesComeBack : Prop :=
  (∀ (s : State) (id : Nat) (q : Req) (w : Warp) (d : Nat), s.req? id = some q → q.st = .performed → q.valueBack = false →
    (q.kind = .read ∨ q.kind = .fill) → q.grp = 0 → q.drop = false → q.loc = false → q.dst = some d → q.lane < 32 →
    (q.bytes = 1 ∨ q.bytes = 2 ∨ q.bytes = 4 ∨ q.bytes = 8 ∨ q.bytes = 16) → d + q.bytes / 4 ≤ 128 → d < 128 →
    s.warp? q.block q.warp = some w →
    ∃ t w', exec (.loadResult id) s = .next t ∧ t.warp? q.block q.warp = some w' ∧ (∀ x ∈ t.reqs, x.id ≠ id) ∧
      (4 ≤ q.bytes → w'.data d q.bytes (Fin.ofNat 32 q.lane) = q.value.toNat % 2 ^ (8 * q.bytes)) ∧
      (q.bytes < 4 → w'.vl d (Fin.ofNat 32 q.lane) = BitVec.ofNat 32 (intBits 32 (intVal (8 * q.bytes) q.sx q.value.toNat))) ∧
      (∀ n l, (∀ k, k < max 1 (q.bytes / 4) → n ≠ d + k) ∨ l ≠ Fin.ofNat 32 q.lane → w'.vl n l = w.vl n l) ∧
      w'.hdie = max w.hdie (q.wct + podMargin q.attr) ∧ w'.hdev = max w.hdev (q.wct + podMargin q.attr) ∧
      (s.regsDue q.block q.warp q.id q.dests = false →
        (∀ r ∈ q.dests, r.2 < 128 → w'.vFull.getLsbD r.2 = true)) ∧
      t.mem = s.mem ∧ t.host = s.host) ∧
  (∀ (s : State) (id : Nat) (q : Req) (w : Warp), s.req? id = some q → q.st = .performed → q.timesBack = false → q.kind = .write →
    q.loc = false → s.warp? q.block q.warp = some w →
    ∃ t w', exec (.writeTimesReturn id) s = .next t ∧ t.warp? q.block q.warp = some w' ∧ SameData w w' ∧
      w'.hdie = max w.hdie (q.wdie + podMargin q.attr) ∧ w'.hdev = max w.hdev (q.wdev + podMargin q.attr) ∧
      w'.hpod = max w.hpod q.wdev ∧ (∀ x ∈ t.reqs, x.id ≠ id) ∧ t.mem = s.mem ∧ t.host = s.host) ∧
  (∀ (s : State) (id : Nat) (q : Req) (w : Warp) (op : AtomOp), s.req? id = some q → q.st = .performed → q.timesBack = false →
    q.kind = .atomic op → q.dst = none → q.valueBack = true → q.loc = false → s.warp? q.block q.warp = some w →
    ∃ t w', exec (.writeTimesReturn id) s = .next t ∧ t.warp? q.block q.warp = some w' ∧ SameData w w' ∧
      w'.hdie = max (max w.hdie (q.wdie + podMargin q.attr)) (q.wct + podMargin q.attr) ∧
      w'.hdev = max (max w.hdev (q.wdev + podMargin q.attr)) (q.wct + podMargin q.attr) ∧
      w'.hpod = max (max w.hpod q.wdev) q.wct ∧ (∀ x ∈ t.reqs, x.id ≠ id) ∧ t.mem = s.mem)

/-- R182, R191, R197, R198: a delivery into a bank of the mode it had at issue writes its bytes of the scratchpad and no other, and its
barrier object's bytes still to come fall by their number, where no store has spoilt the object. -/
def DeliveriesLandAndAreCounted : Prop :=
  ∀ (s : State) (id : Nat) (q : Req) (off obj : Nat) (b : Block), s.req? id = some q → q.kind = .deliver off obj →
    q.st = .performed → q.drop = false → s.block? q.block = some b → b.fifoIn off q.bytes = false → b.fifoIn obj 16 = false →
    (off + q.bytes ≤ obj ∨ obj + 16 ≤ off) → q.epoch = b.bankEpoch (off / Config.bankBytes) →
    q.epoch = b.bankEpoch ((off + q.bytes - 1) / Config.bankBytes) → b.spoilt.contains obj = false → -2 ^ 31 ≤ (b.obj obj).pbytes - (q.bytes : Int) →
    ∃ t b', exec (.ldaDelivery id) s = .next t ∧ t.block? q.block = some b' ∧ (∀ x ∈ t.reqs, x.id ≠ id) ∧ t.mem = s.mem ∧
      (∀ k, k < q.bytes → b'.byte (off + k) = byteOf q.value.toNat k) ∧
      (∀ x, (x < off ∨ off + q.bytes ≤ x) → (x < obj ∨ obj + 16 ≤ x) → b'.byte x = b.byte x) ∧
      ((b.obj obj).pbytes - (q.bytes : Int) ≠ 0 ∨ (b.obj obj).parr ≠ 0 →
        (b'.obj obj).pbytes = (b.obj obj).pbytes - q.bytes ∧ (b'.obj obj).phase = (b.obj obj).phase) ∧
      ((b.obj obj).pbytes - (q.bytes : Int) = 0 → (b.obj obj).parr = 0 →
        (b'.obj obj).phase = !(b.obj obj).phase ∧ (b'.obj obj).parr = (b.obj obj).earr)

/-- R62, R177, R182, R197, R270: what comes back from a slice. -/
def Obligations.ResultsTimesAndBytesComeBack : Prop :=
  ResultsAndTimesComeBack ∧ DeliveriesLandAndAreCounted

/-- R28, R186, R187, R242, R283: the events that make a waiting fragment ready again, each under its condition. -/
def WaitingFragmentsWake : Prop :=
  ∀ (s : State) (c : Ctx), s.ctx? c.ref = some c →
    let ready (t : State) : Prop := ∃ w f, t.warp? c.ref.block c.ref.warp = some w ∧ w.frag? c.ref.sel = some f ∧ f.st = .ready ∧
      f.pc = c.f.pc ∧ f.mask = c.f.mask ∧ SameData c.w w ∧ SameOutside s t
    (c.f.st ≠ .ready → c.f.st ≠ .waitConfirm → c.f.cond.plain = true → s.condMet c c.f.cond = true →
      ∃ t, exec (.fragmentWake c.ref) s = .next t ∧ ready t) ∧
    (∀ sc, c.f.st = .waitFence → c.f.cond = .release sc → s.condMet c (.release sc) = true →
      ∃ t w f, exec (.fenceReleaseEnd c.ref) s = .next t ∧ ready t ∧ t.warp? c.ref.block c.ref.warp = some w ∧
        w.frag? c.ref.sel = some f ∧ f.released = true) ∧
    (c.f.st = .waitAddress → (∃ n, c.f.cond = .deadline n) ∨ (∃ ws n, c.f.cond = .monitor ws n) ∨ (∃ ws n, c.f.cond = .scratch ws n) →
      (∃ t, exec (.waitaWake c.ref) s = .next t ∧ ready t) ∧
      (∀ m, c.f.deadline = some m → m ≤ s.time → ∃ t, exec (.waitaTimeout c.ref) s = .next t ∧ ready t) ∧
      (s.condMet c c.f.cond = true → ∃ t, exec (.waitaReread c.ref) s = .next t ∧ ready t) ∧
      (∀ n, c.f.cond = .deadline n → (s.condMet c c.f.cond = true ↔ n ≤ s.time))) ∧
    (c.f.st = .waitResource → c.f.cond = .sumpRoom → s.condMet c .sumpRoom = true →
      ∃ t, exec (.launchSumpRoom c.ref) s = .next t ∧ ready t)

/-! ### Ordering, waiting and the L1 -/

/-- R179, R186, R380: FENCE waits in its release action until it has ended, leaves the acquire action to its fragment, and
changes no register. -/
def FenceOrdersTheFragment : Prop :=
  (∀ o : Xm, CompletesIf (.fence o)
    (fun s c => Released s c o.ord o.scope ∧ (o.scope = .pod → o.ord = .acq → c.failed = []))
    fun s c t w => SameData c.w w ∧ SameSpecials c.w w ∧ t.reqs = s.reqs ∧
      ∃ f, w.frag? c.ref.sel = some f ∧ Fallen (.fence o) c.f f ∧ f.acquire = acquired o.ord o.scope s.nextReq c.f.acquire) ∧
  (∀ (o : Xm) s c, Issues (.fence o) s c → (o.ord = .rel ∨ o.ord = .acqrel) → c.f.released = false →
    s.condMet c (.release o.scope) = false →
    exec (.fence o) s = .next (s.modFrag c.ref fun f => { f with st := .waitFence, cond := .release o.scope }))

/-- R187: WAITA goes on, with Z in the lanes whose comparison holds, once it holds in every executing lane (V = 0) or the
deadline has come (V = 1); until then its fragment waits. That a scratchpad word in a FIFO bank reads as the bank's bytes is
notes/assumptions/76.md's. -/
def WaitaWaitsForItsWords : Prop :=
  (∀ (o : Waita) (k : Bool), o.space = .scratch k →
    let n := o.width.bytes
    let addr (c : Ctx) := pAddr c.w o.a k o.off.toInt n
    let holds (c : Ctx) (l : Lane) : Bool := WaitCmp.holds o.cmp n (c.b.read (addr c l) n) (c.w.data o.b.toNat n l)
    let deadline (s : State) (c : Ctx) : Nat :=
      match c.f.deadline with
      | some t => t
      | none => if c.w.sr o.d.toNat = 0xFFFF_FFFF then 2 ^ 64 - 1 else s.time + (c.w.sr o.d.toNat).toNat
    let ok (c : Ctx) : Prop := Aligned c (.waita o) n (addr c) ∧ Within c (.waita o) c.b.scrSize n (addr c)
    CompletesIf (.waita o)
      (fun s c => ok c ∧ ((∀ l : Lane, (c.lanes (.waita o)).getLsbD l.val = true → holds c l = true) ∨ deadline s c ≤ s.time))
      (fun s c t w => LaneFrame (.waita o) s c t w ∧ ∀ l : Lane, (c.lanes (.waita o)).getLsbD l.val = true →
        w.cc o.h.ccSet l = { n := false, z := holds c l, c := false
                             v := !decide (∀ l : Lane, (c.lanes (.waita o)).getLsbD l.val = true → holds c l = true) }) ∧
    ∀ s c, Issues (.waita o) s c → ok c → (∃ l : Lane, (c.lanes (.waita o)).getLsbD l.val = true ∧ holds c l = false) →
      s.time < deadline s c →
      ∃ t w f, exec (.waita o) s = .next t ∧ t.warp? c.ref.block c.ref.warp = some w ∧ w.frag? c.ref.sel = some f ∧
        f.st = .waitAddress ∧ f.deadline = some (deadline s c) ∧ f.pc = c.f.pc ∧ SameData c.w w) ∧
  (∀ (o : Waita) (sc : Scope) (pa : Lane → Nat) (a : Lane → Attr), o.space = .global sc →
    let n := o.width.bytes
    let addr (c : Ctx) := gAddr c.w o.a o.off.toInt n
    CompletesIf (.waita o)
      (fun s c => Aligned c (.waita o) n (addr c) ∧ LanesMap s c (.waita o) (addr c) .rd true pa a ∧ s.probes c = [] ∧
        ∀ l : Lane, (c.lanes (.waita o)).getLsbD l.val = true → (a l).target = .device ∧
          s.portQueue (s.quadOf c.b.core) (lineKey .device (pa l)) = [] ∧ s.undefAt (a l) (pa l) n = false ∧
          WaitCmp.holds o.cmp n (s.mem.read (pa l) n) (c.w.data o.b.toNat n l) = true)
      fun s c _ w => (∃ f, w.frag? c.ref.sel = some f ∧ Fallen (.waita o) c.f f ∧
          f.acquire = acquired o.ord sc s.nextReq c.f.acquire) ∧
        SameRegs (.waita o) c w ∧ SameFull c.w w ∧ ∀ l : Lane, (c.lanes (.waita o)).getLsbD l.val = true →
          w.cc o.h.ccSet l = { n := false, z := true, c := false, v := false }) ∧
  (∀ (o : Waita) (sc : Scope) (pa : Lane → Nat) (a : Lane → Attr), o.space = .global sc →
    let n := o.width.bytes
    let addr (c : Ctx) := gAddr c.w o.a o.off.toInt n
    let holds (s : State) (c : Ctx) (l : Lane) : Bool := WaitCmp.holds o.cmp n (s.mem.read (pa l) n) (c.w.data o.b.toNat n l)
    CompletesIf (.waita o)
      (fun s c => Aligned c (.waita o) n (addr c) ∧ LanesMap s c (.waita o) (addr c) .rd true pa a ∧ s.probes c = [] ∧
        (∀ l : Lane, (c.lanes (.waita o)).getLsbD l.val = true → (a l).target = .device ∧
          s.portQueue (s.quadOf c.b.core) (lineKey .device (pa l)) = [] ∧ s.undefAt (a l) (pa l) n = false) ∧
        (∃ l : Lane, (c.lanes (.waita o)).getLsbD l.val = true ∧ holds s c l = false) ∧
        ((∃ m, c.f.deadline = some m ∧ m ≤ s.time) ∨ (c.f.deadline = none ∧ c.w.sr o.d.toNat = 0)))
      fun s c t w => (∃ f, w.frag? c.ref.sel = some f ∧ Fallen (.waita o) c.f f ∧
          f.acquire = acquired o.ord sc s.nextReq c.f.acquire) ∧
        SameRegs (.waita o) c w ∧ SameFull c.w w ∧ t.mem = s.mem ∧
        ∀ l : Lane, (c.lanes (.waita o)).getLsbD l.val = true →
          w.cc o.h.ccSet l = { n := false, z := holds s c l, c := false, v := true }) ∧
  (∀ (o : Waita) (sc : Scope) (pa : Lane → Nat) (a : Lane → Attr) s c, o.space = .global sc →
    let n := o.width.bytes
    let addr := gAddr c.w o.a o.off.toInt n
    Issues (.waita o) s c → Aligned c (.waita o) n addr → LanesMap s c (.waita o) addr .rd true pa a → s.probes c = [] →
    (∀ l : Lane, (c.lanes (.waita o)).getLsbD l.val = true → (a l).target = .device ∧
      s.portQueue (s.quadOf c.b.core) (lineKey .device (pa l)) = [] ∧ s.undefAt (a l) (pa l) n = false) →
    (∃ l : Lane, (c.lanes (.waita o)).getLsbD l.val = true ∧
      WaitCmp.holds o.cmp n (s.mem.read (pa l) n) (c.w.data o.b.toNat n l) = false) →
    c.f.deadline = none → c.w.sr o.d.toNat ≠ 0 → s.time < 2 ^ 64 - 1 →
    ∃ t w f, exec (.waita o) s = .next t ∧ t.warp? c.ref.block c.ref.warp = some w ∧ w.frag? c.ref.sel = some f ∧
      f.st = .waitAddress ∧ f.pc = c.f.pc ∧ SameData c.w w ∧
      f.deadline = some (if c.w.sr o.d.toNat = 0xFFFF_FFFF then 2 ^ 64 - 1 else s.time + (c.w.sr o.d.toNat).toNat))

/-- R28, R179, R186, R187, R242, R283, R380: fences, address waits, and the end of every wait. -/
def Obligations.FragmentsWaitAndWake : Prop :=
  WaitingFragmentsWake ∧ FenceOrdersTheFragment ∧ WaitaWaitsForItsWords

/-- R188, R189: PREF changes no register and sends prefetches alone; LOCK takes the lines of its lanes where their policy and the
quota allow it and says so in the flags; UNLOCK releases those the block holds. -/
def PrefetchAndLockedLines : Prop :=
  (∀ o : Xm, Completes (.pref o) fun s c t w => SameData c.w w ∧ SameSpecials c.w w ∧
    (∃ f, w.frag? c.ref.sel = some f ∧ Fallen (.pref o) c.f f) ∧ t.mem = s.mem ∧ t.host = s.host ∧
    ∃ qs, t.reqs = s.reqs ++ qs ∧ ∀ q ∈ qs, q.pref = true ∧ (q.kind = .fill ∨ q.kind = .read)) ∧
  (∀ (o : Xm) (pa : Lane → Nat) (a : Lane → Attr), CompletesIf (.lock o)
    (fun s c => LanesMap s c (.lock o) (gAddr c.w o.a o.off.toInt 1) .rd true pa a)
    fun s c t w =>
      let new := (linesOf (c.lanes (.lock o)) (gAddr c.w o.a o.off.toInt 1)).filter fun k => !c.b.locked.contains k
      let never : Bool := decide (∃ l : Lane, (c.lanes (.lock o)).getLsbD l.val = true ∧ (a l).policy ≠ 0)
      let fits := !never && decide (c.b.locked.length + new.length ≤ c.b.lockQuota)
      (∃ f, w.frag? c.ref.sel = some f ∧ Fallen (.lock o) c.f f) ∧ SameRegs (.lock o) c w ∧ SameFull c.w w ∧
      (∃ b, t.block? c.ref.block = some b ∧ b.locked = if fits then c.b.locked ++ new else c.b.locked) ∧
      (∀ l : Lane, (c.lanes (.lock o)).getLsbD l.val = true →
        w.cc o.h.ccSet l = { n := never, z := fits, c := false, v := false }) ∧
      (t.mem = s.mem ∧ t.host = s.host)) ∧
  (∀ o : Xm, Completes (.unlock o) fun s c t w => SameData c.w w ∧ SameSpecials c.w w ∧
    (∃ f, w.frag? c.ref.sel = some f ∧ Fallen (.unlock o) c.f f) ∧ SameOutside s t ∧
    ∃ b, t.block? c.ref.block = some b ∧ b.scratch = c.b.scratch ∧ b.banks = c.b.banks ∧
      ∀ k, k ∈ b.locked ↔ k ∈ c.b.locked ∧ ¬∃ l : Lane, (c.lanes (.unlock o)).getLsbD l.val = true ∧
        gAddr c.w o.a o.off.toInt 1 l / 128 = k)

/-- R181, R191: BANK changes the mode of a bank of the block, a queue starting empty; naming the mode the bank has changes
nothing; an index past the allocation traps. -/
def BankChangesTheMode : Prop :=
  (∀ (o : Bank) (x : BankSt), CompletesIf (.bank o)
    (fun s c => c.b.banks[(c.w.sr o.a.toNat).toNat]? = some x ∧ x.fifo ≠ o.fifo ∧
      s.condMet c (.bankQuiet (c.w.sr o.a.toNat).toNat) = true)
    fun s c t w => SameData c.w w ∧ SameSpecials c.w w ∧ (∃ f, w.frag? c.ref.sel = some f ∧ Fallen (.bank o) c.f f) ∧
      SameOutside s t ∧
      ∃ b x', t.block? c.ref.block = some b ∧ b.banks[(c.w.sr o.a.toNat).toNat]? = some x' ∧ x'.fifo = o.fifo ∧ x'.queue = [] ∧
        (∀ j, j ≠ (c.w.sr o.a.toNat).toNat → b.banks[j]? = c.b.banks[j]?) ∧
        ∀ y, y / Config.bankBytes ≠ (c.w.sr o.a.toNat).toNat → b.byte y = c.b.byte y) ∧
  (∀ (o : Bank) (x : BankSt), CompletesIf (.bank o)
    (fun _ c => c.b.banks[(c.w.sr o.a.toNat).toNat]? = some x ∧ x.fifo = o.fifo)
    fun s c t w => LaneFrame (.bank o) s c t w) ∧
  (∀ o : Bank, TrapsWhere (.bank o) (fun _ c => c.b.banks[(c.w.sr o.a.toNat).toNat]? = none) 7 4)

/-- R190: MST stores each lane's data at its offset in the scratchpad of every named core's receiving block, the highest lane
last; every other byte, and every other block's, stays. -/
def MulticastStoresReachEveryReceiver : Prop :=
  ∀ o : Xm,
    let n := o.width.bytes
    let addr (c : Ctx) := pAddr c.w o.a false o.off.toInt n
    let named (c : Ctx) (i : Nat) : Prop := i < 16 ∧ (c.w.sr o.d.toNat).getLsbD i = true
    CompletesIf (.mst o)
      (fun s c => Aligned c (.mst o) n (addr c) ∧ Released s c o.ord o.scope ∧ ∀ i, named c i → ∃ b, s.receiver c.b i = some b ∧
        s.block? b.uid = some b ∧ ∀ l : Lane, (c.lanes (.mst o)).getLsbD l.val = true →
          addr c l + n ≤ b.scrSize ∧ b.fifoIn (addr c l) n = false)
      fun s c t w => SameData c.w w ∧ SameSpecials c.w w ∧ (∃ f, w.frag? c.ref.sel = some f ∧ Fallen (.mst o) c.f f) ∧
        SameOutside s t ∧
        (∀ i b, named c i → s.receiver c.b i = some b → ∃ b', t.block? b.uid = some b' ∧ b'.banks = b.banks ∧
          (∀ x, (∀ l : Lane, (c.lanes (.mst o)).getLsbD l.val = true → x < addr c l ∨ addr c l + n ≤ x) → b'.byte x = b.byte x) ∧
          ∀ (l : Lane) k, (c.lanes (.mst o)).getLsbD l.val = true → k < n →
            (∀ j : Lane, l < j → (c.lanes (.mst o)).getLsbD j.val = true → addr c j ≠ addr c l) →
            b'.byte (addr c l + k) = byteOf (c.w.data o.b.toNat n l) k) ∧
        ∀ u b, s.block? u = some b → (∀ i b', named c i → s.receiver c.b i = some b' → b'.uid ≠ u) →
          ∃ b', t.block? u = some b' ∧ b'.scratch = b.scratch

/-- R181, R190, R191: BANK and MST. -/
def Obligations.BanksAndMulticastStores : Prop :=
  BankChangesTheMode ∧ MulticastStoresReachEveryReceiver

/-- R249, R253: L1INV drops every line of its core's L1 that overlaps the range, and no other; with no dirty local data no byte of
memory changes. -/
def L1invDropsTheRange : Prop :=
  ∀ o : OpAB, CompletesIf (.l1inv o) (fun s c => s.condMet c .warpQuiet = true)
    fun s c t w => SameData c.w w ∧ SameSpecials c.w w ∧ (∃ f, w.frag? c.ref.sel = some f ∧ Fallen (.l1inv o) c.f f) ∧
      (NoDirty s → t.mem = s.mem ∧ t.host = s.host) ∧
      let a := (c.w.sp (o.a.toNat - 1)).toNat % 2 ^ 56
      let n := (c.w.sr o.b.toNat).toNat
      ∀ x, x ∈ (t.core c.b.core).lines ↔ x ∈ (s.core c.b.core).lines ∧
        ¬(x.asid = c.l.asid ∧ n ≠ 0 ∧ ∃ y, a ≤ y ∧ y < a + n ∧ (y / 128 = x.vline ∨ y / 128 = x.vline + 2 ^ 49))

/-- R188, R189, R249, R253: PREF, LOCK, UNLOCK and L1INV. -/
def Obligations.TheL1HoldsLocksAndDropsLines : Prop :=
  PrefetchAndLockedLines ∧ L1invDropsTheRange

/-! ### Barriers and barrier objects -/

/-- What a synchronisation instruction leaves: its fragment past it, every v register and flag, every s register but its
destination, the special registers, and memory. -/
structure Synced (i : Instr) (s : State) (c : Ctx) (t : State) (w : Warp) : Prop where
  frag : ∃ f, w.frag? c.ref.sel = some f ∧ Fallen i c.f f
  otherFrags : ∀ r, r ≠ c.ref.sel → w.frag? r = c.w.frag? r
  regs : SameRegs i c w
  full : SameFull c.w w
  part : w.part = c.w.part ∧ w.x = c.w.x ∧ w.lfsr = c.w.lfsr ∧ w.amax = c.w.amax ∧ w.join = c.w.join ∧ w.exited = c.w.exited
  memory : t.mem = s.mem ∧ t.host = s.host ∧ t.vault = s.vault

/-- R192-R194: which barrier a register value names at a scope. -/
def BarrierNumbersHaveTheirRanges : Prop :=
  ∀ a : Word, barIdOf .core a = (if a.toNat < 16 then some ⟨.core, a.toNat, 0⟩ else none) ∧
    barIdOf .quad a = (if a.toNat < 8 then some ⟨.quad, a.toNat, 0⟩ else none) ∧
    barIdOf .die a = (if a.toNat < 8 then some ⟨.die, a.toNat, 0⟩ else none) ∧
    barIdOf .dev a = (if a.toNat < 8 then some ⟨.dev, a.toNat, 0⟩ else none) ∧
    (a.toNat % 256 < 8 → barIdOf .pod a = some ⟨.pod, a.toNat % 8, a.toNat / 256⟩) ∧
    (8 ≤ a.toNat % 256 → barIdOf .pod a = none)

/-- R193, R196: BARV puts the generation bit in D and its lanes among the arrivals; at core scope the generation toggles once every
warp that has not ended has arrived in every lane not exited; a fragment with lanes arrived already waits for the next generation,
as a whole (notes/assumptions/77.md); the misuses trap. -/
def BarvArrives : Prop :=
  (∀ (o : Xs) (id : BarId) (gen : Bool), CompletesIf (.barv o)
    (fun s c => barIdOf o.scope (c.w.sr o.a.toNat) = some id ∧ s.barGen c.b c.l.id id = some gen ∧
      c.b.hasArrived id c.ref.warp (c.lanes (.barv o)) = false ∧ Released s c o.ord o.scope)
    fun s c t w => Synced (.barv o) s c t w ∧ w.sr o.d.toNat = (if o.d.toNat = 0 then 0 else if gen then 1 else 0) ∧
      ∃ b, t.block? c.ref.block = some b ∧ b.scratch = c.b.scratch ∧ b.ops = c.b.ops ∧
        let x := c.b.arrive id c.ref.warp (c.lanes (.barv o))
        b.bars = x.bars.map fun a => if !x.barArrived a then a
          else if a.bar.scope = .core then { a with gen := !a.gen, lanes := [] } else { a with here := true }) ∧
  (∀ (o : Xs) (id : BarId) (gen : Bool) s c, Issues (.barv o) s c → barIdOf o.scope (c.w.sr o.a.toNat) = some id →
    s.barGen c.b c.l.id id = some gen → c.b.hasArrived id c.ref.warp (c.lanes (.barv o)) = true →
    exec (.barv o) s = .next (s.modFrag c.ref fun f => { f with st := .waitBarrier, cond := .barGen id gen })) ∧
  (∀ o : Xs, TrapsWhere (.barv o) (fun _ c => barIdOf o.scope (c.w.sr o.a.toNat) = none) 0x0C 1) ∧
  (∀ (o : Xs) (id : BarId), TrapsWhere (.barv o) (fun s c => barIdOf o.scope (c.w.sr o.a.toNat) = some id ∧
    s.barGen c.b c.l.id id = none) 0x0C 5)

/-- R193, R194, R196: BWAIT goes on where the generation bit differs from bit 0 of its B, and waits where they are equal; the misuses
trap. -/
def BwaitWaitsForItsGeneration : Prop :=
  (∀ (o : Xs) (id : BarId) (gen : Bool), CompletesIf (.bwait o)
    (fun s c => barIdOf o.scope (c.w.sr o.a.toNat) = some id ∧ s.barGen c.b c.l.id id = some gen ∧
      gen ≠ (c.w.sr o.b.toNat).getLsbD 0)
    fun s c t w => Synced (.bwait o) s c t w ∧ (∃ f, w.frag? c.ref.sel = some f ∧
        f.acquire = acquired o.ord o.scope s.nextReq c.f.acquire) ∧
      ∃ b, t.block? c.ref.block = some b ∧ b = { c.b with warps := b.warps }) ∧
  (∀ (o : Xs) (id : BarId) (gen : Bool) s c, Issues (.bwait o) s c → barIdOf o.scope (c.w.sr o.a.toNat) = some id →
    s.barGen c.b c.l.id id = some gen → gen = (c.w.sr o.b.toNat).getLsbD 0 →
    exec (.bwait o) s = .next (s.modFrag c.ref fun f => { f with st := .waitBarrier, cond := .barGen id gen })) ∧
  (∀ o : Xs, TrapsWhere (.bwait o) (fun _ c => barIdOf o.scope (c.w.sr o.a.toNat) = none) 0x0C 1) ∧
  (∀ (o : Xs) (id : BarId), TrapsWhere (.bwait o) (fun s c => barIdOf o.scope (c.w.sr o.a.toNat) = some id ∧
    s.barGen c.b c.l.id id = none) 0x0C 5)

/-- R194: BGRP makes a barrier group of E blocks, or joins one that has room; joining again changes nothing; the misuses trap. -/
def BgrpMakesAndJoinsGroups : Prop :=
  ∀ o : Xs,
    let n (c : Ctx) := (c.w.sr o.b.toNat).toNat
    let meets (s : State) (c : Ctx) (id : BarId) (g : NetGroup) : Bool := g.of c.l.id id && g.bar.g == id.g &&
      (g.inst == s.instOf g.bar.scope c.b.core || instInside g.bar.scope g.inst o.scope (s.instOf o.scope c.b.core))
    let legal (c : Ctx) : Prop := 1 ≤ n c ∧ n c ≤ 65535 ∧ (c.l.desc.coop = true ∨ c.l.desc.chain = true)
    (∀ id, CompletesIf (.bgrp o)
      (fun s c => barIdOf o.scope (c.w.sr o.a.toNat) = some id ∧ legal c ∧ s.groups.find? (meets s c id) = none)
      fun s c t w => Synced (.bgrp o) s c t w ∧ ∃ g, t.groups = s.groups ++ [g] ∧ g.bar = id ∧ g.expected = n c ∧
        g.members = [c.ref.block] ∧ g.arrived = [] ∧ g.gen = false ∧ g.inst = s.instOf o.scope c.b.core) ∧
    (∀ id g, CompletesIf (.bgrp o)
      (fun s c => barIdOf o.scope (c.w.sr o.a.toNat) = some id ∧ legal c ∧ s.groups.find? (meets s c id) = some g ∧
        g.bar.scope = o.scope ∧ g.expected = n c ∧ (g.members.contains c.ref.block = true ∨ g.members.length < g.expected))
      fun s c t w => Synced (.bgrp o) s c t w ∧
        (g.members.contains c.ref.block = true → t.groups = s.groups) ∧
        (g.members.contains c.ref.block = false → t.groups.length = s.groups.length ∧
          { g with members := g.members ++ [c.ref.block] } ∈ t.groups)) ∧
    TrapsWhere (.bgrp o) (fun _ c => barIdOf o.scope (c.w.sr o.a.toNat) = none ∨ n c = 0 ∨ 65535 < n c) 0x0C 1 ∧
    (∀ id, TrapsWhere (.bgrp o) (fun _ c => barIdOf o.scope (c.w.sr o.a.toNat) = some id ∧ 1 ≤ n c ∧ n c ≤ 65535 ∧
      c.l.desc.coop = false ∧ c.l.desc.chain = false) 0x0C 3) ∧
    (∀ id g, TrapsWhere (.bgrp o) (fun s c => barIdOf o.scope (c.w.sr o.a.toNat) = some id ∧ legal c ∧
      s.groups.find? (meets s c id) = some g ∧ (g.bar.scope ≠ o.scope ∨ g.expected ≠ n c)) 0x0C 2) ∧
    (∀ id g, TrapsWhere (.bgrp o) (fun s c => barIdOf o.scope (c.w.sr o.a.toNat) = some id ∧ legal c ∧
      s.groups.find? (meets s c id) = some g ∧ g.bar.scope = o.scope ∧ g.expected = n c ∧
      g.members.contains c.ref.block = false ∧ g.expected ≤ g.members.length) 0x0C 4)

/-- R193, R195, R380: arrivals reach the barrier network one by one; when E blocks have arrived the group's generation toggles, its
arrivals are 0 again, and its members' arrivals are forgotten; a pod group with a member out of reach does not complete (that a device
which left a request without an answer stays out of reach, and which device a member is of: notes/assumptions/94.md, 96.md). -/
def TheBarrierNetworkCompletes : Prop :=
  (∀ (s : State) (g u : Nat) (x : NetGroup), s.groups[g]? = some x → x.arrived.contains u = false → x.arrived.length < x.expected →
    s.groupArrived x u = true →
    ∃ t, exec (.barrierArrival g u) s = .next t ∧ t.groups[g]? = some { x with arrived := x.arrived ++ [u] } ∧
      (∀ k, k ≠ g → t.groups[k]? = s.groups[k]?) ∧ t.blocks = s.blocks ∧ t.mem = s.mem) ∧
  (∀ (s : State) (g : Nat) (x : NetGroup), s.groups[g]? = some x → x.expected ≤ x.arrived.length → x.pod = true → s.podUp = false →
    x.members.length < x.expected → exec (.barrierComplete g) s = .fault .notEnabled) ∧
  (∀ (s : State) (g u : Nat) (x : NetGroup), s.groups[g]? = some x → x.pod = true → u ∈ x.arrived → u ∉ x.members →
    peerDev u ∈ s.env.unreachable → exec (.barrierComplete g) s = .fault .notEnabled) ∧
  (∀ (s : State) (g : Nat) (x : NetGroup), s.groups[g]? = some x → x.expected ≤ x.arrived.length →
    (x.pod = true → s.podUp = true ∨ x.expected ≤ x.members.length) →
    (x.pod = true → ∀ u ∈ x.arrived, u ∉ x.members → peerDev u ∉ s.env.unreachable) →
    ∃ t, exec (.barrierComplete g) s = .next t ∧ t.groups[g]? = some { x with gen := !x.gen, arrived := [] } ∧
      (∀ k, k ≠ g → t.groups[k]? = s.groups[k]?) ∧ t.mem = s.mem ∧
      ∀ u b, s.block? u = some b → ∃ b', t.block? u = some b' ∧ b'.warps = b.warps ∧ b'.scratch = b.scratch ∧
        (x.members.contains u = false → b' = b))

/-- R192-R196: the hardware barriers. -/
def Obligations.HardwareBarriersCount : Prop :=
  BarrierNumbersHaveTheirRanges ∧ BarvArrives ∧ BwaitWaitsForItsGeneration ∧ BgrpMakesAndJoinsGroups ∧ TheBarrierNetworkCompletes

/-- The object at an offset of the block that may be used: aligned, in bounds, in no FIFO bank (R197), its count of expected bytes
in range, as the operations keep it, and its words not stored to while an operation on it was pending (R198). -/
abbrev ObjAt (c : Ctx) (o : Xs) (x : BarObj) : Prop := objCheck c (c.w.sr o.a.toNat).toNat = none ∧ x = c.b.obj (c.w.sr o.a.toNat).toNat ∧
  x.ebytes < 2 ^ 31 ∧ c.b.spoilt.contains (c.w.sr o.a.toNat).toNat = false

/-- The block after an operation on the barrier object at an offset: the object, after its flip check, and every other byte. -/
def ObjBecomes (c : Ctx) (t : State) (o : Xs) (x : BarObj) : Prop :=
  ∃ b, t.block? c.ref.block = some b ∧ b.obj (c.w.sr o.a.toNat).toNat = x.flip ∧ b.banks = c.b.banks ∧ b.bars = c.b.bars ∧
    ∀ y, y < (c.w.sr o.a.toNat).toNat ∨ (c.w.sr o.a.toNat).toNat + 16 ≤ y → b.byte y = c.b.byte y

/-- R197-R200: the operations on a barrier object: initialise, arrive, wait, test and expect bytes of this or the next phase; a wait
that acquires takes the times of the phase that has ended. One whose words were stored to while an operation on it was pending tests
with some flags (R198; notes/assumptions/78.md). -/
def Obligations.BarrierObjectsCountTheirPhases : Prop :=
  ∀ (o : Xs) (x : BarObj),
    let n (c : Ctx) := (c.w.sr o.b.toNat).toNat
    let bit (c : Ctx) := (c.w.sr o.b.toNat).getLsbD 0
    CompletesIf (.boinit o) (fun _ c => ObjAt c o x ∧ 1 ≤ n c ∧ n c ≤ 65535)
      (fun s c t w => Synced (.boinit o) s c t w ∧ ObjBecomes c t o ⟨false, n c, n c, 0, 0⟩) ∧
    TrapsWhere (.boinit o) (fun _ c => ObjAt c o x ∧ (n c = 0 ∨ 65535 < n c)) 0x0C 7 ∧
    CompletesIf (.boarv o) (fun s c => ObjAt c o x ∧ x.parr ≠ 0 ∧ Released s c o.ord .core)
      (fun s c t w => Synced (.boarv o) s c t w ∧ ObjBecomes c t o { x with parr := x.parr - 1 } ∧
        w.sr o.d.toNat = if o.d.toNat = 0 then 0 else if x.phase then 1 else 0) ∧
    TrapsWhere (.boarv o) (fun _ c => ObjAt c o x ∧ x.parr = 0) 0x0C 9 ∧
    CompletesIf (.bowait o) (fun _ c => ObjAt c o x ∧ x.phase ≠ bit c)
      (fun s c t w => Synced (.bowait o) s c t w ∧ ObjBecomes c t o x ∧
        w.hdev = if o.ord = .acq then max c.w.hdev (tget {} c.b.phases (c.w.sr o.a.toNat).toNat).endDev else c.w.hdev) ∧
    (∀ s c, Issues (.bowait o) s c → ObjAt c o x → x.phase = bit c → ∃ t w f, exec (.bowait o) s = .next t ∧
      t.warp? c.ref.block c.ref.warp = some w ∧ w.frag? c.ref.sel = some f ∧ f.st = .waitObject ∧ f.pc = c.f.pc ∧
      f.cond = .object (c.w.sr o.a.toNat).toNat (bit c) ∧ ObjBecomes c t o x) ∧
    CompletesIf (.botest o) (fun _ c => ObjAt c o x)
      (fun s c t w => Synced (.botest o) s c t w ∧ ObjBecomes c t o x ∧
        ∀ l : Lane, (c.lanes (.botest o)).getLsbD l.val = true →
          w.cc o.h.ccSet l = { n := false, z := x.phase != bit c, c := false, v := false }) ∧
    CompletesIf (.botest o) (fun _ c => objCheck c (c.w.sr o.a.toNat).toNat = none)
      (fun s c t w => Synced (.botest o) s c t w ∧ ∃ z : Bool, ∀ l : Lane, (c.lanes (.botest o)).getLsbD l.val = true →
        w.cc o.h.ccSet l = { n := false, z := z, c := false, v := false }) ∧
    CompletesIf (.boexp o) (fun _ c => ObjAt c o x ∧ o.next = true ∧ x.ebytes + n c < 2 ^ 31)
      (fun s c t w => Synced (.boexp o) s c t w ∧ ObjBecomes c t o { x with ebytes := x.ebytes + n c }) ∧
    CompletesIf (.boexp o) (fun _ c => ObjAt c o x ∧ o.next = false ∧ x.pbytes + (n c : Int) < 2 ^ 31)
      (fun s c t w => Synced (.boexp o) s c t w ∧ ObjBecomes c t o { x with pbytes := x.pbytes + n c }) ∧
    TrapsWhere (.boexp o) (fun _ c => ObjAt c o x ∧ ((o.next = true ∧ 2 ^ 31 ≤ x.ebytes + n c) ∨
      (o.next = false ∧ (2 : Int) ^ 31 ≤ x.pbytes + n c))) 0x0C 8

/-! ### Engine operations -/

/-- An operation has been started (R203, R204): the block has one more record, pending, with the operands read now; the handle
register holds a new handle, empty; the tile the operation writes is empty; nothing else of the warp's data changes. -/
structure Started (i : Instr) (s : State) (c : Ctx) (t : State) (w : Warp) (h : Nat) (k : OpKind) : Prop where
  frag : ∃ f, w.frag? c.ref.sel = some f ∧ Fallen i c.f f
  otherFrags : ∀ r, r ≠ c.ref.sel → w.frag? r = c.w.frag? r
  regs : SameRegs i c w
  specials : SameSpecials c.w w
  handle : w.hr h = handleOf s.nextOp
  hFull : ∀ r, r < 16 → w.hFull.getLsbD r = (c.w.hFull.getLsbD r && r != h)
  vFull : w.vFull = c.w.vFull ∧ w.sFull = c.w.sFull
  next : t.nextOp = s.nextOp + 1
  record : ∃ b, t.block? c.ref.block = some b ∧
    b.ops = c.b.ops ++ [{ id := s.nextOp, handle := handleOf s.nextOp, hreg := some h, warp := c.ref.warp, pc := c.f.pc,
                          kind := k, after := s.nextReq, epochs := s.bankEpochs c.b.lid }] ∧
    b.scratch = c.b.scratch ∧ b.tiles = c.b.tiles ∧ b.tileTag = c.b.tileTag ∧ b.slots = c.b.slots ∧
    ∀ x, x < 8 → b.tileFull.getLsbD x = !(b.ops.any fun o => o.status == .pending && o.kind.writes == some x)
  memory : t.mem = s.mem ∧ t.host = s.host ∧ t.vault = s.vault

/-- A record is free for a new operation (R204). -/
abbrev Free (s : State) (c : Ctx) : Prop := s.condMet c .opRecord = true

/-- R203, R204, R213-R219: MLW, MMA and MDR start an operation of the matrix engine when their operands pass the checks. -/
def MatrixInstructionsStart : Prop :=
  (∀ (o : Mlw) (src : MatSrc), CompletesIf (.mlw o)
    (fun s c => Free s c ∧ matSrc s c o.space o.a o.b = .ok src ∧
      matExtent s c src (if o.sp then 16 else 128) (if o.sp then 16 else 2 * matBits o.fmt) = none)
    fun s c t w => Started (.mlw o) s c t w o.handle.toNat (.mlw o src (c.w.sr o.c.toNat))) ∧
  (∀ (o : Mma) (src : MatSrc) (n row0 : Nat),
    let ks := slotsOf o.kmode
    CompletesIf (.mma o)
      (fun s c => Free s c ∧ shapeOf (c.w.sr o.d.toNat) = some (n, row0) ∧ matSrc s c o.space o.a o.b = .ok src ∧
        matExtent s c src n (if o.sp then 16 * ks.length else 16 * matBits o.fmt * ks.length) = none ∧
        (o.fmt.isInt8 = false → recordCheck c (c.w.sr o.c.toNat).toNat 4 (4 * n * ks.length) = none) ∧
        ∀ k ∈ ks, ∃ f, c.b.slotFmt k = some f ∧ pairOk o.fmt f = true)
      fun s c t w => Started (.mma o) s c t w o.handle.toNat (.mma o src n row0 (c.w.sr o.c.toNat).toNat)) ∧
  (∀ (o : Mdr) (dst : MatSrc) (e : Epilogue), CompletesIf (.mdr o)
    (fun s c => Free s c ∧ matSrc s c o.space o.a o.b = .ok dst ∧ recordCheck c (c.w.sr o.c.toNat).toNat 32 32 = none ∧
      epilogueAt c.b (c.w.sr o.c.toNat).toNat = some e ∧ (∀ x, e.rs = some x → extentCheck c x (4 * e.count) = none) ∧
      (∀ x, e.cs = some x → extentCheck c x 64 = none) ∧ (∀ x, e.bias = some x → extentCheck c x 64 = none) ∧
      strideShort dst (rowBytes o.fmt) = false ∧ matExtent s c dst e.count (rowBytes o.fmt) = none)
    fun s c t w => Started (.mdr o) s c t w o.handle.toNat (.mdr o dst e))

/-- R205, R220, R221: MZR queues the clearing of a tile; MRS reads a slice of a tile as it stands; MWS writes one, and the tile's tag,
once no earlier operation on the tile is pending. -/
def TileInstructionsReadAndWrite : Prop :=
  (∀ o : Mzr, Completes (.mzr o) fun s c t w => Synced (.mzr o) s c t w ∧ t.nextOp = s.nextOp + 1 ∧
    ∃ b, t.block? c.ref.block = some b ∧ b.tileFull.getLsbD o.tile.toNat = false ∧ b.tiles = c.b.tiles ∧
      b.ops = c.b.ops ++ [{ id := s.nextOp, handle := 0, hreg := none, warp := c.ref.warp, pc := c.f.pc,
                            kind := .mzr o.tile.toNat, after := 0 }]) ∧
  (∀ o : Mrs, Completes (.mrs o) fun s c t w => LaneFrame (.mrs o) s c t w ∧
    ∀ l : Lane, (c.lanes (.mrs o)).getLsbD l.val = true →
      let x := sliceAt (c.w.sr o.a.toNat) o.col o.row.toNat l
      w.vl o.d.toNat l = c.b.tileAt o.tile.toNat x.1 x.2) ∧
  (∀ o : Mws, CompletesIf (.mws o) (fun s c => s.condMet c (.tileIdle o.tile.toNat) = true ∧
      ∀ r, r < 128 → (c.b.tileRow o.tile.toNat r).length = 16) fun s c t w => Synced (.mws o) s c t w ∧
    ∃ b, t.block? c.ref.block = some b ∧ b.tileTag.getLsbD o.tile.toNat = (o.ty == .i32) ∧ b.scratch = c.b.scratch ∧
      b.ops = c.b.ops ∧
      (∀ l : Lane, (c.lanes (.mws o)).getLsbD l.val = true →
        let x := sliceAt (c.w.sr o.a.toNat) o.col o.row.toNat l
        b.tileAt o.tile.toNat x.1 x.2 = c.w.vl o.c.toNat l) ∧
      ∀ k r j, k < 8 → r < 128 → j < 16 → (k ≠ o.tile.toNat ∨ ∀ l : Lane, (c.lanes (.mws o)).getLsbD l.val = true →
        sliceAt (c.w.sr o.a.toNat) o.col o.row.toNat l ≠ (r, j)) → b.tileAt k r j = c.b.tileAt k r j) ∧
  (∀ (o : Mws) s c, Issues (.mws o) s c → s.condMet c (.tileIdle o.tile.toNat) = false →
    exec (.mws o) s = .next (s.modFrag c.ref fun f => { f with st := .waitResource, cond := .tileIdle o.tile.toNat }))

/-- R203-R204, R213-R221: the matrix engine's instructions. -/
def Obligations.MatrixInstructionsIssue : Prop := MatrixInstructionsStart ∧ TileInstructionsReadAndWrite

/-- R203, R204, R222-R227: the copies start an operation with the descriptor, or the list of them, read at issue. -/
def CopyInstructionsStart : Prop :=
  (∀ (o : Copy) (d : CopyDesc),
    let bo (c : Ctx) : Option Nat := if o.bo then some (c.w.sr o.b.toNat).toNat else none
    CompletesIf (.copy o) (fun s c => Free s c ∧ copyDesc s c (c.w.sr o.a.toNat).toNat o.red false none 0 = .ok d ∧
        ∀ x, bo c = some x → objCheck c x = none)
      fun s c t w => Started (.copy o) s c t w o.d.toNat (.copy d o.red (bo c))) ∧
  (∀ (o : Copy) (d : CopyDesc), CompletesIf (.copym o)
    (fun s c => Free s c ∧ copyDesc s c (c.w.sr o.a.toNat).toNat .none true none 0 = .ok d ∧
      bomCheck s c (c.w.sr o.b.toNat).toNat ((c.w.sr o.c.toNat).extractLsb' 0 16) = none)
    fun s c t w => Started (.copym o) s c t w o.d.toNat
      (.copym d (c.w.sr o.b.toNat).toNat ((c.w.sr o.c.toNat).extractLsb' 0 16))) ∧
  (∀ (o : Copy) (ds : List CopyDesc),
    let bo (c : Ctx) : Option Nat := if o.bo then some (c.w.sr o.c.toNat).toNat else none
    CompletesIf (.copyl o) (fun s c => Free s c ∧ 1 ≤ ds.length ∧ ds.length ≤ 256 ∧ (c.w.sr o.b.toNat).toNat = ds.length ∧
        (∀ k d, ds[k]? = some d → copyDesc s c ((c.w.sr o.a.toNat).toNat + 64 * k) o.red false none 0 = .ok d) ∧
        ∀ x, bo c = some x → objCheck c x = none)
      fun s c t w => Started (.copyl o) s c t w o.d.toNat (.copyl ds o.red (bo c))) ∧
  (∀ (o : Copyx) (d : CopyDesc),
    let bo (c : Ctx) : Option Nat := if o.bo then some (c.w.sr o.b.toNat).toNat else none
    let sc (c : Ctx) : Nat := (c.w.sp o.c.toNat).toNat % 2 ^ 56
    CompletesIf (.copyx o) (fun s c => Free s c ∧ copyDesc s c (c.w.sr o.a.toNat).toNat .none false (some o.xf) (sc c) = .ok d ∧
        ∀ x, bo c = some x → objCheck c x = none)
      fun s c t w => Started (.copyx o) s c t w o.d.toNat
        (.copyx d o.xf (if scaleSide d o.xf = some .scratch then sc c % 2 ^ 32 else sc c) (bo c)))

/-- The record a scan instruction reads is a legal descriptor (R203, R228) with the used words and control bits. -/
abbrev ScanRecord (c : Ctx) (a : RegField) (used : List Nat) (ctl : Nat) (d : ScanDesc) : Prop :=
  recordCheck c (c.w.sr a.toNat).toNat 64 64 = none ∧ scanDescAt c.b (c.w.sr a.toNat).toNat used ctl = some d

/-- Every array of an operation passes its checks (R203, R228), and so does its chain (R236); `flags` is the array of segment
flags, whose bytes need no alignment. -/
abbrev ArraysOk (c : Ctx) (k : OpKind) (flags : Option ScanArr) (al : Nat) (chain : Bool) : Prop :=
  (∀ x ∈ k.arrays.1 ++ k.arrays.2.map (·.1), x.check c (if flags = some x then 1 else al) = none) ∧ chainCheck c chain = none

/-- R228-R236: the scan engine's instructions start an operation with the descriptor read at issue. -/
def ScanInstructionsStart : Prop :=
  (∀ (o : Scan) (d : ScanDesc), CompletesIf (.scan o)
    (fun s c => Free s c ∧ ScanRecord c o.a ([0, 1, 2, 3, 8] ++ (if o.seg then [4, 5] else [])) 4 d ∧
      d.spaces (if o.seg then 0b0111 else 0b0011) = true ∧
      ArraysOk c (.scan o d) (if o.seg then some (d.arr 2 ((d.n + 7) / 8)) else none) (scanSize o.op) o.chain)
    fun s c t w => Started (.scan o) s c t w o.d.toNat (.scan o d)) ∧
  (∀ (o : OpDA) (d : ScanDesc), CompletesIf (.topk o)
    (fun s c => Free s c ∧ ScanRecord c o.a [0, 1, 2, 3, 4, 5, 6, 7, 8, 9, 10] 4 d ∧ 1 ≤ d.w36.toNat ∧ d.w36.toNat ≤ 256 ∧
      (d.f16 = allOnes64 → d.spaces 0b1011 = true) ∧ (d.f16 ≠ allOnes64 → d.w40 = 0) ∧
      ArraysOk c (.topk d) none 4 false)
    fun s c t w => Started (.topk o) s c t w o.d.toNat (.topk d)) ∧
  (∀ (o : ChainOp) (d : ScanDesc), CompletesIf (.smax o)
    (fun s c => Free s c ∧ ScanRecord c o.a [0, 1, 2, 3, 4, 5, 8, 9, 10, 11] 6 d ∧
      d.spaces (if d.f16 = allOnes64 then 0b0011 else 0b0111) = true ∧ (d.mg = false → d.w40 = 0) ∧ (d.sg = false → d.w44 = 0) ∧
      ArraysOk c (.smax d o.chain) none 4 o.chain)
    fun s c t w => Started (.smax o) s c t w o.d.toNat (.smax d o.chain)) ∧
  (∀ (o : ChainOp) (d : ScanDesc), CompletesIf (.samp o)
    (fun s c => Free s c ∧ ScanRecord c o.a [0, 1, 8, 9, 10, 11] 4 d ∧ d.spaces 0b0001 = true ∧ (o.chain = false → d.w40 = 0) ∧
      ArraysOk c (.samp d o.chain) none 4 o.chain)
    fun s c t w => Started (.samp o) s c t w o.d.toNat (.samp d o.chain))

/-- R203-R204, R222-R236: the copy and scan engines' instructions. -/
def Obligations.CopyAndScanInstructionsIssue : Prop := CopyInstructionsStart ∧ ScanInstructionsStart

/-- What HWAIT leaves in its three registers (R209); with D = s0 nothing is written. -/
def Waited (c : Ctx) (w : Warp) (d : Nat) (x : Word × Word × Word) : Prop :=
  if d = 0 then w.s = c.w.s else w.sr d = x.1 ∧ w.sr (d + 1) = x.2.1 ∧ w.sr (d + 2) = x.2.2

/-- What a handle instruction leaves: its fragment past it, every v register, every register and flag that is no destination,
memory. -/
structure Handled (i : Instr) (s : State) (c : Ctx) (t : State) (w : Warp) : Prop where
  frag : ∃ f, w.frag? c.ref.sel = some f ∧ Fallen i c.f f
  otherFrags : ∀ r, r ≠ c.ref.sel → w.frag? r = c.w.frag? r
  regs : SameRegs i c w
  other : w.part = c.w.part ∧ w.x = c.w.x ∧ w.lfsr = c.w.lfsr ∧ w.join = c.w.join ∧ w.exited = c.w.exited
  memory : t.mem = s.mem ∧ t.host = s.host ∧ t.vault = s.vault

/-- An instruction that reads a full handle folds the times of its operation's writes into the horizons (R206, R270). -/
def Observes (c : Ctx) (w : Warp) (h : Nat) : Prop :=
  (c.w.hFull.getLsbD h = false → w.hdie = c.w.hdie ∧ w.hdev = c.w.hdev ∧ w.hpod = c.w.hpod) ∧
  ∀ x, c.w.hFull.getLsbD h = true → c.b.opOf (c.w.hr h) = some x →
    w.hdie = max c.w.hdie x.wdie ∧ w.hdev = max c.w.hdev x.wdev ∧ w.hpod = max c.w.hpod x.wpod

/-- R206-R212: HWAIT returns an operation's status and counts, or takes its fault once; HTEST sets Z from the handle's bit; HCAN
asks a pending operation to end, and ends a suspended one; HSAV stores a handle and HLD reads one back. -/
def Obligations.HandleInstructionsAnswer : Prop :=
  (∀ o : Hw, CompletesIf (.hwait o) (fun _ c => c.w.hr o.a.toNat = 0)
    fun s c t w => Handled (.hwait o) s c t w ∧ SameFull c.w w ∧ Waited c w o.d.toNat (3, 0, 0)) ∧
  (∀ (o : Hw) (x : EngOp), CompletesIf (.hwait o)
    (fun _ c => c.w.hr o.a.toNat ≠ 0 ∧ c.b.opOf (c.w.hr o.a.toNat) = some x ∧ ∀ f, x.fault = some f → f.taken = true)
    fun s c t w => Handled (.hwait o) s c t w ∧ SameFull c.w w ∧ Waited c w o.d.toNat x.waited ∧
      w.hdie = max c.w.hdie x.wdie ∧ w.hdev = max c.w.hdev x.wdev ∧ w.hpod = max c.w.hpod x.wpod) ∧
  (∀ (o : Hw) (x : EngOp) (e : OpFault) s c, Issues (.hwait o) s c → c.w.hr o.a.toNat ≠ 0 →
    c.b.opOf (c.w.hr o.a.toNat) = some x → x.fault = some e → e.taken = false →
    ∃ u, exec (.hwait o) s = .next (u.takeTrap c { cause := e.cause.toNat, pc := c.f.pc, addr := e.addr, mask := c.f.mask, info := e.info }) ∧
      u = s.modOp c.ref.block x.id fun y => { y with fault := y.fault.map fun e => { e with taken := true } }) ∧
  (∀ o : Hw, TrapsWhere (.hwait o) (fun _ c => c.w.hr o.a.toNat ≠ 0 ∧ c.b.opOf (c.w.hr o.a.toNat) = none) 0x11 1) ∧
  (∀ o : Hw, Completes (.htest o) fun s c t w => Handled (.htest o) s c t w ∧ SameFull c.w w ∧ w.s = c.w.s ∧ Observes c w o.a.toNat ∧
    ∀ l : Lane, (c.lanes (.htest o)).getLsbD l.val = true →
      w.cc o.h.ccSet l = { n := false, z := c.w.hFull.getLsbD o.a.toNat, c := false, v := false }) ∧
  (∀ (o : OpA) (x : EngOp), CompletesIf (.hcan o) (fun _ c => c.b.opOf (c.w.hr o.a.toNat) = some x ∧ x.suspend = none ∧
      (c.b.ops.map (·.id)).Nodup)
    fun s c t w => Handled (.hcan o) s c t w ∧ SameFull c.w w ∧ w.s = c.w.s ∧ ∃ b, t.block? c.ref.block = some b ∧
      b.ops = c.b.ops.map fun y => if y = x ∧ x.status = .pending then { y with cancel := true } else y) ∧
  (∀ (o : OpA) (x : EngOp) (e : Eng), CompletesIf (.hcan o) (fun s c => c.b.opOf (c.w.hr o.a.toNat) = some x ∧ x.status = .pending ∧
      x.suspend.isSome = true ∧ s.eng? x.id = some e ∧ e.b.uid = c.ref.block)
    fun _ c t w => (∃ f, w.frag? c.ref.sel = some f ∧ Fallen (.hcan o) c.f f) ∧ SameRegs (.hcan o) c w ∧
      ∃ b y, t.block? c.ref.block = some b ∧ b.ops.find? (fun o => o.id == x.id) = some y ∧ y.status = .cancelled ∧ y.suspend = none) ∧
  (∀ o : OpA, CompletesIf (.hcan o) (fun _ c => c.b.opOf (c.w.hr o.a.toNat) = none)
    fun s c t w => Handled (.hcan o) s c t w ∧ SameFull c.w w ∧ w.s = c.w.s ∧ ∃ b, t.block? c.ref.block = some b ∧ b.ops = c.b.ops) ∧
  (∀ o : OpAB, CompletesIf (.hsav o) (fun _ c => handleOff c (c.w.sr o.a.toNat).toNat = none)
    fun s c t w => Handled (.hsav o) s c t w ∧ SameFull c.w w ∧ w.s = c.w.s ∧ Observes c w o.b.toNat ∧ ∃ b, t.block? c.ref.block = some b ∧
      b.read (c.w.sr o.a.toNat).toNat 8 = (c.w.hr o.b.toNat).toNat ∧
      ∀ y, y < (c.w.sr o.a.toNat).toNat ∨ (c.w.sr o.a.toNat).toNat + 8 ≤ y → b.byte y = c.b.byte y) ∧
  (∀ (o : OpDA) (v : DWord),
    let off (c : Ctx) := (c.w.sr o.a.toNat).toNat
    CompletesIf (.hld o) (fun _ c => handleOff c (off c) = none ∧ v = BitVec.ofNat 64 (c.b.read (off c) 8) ∧
        (v = 0 ∨ (c.b.opOf v).isSome = true))
      (fun s c t w => Handled (.hld o) s c t w ∧ w.hr o.d.toNat = v ∧
        (∀ r, r < 16 → r ≠ o.d.toNat → w.hFull.getLsbD r = c.w.hFull.getLsbD r) ∧
        w.hFull.getLsbD o.d.toNat = (match c.b.opOf v with | some x => x.status != .pending | none => true)) ∧
    TrapsWhere (.hld o) (fun _ c => handleOff c (off c) = none ∧ v = BitVec.ofNat 64 (c.b.read (off c) 8) ∧ v ≠ 0 ∧
      c.b.opOf v = none) 0x11 1)

/-- No bank of a block has changed its mode since an operation was issued (R191). -/
def SameBanks (e : Eng) (b : Block) : Prop := ∀ k, e.o.wasEpoch b.uid k = b.bankEpoch k

/-- The AMAX update of R67 over some inputs, on the value an operation keeps for its end. -/
def AmaxKept (xs : List Nat) (o o' : EngOp) : Prop :=
  o'.nan = (o.nan || xs.any fun x => (fp32.decode x).isNan) ∧
  o'.amax = BitVec.ofNat 32 (fp32.maxNum o.amax.toNat
    ((xs.filter fun x => !(fp32.decode x).isNan).foldl (fun m x => fp32.maxNum m (fp32.abs x)) 0))

/-- An FP32 pattern that is a NaN. -/
def nan32 (k : Nat) : Bool := decide (0x7F800000 < k % 2 ^ 31)

/-- A TOPK key with its index ranks before another (R232): the greater key, −0 below +0 and a NaN below every number, then the lower
index. -/
def topBefore (p q : Nat × Nat) : Bool :=
  let v (k : Nat) : Int := if nan32 k then -2 ^ 32 else if k < 2 ^ 31 then k else -1 - (k % 2 ^ 31 : Nat)
  decide (v q.1 < v p.1 ∨ v p.1 = v q.1 ∧ p.2 < q.2)

/-- What draining a row leaves in the tile and in the operation (R219): with Z the row is zero and the tag clear, else the tile is as it
was; with AMAX the values before the conversion are its update's. -/
def RowDrained (e : Eng) (o : Mdr) (ep : Epilogue) (b : Block) : Prop :=
  let tag := if e.o.progress = 0 then e.b.tileTag.getLsbD o.tile.toNat else e.o.r1 == 1
  (o.z = false → b.tiles = e.b.tiles ∧ b.tileTag = e.b.tileTag) ∧
  (o.z = true → (∀ j, j < 16 → b.tileAt o.tile.toNat (ep.row0 + e.o.progress) j = 0) ∧ b.tileTag.getLsbD o.tile.toNat = false ∧
    ∀ k r, r < 128 → ep.row0 + e.o.progress < 128 → (k, r) ≠ (o.tile.toNat, ep.row0 + e.o.progress) → b.tileRow k r = e.b.tileRow k r) ∧
  ∃ x, b.ops.find? (fun x => x.id == e.o.id) = some x ∧ x.progress = e.o.progress + 1 ∧
    (o.amax = false → x.amax = e.o.amax ∧ x.nan = e.o.nan) ∧
    (o.amax = true → AmaxKept ((List.range 16).map (drainY e.b o ep tag e.o.progress)) e.o x)

/-- R62, R67, R82, R84, R204, R215, R217-R220: the steps of the matrix engine's operations, and the end of any operation: its handle
becomes full wherever a warp holds it, and its AMAX update is made. -/
def Obligations.MatrixOperationsRun : Prop :=
  (∀ (s : State) (id : Nat) (e : Eng), s.eng? id = some e → e.o.status = .pending → e.o.finished = true →
    s.block? e.b.uid = some e.b → ∃ t b, exec (.engineComplete id) s = .next t ∧ t.block? e.b.uid = some b ∧
      t.mem = s.mem ∧ t.host = s.host ∧ b.scratch = e.b.scratch ∧ b.tiles = e.b.tiles ∧
      (∃ o, b.ops.find? (fun o => o.id == e.o.id) = some o ∧ o.status = .done ∧ o.suspend = none) ∧
      (∀ (k : Nat) (w : Warp), b.warps[k]? = some w → ∀ h, h < 16 → w.hr h = e.o.handle → e.o.handle ≠ 0 → w.hFull.getLsbD h = true) ∧
      ∀ w, e.b.warps[e.o.warp]? = some w → ∃ w', b.warps[e.o.warp]? = some w' ∧ w'.nanSeen = (w.nanSeen || e.o.nan) ∧
        w'.amax = BitVec.ofNat 32 (fp32.maxNum w.amax.toNat e.o.amax.toNat)) ∧
  (∀ (s : State) (id : Nat) (e : Eng) (o : Mlw) (src : MatSrc) (sw : Word) (u : State) (rows : List (List Byte)),
    s.eng? id = some e → s.engTurn e = true → e.o.progress = 0 → e.o.kind = .mlw o src sw → o.sp = false →
    s.matRows (fun s k => s.matRead e src k 0 (2 * matBits o.fmt)) 128 = (u, .ok rows) → u.block? e.b.uid = some e.b →
    ∃ t b, exec (.mlwLoadComplete id) s = .next t ∧ t.block? e.b.uid = some b ∧
      vget none b.slots (if o.slot then 1 else 0) = some ⟨o.fmt, false,
        rows.map fun r => (unpackBits (matBits o.fmt) 16 r).map (BitVec.ofNat 16), [], sw⟩ ∧
      b.tiles = e.b.tiles ∧ b.scratch = e.b.scratch ∧ t.mem = u.mem) ∧
  (∀ (s : State) (id : Nat) (e : Eng) (o : Mma) (src : MatSrc) (n row0 sv : Nat) (u : State) (act : List (List Nat)),
    s.eng? id = some e → s.engTurn e = true → e.o.kind = .mma o src n row0 sv → e.o.progress < n → e.o.cancel = false →
    (∀ k ∈ slotsOf o.kmode, ∃ sl, vget none e.b.slots k = some sl ∧ pairOk o.fmt sl.fmt = true) →
    s.actRow e src o.sp e.o.progress (matBits o.fmt) (slotsOf o.kmode).length = (u, .ok act) → u.block? e.b.uid = some e.b →
    ∃ t b, exec (.mmaRow id) s = .next t ∧ t.block? e.b.uid = some b ∧ t.mem = u.mem ∧
      b.tileRow o.tile.toNat (row0 + e.o.progress) =
        mmaNewRow e.b o sv e.o.progress act (e.b.tileRow o.tile.toNat (row0 + e.o.progress)) ∧
      (∀ k r, r < 128 → (k, r) ≠ (o.tile.toNat, row0 + e.o.progress) → row0 + e.o.progress < 128 → b.tileRow k r = e.b.tileRow k r) ∧
      b.tileTag.getLsbD o.tile.toNat = o.fmt.isInt8 ∧ b.scratch = e.b.scratch) ∧
  (∀ (s : State) (id : Nat) (e : Eng) (o : Mdr) (ep : Epilogue) (off st : Nat),
    s.eng? id = some e → s.engTurn e = true → e.o.kind = .mdr o (.scratch off st) ep → e.o.progress < ep.count →
    e.o.cancel = false → s.block? e.b.uid = some e.b → e.b.fifoIn (off + e.o.progress * st) (rowBytes o.fmt) = false →
    SameBanks e e.b →
    let r := e.o.progress
    let tag := if r = 0 then e.b.tileTag.getLsbD o.tile.toNat else e.o.r1 == 1
    ∃ t b, exec (.mdrRow id) s = .next t ∧ t.block? e.b.uid = some b ∧ t.mem = s.mem ∧ t.host = s.host ∧
      b.bytesAt (off + r * st) (rowBytes o.fmt) =
        packBits (matBits o.fmt) ((List.range 16).map fun j => drainConv o (drainY e.b o ep tag r j)) ∧
      (∀ y, y < off + r * st ∨ off + r * st + rowBytes o.fmt ≤ y → b.byte y = e.b.byte y) ∧ RowDrained e o ep b) ∧
  (∀ (s : State) (id : Nat) (e : Eng) (o : Mdr) (ep : Epilogue) (base st pa : Nat) (a : Attr),
    s.eng? id = some e → s.engTurn e = true → e.o.kind = .mdr o (.global base st) ep → e.o.progress < ep.count →
    e.o.cancel = false → s.block? e.b.uid = some e.b → s.memOk →
    let va := base + e.o.progress * st
    va % 65536 + rowBytes o.fmt ≤ 65536 → s.engXlate e va .engWr = (s, .ok (pa, a)) → a.target = .device →
    s.lostAt a.tier pa = none →
    let tag := if e.o.progress = 0 then e.b.tileTag.getLsbD o.tile.toNat else e.o.r1 == 1
    ∃ t b, exec (.mdrRow id) s = .next t ∧ t.block? e.b.uid = some b ∧ t.host = s.host ∧ b.scratch = e.b.scratch ∧
      (List.range (rowBytes o.fmt)).map (fun k => t.mem.get (pa + k)) =
        packBits (matBits o.fmt) ((List.range 16).map fun j => drainConv o (drainY e.b o ep tag e.o.progress j)) ∧
      (∀ x, x < pa ∨ pa + rowBytes o.fmt ≤ x → t.mem.get x = s.mem.get x) ∧ RowDrained e o ep b) ∧
  (∀ (s : State) (id : Nat) (e : Eng) (o : Mdr) (ep : Epilogue) (i : Nat) (cs : List Nat) (tn : Tensor),
    s.eng? id = some e → s.engTurn e = true → e.o.kind = .mdr o (.vault i cs) ep → e.o.progress < ep.count →
    e.o.cancel = false → s.block? e.b.uid = some e.b → s.memOk → s.tensor? e.l.asid i = some tn →
    let tag := if e.o.progress = 0 then e.b.tileTag.getLsbD o.tile.toNat else e.o.r1 == 1
    let ws := vaultWords cs e.o.progress 0 (rowBytes o.fmt)
    (ws.map tn.addr).Pairwise (fun x y => x + 4 ≤ y ∨ y + 4 ≤ x) →
    ∃ t b, exec (.mdrRow id) s = .next t ∧ t.block? e.b.uid = some b ∧ t.mem = s.mem ∧ t.host = s.host ∧ b.scratch = e.b.scratch ∧
      ws.flatMap (fun w => (List.range 4).map fun k => t.vault.get (tn.addr w + k)) =
        packBits (matBits o.fmt) ((List.range 16).map fun j => drainConv o (drainY e.b o ep tag e.o.progress j)) ∧
      (∀ x, (∀ w ∈ ws, x < tn.addr w ∨ tn.addr w + 4 ≤ x) → t.vault.get x = s.vault.get x) ∧ RowDrained e o ep b) ∧
  (∀ (s : State) (id : Nat) (e : Eng) (o : Mlw) (src : MatSrc) (sw : Word) (u : State) (cols : List (List Nat × Nat × Nat)),
    s.eng? id = some e → s.engTurn e = true → e.o.progress = 0 → e.o.kind = .mlw o src sw → o.sp = true →
    s.matRows (fun s j => s.matGroup e src j 0 (matBits o.fmt)) 16 = (u, .ok cols) → u.block? e.b.uid = some e.b →
    ∃ t b sl, exec (.mlwLoadComplete id) s = .next t ∧ t.block? e.b.uid = some b ∧ t.mem = u.mem ∧ b.tiles = e.b.tiles ∧
      b.scratch = e.b.scratch ∧ vget none b.slots (if o.slot then 1 else 0) = some sl ∧ sl.fmt = o.fmt ∧ sl.sparse = true ∧ sl.sw = sw ∧
      sl.bitmap = cols.map (fun g => BitVec.ofNat 128 g.2.1) ∧
      ∀ k j, k < 128 → j < 16 → (sl.w.getD k []).getD j 0 = BitVec.ofNat 16 ((cols.getD j ([], 0, 0)).1.getD k 0)) ∧
  (∀ (m k : Nat) (vs : List Nat), k < 128 → (expandSparse m 128 0 vs).getD k 0 =
    if m.testBit k then vs.getD ((List.range k).filter m.testBit).length 0 else 0) ∧
  (∀ (s : State) (id : Nat) (e : Eng) (x : Nat), s.eng? id = some e → s.engTurn e = true → e.o.kind = .mzr x →
    s.block? e.b.uid = some e.b →
    ∃ t b, exec (.mzrEngineZero id) s = .next t ∧ t.block? e.b.uid = some b ∧ t.mem = s.mem ∧
      (∀ r j, r < 128 → j < 16 → b.tileAt x r j = 0) ∧ (x < 8 → b.tileTag.getLsbD x = false) ∧
      ∀ k r, k ≠ x → r < 128 → b.tileRow k r = e.b.tileRow k r)

/-- The results that a scan-engine operation computes (R231-R234): with which of an operation's results HWAIT, the destinations and the
successor agree is said in `ScanOperationsRun`. A segmented SCAN starts anew at a flag; an integer ADD gives the sums from there. -/
def ScansGiveTheirResults : Prop :=
  (∀ (o : Scan) (cin : Option (List Word)) (xs fl : List Byte),
    let k := scanSize o.op / 4
    let flag (i : Nat) : Bool := o.seg && leNat fl / 2 ^ i % 2 == 1
    let x (i : Nat) : List Nat := (inElems k (wordsOf xs)).getD i []
    let out := scanCompute o cin [xs, fl]
    let y (i : Nat) : List Nat := (inElems k (wordsOf (out.outs.getD 0 []))).getD i []
    (∀ w, cin = some w → w.length = k) →
    (out.outs.getD 0 []).length = xs.length / scanSize o.op * scanSize o.op ∧ out.carry.length = k ∧
    out.r1 = out.carry.getD 0 0 ∧ out.r2 = out.carry.getD 1 0 ∧
    (∀ i, i < xs.length / scanSize o.op →
      (flag i = true → y i = if o.excl then scanIdent o.op o.ty else x i) ∧
      (o.excl = false → i = 0 → flag 0 = false → y 0 = match cin with
        | none => x 0
        | some w => (scanOp o.op o.ty (w.map BitVec.toNat) (x 0)).map (· % 2 ^ 32)) ∧
      (o.excl = true → i = 0 → flag 0 = false → y 0 = match cin with
        | none => scanIdent o.op o.ty
        | some w => w.map BitVec.toNat) ∧
      (o.op = .add → o.ty ≠ .f32 → o.excl = false → 0 < i → flag i = false →
        y i = [((y (i - 1)).getD 0 0 + (x i).getD 0 0) % 2 ^ 32]))) ∧
  (∀ (d : ScanDesc) (ks is : List Byte),
    let keys := wordsOf ks
    let idx := if d.f16 = allOnes64 then (List.range keys.length).map fun i => (d.w40.toNat + i) % 2 ^ 32 else wordsOf is
    idx.length = keys.length →
    ∃ top rest : List (Nat × Nat), (top ++ rest).Perm (keys.zip idx) ∧ top.length = min d.w36.toNat keys.length ∧
      top.Pairwise (fun p q => topBefore q p = false) ∧ (∀ p ∈ top, ∀ q ∈ rest, topBefore q p = false) ∧
      wordsOf ((topkCompute d [ks, is]).outs.getD 0 []) = top.map (fun p => if nan32 p.1 then 0x7FC00000 else p.1) ++
        List.replicate (d.w36.toNat - top.length) 0xFF800000 ∧
      wordsOf ((topkCompute d [ks, is]).outs.getD 1 []) = top.map (·.2) ++ List.replicate (d.w36.toNat - top.length) 0xFFFFFFFF) ∧
  (∀ (d : ScanDesc) (cin : Option (List Word)) (bs : List Byte),
    let out := smaxCompute d cin [bs]
    let m := if d.mg then d.w40.toNat else (refWords .max none (wordsOf bs)).2
    let y := (wordsOf bs).map fun x => fexp2 (fp32.mul .rne (fp32.add .rne x (fp32.negate m)) d.w36.toNat)
    let sum := if d.sg then d.w44.toNat else (refWords .add none y).2
    out.outs.getD 0 [] = bytesOfWords (y.map fun v => fdiv v sum) ∧ out.r1 = BitVec.ofNat 32 m ∧ out.r2 = BitVec.ofNat 32 sum ∧
    out.carry = [BitVec.ofNat 32 (refWords .add cin y).2] ∧
    (d.f16 = allOnes64 → out.outs.length = 1) ∧
    (d.f16 ≠ allOnes64 → out.outs.length = 2 ∧ out.outs.getD 1 [] = bytesOfWords (refWords .add cin y).1)) ∧
  (∀ (d : ScanDesc) (chain last : Bool) (cin : Option (List Word)) (bs : List Byte),
    let c := wordsOf bs
    let t := fp32.mul .rne d.w36.toNat (if chain then d.w40.toNat else c.getLastD 0)
    let out := sampCompute d chain last cin [bs]
    out.outs = [] ∧
    (∀ x r, cin = some (x :: r) → x ≠ 0xFFFFFFFF → out.carry = [x] ∧ out.r1 = 0 ∧ out.r2 = 0) ∧
    (cin = none ∨ (∃ r, cin = some (0xFFFFFFFF :: r)) →
      (∀ i, i < c.length → fgt (c.getD i 0) t = true → (∀ k, k < i → fgt (c.getD k 0) t = false) →
        out.r1 = d.w44 + BitVec.ofNat 32 i ∧ out.r2 = 1 ∧ out.carry = [d.w44 + BitVec.ofNat 32 i]) ∧
      ((∀ i, i < c.length → fgt (c.getD i 0) t = false) →
        out.carry = [0xFFFFFFFF] ∧
        (chain = false ∨ last = true → out.r1 = d.w44 + BitVec.ofNat 32 (d.n - 1) ∧ out.r2 = 1) ∧
        (chain = true → last = false → out.r1 = 0 ∧ out.r2 = 0))))

/-- R231-R234, R236, R239, R334: a scan-engine operation over the scratchpad, with its carry where it has a predecessor, writes its
results and no other byte, passes its carry on before, and keeps the words HWAIT returns; a wrong carry, or a successor of another
group, ends it FAULTED. -/
def ScanOperationsRun : Prop :=
  ∀ (s : State) (id : Nat) (e : Eng), s.eng? id = some e → s.engTurn e = true → opUnit e.o.kind = 2 → e.o.progress = 0 →
    s.block? e.b.uid = some e.b → e.o.kind.overlaps = false → SameBanks e e.b →
    let src := e.o.kind.arrays.1
    let dst := e.o.kind.arrays.2.map (·.1)
    (∀ a ∈ src ++ dst, a.scratch = true) →
    (∀ (cin : Option (List Word)) (rest : List ChainEntry),
      let out := e.o.kind.compute (e.b.successor false).isNone cin (src.map fun a => e.b.bytesAt a.base a.n)
      (e.needsCarry = false ∧ cin = e.o.carry ∧ rest = e.b.chain ∨
        e.needsCarry = true ∧ ∃ op z w, e.o.kind.chained = some (op, z) ∧ e.b.chain = .carry op z w :: rest ∧ cin = some w) →
      s.carryRoom e = .none ∨ s.carryRoom e = .room →
      (∀ x ∈ dst.zip out.outs, x.2.length = x.1.n ∧ e.b.fifoIn x.1.base x.1.n = false) →
      ∃ t b o, exec (.scanEngineRun id) s = .next t ∧ t.block? e.b.uid = some b ∧ t.mem = s.mem ∧ t.host = s.host ∧
        b.ops.find? (fun x => x.id == e.o.id) = some o ∧ o.progress = 1 ∧ o.r1 = out.r1 ∧ o.r2 = out.r2 ∧ b.chain = rest ∧
        (s.carryRoom e = .none → b.link = e.b.link) ∧
        (∀ op z, s.carryRoom e = .room → e.o.kind.chained = some (op, z) → b.link = e.b.link ++ [.carry op z out.carry]) ∧
        (∀ x ∈ dst.zip out.outs, b.bytesAt x.1.base x.1.n = x.2) ∧
        ∀ y, (∀ x ∈ dst.zip out.outs, y < x.1.base ∨ x.1.base + x.1.n ≤ y) → b.byte y = e.b.byte y) ∧
    (e.needsCarry = true → (∀ op z w rest, e.o.kind.chained = some (op, z) → e.b.chain ≠ .carry op z w :: rest) → e.b.chain ≠ [] →
      ∃ t b o, exec (.scanEngineRun id) s = .next t ∧ t.block? e.b.uid = some b ∧ t.mem = s.mem ∧ b.scratch = e.b.scratch ∧
        b.ops.find? (fun x => x.id == e.o.id) = some o ∧ o.status = .faulted ∧
        o.fault.map (fun x => (x.cause, x.info)) = some (0x0D, 4)) ∧
    (e.needsCarry = false → s.carryRoom e = .misuse →
      ∃ t b o, exec (.scanEngineRun id) s = .next t ∧ t.block? e.b.uid = some b ∧ t.mem = s.mem ∧ b.scratch = e.b.scratch ∧
        b.ops.find? (fun x => x.id == e.o.id) = some o ∧ o.status = .faulted ∧
        o.fault.map (fun x => (x.cause, x.info)) = some (0x0D, 6))

/-- Where a place is: in memory at its physical address (0), in the scratchpad (1), or in the vault (2). -/
def placeAt (pa : Nat → Nat) : Option Loc → Nat × Nat
  | some (.g va) => (0, pa va)
  | some (.s off) => (1, off)
  | some (.v a) => (2, a)
  | none => (3, 0)

/-- The byte at such a place. -/
def placeByte (t : State) (b : Block) : Nat × Nat → Byte
  | (0, a) => t.mem.get a
  | (1, a) => b.byte a
  | (2, a) => t.vault.get a
  | _ => 0

/-- The bytes from such a place on. -/
def placeBytes (t : State) (b : Block) (p : Nat × Nat) (n : Nat) : List Byte :=
  (List.range n).map fun k => placeByte t b (p.1, p.2 + k)

/-- m bytes at a place and n bytes at another have none in common. -/
abbrev Apart (p : Nat × Nat) (m : Nat) (q : Nat × Nat) (n : Nat) : Prop := p.1 ≠ q.1 ∨ p.2 + m ≤ q.2 ∨ q.2 + n ≤ p.2

/-- An operation reaches n bytes at a place for each of the accesses: translated without a fault to this device's memory, whole within
64 KiB and at a port that is up; in a bank in scratchpad mode; or in a tensor. Nothing it reads there is bad or undefined. -/
def Reaches (s : State) (e : Eng) (pa : Nat → Nat) (accs : List Acc) (n : Nat) : Option Loc → Prop
  | none => False
  | some (.g va) => va % 65536 + n ≤ 65536 ∧ (s.tlbFind (s.quadOf e.b.core) e.l.asid (va % 2 ^ 56)).isSome = true ∧
      ∃ a : Attr, a.target = .device ∧ (∀ acc ∈ accs, s.engXlate e va acc = (s, .ok (pa va, a))) ∧ s.lostAt a.tier (pa va) = none ∧
        (.engRd ∈ accs → s.undefAt a (pa va) n = false ∧ ∀ k, k < n → s.badAt .device a.tier (pa va + k) = none)
  | some (.s off) => e.b.fifoIn off n = false
  | some (.v a) => .engRd ∈ accs → s.isBad 3 (a / 32 * 32) = false

/-- A copy's chunk that may be performed now, of a job that overwrites nothing of its own source. -/
structure ChunkDue (s : State) (id k : Nat) (e : Eng) (j : CopyJob) : Prop where
  eng : s.eng? id = some e
  turn : s.engTurn e = true
  job : e.o.kind.job e.o.entry = some j
  entry : e.o.entry < e.o.kind.entries
  goes : e.o.cancel = false
  chunk : k < j.d.chunkCount
  due : e.o.chunks.contains k = false
  block : s.block? e.b.uid = some e.b
  mem : s.memOk
  banks : SameBanks e e.b
  tidy : j.overlaps s e.l.asid (s.ownDst e j) = false

/-- What is kept of a performed chunk (R209, R223, R226): its number, or the next entry once all are done; the bytes delivered. -/
def ChunkKept (e : Eng) (j : CopyJob) (k n : Nat) (o : EngOp) : Prop :=
  o.status = .pending ∧ o.bytes = e.o.bytes + n ∧
  (e.o.chunks.length + 1 ≠ j.d.chunkCount → o.entry = e.o.entry ∧ o.chunks = e.o.chunks ++ [k]) ∧
  (e.o.chunks.length + 1 = j.d.chunkCount → o.entry = e.o.entry + 1 ∧ o.chunks = [])

/-- n bytes counted into an object of a block, where it does not turn (R197). -/
def Counted (b b' : Block) (bo n : Nat) : Prop :=
  (b.obj bo).pbytes ≠ (n : Int) ∨ (b.obj bo).parr ≠ 0 → (b'.obj bo).pbytes = (b.obj bo).pbytes - n ∧ (b'.obj bo).phase = (b.obj bo).phase

/-- An object of a block that counts n bytes, apart from the places written. -/
abbrev CountsAt (b : Block) (bo n : Nat) (ps : List ((Nat × Nat) × Nat)) : Prop :=
  b.fifoIn bo 16 = false ∧ b.spoilt.contains bo = false ∧ -2 ^ 31 ≤ (b.obj bo).pbytes - (n : Int) ∧ ∀ p ∈ ps, Apart (1, bo) 16 p.1 p.2

/-- R223, R224, R226, R227: a chunk of COPY, COPYL or COPYX whose places the operation reaches, in whichever spaces, writes at each
element's destination the source's bytes, their reduction with what stood there, or their conversion, and no other byte. -/
def CopyChunksMoveTheirBytes : Prop :=
  ∀ (s : State) (id k : Nat) (e : Eng) (j : CopyJob) (pa : Nat → Nat), ChunkDue s id k e j → j.cores = none →
    (∀ f a, j.xf ≠ some (.qnt f a)) →
    let n := (j.d.sides j.xf).1.bytes
    let m := (j.d.sides j.xf).2.bytes
    let idx := j.d.chunkIdx k
    let src (i : Nat) : Option Loc := j.src s e.l.asid i
    let dst (i : Nat) : Option Loc := j.dst s e.l.asid i
    let old (i : Nat) : List Byte := placeBytes s e.b (placeAt pa (dst i)) m
    let x (i : Nat) : List Byte := placeBytes s e.b (placeAt pa (src i)) n
    let scale (i : Nat) : Nat := leNat (placeBytes s e.b (placeAt pa (j.scaleLoc (i / 32))) 4)
    let new (i : Nat) : List Byte := match j.xf with
      | some (.cast f) => if j.d.size = 2 then leBytes 2 (convert fp32 (fmtOf f) .rne false (leNat (x i)))
          else leBytes 4 (convert (fmtOf f) fp32 .rne false (leNat (x i)))
      | some (.dqnt f) => leBytes 4 (widen (fmtOf f) (if matBits f = 4 then leNat (x i) / 2 ^ (4 * (i % 2)) % 16 else leNat (x i)) (scale i))
      | _ => match redOp j.red with
        | none => x i
        | some op => leBytes 4 (atomNew op 4 (leNat (old i)) (leNat (x i)) 0)
    (j.red ≠ .none → j.xf = none ∧ j.d.size = 2) → (∀ f, j.xf = some (.dqnt f) → j.d.size = 2 ∧ j.d.count % 32 = 0) →
    (∀ i ∈ idx, Reaches s e pa [.engRd] n (src i) ∧ Reaches s e pa (if j.red = .none then [.engWr] else [.engRd, .engWr, .engRmw]) m (dst i)) →
    (∀ f, j.xf = some (.dqnt f) → ∀ i ∈ j.blocks k, Reaches s e pa [.engRd] 4 (j.scaleLoc i)) →
    (∀ i ∈ idx, ∀ i' ∈ idx, i ≠ i' → Apart (placeAt pa (dst i)) m (placeAt pa (dst i')) m) →
    (∀ bo, e.o.kind.counts = some bo → CountsAt e.b bo (j.dstBytes idx.length) (idx.map fun i => (placeAt pa (dst i), m))) →
    ∃ t b o, exec (.copyChunk id k) s = .next t ∧ t.block? e.b.uid = some b ∧ t.host = s.host ∧
      b.ops.find? (fun y => y.id == e.o.id) = some o ∧ ChunkKept e j k (j.dstBytes idx.length) o ∧
      (∀ i ∈ idx, placeBytes t b (placeAt pa (dst i)) m = new i) ∧
      (∀ bo, e.o.kind.counts = some bo → Counted e.b b bo (j.dstBytes idx.length)) ∧
      ∀ p : Nat × Nat, (∀ i ∈ idx, Apart p 1 (placeAt pa (dst i)) m) → (∀ bo, e.o.kind.counts = some bo → Apart p 1 (1, bo) 16) →
        placeByte t b p = placeByte s e.b p

/-- R67, R77, R227: a chunk of COPYX .qnt writes each element in the narrow format, packed, each block's scale, and with AMAX keeps the
inputs' update for the end. -/
def QuantChunksPackTheirBytes : Prop :=
  ∀ (s : State) (id k : Nat) (e : Eng) (j : CopyJob) (f : Ty) (am : Bool) (pa : Nat → Nat), ChunkDue s id k e j → j.cores = none →
    j.xf = some (.qnt f am) → j.red = .none → j.d.size = 2 → j.d.count % 32 = 0 →
    let idx := j.d.chunkIdx k
    let src (i : Nat) : Option Loc := j.src s e.l.asid i
    let dst (i : Nat) : Option Loc := j.dst s e.l.asid i
    let m := (j.d.sides j.xf).2.bytes
    let x (i : Nat) : Nat := leNat (placeBytes s e.b (placeAt pa (src i)) 4)
    let sc (i : Nat) : Nat := quantScale (fmtOf f) (maxMag ((List.range 32).map fun r => x (32 * i + r)))
    let q (i : Nat) : Nat := narrow (fmtOf f) true (fdiv (x i) (sc (i / 32))) 0x3F800000
    let places := (idx.filter fun i => matBits f != 4 || i % 2 == 0).map (fun i => (placeAt pa (dst i), m)) ++
      (j.blocks k).map fun i => (placeAt pa (j.scaleLoc i), 4)
    (∀ i ∈ idx, Reaches s e pa [.engRd] 4 (src i) ∧ Reaches s e pa [.engWr] m (dst i)) →
    (∀ i ∈ j.blocks k, Reaches s e pa [.engWr] 4 (j.scaleLoc i)) → places.Pairwise (fun a b => Apart a.1 a.2 b.1 b.2) →
    (∀ bo, e.o.kind.counts = some bo → CountsAt e.b bo (j.dstBytes idx.length) places) →
    ∃ t b o, exec (.copyChunk id k) s = .next t ∧ t.block? e.b.uid = some b ∧ t.host = s.host ∧
      b.ops.find? (fun y => y.id == e.o.id) = some o ∧ ChunkKept e j k (j.dstBytes idx.length) o ∧
      (∀ i ∈ idx, matBits f ≠ 4 → placeBytes t b (placeAt pa (dst i)) m = leBytes (matBits f / 8) (q i)) ∧
      (∀ i ∈ idx, matBits f = 4 → i % 2 = 0 → placeBytes t b (placeAt pa (dst i)) 1 = [BitVec.ofNat 8 (q i + 16 * q (i + 1))]) ∧
      (∀ i ∈ j.blocks k, placeBytes t b (placeAt pa (j.scaleLoc i)) 4 = leBytes 4 (sc i)) ∧
      (am = false → o.amax = e.o.amax ∧ o.nan = e.o.nan) ∧ (am = true → AmaxKept (idx.map x) e.o o) ∧
      (∀ bo, e.o.kind.counts = some bo → Counted e.b b bo (j.dstBytes idx.length)) ∧
      ∀ p : Nat × Nat, (∀ a ∈ places, Apart p 1 a.1 a.2) → (∀ bo, e.o.kind.counts = some bo → Apart p 1 (1, bo) 16) →
        placeByte t b p = placeByte s e.b p

/-- R225: a chunk of COPYM writes its bytes into the scratchpad of every receiver, and counts them into each one's barrier object; where
some named core has no receiver, or not the range, the operation ends FAULTED with the cores' mask, and nothing is written. -/
def MulticastChunksReachTheirReceivers : Prop :=
  ∀ (s : State) (id k : Nat) (e : Eng) (d : CopyDesc) (bo : Nat) (cores : BitVec 16) (pa : Nat → Nat),
    let j : CopyJob := ⟨d, none, 0, .none, some cores⟩
    let idx := d.chunkIdx k
    let m := 2 ^ d.size
    let off (i : Nat) : Nat := intBits 32 ((d.sides none).2.base + (d.sides none).2.delta (indexOf d.ext i))
    ChunkDue s id k e j → e.o.kind = .copym d bo cores → d.dspace = .scratch →
    (j.failing s e cores k = [] →
      (∀ i ∈ idx, Reaches s e pa [.engRd] m (j.src s e.l.asid i)) →
      (∀ i ∈ idx, ∀ i' ∈ idx, i ≠ i' → Apart (1, off i) m (1, off i') m) →
      (∀ x, x < 16 → cores.getLsbD x = true → ∀ r, s.receiver e.b x = some r → s.block? r.uid = some r ∧ SameBanks e r ∧
        CountsAt r bo (m * idx.length) (idx.map fun i => ((1, off i), m)) ∧
        ∀ x' r', x' < 16 → x' ≠ x → cores.getLsbD x' = true → s.receiver e.b x' = some r' → r'.uid ≠ r.uid) →
      ∃ t, exec (.copyChunk id k) s = .next t ∧ t.mem = s.mem ∧ t.host = s.host ∧ t.vault = s.vault ∧
        (∃ b o, t.block? e.b.uid = some b ∧ b.ops.find? (fun y => y.id == e.o.id) = some o ∧
          ChunkKept e j k (m * idx.length * ((List.range 16).filter cores.getLsbD).length) o) ∧
        (∀ x r, x < 16 → cores.getLsbD x = true → s.receiver e.b x = some r → ∃ r', t.block? r.uid = some r' ∧
          (∀ i ∈ idx, r'.bytesAt (off i) m = placeBytes s e.b (placeAt pa (j.src s e.l.asid i)) m) ∧ Counted r r' bo (m * idx.length) ∧
          ∀ y, (∀ i ∈ idx, y < off i ∨ off i + m ≤ y) → y < bo ∨ bo + 16 ≤ y → r'.byte y = r.byte y) ∧
        ∀ u b, s.block? u = some b → (∀ x r, x < 16 → cores.getLsbD x = true → s.receiver e.b x = some r → r.uid ≠ u) →
          ∃ b', t.block? u = some b' ∧ b'.scratch = b.scratch) ∧
    (j.failing s e cores k ≠ [] →
      ∃ t b o, exec (.copyChunk id k) s = .next t ∧ t.block? e.b.uid = some b ∧ t.mem = s.mem ∧ t.host = s.host ∧ t.vault = s.vault ∧
        b.scratch = e.b.scratch ∧ b.ops.find? (fun y => y.id == e.o.id) = some o ∧ o.status = .faulted ∧
        o.fault.map (fun x => (x.cause, x.addr, x.info)) =
          some (0x07, BitVec.ofNat 64 ((j.failing s e cores k).map (2 ^ ·)).sum, BitVec.ofNat 32 (k % 2 ^ 24)) ∧
        ∀ u x, u ≠ e.b.uid → s.block? u = some x → t.block? u = some x)

/-- R223-R227, R231-R234, R237, R239: the copy engine's chunks, the scan engine's operations, and the delivery of the oldest entry of a
block's link to its successor; a chunk within the scratchpad moves exactly its bytes. -/
def Obligations.CopyAndScanOperationsRun : Prop :=
  CopyChunksMoveTheirBytes ∧ QuantChunksPackTheirBytes ∧ MulticastChunksReachTheirReceivers ∧ ScansGiveTheirResults ∧ ScanOperationsRun ∧
  (∀ (s : State) (id k : Nat) (e : Eng) (d : CopyDesc), s.eng? id = some e → s.engTurn e = true →
    e.o.kind = .copy d .none none → e.o.entry = 0 → e.o.cancel = false → k < d.chunkCount → e.o.chunks.contains k = false →
    d.sspace = .scratch → d.dspace = .scratch → s.block? e.b.uid = some e.b → (∀ y, e.b.fifoIn y (2 ^ d.size) = false) →
    (⟨d, none, 0, .none, none⟩ : CopyJob).overlaps s e.l.asid true = false → SameBanks e e.b →
    let src (n : Nat) : Nat := intBits 32 ((d.sides none).1.base + (d.sides none).1.delta (indexOf d.ext n))
    let dst (n : Nat) : Nat := intBits 32 ((d.sides none).2.base + (d.sides none).2.delta (indexOf d.ext n))
    (∀ m ∈ d.chunkIdx k, ∀ n ∈ d.chunkIdx k, m ≠ n → dst m + 2 ^ d.size ≤ dst n ∨ dst n + 2 ^ d.size ≤ dst m) →
    ∃ t b, exec (.copyChunk id k) s = .next t ∧ t.block? e.b.uid = some b ∧ t.mem = s.mem ∧ t.host = s.host ∧
      (∀ n ∈ d.chunkIdx k, b.bytesAt (dst n) (2 ^ d.size) = e.b.bytesAt (src n) (2 ^ d.size)) ∧
      ∀ y, (∀ n ∈ d.chunkIdx k, y < dst n ∨ dst n + 2 ^ d.size ≤ y) → b.byte y = e.b.byte y) ∧
  (∀ (s : State) (id : Nat) (e : Eng) (d : ScanDesc) (o : Scan), s.eng? id = some e → s.engTurn e = true →
    e.o.kind = .scan o d → e.o.progress = 0 → o.chain = false → o.seg = false → s.block? e.b.uid = some e.b →
    d.sp.getLsbD 0 = true → d.sp.getLsbD 1 = true → (OpKind.scan o d).overlaps = false → SameBanks e e.b →
    let n := scanSize o.op * d.n
    let out := scanCompute o e.o.carry [e.b.bytesAt d.src n]
    e.b.fifoIn d.dst (out.outs.getD 0 []).length = false →
    ∃ t b, exec (.scanEngineRun id) s = .next t ∧ t.block? e.b.uid = some b ∧ t.mem = s.mem ∧
      b.bytesAt d.dst (out.outs.getD 0 []).length = out.outs.getD 0 [] ∧
      (∀ y, y < d.dst ∨ d.dst + (out.outs.getD 0 []).length ≤ y → b.byte y = e.b.byte y)) ∧
  (∀ (s : State) (u : Nat) (b n : Block) (en : ChainEntry) (r : List ChainEntry), s.block? u = some b → b.link = en :: r →
    (b.successor (match en with | .carry .. => false | .message .. => true)).bind (s.blockAt b.lid) = some n →
    n.group = b.group → n.chain.length < 2 → s.block? n.uid = some n → n.uid ≠ u →
    ∃ t b' n', exec (.chainEntryDeliver u) s = .next t ∧ t.block? u = some b' ∧ b' = { b with link := r } ∧
      t.block? n.uid = some n' ∧ n' = { n with chain := n.chain ++ [en] } ∧ t.mem = s.mem)

/-! ### The chain and launches from the device -/

/-- The block after an instruction of its own: its warps' data apart, it is `x`. -/
def BlockIs (c : Ctx) (t : State) (x : Block) : Prop :=
  ∃ b, t.block? c.ref.block = some b ∧ b = { x with warps := b.warps }

/-- R235-R240: CJOIN joins a group of consecutive blocks that holds this one; CSEND puts a message on the link to the successor;
CRECV takes the oldest one once the sender's horizon has passed, and waits before; CLEAVE leaves the group. Each misuse traps. -/
def Obligations.ChainInstructionsMoveMessages : Prop :=
  (∀ (o : Cjoin),
    let first (c : Ctx) := (c.w.sr o.a.toNat).toNat
    let len (c : Ctx) := (c.w.sr o.b.toNat).toNat
    let holds (c : Ctx) : Prop := len c ≠ 0 ∧ first c + len c ≤ c.l.desc.gx * c.l.desc.gy * c.l.desc.gz ∧
      first c ≤ c.b.index ∧ c.b.index < first c + len c
    CompletesIf (.cjoin o)
      (fun _ c => c.l.desc.chain = true ∧ holds c ∧ (c.b.group = none ∨ c.b.group = some ⟨first c, len c, o.ring⟩))
      (fun s c t w => Synced (.cjoin o) s c t w ∧ BlockIs c t { c.b with group := some ⟨first c, len c, o.ring⟩ }) ∧
    TrapsWhere (.cjoin o) (fun _ c => c.l.desc.chain = false) 0x0D 1 ∧
    TrapsWhere (.cjoin o) (fun _ c => c.l.desc.chain = true ∧
      (¬holds c ∨ ∃ g, c.b.group = some g ∧ g ≠ ⟨first c, len c, o.ring⟩)) 0x0D 2) ∧
  (∀ (o : OpA) (i : Nat), CompletesIf (.csend o)
    (fun s c => chainCheck c true = none ∧ c.b.successor true = some i ∧
      (∀ n, s.blockAt c.b.lid i = some n → n.group = none ∨ n.group = c.b.group) ∧
      s.condMet c .storesReturned = true ∧ s.condMet c .chainRoom = true)
    fun s c t w => Synced (.csend o) s c t w ∧ BlockIs c t { c.b with
      link := c.b.link ++ [.message ((List.range 16).map fun l => c.w.vl o.a.toNat (Fin.ofNat 32 l)) c.w.hdev] }) ∧
  (∀ (o : OpA) (d : OpD) (h : Head),
    let out (c : Ctx) : Prop := c.l.desc.chain = true ∧ c.b.group = none
    (TrapsWhere (.csend o) (fun _ c => c.l.desc.chain = false) 0x0D 1 ∧ TrapsWhere (.crecv d) (fun _ c => c.l.desc.chain = false) 0x0D 1 ∧
      TrapsWhere (.cleave h) (fun _ c => c.l.desc.chain = false) 0x0D 1) ∧
    (TrapsWhere (.csend o) (fun _ c => out c) 0x0D 3 ∧ TrapsWhere (.crecv d) (fun _ c => out c) 0x0D 3 ∧
      TrapsWhere (.cleave h) (fun _ c => out c) 0x0D 3) ∧
    TrapsWhere (.csend o) (fun _ c => chainCheck c true = none ∧ c.b.successor true = none) 0x0D 5 ∧
    TrapsWhere (.csend o) (fun s c => chainCheck c true = none ∧ ∃ i n, c.b.successor true = some i ∧ s.blockAt c.b.lid i = some n ∧
      n.group ≠ none ∧ n.group ≠ c.b.group) 0x0D 6 ∧
    TrapsWhere (.crecv d) (fun _ c => chainCheck c true = none ∧ c.b.hasPredecessor true = false) 0x0D 5 ∧
    TrapsWhere (.crecv d) (fun _ c => chainCheck c true = none ∧ c.b.hasPredecessor true = true ∧
      ∃ op z w r, c.b.chain = .carry op z w :: r) 0x0D 4) ∧
  (∀ (o : OpD) (ws : List Word) (h : Nat) (r : List ChainEntry), CompletesIf (.crecv o)
    (fun s c => chainCheck c true = none ∧ c.b.hasPredecessor true = true ∧ c.b.chain = .message ws h :: r ∧ h < s.time)
    fun s c t w => Synced (.crecv o) s c t w ∧ BlockIs c t { c.b with chain := r } ∧ w.hdev = max c.w.hdev h ∧
      ∀ l : Lane, w.vl o.d.toNat l = if l.val < 16 then ws.getD l.val 0 else c.w.vl o.d.toNat l) ∧
  (∀ (o : OpD) s c, Issues (.crecv o) s c → chainCheck c true = none → c.b.hasPredecessor true = true →
    c.b.chain = [] ∨ (∃ ws h r, c.b.chain = .message ws h :: r ∧ s.time ≤ h) →
    exec (.crecv o) s = .next (s.modFrag c.ref fun f => { f with st := .waitChain, cond := .chainMessage })) ∧
  (∀ (o : Head), CompletesIf (.cleave o) (fun s c => chainCheck c true = none ∧ s.condMet c .chainQuiet = true)
    fun s c t w => Synced (.cleave o) s c t w ∧ BlockIs c t { c.b with group := none, chain := [] })

/-- R241-R244: LAUNCH puts the descriptor it has read into the sump, as a child of its kernel, and answers its identifier with Z
set; with a full sump and no wait it answers the code of a full sump with Z clear; while a store or an atomic of its core to what it
reads is on its way it waits; a misaligned descriptor's address, a bad field, a launch too large and a bad placement list trap. LQRY
answers where a launch stands. These clauses are the model's choice, not the spec's: that a bad field comes before a launch too large
(XINFO 36), and that before the placement list (XINFO 64) (notes/assumptions/31.md); that launches are numbered without end and an
identifier names the last one accepted with it (82.md); that the read waits behind the core's writes (29.md); what LQRY answers of a
launch that waits or has ended (32.md); and that the descriptor is not read again when room comes (34.md). -/
def Obligations.LaunchesAreOfferedAndQueried : Prop :=
  (∀ (o : Sys2Proof.Launch) (u v : State) (bs : List Byte) (d : KDesc) (list : List Nat),
    let va (c : Ctx) : Nat := (c.w.sp o.a.toNat).toNat % 2 ^ 56
    let read (s : State) (c : Ctx) : Prop := c.f.offer = none ∧ va c % 128 = 0 ∧
      s.condMet c (.linesQuiet (s.linesAt c (va c) 128)) = true ∧ s.loadBytes c (va c) 128 = (u, .ok bs) ∧
      u.condMet c (.linesQuiet (u.linesAt c ((descOf bs).listAddr.toNat % 2 ^ 56)
        (if (descOf bs).hasList then 4 * (descOf bs).total else 0))) = true ∧ u.loadList c (descOf bs) = (v, .ok list)
    let ready (s : State) (c : Ctx) : Prop :=
      (c.f.offer = some (d, list) ∧ v = s ∨
        read s c ∧ d = descOf bs ∧ badField bs = none ∧ s.tooLarge d = none ∧ s.badList list = false) ∧
      (o.now = true → c.f.released = true ∨ v.condMet { c with w := v.warpOf c } (.release .dev) = true)
    let trapped (s : State) (c : Ctx) (k : Nat) : Prop :=
      exec (.launch o) s = .next (v.takeTrap c ⟨0x13, BitVec.ofNat 64 (va c), c.f.mask, BitVec.ofNat 32 k, c.f.pc⟩)
    let leaves (s : State) (c : Ctx) (t : State) (w : Warp) (r : Word) (z : Bool) : Prop :=
      (∃ f, w.frag? c.ref.sel = some f ∧ Fallen (.launch o) c.f f) ∧ (∀ k, k ≠ c.ref.sel → w.frag? k = c.w.frag? k) ∧
      SameRegs (.launch o) c w ∧ w.vFull = c.w.vFull ∧ w.hFull = c.w.hFull ∧ w.x = c.w.x ∧
      w.sr o.d.toNat = (if o.d.toNat = 0 then 0 else r) ∧
      (∀ l : Lane, (c.lanes (.launch o)).getLsbD l.val = true → w.cc o.h.ccSet l = { n := false, z := z, c := false, v := false }) ∧
      (t.mem = s.mem ∧ t.host = s.host)
    CompletesIf (.launch o) (fun s c => ready s c ∧ s.condMet c .sumpRoom = true)
      (fun s c t w => leaves s c t w (BitVec.ofNat 32 (launchIdent s.nextLid)) true ∧
        t.launches = s.launches ++ [
          ({ id := s.nextLid, desc := d, queue := c.l.queue, prio := c.l.prio, asid := c.l.asid, parent := some c.l.id,
             after := !o.now, root := c.l.root, st := .sump, devCount := s.devLaunches + 1, list := list
             order := s.accepted } : Machine.Launch)] ∧
        t.accepted = s.accepted + 1 ∧ t.nextLid = s.nextLid + 1 ∧ t.devLaunches = s.devLaunches + 1) ∧
    CompletesIf (.launch o) (fun s c => ready s c ∧ s.condMet c .sumpRoom = false ∧ o.wait = false)
      (fun s c t w => leaves s c t w 0x80000001 false ∧ t.launches = s.launches ∧ t.nextLid = s.nextLid) ∧
    (∀ s c, Issues (.launch o) s c → read s c →
      (∀ k, badField bs = some k → trapped s c k) ∧
      (badField bs = none → s.tooLarge (descOf bs) ≠ none → trapped s c 36) ∧
      (badField bs = none → s.tooLarge (descOf bs) = none → s.badList list = true → trapped s c 64)) ∧
    (∀ s c, Issues (.launch o) s c → c.f.offer = none → va c % 128 = 0 →
      s.condMet c (.linesQuiet (s.linesAt c (va c) 128)) = false →
      exec (.launch o) s = .next (s.modFrag c.ref fun f =>
        { f with st := .waitFence, cond := .linesQuiet (s.linesAt c (va c) 128) })) ∧
    (∀ s c, Issues (.launch o) s c → c.f.offer = none → va c % 128 ≠ 0 →
      exec (.launch o) s = .next (s.takeTrap c ⟨6, BitVec.ofNat 64 (va c), c.f.mask, 128, c.f.pc⟩))) ∧
  (∀ (o : OpDA), Completes (.lqry o) fun s c t w => LaneFrame (.lqry o) s c t w ∧ (o.d.toNat ≠ 0 →
    let id := (c.w.sr o.a.toNat).toNat
    (id = launchIdent c.l.id → w.sr o.d.toNat = 1) ∧
    (id ≠ launchIdent c.l.id → (∀ l ∈ s.launches, launchIdent l.id ≠ id) → w.sr o.d.toNat = 4) ∧
    ∀ l before later, id ≠ launchIdent c.l.id → s.launches = before ++ l :: later → launchIdent l.id = id →
      (∀ x ∈ later, launchIdent x.id ≠ id) →
      (l.devCount + 65536 ≤ s.devLaunches → w.sr o.d.toNat = 4) ∧
      (s.devLaunches < l.devCount + 65536 →
        (l.st = .waiting ∨ l.st = .sump → w.sr o.d.toNat = 0) ∧ (l.st = .running → w.sr o.d.toNat = 1) ∧
        (l.st = .ended ∨ l.st = .completed → w.sr o.d.toNat = 2) ∧ (l.st = .aborted → w.sr o.d.toNat = 3))))

/-! ### Command queues and launches -/

/-- The command processor serves a queue whose next packet is legal and of a type (R294, R297). -/
abbrev Serves (s : State) (q : Fin 64) (bs : List Byte) (ty : Nat) : Prop :=
  s.served = some q ∧ s.nextPacket (s.queue q.val) = some (some bs) ∧ pktError bs = none ∧ (pktOf bs).ty = ty

/-- The interrupts a packet raises as it completes (R294). -/
def irqs (v : Option Nat) : List Nat := match v with | some v => if v < 2048 then [v] else [] | none => []

/-- A packet has been dispatched: it counts as read; other queues and memory are as they were. -/
def Taken (s t : State) (q : Fin 64) : Prop :=
  (t.queue q.val).rptr = (s.queue q.val).rptr + 1 ∧ (t.queue q.val).wptr = (s.queue q.val).wptr ∧ t.lastQueue = q.val ∧
  (∀ k : Fin 64, k ≠ q → t.queue k.val = s.queue k.val) ∧ t.mem = s.mem ∧ t.host = s.host ∧ t.blocks = s.blocks

/-- A packet has been refused with an ERR, and counts as read unless it could not be read (R294): nothing else has come of it. -/
def Refused (s t : State) (q : Fin 64) (e : Nat) : Prop :=
  (t.queue q.val).badpkt = true ∧ (t.queue q.val).err = e ∧ (t.queue q.val).pending = (s.queue q.val).pending ∧
  (t.queue q.val).rptr = (if e = 3 then (s.queue q.val).rptr else (s.queue q.val).rptr + 1) ∧
  (∀ k : Fin 64, k ≠ q → t.queue k.val = s.queue k.val) ∧ t.mem = s.mem ∧ t.host = s.host ∧ t.events = s.events ∧
  t.tensors = s.tensors ∧ t.launches = s.launches ∧ t.msix = s.msix

/-- R294-R300, R302, R355: each packet does what its type says: a NOP completes, a KLAUNCH makes a waiting launch, EVSIG sets an event
counter, EVWAIT and MAPFLUSH wait in the queue, VDEF defines a tensor or takes it away; a malformed
packet, of whichever type, is refused, and a KLAUNCH that a breakpoint matches puts its queue on hold. -/
def PacketsAreDispatched : Prop :=
  ∀ (s : State) (q : Fin 64) (bs : List Byte),
    let p := pktOf bs
    let k := s.queue q.val
    (Serves s q bs 0 → ∃ t, exec (.nopPacket q) s = .next t ∧ Taken s t q ∧ (t.queue q.val).pending = k.pending ∧
      t.msix = s.msix ++ irqs p.vec) ∧
    (Serves s q bs 1 →
      let hit (b : PktBp) : Bool := b.hits q.val (s.virtRead k.asid p.x8 8)
      (k.bpDone = false → (∃ b ∈ s.bps.toList, hit b = true) → ∃ t, exec (.klaunch q) s = .next t ∧ (t.queue q.val).hold = true ∧
        (t.queue q.val).rptr = k.rptr ∧ t.launches = s.launches ∧ t.mem = s.mem ∧
        ∀ i : Fin 4, t.bps[i] = if hit s.bps[i] then { s.bps[i] with hit := true } else s.bps[i]) ∧
      (k.bpDone = true ∨ (∀ b ∈ s.bps.toList, hit b = false) →
        let writable : Prop := ∃ pa a, (s.walk k.asid (p.x16 % 2 ^ 56)).map (pteResult · (p.x16 % 2 ^ 56) .wr) = some (.ok pa a)
        (p.x16 = 0 ∨ writable →
          (∀ d l, s.klCheck k.asid p.x8 = .ok (d, l) → ∃ t, exec (.klaunch q) s = .next t ∧ Taken s t q ∧
            t.launches = s.launches ++ [
              ({ id := s.nextLid, desc := d, queue := q.val, prio := k.prio, asid := k.asid, parent := none, root := s.nextLid,
                 st := .waiting, devCount := s.devLaunches, status := p.x16, vec := p.vec, list := l
                 order := s.accepted } : Machine.Launch)] ∧
            (t.queue q.val).pending = k.pending ++ [.klaunch s.nextLid] ∧ t.msix = s.msix) ∧
          (∀ e, s.klCheck k.asid p.x8 = .error e → ∃ t, exec (.klaunch q) s = .next t ∧ (t.queue q.val).rptr = k.rptr + 1 ∧
            (t.queue q.val).pending = k.pending ∧ t.launches = s.launches ∧ t.msix = s.msix ++ irqs p.vec ∧
            (p.x16 = 0 → t.mem = s.mem))) ∧
        (p.x16 ≠ 0 → ¬writable → ∃ t, exec (.klaunch q) s = .next t ∧ Refused s t q 5))) ∧
    (Serves s q bs 2 → ∃ t, exec (.evsig q) s = .next t ∧ Taken s t q ∧ tget 0 t.events p.x8 = BitVec.ofNat 64 p.x16 ∧
      (∀ e, e ≠ p.x8 → tget 0 t.events e = tget 0 s.events e) ∧ t.msix = s.msix ++ irqs p.vec) ∧
    (Serves s q bs 3 → ∃ t, exec (.evwait q) s = .next t ∧ Taken s t q ∧ t.msix = s.msix ∧
      (t.queue q.val).pending = k.pending ++ [.evwait p.x8 (BitVec.ofNat 64 p.x16) p.vec]) ∧
    (Serves s q bs 4 → p.x16 = 0 → ∃ t, exec (.vdef q) s = .next t ∧ Taken s t q ∧ t.tensor? k.asid p.x8 = none ∧
      t.msix = s.msix ++ irqs p.vec) ∧
    (∀ n x, Serves s q bs 4 → p.x16 ≠ 0 → s.virtRead k.asid p.x16 64 = some n → tensorOf (leBytes 64 n) = some x →
      ∃ t, exec (.vdef q) s = .next t ∧ Taken s t q ∧ t.tensor? k.asid p.x8 = some x ∧ t.msix = s.msix ++ irqs p.vec) ∧
    (Serves s q bs 4 → p.x16 ≠ 0 →
      (s.virtRead k.asid p.x16 64 = none → ∃ t, exec (.vdef q) s = .next t ∧ Refused s t q 5) ∧
      (∀ n, s.virtRead k.asid p.x16 64 = some n → tensorOf (leBytes 64 n) = none →
        ∃ t, exec (.vdef q) s = .next t ∧ Refused s t q 2)) ∧
    (Serves s q bs 5 → ∃ t, exec (.mapflush q) s = .next t ∧ Taken s t q ∧ t.msix = s.msix ∧ (t.queue q.val).pending =
      k.pending ++ [.mapflush p.x8 p.x16 p.x24 (p.x32 % 2 == 1) (p.x32 / 2 % 2 == 1) p.vec]) ∧
    (∀ e, s.served = some q → s.nextPacket k = some (some bs) → pktError bs = some e →
      let i : Instr := match p.ty with
        | 1 => .klaunch q | 2 => .evsig q | 3 => .evwait q | 4 => .vdef q | 5 => .mapflush q | _ => .nopPacket q
      (∃ t, exec i s = .next t ∧ Refused s t q e) ∧ (5 < p.ty → e = 1) ∧ (p.ty ≤ 5 → e = 2)) ∧
    (s.served = some q → s.nextPacket k = some none → ∃ t, exec (.nopPacket q) s = .next t ∧ Refused s t q 3)

/-- R295, R296, R325: a waiting EVWAIT completes once its event has its value; a MAPFLUSH once no access under the range is on its
way, and then no TLB entry of the context touches the range. -/
def WaitingPacketsComplete : Prop :=
  (∀ (s : State) (q : Fin 64) (i : Nat) (v : DWord) (vec : Option Nat), (s.queue q.val).pending = [.evwait i v vec] →
    s.dev.ready = true → v ≤ tget 0 s.events i →
    ∃ t, exec (.evwaitSatisfied q) s = .next t ∧ (t.queue q.val).pending = [] ∧ t.msix = s.msix ++ irqs vec ∧ t.mem = s.mem ∧
      t.events = s.events) ∧
  (∀ (s : State) (q : Fin 64) (va pa len : Nat) (tlb l2 : Bool) (vec : Option Nat),
    (s.queue q.val).pending = [.mapflush va pa len tlb l2 vec] → s.dev.ready = true →
    (tlb = true → s.flushable (s.queue q.val).asid va len = true) →
    ∃ t, exec (.mapflushComplete q) s = .next t ∧ (t.queue q.val).pending = [] ∧ t.msix = s.msix ++ irqs vec ∧
      (NoDirty s → t.mem = s.mem) ∧ (tlb = false → t.tlbs = s.tlbs) ∧
      (l2 = true → ∀ k ∈ t.hostStale, lineBase k < pa ∨ pa + len ≤ lineBase k) ∧
      (tlb = true → ∀ quad, ∀ e ∈ tget [] t.tlbs quad, e.asid = (s.queue q.val).asid →
        let z := 2 ^ pageShift e.size
        va + len ≤ e.vpn * z ∨ (e.vpn + 1) * z ≤ va))

/-- R293-R300: the packets of the command queues. These clauses are the model's choice, not the spec's: that the launches of a KLAUNCH
are numbered without end (notes/assumptions/82.md), that a VDEF whose descriptor fails its check or is not answered is refused with ERR 5
(83.md), that a packet of no type is refused in the event of a NOP (39.md), and what MAPFLUSH leaves of the L2's records (41.md). -/
def Obligations.PacketsAreProcessed : Prop := PacketsAreDispatched ∧ WaitingPacketsComplete

/-- Warp `j` of block `i` of a launch as it begins (R29, R37, R48, R310): one fragment of every lane at the entry point, its registers,
flags, horizons, trap registers and accumulated maximum zero, every full bit set, nothing pending; halted where its context is. -/
def WarpBegins (s : State) (l : Machine.Launch) (i j : Nat) (w : Warp) : Prop :=
  w.lfsr = seedOf l.desc i j ∧ w.part = 5 ∧ w.vFull = BitVec.allOnes 128 ∧ w.sFull = BitVec.allOnes 64 ∧ w.hFull = BitVec.allOnes 16 ∧
  (∀ n l', w.vl n l' = 0) ∧ (∀ n, w.sr n = 0) ∧ (∀ n, w.hr n = 0) ∧ (∀ p l', w.cc p l' = {}) ∧ w.amax = 0 ∧ w.nanSeen = false ∧
  w.x = {} ∧ w.repc = 0 ∧ w.rep = none ∧ w.handler = none ∧ w.nopre = false ∧ w.hdie = 0 ∧ w.hdev = 0 ∧ w.hpod = 0 ∧ w.exited = 0 ∧
  w.specs = [] ∧ w.pipe = [] ∧ (∀ l' : Lane, w.resv[l'] = none) ∧ (∀ e : Fin 32, w.join[e] = none) ∧
  w.frag? (.entry 0) = some { mask := 0xFFFF_FFFF, pc := l.desc.entry, halted := s.haltOf l.asid } ∧
  ∀ e : Fin 32, e ≠ 0 → w.frag? (.entry e) = none

/-- Block `i` of a launch as it is admitted (R26, R257, R310): resident, its banks in scratchpad mode, nothing of its own yet, its warps
at their places. -/
def BlockBegins (s : State) (l : Machine.Launch) (i core : Nat) (places : List (Nat × Nat)) (b : Block) : Prop :=
  b.lid = l.id ∧ b.index = i ∧ b.core = core ∧ b.phase = .resident ∧ b.since = s.time ∧ b.banks = List.replicate l.desc.banks {} ∧
  b.scratch = [] ∧ b.tiles = [] ∧ b.ops = [] ∧ b.locked = [] ∧ b.lockQuota = l.desc.lockQuota ∧ b.group = none ∧ b.chain = [] ∧
  b.link = [] ∧ b.bars = [] ∧ b.warps.length = l.desc.warps ∧ b.warps.map (fun w => (w.sched, w.slot)) = places ∧
  ∀ (j : Nat) (w : Warp), b.warps[j]? = some w → WarpBegins s l i j w

/-- R25-R29, R37, R43, R48, R299, R302, R306-R310: a launch starts, its code as memory stands; its next block is placed on the core the
rules choose; a cooperative launch is placed whole, each block on the core chosen once those before it stand; a chain launch is placed
whole, block i on core base + i of the lowest base from which every one is admitted. -/
def Obligations.LaunchesStartAndPlaceTheirBlocks : Prop :=
  (∀ (s : State) (lid : Nat) (l : Machine.Launch), s.launch? lid = some l → s.startable l = true →
    ∃ t x, exec (.launchStart lid) s = .next t ∧ t.launch? lid = some x ∧ x.st = .running ∧ x.image = s.mem ∧ x.hostImage = s.host ∧
      x.desc = l.desc ∧ t.mem = s.mem ∧ t.blocks = s.blocks) ∧
  (∀ (s : State) (l : Machine.Launch) (u : State), s.nextPlace = some (l, u) → s.launch? l.id = some l →
    (∀ b ∈ s.blocks, b.uid < s.nextUid) →
    (∀ core places, l.desc.whole = false → s.chooseCore l = some (core, places) →
      ∃ t b x, exec .blockPlace s = .next t ∧ t.block? s.nextUid = some b ∧ BlockBegins s l l.next core places b ∧
        t.launch? l.id = some x ∧ x.next = l.next + 1 ∧ (l.status = 0 → NoDirty s → t.mem = s.mem)) ∧
    (l.desc.coop = true → l.desc.chain = false → l.next = 0 →
      ∃ t x, exec (.coopLaunchPlace l.id) s = .next t ∧ t.launch? l.id = some x ∧ x.next = l.desc.total ∧
        ∀ i, i < l.desc.total → ∃ b v y core places, t.block? (s.nextUid + i) = some b ∧ s.placeAll l.id i = some v ∧
          v.launch? l.id = some y ∧ v.chooseCore y = some (core, places) ∧ BlockBegins s l i core places b) ∧
    (l.desc.chain = true → l.next = 0 →
      ∃ t x base, exec (.chainLaunchPlace l.id) s = .next t ∧ t.launch? l.id = some x ∧ x.next = l.desc.total ∧
        x.chainBase = some base ∧ base + l.desc.total ≤ s.numCores ∧
        (∀ i, i < l.desc.total → ∃ b places, t.block? (s.nextUid + i) = some b ∧ s.admits l.desc (base + i) = some places ∧
          BlockBegins s l i (base + i) places b) ∧
        ∀ c, c < base → ∃ i, i < l.desc.total ∧ s.admits l.desc (c + i) = none)) ∧
  (∀ (s : State) (l : Machine.Launch) (t0 : Nat), s.launch? l.id = some l → l.st = .running → l.desc.whole = true → l.starved = false →
    l.headSince = some t0 → t0 + 1000000 ≤ s.time →
    ∃ t x, exec (.coopHeadWaitExpiry l.id) s = .next t ∧ t.launch? l.id = some x ∧ x.starved = true ∧ t.blocks = s.blocks)

/-- R20, R43, R164, R207, R243, R253, R284, R303, R305: a block whose warps have ended, whose accesses are performed and whose
operations are over leaves the device with the L1's lines of its local memory; a fault that nothing has taken aborts its kernel; with the
last block of the grid the kernel ends; at its boundary every L1 is emptied; with the last member of its tree the final status record is
written, whose every field is stated here, and the KLAUNCH completes. -/
def Obligations.BlocksAndKernelsEnd : Prop :=
  (∀ (s : State) (u : Nat) (b : Block) (l : Machine.Launch), s.block? u = some b → s.launch? b.lid = some l →
    s.blockEnds b l = true → l.st = .running → s.drops = [] → b.failedWrite = [] →
    ∃ t x, exec (.blockEnd u) s = .next t ∧ t.block? u = none ∧ (∀ q ∈ t.reqs, q.block ≠ u) ∧ t.launch? b.lid = some x ∧
      (∀ y ∈ (t.core b.core).lines, localLineOf l b y = false) ∧
      ((∃ o ∈ b.ops, ∃ g, o.fault = some g ∧ g.taken = false) → x.st = .aborted) ∧
      ((∀ o ∈ b.ops, ∀ g, o.fault = some g → g.taken = true) →
        (s.dev.trEn = false → (s.core b.core).pkts = [] → NoDirty s → t.mem = s.mem) ∧
        (l.next = l.desc.total → (∀ y ∈ s.blocks, y.lid = l.id → y.uid = u) → x.st = .ended))) ∧
  (∀ (s : State) (lid : Nat) (l : Machine.Launch), s.launch? lid = some l → s.atBoundary l = true →
    ∃ t x, exec (.kernelBoundary lid) s = .next t ∧ t.launch? lid = some x ∧ x.boundary = true ∧
      (l.st = .ended → x.st = .completed) ∧ (∀ k, (t.core k).lines = []) ∧ (NoDirty s → t.mem = s.mem)) ∧
  (∀ (s : State) (lid : Nat) (l : Machine.Launch), s.launch? lid = some l → l.root = lid → l.treeDone = false →
    (∀ x ∈ s.launches, x.root = lid → x.over = true) → l.status = 0 →
    ∃ t x, exec (.kernelTreeEnd lid) s = .next t ∧ t.launch? lid = some x ∧ x.treeDone = true ∧
      (t.queue l.queue).pending = (s.queue l.queue).pending.erase (.klaunch lid) ∧ t.msix = s.msix ++ irqs l.vec ∧ t.mem = s.mem) ∧
  (∀ (s : State) (lid pa : Nat) (l : Machine.Launch) (a : Attr), s.launch? lid = some l → l.root = lid → l.treeDone = false →
    (∀ x ∈ s.launches, x.root = lid → x.over = true) → l.status ≠ 0 → s.memOk →
    (s.walk l.asid (l.status % 2 ^ 56)).map (pteResult · (l.status % 2 ^ 56) .wr) = some (.ok pa a) →
    a.target = .device ∨ a.target = .host → s.lostAt a.tier pa = none →
    ∃ t x, exec (.kernelTreeEnd lid) s = .next t ∧ t.launch? lid = some x ∧ x.treeDone = true ∧
      (t.queue l.queue).pending = (s.queue l.queue).pending.erase (.klaunch lid) ∧ t.msix = s.msix ++ irqs l.vec ∧
      ((∃ x ∈ s.launches, x.root = lid ∧ x.st = .aborted) → t.physRead a.target pa 4 = 3) ∧
      ((∀ x ∈ s.launches, x.root = lid → x.st ≠ .aborted) → t.physRead a.target pa 4 = 2) ∧
      t.physRead a.target (pa + 4) 4 = launchIdent lid ∧
      t.physRead a.target (pa + 8) 4 = (match l.chainBase with | some k => k % 2 ^ 32 | none => 0xFFFF_FFFF) ∧
      t.physRead a.target (pa + 12) 4 = 0 ∧ t.physRead a.target (pa + 16) 8 = l.start.getD 0 % 2 ^ 64 ∧
      t.physRead a.target (pa + 24) 8 = s.time % 2 ^ 64 ∧
      ∀ y, (a.target ≠ .device ∨ y < pa ∨ pa + 32 ≤ y → t.mem.get y = s.mem.get y) ∧
        (a.target ≠ .host ∨ y < pa ∨ pa + 32 ≤ y → t.host.get y = s.host.get y))

/-- R39, R311-R314, R362: in a cycle each of a core's four schedulers chooses at most two instructions, of different fragments and
pipes, that read no more than two v registers of a bank; what they chose is due in the order of WARPSLOT, and nothing is executed yet. R171: a predicted branch is confirmed once its
compare can be evaluated: the compare's flags are written in the fragment's lanes, and the prediction is over. -/
def CyclesChooseAndBranchesAreConfirmed : Prop :=
  (∀ (s : State) (core : Nat), core < s.numCores → s.env.stretchOf (s.columnOf core) < 1000 →
    (∀ n : Fin 4, s.trigDue core n = false) → (∀ b ∈ s.blocks, b.core = core → b.reissue = []) →
    ∃ t picks acts, exec (.issueCycle core) s = .next t ∧ picks.length = 4 ∧
      (∃ new, t.picks = s.picks ++ new ∧ new.Perm ((picks : List (List Cand)).flatten.map Cand.ref ++ acts) ∧
        new.Pairwise fun a b => ∀ x y, s.warp? a.block a.warp = some x → s.warp? b.block b.warp = some y → x.warpSlot ≤ y.warpSlot) ∧
      (∀ l ∈ picks, l.length ≤ 2 ∧ (∀ x ∈ l, x.l.isSome = true) ∧
        ∀ a b, l = [a, b] → a.ref ≠ b.ref ∧ a.l.map Layout.pipe ≠ b.l.map Layout.pipe ∧ bankOk a.reads b.reads = true) ∧
      t.mem = s.mem ∧ t.reqs = s.reqs ∧
      ∀ u i w, s.warp? u i = some w → ∃ w', t.warp? u i = some w' ∧ SameData w w' ∧ w'.lfsr = w.lfsr ∧ w'.join = w.join) ∧
  (∀ (s : State) (c : Ctx) (p : Spec), s.ctx? c.ref = some c → c.w.specs.find? (fun p => c.ref.sel == .entry p.entry) = some p →
    s.condMet c c.f.cond = true →
    let before : Warp := { c.w with v := p.v0, cc0 := p.cc0, cc1 := p.cc1 }
    let done := cmpSem p.cmp (before.execMask c.f.mask p.cmp.layout.head) before
    ∃ t w, exec (.branchConfirm c.ref) s = .next t ∧ t.warp? c.ref.block c.ref.warp = some w ∧
      (∀ x ∈ w.specs, x.entry ≠ p.entry) ∧
      (∀ l : Lane, c.f.mask.getLsbD l.val = true → w.cc p.br.h.gset l = done.cc p.br.h.gset l) ∧ w.h = c.w.h ∧ w.x = c.w.x)

/-! ### Pre-emption, migration and faults -/

/-- The host's writes that start or resume work take effect at once (R368). -/
abbrev HostFree (s : State) : Prop := s.dev.ready = true ∧ s.deferred = [] ∧ s.hostWdev ≤ s.time

/-- R315-R319, R343, R344: a pre-emption stops the blocks; a block at rest is saved, or its kernel aborts; a saved block whose record is
as it was written is restored with its registers, scratchpad and flags as they were; a NOPRE region that overruns its window takes the trap. -/
def PreemptionSavesAndRestores : Prop :=
  (∀ (s : State) (q : Fin 64), HostFree s →
    ∃ t, exec (.preqGo q) s = .next t ∧ t.dev.preqQ = q.val ∧ ∀ u b l, s.block? u = some b → s.launch? b.lid = some l →
      b.phase = .resident → l.queue = q.val → l.st ≠ .aborted →
      ∃ b', t.block? u = some b' ∧ b'.phase = .stopping s.time .preempt) ∧
  (∀ (s : State) (lid : Nat) (l : Machine.Launch) (out : List Nat), s.launch? lid = some l → s.dev.apre = true → l.st = .running →
    l.next < l.desc.total → l.waitSince + 1000 * s.dev.apdly < s.time →
    s.placesWithout l s.leaving = false → s.displace l (s.victims l) s.leaving = some out →
    ∃ t, exec (.autoPreempt lid) s = .next t ∧ ∀ u ∈ s.needed l s.leaving (out.filter fun u => !s.leaving.contains u), ∀ b, s.block? u = some b → b.phase = .resident →
      ∃ b', t.block? u = some b' ∧ b'.phase = .stopping s.time .preempt) ∧
  (∀ (s : State) (r : WarpRef) (b : Block) (l : Machine.Launch) (w : Warp) (t0 : Nat) (i : Fin 32) (f : Frag),
    s.block? r.block = some b → s.launch? b.lid = some l → b.phase = .stopping t0 .preempt → b.warps[r.warp]? = some w →
    w.nopre = true → w.stopped = false → t0 + 2000 + w.windowHeld ≤ s.time → w.specs = [] → w.overrunFrags = [(i, f)] → w.handler = none →
    f.handler = false → l.desc.trapPc ≠ 0 →
    ∃ t w' f', exec (.nopreWindowExpiry r) s = .next t ∧ t.warp? r.block r.warp = some w' ∧ w'.x.cause = 0x0E ∧ w'.nopre = false ∧
      w'.frag? (.entry i) = some f' ∧ f'.pc = l.desc.trapPc &&& ~~~1#64 ∧ f'.handler = true ∧ w'.v = w.v) ∧
  (∀ (s : State) (u : Nat) (b : Block) (l : Machine.Launch) (t0 : Nat) (why : StopWhy), s.block? u = some b →
    s.launch? b.lid = some l → b.phase = .stopping t0 why → s.atRest b = true → l.st = .running → s.drops = [] →
    why = .preempt ∨ s.mayMove b = true →
    ∃ t b' l', exec (.contextSaveComplete u) s = .next t ∧ t.block? u = some b' ∧ t.launch? b.lid = some l' ∧
      (∀ q ∈ t.reqs, q.block ≠ u ∨ q.lingers = true) ∧
      (∀ column, why = .migrate column → b'.phase = .moving column ∧ ∀ w ∈ b'.warps, w.resv = Vector.replicate 32 none) ∧
      (why = .preempt → (∃ a, b'.phase = .saved a) ∨ l'.st = .aborted)) ∧
  (∀ (s : State) (u a core : Nat) (b : Block) (l : Machine.Launch) (places : List (Nat × Nat)), s.block? u = some b →
    s.launch? b.lid = some l → b.phase = .saved a → l.desc.whole = false → (s.queue l.queue).hold = false → l.st ≠ .aborted →
    s.heldBack l = false → s.drops = [] → (∀ w ∈ b.warps, w.hdev ≤ s.time) → b.writesPast s.time false = true →
    s.restoreCore b l = some (core, places) → b.reissue = [] → b.tree = false →
    ∃ t b', exec (.blockRestore u) s = .next t ∧ t.block? u = some b' ∧ b'.phase = .resident ∧ b'.core = core ∧ b'.banks = b.banks ∧
      (s.recordNow (s.queue l.queue).asid (b.record.length / 4096 + 1) a b.record.length = some b.record →
        b'.scratch = b.scratch ∧ b'.tiles = b.tiles ∧
        ∀ (i : Nat) (w' : Warp), b'.warps[i]? = some w' → ∃ w, b.warps[i]? = some w ∧ SameData w w' ∧ w'.exited = w.exited))

/-- R320-R323: of a column above its threshold for 1 ms, a migration stops the oldest block that may leave it, for the coolest column
that takes it; it is abandoned if a NOPRE region outlasts the window, to be tried again after 1 ms, or if the block has come to be one
R321 keeps where it is (notes/assumptions/44.md); the block goes on at a core of the target column, the one R307 prefers
(notes/assumptions/90.md). -/
def MigrationMovesABlock : Prop :=
  (∀ (s : State) (u : Nat) (b : Block) (l : Machine.Launch) (column : Fin 40), s.block? u = some b → s.launch? b.lid = some l →
    s.migratable b = true → s.migrating (s.columnOf b.core) = false → s.hotLong (s.columnOf b.core) = true →
    (∀ x ∈ s.blocks, s.columnOf x.core = s.columnOf b.core → s.migratable x = true → b.stamp ≤ x.stamp) →
    s.takesMigrant l.desc (s.columnOf b.core) column.val = true →
    (∀ c, c < Config.numColumns → s.takesMigrant l.desc (s.columnOf b.core) c = true →
      vget 0 s.env.temps column.val ≤ vget 0 s.env.temps c) → s.drops = [] →
    ∃ t b', exec (.migrationStart u column) s = .next t ∧ t.block? u = some b' ∧
      b'.phase = .stopping s.time (.migrate column.val) ∧ b'.scratch = b.scratch) ∧
  (∀ (s : State) (u : Nat) (b : Block) (t0 column : Nat), s.block? u = some b → b.phase = .stopping t0 (.migrate column) →
    (∃ w ∈ b.warps, w.stopped = false ∧ t0 + 2000 + w.windowHeld ≤ s.time) → b.wantSave = false →
    ∃ t, exec (.migrationAbandon u) s = .next t ∧ t.block? u = some { b with phase := .resident } ∧
      ∀ k : Fin 40, t.env.retryAt[k] = if k.val = s.columnOf b.core then s.time + 1000000 else s.env.retryAt[k]) ∧
  (∀ (s : State) (u : Nat) (b : Block) (l : Machine.Launch) (t0 column : Nat), s.block? u = some b → s.launch? b.lid = some l →
    b.phase = .stopping t0 (.migrate column) → s.atRest b = true → l.st ≠ .aborted → s.drops = [] → b.wantSave = false →
    b.group ≠ none ∨ (∃ g ∈ s.groups, u ∈ g.members ∧ (g.bar.scope = .quad ∨ g.bar.scope = .die)) ∨
      (∃ w ∈ b.warps, ∃ x ∈ w.frags, x.2.replay ≠ none) →
    ∃ t, exec (.contextSaveComplete u) s = .next t ∧ t.block? u = some { b with phase := .resident } ∧ t.mem = s.mem) ∧
  (∀ (s : State) (u core column : Nat) (b : Block) (l : Machine.Launch) (places : List (Nat × Nat)), s.block? u = some b →
    s.launch? b.lid = some l → b.phase = .moving column → s.targetCore l.desc column = some (core, places) →
    s.synchronised b core = true → l.st ≠ .aborted → s.drops = [] → b.wantSave = false → b.reissue = [] →
    ∃ t b', exec (.migrationResume u) s = .next t ∧ t.block? u = some b' ∧ b'.phase = .resident ∧ b'.core = core ∧
      b'.scratch = b.scratch ∧
      ∀ (i : Nat) (w' : Warp), b'.warps[i]? = some w' → ∃ w, b.warps[i]? = some w ∧ SameData w w')

/-- R315-R323, R343, R344: pre-emption and migration. -/
def Obligations.BlocksAreSavedRestoredAndMoved : Prop := PreemptionSavesAndRestores ∧ MigrationMovesABlock

/-- R207, R331-R333: a fault record goes to the ring in host memory when it has room; FRESUME's RETRY makes the unfinished lanes' work
due again, of a fetch at the fragment's own address, and its FAIL takes the fault's trap for them; of a suspended engine operation
RETRY lets it go on and FAIL ends it FAULTED at its progress point, and the fragments parked on it are ready again. -/
def Obligations.FaultsAreRecordedAndResumed : Prop :=
  (∀ (s : State) (f : FaultRec) (rest : List FaultRec), s.faultQ = f :: rest → s.fq.en = true → 0 < s.fq.room →
    ∃ t, exec .faultRecordWrite s = .next t ∧ t.faultQ = rest ∧ t.fq.wptr = s.fq.wptr + 1 ∧ t.mem = s.mem ∧
      t.host = s.host.writeBytes (s.fq.base.toNat + 32 * (s.fq.wptr.toNat % 2 ^ s.fq.size)) f.bytes ∧
      t.msix = s.msix ++ irqs (some s.fq.vec)) ∧
  (∀ (s : State) (id : Nat) (c : Ctx) (p : Replay) (pc : DWord) (i : Instr) (lanes : LaneMask) (n : Nat), HostFree s → id < 2 ^ 30 →
    p = .mem pc i lanes id n ∨ (∃ pc', p = .fetch pc' lanes id ∧ pc = c.f.pc) ∨ p = .reissue pc lanes id n →
    s.ctx? c.ref = some c → c.f.replay = some p → s.parkedFrag id = some (c.ref, p) → c.b.present = true → c.b.reissue = [] →
    (∃ t w f, exec (.fresumeRetry id) s = .next t ∧ t.warp? c.ref.block c.ref.warp = some w ∧ w.frag? c.ref.sel = some f ∧
      f.st = .ready ∧ f.replay = none ∧ f.pc = c.f.pc ∧ f.mask = c.f.mask ∧
      f.redo = (if p = .mem pc i lanes id n then { pc := pc, i := i, lanes := lanes, replay := true, ins := n } :: c.f.redo
        else c.f.redo) ∧ SameData c.w w ∧ t.mem = s.mem) ∧
    (c.f.undo = none → c.w.handler = none → c.f.handler = false → c.l.desc.trapPc ≠ 0 → isPath c.ref.sel = false →
      ∃ t w f, exec (.fresumeFail id) s = .next t ∧ t.warp? c.ref.block c.ref.warp = some w ∧ w.frag? c.ref.sel = some f ∧
        f.pc = c.l.desc.trapPc &&& ~~~1#64 ∧ f.handler = true ∧
        w.x = { cause := BitVec.ofNat 32 (tget (0x0A, 0) s.faultLog id).1, pc := pc,
                addr := BitVec.ofNat 64 (tget (0x0A, 0) s.faultLog id).2, mask := lanes, info := 0 } ∧ w.v = c.w.v)) ∧
  (∀ (s : State) (id : Nat) (e : Eng) (x : Suspend), HostFree s → id < 2 ^ 30 → s.parkedFrag id = none →
    s.suspended id = some (e, x) → s.block? e.b.uid = some e.b → e.b.present = true →
    let freed (b : Block) : Prop := ∀ (i : Nat) (w : Warp), e.b.warps[i]? = some w → ∃ w', b.warps[i]? = some w' ∧ w'.v = w.v ∧
      w'.s = w.s ∧ w'.h = w.h ∧ ∀ (j : Fin 32) (f : Frag), w.split[j] = some f → ∃ f', w'.split[j] = some f' ∧ f'.pc = f.pc ∧
        f'.mask = f.mask ∧ ((∃ pc h, f.replay = some (.handle pc h)) → f'.st = .ready ∧ f'.replay = none) ∧
        ((∀ pc h, f.replay ≠ some (.handle pc h)) → f' = f)
    (∃ t b, exec (.fresumeRetry id) s = .next t ∧ t.block? e.b.uid = some b ∧ { e.o with suspend := none } ∈ b.ops ∧ freed b ∧
      t.mem = s.mem) ∧
    ∃ t b o, exec (.fresumeFail id) s = .next t ∧ t.block? e.b.uid = some b ∧ o ∈ b.ops ∧ o.id = e.o.id ∧ o.status = .faulted ∧
      o.suspend = none ∧ o.fault = some ⟨BitVec.ofNat 8 (tget (0x0A, 0) s.faultLog id).1,
        BitVec.ofNat 64 (tget (0x0A, 0) s.faultLog id).2, x.point, false, x.point⟩ ∧ freed b ∧
      (∀ (i h : Nat) (w w' : Warp), e.o.handle ≠ 0 → e.b.warps[i]? = some w → b.warps[i]? = some w' → h < 16 →
        w.hr h = e.o.handle → w'.hFull.getLsbD h = true) ∧ t.mem = s.mem)

/-! ### The host, the pod and the device's service -/

/-- R7, R293, R296, R366-R368, R376, R377: the host's accesses to the registers and, within the Memory BAR, to the memory of the
device, in their order: one after a write that waits waits as well. -/
def HostReachesTheDevice : Prop :=
  (∀ (s : State) (off : Nat) (v : Word),
    (s.deferred = [] → off % 4 ≠ 0 → exec (.registerWrite off v) s = .next s) ∧
    (s.dev.ready = false → off < 0x030 ∨ 0x038 < off → exec (.registerWrite off v) s = .next s) ∧
    (s.dev.ready = true → s.deferred ≠ [] → off = 0x020 →
      exec (.registerWrite off v) s = .next { s with deferred := s.deferred ++ [(0, .reg off v)] }) ∧
    (s.dev.ready = true → s.deferred = [] → off = 0x020 → ∃ t, exec (.registerWrite off v) s = .next t ∧
      t.dev.hwin = pairOf (v &&& 0xC000_0000) (hiOf s.dev.hwin &&& 0x00FF_FFFF) ∧ t.mem = s.mem) ∧
    (s.dev.ready = true → s.deferred = [] → off = 0x408 → exec (.registerWrite off v) s = .next { s with dev := { s.dev with dbgSel := v } })) ∧
  (∀ (s : State) (q : Fin 64) (v : Word), HostFree s → ∃ t, exec (.qwptrWrite q v) s = .next t ∧
    (t.queue q.val).wptr = v ∧ (t.queue q.val).rptr = (s.queue q.val).rptr ∧ t.mem = s.mem ∧
    (t.queue q.val).overrun = ((s.queue q.val).overrun || ((s.queue q.val).en && (s.queue q.val).sizeOk &&
      decide (2 ^ (s.queue q.val).size < (v - (s.queue q.val).rptr).toNat)))) ∧
  (∀ (s : State) (q : Fin 64) (v : Word), HostFree s → ∃ t, exec (.qctlWrite q v) s = .next t ∧
    (t.queue q.val).en = v.getLsbD 31 ∧ (t.queue q.val).prio = fieldOf v 24 2 ∧ (t.queue q.val).asid = fieldOf v 8 16 ∧
    (t.queue q.val).size = fieldOf v 0 5 ∧
    (v.getLsbD 31 = true → (s.queue q.val).en = false → (t.queue q.val).wptr = 0 ∧ (t.queue q.val).rptr = 0) ∧
    ((s.queue q.val).en = true → (t.queue q.val).wptr = (s.queue q.val).wptr ∧ (t.queue q.val).rptr = (s.queue q.val).rptr) ∧
    (t.queue q.val).badpkt = ((s.queue q.val).badpkt || (v.getLsbD 31 && !(t.queue q.val).sizeOk)) ∧
    (t.queue q.val).overrun = ((s.queue q.val).overrun || ((t.queue q.val).en && (t.queue q.val).sizeOk &&
      decide (2 ^ (t.queue q.val).size < ((t.queue q.val).wptr - (t.queue q.val).rptr).toNat)))) ∧
  (∀ (s : State) (q : Fin 64) (v : Word), s.dev.ready = true → s.deferred = [] → ∃ t, exec (.qstatWrite q v) s = .next t ∧
    (t.queue q.val).badpkt = ((s.queue q.val).badpkt && !v.getLsbD 30) ∧
    (t.queue q.val).overrun = ((s.queue q.val).overrun && !v.getLsbD 29) ∧ (t.queue q.val).hold = v.getLsbD 28) ∧
  (∀ (s : State) (i : Fin 4096) (v : DWord), HostFree s → ∃ t, exec (.eventCounterWrite i v) s = .next t ∧
    tget 0 t.events i.val = v ∧ (∀ e, e ≠ i.val → tget 0 t.events e = tget 0 s.events e) ∧ t.mem = s.mem) ∧
  (∀ (s : State) (i : Fin 4096) (v : DWord), s.dev.ready = true → s.deferred ≠ [] ∨ s.time < s.hostWdev →
    exec (.eventCounterWrite i v) s = .next { s with deferred := s.deferred ++ [(s.hostWdev, .event i.val v)] }) ∧
  (∀ (s : State) (t0 i : Nat) (v : DWord) (rest : List (Nat × Deferred)), s.deferred = (t0, .event i v) :: rest → t0 ≤ s.time →
    s.hostWdev ≤ s.time →
    ∃ t, exec .hostWriteTakesEffect s = .next t ∧ t.deferred = rest ∧ tget 0 t.events i = v ∧ t.mem = s.mem) ∧
  (∀ (s : State) (off len : Nat) (bytes : List Byte),
    let a := s.dev.hwin.toNat + off
    let lost : Prop := ∃ k, k < bytes.length ∧ s.portDown (a + k) = true
    (s.dev.ready = false ∨ s.env.barBytes < off + bytes.length →
      exec (.hostMemoryWrite off bytes) s = .next { s with hostRead := { unsupported := true } }) ∧
    (s.dev.ready = false ∨ s.env.barBytes < off + len →
      exec (.hostMemoryRead off len) s = .next { s with hostRead := { unsupported := true } }) ∧
    (s.dev.ready = true → off + bytes.length ≤ s.env.barBytes → s.deferred ≠ [] →
      exec (.hostMemoryWrite off bytes) s = .next { s with deferred := s.deferred ++ [(0, .memory off bytes)] }) ∧
    (s.dev.ready = true → off + bytes.length ≤ s.env.barBytes → s.deferred = [] → s.memOk →
      ∃ t, exec (.hostMemoryWrite off bytes) s = .next t ∧ t.host = s.host ∧ s.hostWdev ≤ t.hostWdev ∧ (lost → t.mem = s.mem) ∧
        (¬lost → (∀ k, k < bytes.length → t.mem.get (a + k) = bytes.getD k 0) ∧
          ∀ x, x < a ∨ a + bytes.length ≤ x → t.mem.get x = s.mem.get x)) ∧
    (s.dev.ready = true → off + len ≤ s.env.barBytes → s.deferred = [] →
      ∃ t, exec (.hostMemoryRead off len) s = .next t ∧ t.mem = s.mem ∧ t.hostRead.poisoned = s.badRange a len ∧
        t.hostRead.data = (List.range len).map fun k => s.mem.get (a + k)))

/-- R341, R349-R352, R357, R359, R365: the debugger halts a context, lets it go on or lets it go past one stop site, and reads and
writes a register of a halted warp; the rings, tracing and triggers are set; before READY such writes are ignored. -/
def ControlRegistersTakeTheirFields : Prop :=
  (∀ (s : State) (v : Word), HostFree s → v.getLsbD 29 = false → ∃ t, exec (.debugHalt v) s = .next t ∧ t.dev.dbgHalt = true ∧
    t.dev.dbgAsid = fieldOf v 0 16 ∧ t.dev.dbgArm = v.getLsbD 30 ∧ t.mem = s.mem) ∧
  (∀ (s : State) (v : Word), HostFree s → s.dev.dbgHalt = true → ∃ t, exec (.debugResume v) s = .next t ∧ t.dev.dbgHalt = false ∧
    t.mem = s.mem ∧ ∀ u b l (i : Nat) w (e : Fin 32) f, s.block? u = some b → b.present = true → s.launch? b.lid = some l →
      l.asid = s.dev.dbgAsid → b.warps[i]? = some w → w.frag? (.entry e) = some f →
      ∃ w' f', t.warp? u i = some w' ∧ w'.frag? (.entry e) = some f' ∧ f'.halted = false ∧ f'.pc = f.pc ∧ SameData w w') ∧
  (∀ (s : State) (v : Word), HostFree s → s.dev.dbgHalt = true → fieldOf v 0 16 = s.dev.dbgAsid →
    ∃ t, exec (.debugStep v) s = .next t ∧ t.dev.dbgHalt = true ∧ t.mem = s.mem ∧
    ∀ u b l (i : Nat) w (e : Fin 32) f, s.block? u = some b → b.present = true → s.launch? b.lid = some l →
      l.asid = s.dev.dbgAsid → b.warps[i]? = some w → w.frag? (.entry e) = some f → f.halted = true →
      ∃ w' f', t.warp? u i = some w' ∧ w'.frag? (.entry e) = some f' ∧ f'.halted = (f.st != .ready) ∧ f'.stepped = true ∧
        f'.resumed = (f.st == .ready && (f.site || f.bkpt))) ∧
  (∀ (s : State) (b : Block) (i : Nat) (w : Warp) (l : Machine.Launch) (v : DWord), s.debugWarp = some (b, i, w, l) →
    s.warp? b.uid i = some w → fieldOf s.dev.dbgSel 28 4 = 1 → fieldOf s.dev.dbgSel 16 7 < 64 →
    (∃ t, exec .dbgdataRead s = .next t ∧ t.hostRead.data = leBytes 8 (w.sr (fieldOf s.dev.dbgSel 16 7)).toNat ∧ t.mem = s.mem) ∧
    (s.dev.ready = true → s.deferred = [] → ∃ t w', exec (.dbgdataWrite v) s = .next t ∧ t.warp? b.uid i = some w' ∧
      vget 0 w'.s (fieldOf s.dev.dbgSel 16 7) = loOf v ∧ w'.v = w.v ∧ w'.h = w.h ∧ w'.split = w.split)) ∧
  (∀ (s : State) (v : DWord), s.debugWarp = none → s.deferred = [] → exec (.dbgdataWrite v) s = .next s) ∧
  (∀ (s : State) (v : Word), s.dev.ready = true → s.deferred = [] →
    let ringOk (r r' : Ring) (lo hi : Nat) : Prop :=
      r'.en = (v.getLsbD 31 && (r.en || decide (lo ≤ fieldOf v 0 5 ∧ fieldOf v 0 5 ≤ hi))) ∧
      r'.size = (if r.en then r.size else fieldOf v 0 5) ∧ r'.base = r.base ∧ r'.wptr = r.wptr
    (∃ t, exec (.faultRingControl v) s = .next t ∧ ringOk s.fq t.fq 6 16 ∧ t.fq.vec = fieldOf v 16 11) ∧
    (∃ t, exec (.errorRingControl v) s = .next t ∧ ringOk s.el t.el 4 16 ∧ t.el.vec = fieldOf v 16 11) ∧
    (∃ t, exec (.profilingRingControl v) s = .next t ∧ ringOk s.pr t.pr 6 20 ∧ t.dev.prSmp = v.getLsbD 30) ∧
    (∃ t, exec (.traceControl v) s = .next t ∧ t.dev.trAsid = fieldOf v 0 16 ∧
      t.dev.trEn = (v.getLsbD 31 && (s.dev.trEn || decide (12 ≤ fieldOf v 16 5 ∧ fieldOf v 16 5 ≤ 24))) ∧
      (s.dev.trEn = false → t.dev.trEn = true → ∀ k, (t.core k).trW = 0 ∧ (t.core k).trR = 0)) ∧
    ∀ n : Fin 4, ∃ t, exec (.tgctlWrite n v) s = .next t ∧ t.trigs[n].en = v.getLsbD 31 ∧ t.trigs[n].start = fieldOf v 28 3 ∧
      t.trigs[n].stop = fieldOf v 25 3 ∧
      (v.getLsbD 31 = true → s.trigs[n].en = false → ∀ k, t.trigOn k n = (fieldOf v 28 3 == 0))) ∧
  (∀ (s : State) (v : Word) (n : Fin 4), s.dev.ready = false → exec (.faultRingControl v) s = .next s ∧
    exec (.errorRingControl v) s = .next s ∧ exec (.profilingRingControl v) s = .next s ∧ exec (.traceControl v) s = .next s ∧
    exec (.tgctlWrite n v) s = .next s)

/-- R7, R293, R296, R341, R349-R352, R357, R359, R365-R368, R376: the host port and the debug registers. These clauses are the model's
choice, not the spec's: that QWPTR and QCTL set OVER only of an enabled queue of a legal size (notes/assumptions/39.md), that the answer
of a host read stands in the state (12.md), how the actions of a write to DBGCTL combine (48.md), that a ring which is enabled keeps its
size (56.md), and that an offset which is no multiple of 4 takes no write (59.md). -/
def Obligations.HostAndDebugAccessesTakeEffect : Prop := HostReachesTheDevice ∧ ControlRegistersTakeTheirFields

/-- R185, R268, R290, R376, R377, R379, R380: while the pod is reached, a peer reads, writes and updates what an open window covers, and
nothing else, and gets the line's times and, on request, a lease; the answer to a request of this device fills in its value and times; one
that is refused or stays away 200 µs fails, a write that does to be reported at the next release. -/
def Obligations.RemoteRequestsReachTheirWindows : Prop :=
  (∀ (s : State), s.podUp = true → s.dev.ready = true →
    (∀ (pa len : Nat) (lease : Option Nat), s.admitsPeer pa len = true →
      ∃ t, exec (.remoteRequest (.peerRead pa len lease)) s = .next t ∧ t.mem = s.mem ∧
        t.hostRead.data = (List.range len).map (fun k => s.mem.get (pa + k)) ∧ t.hostRead.poisoned = s.badRange pa len ∧
        t.hostRead.wct = (tget {} s.l2 (lineKey .device pa)).wct ∧ (lease = none → t.l2 = s.l2) ∧
        ∀ c, lease = some c → t.hostRead.expiry = some (s.time + leaseNs c) ∧
          (tget {} t.l2 (lineKey .device pa)).lexp = max (tget {} s.l2 (lineKey .device pa)).lexp (s.time + leaseNs c) ∧
          (tget {} t.l2 (lineKey .device pa)).dies = (tget {} s.l2 (lineKey .device pa)).dies) ∧
    (∀ (pa : Nat) (bs : List Byte), s.admitsPeer pa bs.length = true → s.memOk →
      let lost : Prop := ∃ k, k < bs.length ∧ s.portDown (pa + k) = true
      ∃ t, exec (.remoteRequest (.peerWrite pa bs)) s = .next t ∧ t.host = s.host ∧ (lost → t.mem = s.mem) ∧
        (¬lost → (∀ k, k < bs.length → t.mem.get (pa + k) = bs.getD k 0) ∧
          (∀ x, x < pa ∨ pa + bs.length ≤ x → t.mem.get x = s.mem.get x) ∧
          (pa % 128 + bs.length ≤ 128 → t.hostRead.wdie = s.time ∧
            t.hostRead.wdev = max s.time (tget {} s.l2 (lineKey .device pa)).lexp))) ∧
    (∀ (pa : Nat) (op : AtomOp) (w : Width) (b c : DWord), s.memOk → s.admitsPeer pa w.bytes = true →
      (s.badRange pa w.bytes = true →
        exec (.remoteRequest (.peerAtomic pa op w b c)) s = .next { s with hostRead := { poisoned := true } }) ∧
      (s.badRange pa w.bytes = false →
        ∃ t, exec (.remoteRequest (.peerAtomic pa op w b c)) s = .next t ∧ t.hostRead.data = leBytes w.bytes (s.mem.read pa w.bytes) ∧
          t.mem.read pa w.bytes = atomNew op w.bytes (s.mem.read pa w.bytes) b.toNat c.toNat % 2 ^ (8 * w.bytes) ∧
          ∀ x, x < pa ∨ pa + w.bytes ≤ x → t.mem.get x = s.mem.get x)) ∧
    (∀ (pa len : Nat) (bs : List Byte) (lease : Option Nat) (op : AtomOp) (w : Width) (b c : DWord),
      let refused : State := { s with hostRead := { unsupported := true } }
      (s.admitsPeer pa len = false → exec (.remoteRequest (.peerRead pa len lease)) s = .next refused) ∧
      (s.admitsPeer pa bs.length = false → exec (.remoteRequest (.peerWrite pa bs)) s = .next refused) ∧
      (s.admitsPeer pa w.bytes = false → exec (.remoteRequest (.peerAtomic pa op w b c)) s = .next refused))) ∧
  (∀ (s : State) (id : Nat) (q : Req) (data : BitVec 128) (wdie wdev : Nat) (lease : Option (Nat × List Byte)), s.req? id = some q →
    s.away q = true → s.podUp = true → s.numbered → NoneFailed s q → q.pref = false →
    let answer (x : Req) : Prop := ∃ t, exec (.remoteRequest (.answer id data wdie wdev lease)) s = .next t ∧ t.req? id = some x ∧
      t.host = s.host ∧ (NoDirty s → t.mem = s.mem)
    (q.kind = .read ∨ q.kind = .fill → answer { q with st := .performed, value := data, wct := wdev }) ∧
    (∀ op, q.kind = .atomic op → answer { q with st := .performed, value := data, wct := wdev, wdie := wdie, wdev := wdev }) ∧
    (q.kind = .write → answer { q with st := .performed, wdie := wdie, wdev := wdev })) ∧
  (∀ (s : State) (id : Nat) (q : Req), s.req? id = some q → s.away q = true → s.podUp = true → s.numbered → q.pref = false →
    ∃ t, exec (.remoteRequest (.refused id)) s = .next t ∧ t.mem = s.mem ∧
      (t.req? id = none ∨ ∃ info, t.req? id = some { q with st := .failed 9 info })) ∧
  (∀ (s : State) (id : Nat) (q : Req) (b : Block), s.req? id = some q → s.away q = true → q.sentAt + 200000 ≤ s.time →
    s.block? q.block = some b → s.numbered →
    ∃ t b', exec (.remoteRequestTimeout id) s = .next t ∧ t.mem = s.mem ∧ t.block? q.block = some b' ∧
      (∀ d, q.attr.target = .remote d → d ∈ t.env.unreachable) ∧
      (q.kind = .write → t.req? id = none ∧ b'.failedWrite = b.failedWrite ++ [(q.warp, q.lane, q.va)]) ∧
      (q.kind ≠ .write → t.req? id = none ∨ t.req? id = some { q with st := .failed 0x0B 5 }))

/-- R370-R373: power good clears the device and boots an accepted image to READY, another to recovery; a function-level reset
repeats the bring-up and keeps DEVCAUSE; recovery runs an accepted image. The fused minimum version never falls. -/
def BootEndsReadyOrInRecovery : Prop :=
  (∀ (s : State) (img : FirmwareImage) (tr : Training),
    let ok := img.edSigOk && img.mlSigOk && decide (s.env.minVersion ≤ img.version) && img.classOk
    (ok = true → ∃ t, exec (.powerGood img tr) s = .next t ∧ t.dev.ready = true ∧ t.dev.stage = 5 ∧ t.dev.recovery = false ∧
      t.dev.dies = tr.dies ∧ t.mem = [] ∧ t.vault = [] ∧ t.blocks = [] ∧ t.launches = [] ∧ t.reqs = [] ∧ t.host = s.host ∧
      t.time = s.time ∧ t.env.minVersion = (if s.env.minVersion < img.version then img.version else s.env.minVersion)) ∧
    (ok = false → ∃ t, exec (.powerGood img tr) s = .next t ∧ t.dev.ready = false ∧ t.dev.stage = 15 ∧ t.dev.recovery = true ∧
      t.mem = [] ∧ t.blocks = [] ∧ t.env.minVersion = s.env.minVersion) ∧
    (s.dev.recovery = true → s.dev.imgGo = true → img.bytes = s.imageBytes →
      ∃ t, exec (.recoveryImageLoad img tr) s = .next t ∧ t.dev.imgGo = false ∧ t.dev.ready = (ok || s.dev.ready) ∧
        (ok = true → t.dev.recovery = false ∧ t.dev.stage = 5 ∧ t.dev.imgFail = false) ∧ (ok = false → t.dev.recovery = true ∧ t.dev.imgFail = true))) ∧
  (∀ (s : State) (tr : Training),
    (s.dev.ready = false → exec (.functionLevelReset tr) s = .next s) ∧
    (s.dev.ready = true → ∃ t, exec (.functionLevelReset tr) s = .next t ∧ t.dev.ready = true ∧ t.dev.stage = 5 ∧
      t.dev.dies = tr.dies ∧ t.mem = [] ∧ t.blocks = [] ∧ t.launches = [] ∧ t.host = s.host ∧
      t.env.minVersion = s.env.minVersion ∧ t.dev.cause &&& s.dev.cause = s.dev.cause))

/-- R17, R345, R357, R367, R374, R377, R378, R381-R383: the device goes on with less: a die lost, a port or its lanes, time
synchronisation, a slower or stopped clock; each cause is set in DEVCAUSE; the shutdown for temperature stops
everything, with a record of its blocks; the management interface reads the signed measurements and what it monitors. -/
def ServiceGoesOnWithLess : Prop :=
  (∀ (s : State) (die : Fin 8), s.dev.dies.getLsbD die.val = true → s.drops = [] → s.blocks = [] →
    (∀ l ∈ s.launches, l.st ≠ .running) → s.dev.ready = true →
    (∃ t, exec (.dieFailure die) s = .next t ∧ t.dev.dies = s.dev.dies &&& ~~~(1#8 <<< die.val) ∧ t.dev.degraded = true ∧
      t.dev.cause.getLsbD 0 = true) ∧
    (HostFree s → ∃ t, exec (.dieDrop die) s = .next t ∧ t.dev.dies = s.dev.dies &&& ~~~(1#8 <<< die.val) ∧
      t.dev.dropDie = die.val ∧ t.dev.degraded = true)) ∧
  (∀ (s : State) (port : Fin 18) (lanes : Nat), lanes < s.env.linkLanes[port] → lanes ≤ 2 →
    ∃ t, exec (.linkDegrade port lanes) s = .next t ∧ t.env.linkLanes[port] = lanes ∧ t.dev.cause.getLsbD 2 = true ∧
      t.dev.degraded = true ∧ t.mem = s.mem) ∧
  (∀ (s : State) (port : Fin 4), ∃ t, exec (.cxlPortDown port) s = .next t ∧ t.env.cxlUp[port] = false ∧
    t.dev.cause.getLsbD 3 = true ∧ t.mem = s.mem) ∧
  (∀ s : State, ∃ t, exec .podSyncLoss s = .next t ∧ t.env.syncLost = true ∧ t.dev.cause.getLsbD 5 = true ∧
    t.dev.cause.getLsbD 2 = true ∧ t.mem = s.mem) ∧
  (∀ s : State, ∃ t, exec .correctedErrorRateLimit s = .next t ∧ t.dev.cause.getLsbD 4 = true ∧ t.dev.degraded = true ∧
    t.dev.replace = (s.dev.replace || s.env.ratePasses.any fun x => decide (s.time ≤ x + 86400000000000)) ∧ t.mem = s.mem) ∧
  (∀ (s : State) (column : Fin 40) (ratio : Nat),
    let stretched (e : Env) (k : Fin 40) : Nat := max e.droop[k] (max e.power (if e.hot[k] then 750 else 0))
    (∀ e : Env, ∀ k : Fin 40, e.stretchOf k.val = stretched e k) ∧
    (∃ t, exec (.droopStretch column ratio) s = .next t ∧ t.env.droop[column] = ratio ∧
      (∀ k : Fin 40, k ≠ column → t.env.stretchOf k.val = s.env.stretchOf k.val) ∧ t.env.hot = s.env.hot ∧
      t.env.power = s.env.power ∧ t.blocks = s.blocks) ∧
    (∃ t, exec (.powerLimitStretch ratio) s = .next t ∧ t.env.power = ratio ∧ t.env.droop = s.env.droop ∧ t.env.hot = s.env.hot ∧
      t.blocks = s.blocks) ∧
    ∃ t, exec (.columnOvertemp column) s = .next t ∧ t.env.hot[column] = true ∧ 750 ≤ t.env.stretchOf column.val ∧
      (∀ k : Fin 40, k ≠ column → t.env.stretchOf k.val = s.env.stretchOf k.val) ∧ t.blocks = s.blocks) ∧
  (∀ s : State, ∃ t, exec .moduleOvertempShutdown s = .next t ∧ t.dev.ready = false ∧ t.dev.dies = 0 ∧ t.blocks = [] ∧
    t.reqs = [] ∧ (∀ l ∈ t.launches, l.st = .completed ∨ l.st = .aborted) ∧ t.mem = s.mem ∧
    ∀ b l, s.blocks = [b] → s.launch? b.lid = some l → l.asid = s.dev.trAsid → s.pr.en = true →
      b.warps.length < s.pr.room → t.pr.wptr = s.pr.wptr + BitVec.ofNat 32 (b.warps.length + 1)) ∧
  (∀ s : State, ∃ t, exec .attestationRequest s = .next t ∧ t.mem = s.mem ∧
    let m := Config.sha384 Config.rom ++ Config.sha384 s.env.firmware ++ s.env.configBytes.flatMap Config.sha384
    t.hostRead.data = m ++ Config.signEd25519 m ++ Config.signMlDsa m) ∧
  (∀ (s : State) (t0 : Nat) (r : MgmtRead) (rest : List (Nat × Outside)), s.picks = [] → s.agenda = [] →
    s.outside = (t0, .manage r) :: rest → t0 ≤ s.time →
    ∃ t, step s = .next t ∧ t.outside = rest ∧ t.mem = s.mem ∧ t.hostRead.data = match r with
      | .devstat => leBytes 4 (s.regRead 0).toNat
      | .temperature c => leBytes 4 s.env.temps[c]
      | .power => leBytes 4 s.env.watts)

/-- R17, R345, R367, R370-R374, R377, R378, R381-R383: boot, reset, and service with less than the whole device. -/
def Obligations.TheDeviceBootsAndDegrades : Prop := BootEndsReadyOrInRecovery ∧ ServiceGoesOnWithLess

/-- R358, R365: a trigger whose condition held in the last cycle changes its state in that core; a core due for a sample writes one
record of the next traced warp. -/
def TriggersChangeAndCoresSample : Prop :=
  (∀ (s : State) (core : Nat) (n : Fin 4), s.picks = [] → s.trigDue core n = true →
    ∃ t, exec (.triggerStateChange core n) s = .next t ∧ t.trigOn core n = (!s.trigOn core n) ∧ t.trigDue core n = false ∧
      (∀ k, k ≠ core → t.core k = s.core k) ∧ t.mem = s.mem) ∧
  (∀ (s : State) (core : Nat) (b : Block) (w : Warp), s.pr.en = true → s.dev.prSmp = true →
    (s.core core).sampleAt / 2 ^ s.dev.prPer ≠ s.time / 2 ^ s.dev.prPer → s.sampled core = some (b, w) → 0 < s.pr.room →
    ∃ t, exec (.profileSample core) s = .next t ∧ (t.core core).sampleAt = s.time ∧
      (t.core core).sampleSlot = w.warpSlot + 1 ∧ t.pr.wptr = s.pr.wptr + 1 ∧ t.mem = s.mem ∧
      t.host = s.host.writeBytes (s.pr.base.toNat + 64 * (s.pr.wptr.toNat % 2 ^ s.pr.size)) (sampleBytes b w s.dev.trAsid s.time)) ∧
  (∀ (s : State) (core : Nat), s.pr.en = true → s.dev.prSmp = true →
    (s.core core).sampleAt / 2 ^ s.dev.prPer ≠ s.time / 2 ^ s.dev.prPer → s.sampled core = none →
    ∃ t, exec (.profileSample core) s = .next t ∧ (t.core core).sampleAt = s.time ∧ t.pr = s.pr ∧ t.host = s.host)

/-- R39, R171, R311-R314, R358, R365: the choice of a cycle, the end of a prediction, triggers and samples. -/
def Obligations.CoresChooseConfirmAndSample : Prop :=
  CyclesChooseAndBranchesAreConfirmed ∧ TriggersChangeAndCoresSample

/-! ### Encodings, the step, reset and the invariant -/

/-- R90-R93: every well-formed instruction of 16 or 32 bits is what its own encoding decodes to, with every operand at every value
its fields admit. -/
def Obligations.ShortInstructionsRoundTrip : Prop :=
  ∀ i : Instr, i.wellFormed = true → i.len = 2 ∨ i.len = 4 → decodeHalves (encode i) = .ok i

/-- R94-R104: the same of every well-formed instruction of 64 bits. -/
def Obligations.LongInstructionsRoundTrip : Prop :=
  ∀ i : Instr, i.wellFormed = true → i.len = 8 → decodeHalves (encode i) = .ok i

/-- R86, R112: what the decoder accepts is a well-formed instruction of as many halfwords, and no bit of the halfwords is dropped:
the instruction's encoding is those halfwords again. -/
def Obligations.DecodedWordsEncodeAgain : Prop :=
  ∀ (hs : List Half) (i : Instr), decodeHalves hs = .ok i →
    i.wellFormed = true ∧ i.encodable = true ∧ i.len = 2 * hs.length ∧ encode i = hs

/-- R86, R90, R92, R94-R100, R112, R138, R146, R159, R174, R218: words written out field by field from the spec's tables, and what
they decode to; a halfword 0x0000, and a word whose operation no row has. -/
def Obligations.WordsOfTheSpecDecode : Prop :=
  decodeTableWord 16 (1#1 ++ 9#5 ++ 4#5 ++ 0x0#4 ++ 0#1 : BitVec 16).toNat =
    some (.iaddH2 ⟨true, 9, 4⟩) ∧
  decodeTableWord 32 (0#1 ++ 7#7 ++ 6#7 ++ 5#7 ++ 1#1 ++ 0x01#7 ++ 1#2 : BitVec 32).toNat =
    some (.isubN3 ⟨false, 7, 6, 5, true⟩) ∧
  decodeTableWord 32 (0xFE#8 ++ 6#7 ++ 5#7 ++ 0#1 ++ 0x40#7 ++ 1#2 : BitVec 32).toNat =
    some (.iaddi ⟨0xFE, 6, 5, false⟩) ∧
  decodeTableWord 32 (0x03#8 ++ 8#7 ++ 5#7 ++ 1#1 ++ 0x60#7 ++ 1#2 : BitVec 32).toNat =
    some (.ld32 ⟨3, 8, 5, true⟩) ∧
  decodeTableWord 64 (0x0004#16 ++ 6#7 ++ 5#7 ++ 4#7 ++ 3#7 ++ 0#1 ++ 0#1 ++ 0#1 ++ 0x0#4 ++ 0#1 ++ 0x083#10 ++ 3#2 : BitVec 64).toNat =
    some (.ffma ⟨⟨false, false, false, .al, false⟩, 3, 4, .regs 5 6, false, false, false, false, false, false, false, false, .rne, .f32⟩) ∧
  decodeTableWord 64 (0x12345678#32 ++ 0#5 ++ 9#7 ++ 0#1 ++ 0#1 ++ 0#1 ++ 0x1#4 ++ 0#1 ++ 0x141#10 ++ 3#2 : BitVec 64).toNat =
    some (.movi ⟨⟨false, false, false, .eq, false⟩, 9, 0x12345678⟩) ∧
  decodeTableWord 64 (0xFFF#12 ++ 0#1 ++ 3#2 ++ 1#2 ++ 3#3 ++ 2#3 ++ 0#7 ++ 8#7 ++ 5#7 ++ 0#1 ++ 0#1 ++ 0#1 ++ 0x0#4 ++ 0#1 ++ 0x200#10 ++ 3#2 : BitVec 64).toNat =
    some (.ld ⟨⟨false, false, false, .al, false⟩, 5, 8, 0, 0xFFF, false, .noL1, .acq, .dev, .w32⟩) ∧
  decodeTableWord 64 (0#4 ++ 2#2 ++ 0xFFFFFC#24 ++ 0x0010#14 ++ 0#1 ++ 0#1 ++ 1#1 ++ 0x2#4 ++ 0#1 ++ 0x1c0#10 ++ 3#2 : BitVec 64).toNat =
    some (.br ⟨⟨false, false, true, .ne, false⟩, .never, 0xFFFFFC, 0x10⟩) ∧
  decodeTableWord 64 (3#4 ++ 5#3 ++ 2#2 ++ 0#1 ++ 1#2 ++ 7#4 ++ 9#7 ++ 8#7 ++ 7#7 ++ 6#7 ++ 0#1 ++ 0#1 ++ 0#1 ++ 0x0#4 ++ 0#1 ++ 0x2c1#10 ++ 3#2 : BitVec 64).toNat =
    some (.mma ⟨⟨false, false, false, .al, false⟩, 6, 7, 8, 9, 3, 5, .both, false, .scratch, .e4m3x4⟩) ∧
  decodeHalves [0x0000] = .error .zeroHalf ∧ decodeHalves [0xFFFF, 0, 0, 0] = .error .reservedOp

/-- R86, R88, R109, R112, R264, R351: the turn of a picked fragment that issues, owes nothing and stands at the halfwords of an
instruction is `exec` of that instruction, after the fetch, which changes at most the TLBs, what is noted of the page, and the count of
free values; in a halted context a fragment that then is ready no more is halted where it stands. With nothing picked, an event of the
agenda happens at its time. Where the outcome has changed memory, or where the tables lie, a noted page they now map elsewhere has
undefined values if the L2 holds a line of it, and is forgotten if not (notes/assumptions/70.md); nothing else is added to it. A
halfword is fetched from memory, little-endian, where nothing has been stored to it since the launch. -/
def Obligations.AStepRunsTheDecodedInstruction : Prop :=
  (∀ (s : State) (r : FragRef) (rest : List FragRef) (c0 : Ctx) (u : State) (hs : List Half) (i : Instr),
    let s1 : State := { s with picks := rest, cur := some r }
    let s2 := (s1.moveOn c0).1
    let c := (s1.moveOn c0).2
    s.picks = r :: rest → s1.ctx? r = some c0 → s1.issues c0 = true → c0.reissueDue = false → c.f.redo = [] → c.f.held = none →
    c.parksAt = none → c.inRep = none → s2.fetch c.l c.b.core c.f.pc = (u, .halves hs) → decodeHalves hs = .ok i →
    u.haltsAt c i = false →
    (c0.f.halted = false → s2 = s1 ∧ c = c0) ∧
    u = { s2 with tlbs := u.tlbs, maps := u.maps, fresh := u.fresh } ∧
    (u.haltOf c.l.asid = false → step s = s.settled (exec i u)) ∧
    (u.haltOf c.l.asid = true → ∀ t, exec i u = .next t → step s = s.settled (.next (t.modW c fun w => w.haltNew c.w)))) ∧
  (∀ (s : State) (dt : Nat) (i : Instr) (rest : List (Nat × Instr)), s.picks = [] → s.agenda = (dt, i) :: rest →
    step s = s.settled (exec i { s.advance dt with agenda := rest, cur := none }) ∧ (s.advance dt).time = s.time + dt ∧
    (dt = 0 ∨ (∀ k, (s.core k).pkts = []) → (s.advance dt).mem = s.mem)) ∧
  (∀ (s t : State) (f : Fault) (r : Refusal), s.settled (.fault f) = .fault f ∧ s.settled (.refused r) = .refused r ∧
    (t.mem = s.mem → t.dev.ctxBase = s.dev.ctxBase → s.settled (.next t) = .next t) ∧
    ∃ u, s.settled (.next t) = .next u ∧ u = { t with maps := u.maps, cores := u.cores } ∧
      (∀ k, { u.core k with lines := [] } = { t.core k with lines := [] } ∧
        (u.core k).lines.map (fun x => (x.asid, x.vline, x.data)) = (t.core k).lines.map fun x => (x.asid, x.vline, x.data)) ∧
      (t.mem ≠ s.mem ∨ t.dev.ctxBase ≠ s.dev.ctxBase →
        (∀ m ∈ t.maps, t.moved m = true → t.pageInL2 m = true → { m with undef := true } ∈ u.maps) ∧
        (∀ m ∈ t.maps, m.undef = true ∨ t.moved m = false → m ∈ u.maps) ∧
        ∀ m ∈ u.maps, t.moved m = true → m.undef = true)) ∧
  (∀ (s u : State) (l : Machine.Launch) (core va pa : Nat) (a : Attr),
    s.xlate (s.quadOf core) l.asid (va % 2 ^ 56) .fetch = (u, .ok pa a) → a.target = .device → a.undef = false →
    u.badAt .device a.tier pa = none → u.mem.read pa 2 = l.image.read pa 2 →
    (∀ p ∈ u.past, p.target = .device → p.at_ = pa → l.begun ≤ p.until_ → p.half = BitVec.ofNat 16 (u.mem.read pa 2)) →
    s.fetchHalf l core va = (u, .ok (u.mem.get (pa + 1) ++ u.mem.get pa)))

/-- R54, R315, R357, R367, R370 and the Reset columns of the register BAR: as power comes on every register holds its reset value,
read here as if the device were ready; it is not, no queue is enabled, no work exists, and every byte of memory reads as zero (the
last is notes/assumptions/4.md and 5.md's). -/
def Obligations.ResetIsAsTheSpecSays : Prop :=
  (∀ off, State.reset.regRead off = 0) ∧
  (∀ off, ({ State.reset with dev := { State.reset.dev with ready := true } } : State).regRead off =
    if off = 0 then 0x80000000 else if off = 0x104 then 100 else if off = 0x348 then 0x00100000 else 0) ∧
  State.reset.blocks = [] ∧ State.reset.launches = [] ∧ State.reset.reqs = [] ∧ State.reset.agenda = [] ∧
  State.reset.picks = [] ∧ (∀ q, (State.reset.queue q).en = false) ∧ ∀ a, State.reset.mem.get a = 0

/-- The memories of the machine at reset are canonical. -/
def Obligations.ResetMemoryIsCanonical : Prop := State.reset.memOk

/-- The invariant of every step: whatever runs next, an instruction, an event or the device by itself, the memories stay in their
canonical form: one entry an address, in order, none equal to what an unlisted address reads as. -/
def Obligations.EveryStepKeepsMemoryCanonical : Prop := ∀ s t : State, s.memOk → step s = .next t → t.memOk

/-- The invariant of the requests on their way: every step gives each a number of its own, below the next (R261, R262: they are
performed in the order of these numbers). -/
def Obligations.RequestsKeepTheirNumbers : Prop :=
  State.reset.numbered ∧ ∀ s t : State, s.numbered → step s = .next t → t.numbered
end

