-- ==== Sys2Proof/Laws/State.lean ====
section
/-! SUPPORT. One lemma per field per update: what each update of the state, of a warp and of a fragment leaves as it was. -/

namespace Sys2Proof.Machine


/-! ### State.modBlock -/

@[simp] theorem State.modBlock_time (s : State) (u : Nat) (f : Block → Block) : (s.modBlock u f).time = s.time := rfl
@[simp] theorem State.modBlock_mem (s : State) (u : Nat) (f : Block → Block) : (s.modBlock u f).mem = s.mem := rfl
@[simp] theorem State.modBlock_host (s : State) (u : Nat) (f : Block → Block) : (s.modBlock u f).host = s.host := rfl
@[simp] theorem State.modBlock_vault (s : State) (u : Nat) (f : Block → Block) : (s.modBlock u f).vault = s.vault := rfl
@[simp] theorem State.modBlock_bad (s : State) (u : Nat) (f : Block → Block) : (s.modBlock u f).bad = s.bad := rfl
@[simp] theorem State.modBlock_l2 (s : State) (u : Nat) (f : Block → Block) : (s.modBlock u f).l2 = s.l2 := rfl
@[simp] theorem State.modBlock_slmap (s : State) (u : Nat) (f : Block → Block) : (s.modBlock u f).slmap = s.slmap := rfl
@[simp] theorem State.modBlock_tlbs (s : State) (u : Nat) (f : Block → Block) : (s.modBlock u f).tlbs = s.tlbs := rfl
@[simp] theorem State.modBlock_maps (s : State) (u : Nat) (f : Block → Block) : (s.modBlock u f).maps = s.maps := rfl
@[simp] theorem State.modBlock_hostStale (s : State) (u : Nat) (f : Block → Block) : (s.modBlock u f).hostStale = s.hostStale := rfl
@[simp] theorem State.modBlock_past (s : State) (u : Nat) (f : Block → Block) : (s.modBlock u f).past = s.past := rfl
@[simp] theorem State.modBlock_cores (s : State) (u : Nat) (f : Block → Block) : (s.modBlock u f).cores = s.cores := rfl
@[simp] theorem State.modBlock_reqs (s : State) (u : Nat) (f : Block → Block) : (s.modBlock u f).reqs = s.reqs := rfl
@[simp] theorem State.modBlock_nextReq (s : State) (u : Nat) (f : Block → Block) : (s.modBlock u f).nextReq = s.nextReq := rfl
@[simp] theorem State.modBlock_nextUid (s : State) (u : Nat) (f : Block → Block) : (s.modBlock u f).nextUid = s.nextUid := rfl
@[simp] theorem State.modBlock_nextOp (s : State) (u : Nat) (f : Block → Block) : (s.modBlock u f).nextOp = s.nextOp := rfl
@[simp] theorem State.modBlock_launches (s : State) (u : Nat) (f : Block → Block) : (s.modBlock u f).launches = s.launches := rfl
@[simp] theorem State.modBlock_nextLid (s : State) (u : Nat) (f : Block → Block) : (s.modBlock u f).nextLid = s.nextLid := rfl
@[simp] theorem State.modBlock_accepted (s : State) (u : Nat) (f : Block → Block) : (s.modBlock u f).accepted = s.accepted := rfl
@[simp] theorem State.modBlock_devLaunches (s : State) (u : Nat) (f : Block → Block) : (s.modBlock u f).devLaunches = s.devLaunches := rfl
@[simp] theorem State.modBlock_groups (s : State) (u : Nat) (f : Block → Block) : (s.modBlock u f).groups = s.groups := rfl
@[simp] theorem State.modBlock_nextFault (s : State) (u : Nat) (f : Block → Block) : (s.modBlock u f).nextFault = s.nextFault := rfl
@[simp] theorem State.modBlock_faultQ (s : State) (u : Nat) (f : Block → Block) : (s.modBlock u f).faultQ = s.faultQ := rfl
@[simp] theorem State.modBlock_faultLog (s : State) (u : Nat) (f : Block → Block) : (s.modBlock u f).faultLog = s.faultLog := rfl
@[simp] theorem State.modBlock_queues (s : State) (u : Nat) (f : Block → Block) : (s.modBlock u f).queues = s.queues := rfl
@[simp] theorem State.modBlock_lastQueue (s : State) (u : Nat) (f : Block → Block) : (s.modBlock u f).lastQueue = s.lastQueue := rfl
@[simp] theorem State.modBlock_events (s : State) (u : Nat) (f : Block → Block) : (s.modBlock u f).events = s.events := rfl
@[simp] theorem State.modBlock_tensors (s : State) (u : Nat) (f : Block → Block) : (s.modBlock u f).tensors = s.tensors := rfl
@[simp] theorem State.modBlock_dev (s : State) (u : Nat) (f : Block → Block) : (s.modBlock u f).dev = s.dev := rfl
@[simp] theorem State.modBlock_env (s : State) (u : Nat) (f : Block → Block) : (s.modBlock u f).env = s.env := rfl
@[simp] theorem State.modBlock_fq (s : State) (u : Nat) (f : Block → Block) : (s.modBlock u f).fq = s.fq := rfl
@[simp] theorem State.modBlock_el (s : State) (u : Nat) (f : Block → Block) : (s.modBlock u f).el = s.el := rfl
@[simp] theorem State.modBlock_pr (s : State) (u : Nat) (f : Block → Block) : (s.modBlock u f).pr = s.pr := rfl
@[simp] theorem State.modBlock_bps (s : State) (u : Nat) (f : Block → Block) : (s.modBlock u f).bps = s.bps := rfl
@[simp] theorem State.modBlock_trigs (s : State) (u : Nat) (f : Block → Block) : (s.modBlock u f).trigs = s.trigs := rfl
@[simp] theorem State.modBlock_msix (s : State) (u : Nat) (f : Block → Block) : (s.modBlock u f).msix = s.msix := rfl
@[simp] theorem State.modBlock_deferred (s : State) (u : Nat) (f : Block → Block) : (s.modBlock u f).deferred = s.deferred := rfl
@[simp] theorem State.modBlock_hostWdev (s : State) (u : Nat) (f : Block → Block) : (s.modBlock u f).hostWdev = s.hostWdev := rfl
@[simp] theorem State.modBlock_hostRead (s : State) (u : Nat) (f : Block → Block) : (s.modBlock u f).hostRead = s.hostRead := rfl
@[simp] theorem State.modBlock_agenda (s : State) (u : Nat) (f : Block → Block) : (s.modBlock u f).agenda = s.agenda := rfl
@[simp] theorem State.modBlock_outside (s : State) (u : Nat) (f : Block → Block) : (s.modBlock u f).outside = s.outside := rfl
@[simp] theorem State.modBlock_linkOut (s : State) (u : Nat) (f : Block → Block) : (s.modBlock u f).linkOut = s.linkOut := rfl
@[simp] theorem State.modBlock_picks (s : State) (u : Nat) (f : Block → Block) : (s.modBlock u f).picks = s.picks := rfl
@[simp] theorem State.modBlock_cur (s : State) (u : Nat) (f : Block → Block) : (s.modBlock u f).cur = s.cur := rfl
@[simp] theorem State.modBlock_fresh (s : State) (u : Nat) (f : Block → Block) : (s.modBlock u f).fresh = s.fresh := rfl
@[simp] theorem State.modBlock_turn (s : State) (u : Nat) (f : Block → Block) : (s.modBlock u f).turn = s.turn := rfl
@[simp] theorem State.modBlock_drops (s : State) (u : Nat) (f : Block → Block) : (s.modBlock u f).drops = s.drops := rfl
@[simp] theorem State.modBlock_report (s : State) (u : Nat) (f : Block → Block) : (s.modBlock u f).report = s.report := rfl

/-! ### State.modWarp -/

@[simp] theorem State.modWarp_time (s : State) (u i : Nat) (f : Warp → Warp) : (s.modWarp u i f).time = s.time := rfl
@[simp] theorem State.modWarp_mem (s : State) (u i : Nat) (f : Warp → Warp) : (s.modWarp u i f).mem = s.mem := rfl
@[simp] theorem State.modWarp_host (s : State) (u i : Nat) (f : Warp → Warp) : (s.modWarp u i f).host = s.host := rfl
@[simp] theorem State.modWarp_vault (s : State) (u i : Nat) (f : Warp → Warp) : (s.modWarp u i f).vault = s.vault := rfl
@[simp] theorem State.modWarp_bad (s : State) (u i : Nat) (f : Warp → Warp) : (s.modWarp u i f).bad = s.bad := rfl
@[simp] theorem State.modWarp_l2 (s : State) (u i : Nat) (f : Warp → Warp) : (s.modWarp u i f).l2 = s.l2 := rfl
@[simp] theorem State.modWarp_slmap (s : State) (u i : Nat) (f : Warp → Warp) : (s.modWarp u i f).slmap = s.slmap := rfl
@[simp] theorem State.modWarp_tlbs (s : State) (u i : Nat) (f : Warp → Warp) : (s.modWarp u i f).tlbs = s.tlbs := rfl
@[simp] theorem State.modWarp_maps (s : State) (u i : Nat) (f : Warp → Warp) : (s.modWarp u i f).maps = s.maps := rfl
@[simp] theorem State.modWarp_hostStale (s : State) (u i : Nat) (f : Warp → Warp) : (s.modWarp u i f).hostStale = s.hostStale := rfl
@[simp] theorem State.modWarp_past (s : State) (u i : Nat) (f : Warp → Warp) : (s.modWarp u i f).past = s.past := rfl
@[simp] theorem State.modWarp_cores (s : State) (u i : Nat) (f : Warp → Warp) : (s.modWarp u i f).cores = s.cores := rfl
@[simp] theorem State.modWarp_reqs (s : State) (u i : Nat) (f : Warp → Warp) : (s.modWarp u i f).reqs = s.reqs := rfl
@[simp] theorem State.modWarp_nextReq (s : State) (u i : Nat) (f : Warp → Warp) : (s.modWarp u i f).nextReq = s.nextReq := rfl
@[simp] theorem State.modWarp_nextUid (s : State) (u i : Nat) (f : Warp → Warp) : (s.modWarp u i f).nextUid = s.nextUid := rfl
@[simp] theorem State.modWarp_nextOp (s : State) (u i : Nat) (f : Warp → Warp) : (s.modWarp u i f).nextOp = s.nextOp := rfl
@[simp] theorem State.modWarp_launches (s : State) (u i : Nat) (f : Warp → Warp) : (s.modWarp u i f).launches = s.launches := rfl
@[simp] theorem State.modWarp_nextLid (s : State) (u i : Nat) (f : Warp → Warp) : (s.modWarp u i f).nextLid = s.nextLid := rfl
@[simp] theorem State.modWarp_accepted (s : State) (u i : Nat) (f : Warp → Warp) : (s.modWarp u i f).accepted = s.accepted := rfl
@[simp] theorem State.modWarp_devLaunches (s : State) (u i : Nat) (f : Warp → Warp) : (s.modWarp u i f).devLaunches = s.devLaunches := rfl
@[simp] theorem State.modWarp_groups (s : State) (u i : Nat) (f : Warp → Warp) : (s.modWarp u i f).groups = s.groups := rfl
@[simp] theorem State.modWarp_nextFault (s : State) (u i : Nat) (f : Warp → Warp) : (s.modWarp u i f).nextFault = s.nextFault := rfl
@[simp] theorem State.modWarp_faultQ (s : State) (u i : Nat) (f : Warp → Warp) : (s.modWarp u i f).faultQ = s.faultQ := rfl
@[simp] theorem State.modWarp_faultLog (s : State) (u i : Nat) (f : Warp → Warp) : (s.modWarp u i f).faultLog = s.faultLog := rfl
@[simp] theorem State.modWarp_queues (s : State) (u i : Nat) (f : Warp → Warp) : (s.modWarp u i f).queues = s.queues := rfl
@[simp] theorem State.modWarp_lastQueue (s : State) (u i : Nat) (f : Warp → Warp) : (s.modWarp u i f).lastQueue = s.lastQueue := rfl
@[simp] theorem State.modWarp_events (s : State) (u i : Nat) (f : Warp → Warp) : (s.modWarp u i f).events = s.events := rfl
@[simp] theorem State.modWarp_tensors (s : State) (u i : Nat) (f : Warp → Warp) : (s.modWarp u i f).tensors = s.tensors := rfl
@[simp] theorem State.modWarp_dev (s : State) (u i : Nat) (f : Warp → Warp) : (s.modWarp u i f).dev = s.dev := rfl
@[simp] theorem State.modWarp_env (s : State) (u i : Nat) (f : Warp → Warp) : (s.modWarp u i f).env = s.env := rfl
@[simp] theorem State.modWarp_fq (s : State) (u i : Nat) (f : Warp → Warp) : (s.modWarp u i f).fq = s.fq := rfl
@[simp] theorem State.modWarp_el (s : State) (u i : Nat) (f : Warp → Warp) : (s.modWarp u i f).el = s.el := rfl
@[simp] theorem State.modWarp_pr (s : State) (u i : Nat) (f : Warp → Warp) : (s.modWarp u i f).pr = s.pr := rfl
@[simp] theorem State.modWarp_bps (s : State) (u i : Nat) (f : Warp → Warp) : (s.modWarp u i f).bps = s.bps := rfl
@[simp] theorem State.modWarp_trigs (s : State) (u i : Nat) (f : Warp → Warp) : (s.modWarp u i f).trigs = s.trigs := rfl
@[simp] theorem State.modWarp_msix (s : State) (u i : Nat) (f : Warp → Warp) : (s.modWarp u i f).msix = s.msix := rfl
@[simp] theorem State.modWarp_deferred (s : State) (u i : Nat) (f : Warp → Warp) : (s.modWarp u i f).deferred = s.deferred := rfl
@[simp] theorem State.modWarp_hostWdev (s : State) (u i : Nat) (f : Warp → Warp) : (s.modWarp u i f).hostWdev = s.hostWdev := rfl
@[simp] theorem State.modWarp_hostRead (s : State) (u i : Nat) (f : Warp → Warp) : (s.modWarp u i f).hostRead = s.hostRead := rfl
@[simp] theorem State.modWarp_agenda (s : State) (u i : Nat) (f : Warp → Warp) : (s.modWarp u i f).agenda = s.agenda := rfl
@[simp] theorem State.modWarp_outside (s : State) (u i : Nat) (f : Warp → Warp) : (s.modWarp u i f).outside = s.outside := rfl
@[simp] theorem State.modWarp_linkOut (s : State) (u i : Nat) (f : Warp → Warp) : (s.modWarp u i f).linkOut = s.linkOut := rfl
@[simp] theorem State.modWarp_picks (s : State) (u i : Nat) (f : Warp → Warp) : (s.modWarp u i f).picks = s.picks := rfl
@[simp] theorem State.modWarp_cur (s : State) (u i : Nat) (f : Warp → Warp) : (s.modWarp u i f).cur = s.cur := rfl
@[simp] theorem State.modWarp_fresh (s : State) (u i : Nat) (f : Warp → Warp) : (s.modWarp u i f).fresh = s.fresh := rfl
@[simp] theorem State.modWarp_turn (s : State) (u i : Nat) (f : Warp → Warp) : (s.modWarp u i f).turn = s.turn := rfl
@[simp] theorem State.modWarp_drops (s : State) (u i : Nat) (f : Warp → Warp) : (s.modWarp u i f).drops = s.drops := rfl
@[simp] theorem State.modWarp_report (s : State) (u i : Nat) (f : Warp → Warp) : (s.modWarp u i f).report = s.report := rfl

/-! ### State.modFrag -/

@[simp] theorem State.modFrag_time (s : State) (r : FragRef) (f : Frag → Frag) : (s.modFrag r f).time = s.time := rfl
@[simp] theorem State.modFrag_mem (s : State) (r : FragRef) (f : Frag → Frag) : (s.modFrag r f).mem = s.mem := rfl
@[simp] theorem State.modFrag_host (s : State) (r : FragRef) (f : Frag → Frag) : (s.modFrag r f).host = s.host := rfl
@[simp] theorem State.modFrag_vault (s : State) (r : FragRef) (f : Frag → Frag) : (s.modFrag r f).vault = s.vault := rfl
@[simp] theorem State.modFrag_bad (s : State) (r : FragRef) (f : Frag → Frag) : (s.modFrag r f).bad = s.bad := rfl
@[simp] theorem State.modFrag_l2 (s : State) (r : FragRef) (f : Frag → Frag) : (s.modFrag r f).l2 = s.l2 := rfl
@[simp] theorem State.modFrag_slmap (s : State) (r : FragRef) (f : Frag → Frag) : (s.modFrag r f).slmap = s.slmap := rfl
@[simp] theorem State.modFrag_tlbs (s : State) (r : FragRef) (f : Frag → Frag) : (s.modFrag r f).tlbs = s.tlbs := rfl
@[simp] theorem State.modFrag_maps (s : State) (r : FragRef) (f : Frag → Frag) : (s.modFrag r f).maps = s.maps := rfl
@[simp] theorem State.modFrag_hostStale (s : State) (r : FragRef) (f : Frag → Frag) : (s.modFrag r f).hostStale = s.hostStale := rfl
@[simp] theorem State.modFrag_past (s : State) (r : FragRef) (f : Frag → Frag) : (s.modFrag r f).past = s.past := rfl
@[simp] theorem State.modFrag_cores (s : State) (r : FragRef) (f : Frag → Frag) : (s.modFrag r f).cores = s.cores := rfl
@[simp] theorem State.modFrag_reqs (s : State) (r : FragRef) (f : Frag → Frag) : (s.modFrag r f).reqs = s.reqs := rfl
@[simp] theorem State.modFrag_nextReq (s : State) (r : FragRef) (f : Frag → Frag) : (s.modFrag r f).nextReq = s.nextReq := rfl
@[simp] theorem State.modFrag_nextUid (s : State) (r : FragRef) (f : Frag → Frag) : (s.modFrag r f).nextUid = s.nextUid := rfl
@[simp] theorem State.modFrag_nextOp (s : State) (r : FragRef) (f : Frag → Frag) : (s.modFrag r f).nextOp = s.nextOp := rfl
@[simp] theorem State.modFrag_launches (s : State) (r : FragRef) (f : Frag → Frag) : (s.modFrag r f).launches = s.launches := rfl
@[simp] theorem State.modFrag_nextLid (s : State) (r : FragRef) (f : Frag → Frag) : (s.modFrag r f).nextLid = s.nextLid := rfl
@[simp] theorem State.modFrag_accepted (s : State) (r : FragRef) (f : Frag → Frag) : (s.modFrag r f).accepted = s.accepted := rfl
@[simp] theorem State.modFrag_devLaunches (s : State) (r : FragRef) (f : Frag → Frag) : (s.modFrag r f).devLaunches = s.devLaunches := rfl
@[simp] theorem State.modFrag_groups (s : State) (r : FragRef) (f : Frag → Frag) : (s.modFrag r f).groups = s.groups := rfl
@[simp] theorem State.modFrag_nextFault (s : State) (r : FragRef) (f : Frag → Frag) : (s.modFrag r f).nextFault = s.nextFault := rfl
@[simp] theorem State.modFrag_faultQ (s : State) (r : FragRef) (f : Frag → Frag) : (s.modFrag r f).faultQ = s.faultQ := rfl
@[simp] theorem State.modFrag_faultLog (s : State) (r : FragRef) (f : Frag → Frag) : (s.modFrag r f).faultLog = s.faultLog := rfl
@[simp] theorem State.modFrag_queues (s : State) (r : FragRef) (f : Frag → Frag) : (s.modFrag r f).queues = s.queues := rfl
@[simp] theorem State.modFrag_lastQueue (s : State) (r : FragRef) (f : Frag → Frag) : (s.modFrag r f).lastQueue = s.lastQueue := rfl
@[simp] theorem State.modFrag_events (s : State) (r : FragRef) (f : Frag → Frag) : (s.modFrag r f).events = s.events := rfl
@[simp] theorem State.modFrag_tensors (s : State) (r : FragRef) (f : Frag → Frag) : (s.modFrag r f).tensors = s.tensors := rfl
@[simp] theorem State.modFrag_dev (s : State) (r : FragRef) (f : Frag → Frag) : (s.modFrag r f).dev = s.dev := rfl
@[simp] theorem State.modFrag_env (s : State) (r : FragRef) (f : Frag → Frag) : (s.modFrag r f).env = s.env := rfl
@[simp] theorem State.modFrag_fq (s : State) (r : FragRef) (f : Frag → Frag) : (s.modFrag r f).fq = s.fq := rfl
@[simp] theorem State.modFrag_el (s : State) (r : FragRef) (f : Frag → Frag) : (s.modFrag r f).el = s.el := rfl
@[simp] theorem State.modFrag_pr (s : State) (r : FragRef) (f : Frag → Frag) : (s.modFrag r f).pr = s.pr := rfl
@[simp] theorem State.modFrag_bps (s : State) (r : FragRef) (f : Frag → Frag) : (s.modFrag r f).bps = s.bps := rfl
@[simp] theorem State.modFrag_trigs (s : State) (r : FragRef) (f : Frag → Frag) : (s.modFrag r f).trigs = s.trigs := rfl
@[simp] theorem State.modFrag_msix (s : State) (r : FragRef) (f : Frag → Frag) : (s.modFrag r f).msix = s.msix := rfl
@[simp] theorem State.modFrag_deferred (s : State) (r : FragRef) (f : Frag → Frag) : (s.modFrag r f).deferred = s.deferred := rfl
@[simp] theorem State.modFrag_hostWdev (s : State) (r : FragRef) (f : Frag → Frag) : (s.modFrag r f).hostWdev = s.hostWdev := rfl
@[simp] theorem State.modFrag_hostRead (s : State) (r : FragRef) (f : Frag → Frag) : (s.modFrag r f).hostRead = s.hostRead := rfl
@[simp] theorem State.modFrag_agenda (s : State) (r : FragRef) (f : Frag → Frag) : (s.modFrag r f).agenda = s.agenda := rfl
@[simp] theorem State.modFrag_outside (s : State) (r : FragRef) (f : Frag → Frag) : (s.modFrag r f).outside = s.outside := rfl
@[simp] theorem State.modFrag_linkOut (s : State) (r : FragRef) (f : Frag → Frag) : (s.modFrag r f).linkOut = s.linkOut := rfl
@[simp] theorem State.modFrag_picks (s : State) (r : FragRef) (f : Frag → Frag) : (s.modFrag r f).picks = s.picks := rfl
@[simp] theorem State.modFrag_cur (s : State) (r : FragRef) (f : Frag → Frag) : (s.modFrag r f).cur = s.cur := rfl
@[simp] theorem State.modFrag_fresh (s : State) (r : FragRef) (f : Frag → Frag) : (s.modFrag r f).fresh = s.fresh := rfl
@[simp] theorem State.modFrag_turn (s : State) (r : FragRef) (f : Frag → Frag) : (s.modFrag r f).turn = s.turn := rfl
@[simp] theorem State.modFrag_drops (s : State) (r : FragRef) (f : Frag → Frag) : (s.modFrag r f).drops = s.drops := rfl
@[simp] theorem State.modFrag_report (s : State) (r : FragRef) (f : Frag → Frag) : (s.modFrag r f).report = s.report := rfl

/-! ### State.modW -/

@[simp] theorem State.modW_time (s : State) (c : Ctx) (f : Warp → Warp) : (s.modW c f).time = s.time := rfl
@[simp] theorem State.modW_mem (s : State) (c : Ctx) (f : Warp → Warp) : (s.modW c f).mem = s.mem := rfl
@[simp] theorem State.modW_host (s : State) (c : Ctx) (f : Warp → Warp) : (s.modW c f).host = s.host := rfl
@[simp] theorem State.modW_vault (s : State) (c : Ctx) (f : Warp → Warp) : (s.modW c f).vault = s.vault := rfl
@[simp] theorem State.modW_bad (s : State) (c : Ctx) (f : Warp → Warp) : (s.modW c f).bad = s.bad := rfl
@[simp] theorem State.modW_l2 (s : State) (c : Ctx) (f : Warp → Warp) : (s.modW c f).l2 = s.l2 := rfl
@[simp] theorem State.modW_slmap (s : State) (c : Ctx) (f : Warp → Warp) : (s.modW c f).slmap = s.slmap := rfl
@[simp] theorem State.modW_tlbs (s : State) (c : Ctx) (f : Warp → Warp) : (s.modW c f).tlbs = s.tlbs := rfl
@[simp] theorem State.modW_maps (s : State) (c : Ctx) (f : Warp → Warp) : (s.modW c f).maps = s.maps := rfl
@[simp] theorem State.modW_hostStale (s : State) (c : Ctx) (f : Warp → Warp) : (s.modW c f).hostStale = s.hostStale := rfl
@[simp] theorem State.modW_past (s : State) (c : Ctx) (f : Warp → Warp) : (s.modW c f).past = s.past := rfl
@[simp] theorem State.modW_cores (s : State) (c : Ctx) (f : Warp → Warp) : (s.modW c f).cores = s.cores := rfl
@[simp] theorem State.modW_reqs (s : State) (c : Ctx) (f : Warp → Warp) : (s.modW c f).reqs = s.reqs := rfl
@[simp] theorem State.modW_nextReq (s : State) (c : Ctx) (f : Warp → Warp) : (s.modW c f).nextReq = s.nextReq := rfl
@[simp] theorem State.modW_nextUid (s : State) (c : Ctx) (f : Warp → Warp) : (s.modW c f).nextUid = s.nextUid := rfl
@[simp] theorem State.modW_nextOp (s : State) (c : Ctx) (f : Warp → Warp) : (s.modW c f).nextOp = s.nextOp := rfl
@[simp] theorem State.modW_launches (s : State) (c : Ctx) (f : Warp → Warp) : (s.modW c f).launches = s.launches := rfl
@[simp] theorem State.modW_nextLid (s : State) (c : Ctx) (f : Warp → Warp) : (s.modW c f).nextLid = s.nextLid := rfl
@[simp] theorem State.modW_accepted (s : State) (c : Ctx) (f : Warp → Warp) : (s.modW c f).accepted = s.accepted := rfl
@[simp] theorem State.modW_devLaunches (s : State) (c : Ctx) (f : Warp → Warp) : (s.modW c f).devLaunches = s.devLaunches := rfl
@[simp] theorem State.modW_groups (s : State) (c : Ctx) (f : Warp → Warp) : (s.modW c f).groups = s.groups := rfl
@[simp] theorem State.modW_nextFault (s : State) (c : Ctx) (f : Warp → Warp) : (s.modW c f).nextFault = s.nextFault := rfl
@[simp] theorem State.modW_faultQ (s : State) (c : Ctx) (f : Warp → Warp) : (s.modW c f).faultQ = s.faultQ := rfl
@[simp] theorem State.modW_faultLog (s : State) (c : Ctx) (f : Warp → Warp) : (s.modW c f).faultLog = s.faultLog := rfl
@[simp] theorem State.modW_queues (s : State) (c : Ctx) (f : Warp → Warp) : (s.modW c f).queues = s.queues := rfl
@[simp] theorem State.modW_lastQueue (s : State) (c : Ctx) (f : Warp → Warp) : (s.modW c f).lastQueue = s.lastQueue := rfl
@[simp] theorem State.modW_events (s : State) (c : Ctx) (f : Warp → Warp) : (s.modW c f).events = s.events := rfl
@[simp] theorem State.modW_tensors (s : State) (c : Ctx) (f : Warp → Warp) : (s.modW c f).tensors = s.tensors := rfl
@[simp] theorem State.modW_dev (s : State) (c : Ctx) (f : Warp → Warp) : (s.modW c f).dev = s.dev := rfl
@[simp] theorem State.modW_env (s : State) (c : Ctx) (f : Warp → Warp) : (s.modW c f).env = s.env := rfl
@[simp] theorem State.modW_fq (s : State) (c : Ctx) (f : Warp → Warp) : (s.modW c f).fq = s.fq := rfl
@[simp] theorem State.modW_el (s : State) (c : Ctx) (f : Warp → Warp) : (s.modW c f).el = s.el := rfl
@[simp] theorem State.modW_pr (s : State) (c : Ctx) (f : Warp → Warp) : (s.modW c f).pr = s.pr := rfl
@[simp] theorem State.modW_bps (s : State) (c : Ctx) (f : Warp → Warp) : (s.modW c f).bps = s.bps := rfl
@[simp] theorem State.modW_trigs (s : State) (c : Ctx) (f : Warp → Warp) : (s.modW c f).trigs = s.trigs := rfl
@[simp] theorem State.modW_msix (s : State) (c : Ctx) (f : Warp → Warp) : (s.modW c f).msix = s.msix := rfl
@[simp] theorem State.modW_deferred (s : State) (c : Ctx) (f : Warp → Warp) : (s.modW c f).deferred = s.deferred := rfl
@[simp] theorem State.modW_hostWdev (s : State) (c : Ctx) (f : Warp → Warp) : (s.modW c f).hostWdev = s.hostWdev := rfl
@[simp] theorem State.modW_hostRead (s : State) (c : Ctx) (f : Warp → Warp) : (s.modW c f).hostRead = s.hostRead := rfl
@[simp] theorem State.modW_agenda (s : State) (c : Ctx) (f : Warp → Warp) : (s.modW c f).agenda = s.agenda := rfl
@[simp] theorem State.modW_outside (s : State) (c : Ctx) (f : Warp → Warp) : (s.modW c f).outside = s.outside := rfl
@[simp] theorem State.modW_linkOut (s : State) (c : Ctx) (f : Warp → Warp) : (s.modW c f).linkOut = s.linkOut := rfl
@[simp] theorem State.modW_picks (s : State) (c : Ctx) (f : Warp → Warp) : (s.modW c f).picks = s.picks := rfl
@[simp] theorem State.modW_cur (s : State) (c : Ctx) (f : Warp → Warp) : (s.modW c f).cur = s.cur := rfl
@[simp] theorem State.modW_fresh (s : State) (c : Ctx) (f : Warp → Warp) : (s.modW c f).fresh = s.fresh := rfl
@[simp] theorem State.modW_turn (s : State) (c : Ctx) (f : Warp → Warp) : (s.modW c f).turn = s.turn := rfl
@[simp] theorem State.modW_drops (s : State) (c : Ctx) (f : Warp → Warp) : (s.modW c f).drops = s.drops := rfl
@[simp] theorem State.modW_report (s : State) (c : Ctx) (f : Warp → Warp) : (s.modW c f).report = s.report := rfl

/-! ### State.modLaunch -/

@[simp] theorem State.modLaunch_time (s : State) (i : Nat) (f : Machine.Launch → Machine.Launch) : (s.modLaunch i f).time = s.time := rfl
@[simp] theorem State.modLaunch_mem (s : State) (i : Nat) (f : Machine.Launch → Machine.Launch) : (s.modLaunch i f).mem = s.mem := rfl
@[simp] theorem State.modLaunch_host (s : State) (i : Nat) (f : Machine.Launch → Machine.Launch) : (s.modLaunch i f).host = s.host := rfl
@[simp] theorem State.modLaunch_vault (s : State) (i : Nat) (f : Machine.Launch → Machine.Launch) : (s.modLaunch i f).vault = s.vault := rfl
@[simp] theorem State.modLaunch_bad (s : State) (i : Nat) (f : Machine.Launch → Machine.Launch) : (s.modLaunch i f).bad = s.bad := rfl
@[simp] theorem State.modLaunch_l2 (s : State) (i : Nat) (f : Machine.Launch → Machine.Launch) : (s.modLaunch i f).l2 = s.l2 := rfl
@[simp] theorem State.modLaunch_slmap (s : State) (i : Nat) (f : Machine.Launch → Machine.Launch) : (s.modLaunch i f).slmap = s.slmap := rfl
@[simp] theorem State.modLaunch_tlbs (s : State) (i : Nat) (f : Machine.Launch → Machine.Launch) : (s.modLaunch i f).tlbs = s.tlbs := rfl
@[simp] theorem State.modLaunch_maps (s : State) (i : Nat) (f : Machine.Launch → Machine.Launch) : (s.modLaunch i f).maps = s.maps := rfl
@[simp] theorem State.modLaunch_hostStale (s : State) (i : Nat) (f : Machine.Launch → Machine.Launch) : (s.modLaunch i f).hostStale = s.hostStale := rfl
@[simp] theorem State.modLaunch_past (s : State) (i : Nat) (f : Machine.Launch → Machine.Launch) : (s.modLaunch i f).past = s.past := rfl
@[simp] theorem State.modLaunch_cores (s : State) (i : Nat) (f : Machine.Launch → Machine.Launch) : (s.modLaunch i f).cores = s.cores := rfl
@[simp] theorem State.modLaunch_reqs (s : State) (i : Nat) (f : Machine.Launch → Machine.Launch) : (s.modLaunch i f).reqs = s.reqs := rfl
@[simp] theorem State.modLaunch_nextReq (s : State) (i : Nat) (f : Machine.Launch → Machine.Launch) : (s.modLaunch i f).nextReq = s.nextReq := rfl
@[simp] theorem State.modLaunch_blocks (s : State) (i : Nat) (f : Machine.Launch → Machine.Launch) : (s.modLaunch i f).blocks = s.blocks := rfl
@[simp] theorem State.modLaunch_nextUid (s : State) (i : Nat) (f : Machine.Launch → Machine.Launch) : (s.modLaunch i f).nextUid = s.nextUid := rfl
@[simp] theorem State.modLaunch_nextOp (s : State) (i : Nat) (f : Machine.Launch → Machine.Launch) : (s.modLaunch i f).nextOp = s.nextOp := rfl
@[simp] theorem State.modLaunch_nextLid (s : State) (i : Nat) (f : Machine.Launch → Machine.Launch) : (s.modLaunch i f).nextLid = s.nextLid := rfl
@[simp] theorem State.modLaunch_accepted (s : State) (i : Nat) (f : Machine.Launch → Machine.Launch) : (s.modLaunch i f).accepted = s.accepted := rfl
@[simp] theorem State.modLaunch_devLaunches (s : State) (i : Nat) (f : Machine.Launch → Machine.Launch) : (s.modLaunch i f).devLaunches = s.devLaunches := rfl
@[simp] theorem State.modLaunch_groups (s : State) (i : Nat) (f : Machine.Launch → Machine.Launch) : (s.modLaunch i f).groups = s.groups := rfl
@[simp] theorem State.modLaunch_nextFault (s : State) (i : Nat) (f : Machine.Launch → Machine.Launch) : (s.modLaunch i f).nextFault = s.nextFault := rfl
@[simp] theorem State.modLaunch_faultQ (s : State) (i : Nat) (f : Machine.Launch → Machine.Launch) : (s.modLaunch i f).faultQ = s.faultQ := rfl
@[simp] theorem State.modLaunch_faultLog (s : State) (i : Nat) (f : Machine.Launch → Machine.Launch) : (s.modLaunch i f).faultLog = s.faultLog := rfl
@[simp] theorem State.modLaunch_queues (s : State) (i : Nat) (f : Machine.Launch → Machine.Launch) : (s.modLaunch i f).queues = s.queues := rfl
@[simp] theorem State.modLaunch_lastQueue (s : State) (i : Nat) (f : Machine.Launch → Machine.Launch) : (s.modLaunch i f).lastQueue = s.lastQueue := rfl
@[simp] theorem State.modLaunch_events (s : State) (i : Nat) (f : Machine.Launch → Machine.Launch) : (s.modLaunch i f).events = s.events := rfl
@[simp] theorem State.modLaunch_tensors (s : State) (i : Nat) (f : Machine.Launch → Machine.Launch) : (s.modLaunch i f).tensors = s.tensors := rfl
@[simp] theorem State.modLaunch_dev (s : State) (i : Nat) (f : Machine.Launch → Machine.Launch) : (s.modLaunch i f).dev = s.dev := rfl
@[simp] theorem State.modLaunch_env (s : State) (i : Nat) (f : Machine.Launch → Machine.Launch) : (s.modLaunch i f).env = s.env := rfl
@[simp] theorem State.modLaunch_fq (s : State) (i : Nat) (f : Machine.Launch → Machine.Launch) : (s.modLaunch i f).fq = s.fq := rfl
@[simp] theorem State.modLaunch_el (s : State) (i : Nat) (f : Machine.Launch → Machine.Launch) : (s.modLaunch i f).el = s.el := rfl
@[simp] theorem State.modLaunch_pr (s : State) (i : Nat) (f : Machine.Launch → Machine.Launch) : (s.modLaunch i f).pr = s.pr := rfl
@[simp] theorem State.modLaunch_bps (s : State) (i : Nat) (f : Machine.Launch → Machine.Launch) : (s.modLaunch i f).bps = s.bps := rfl
@[simp] theorem State.modLaunch_trigs (s : State) (i : Nat) (f : Machine.Launch → Machine.Launch) : (s.modLaunch i f).trigs = s.trigs := rfl
@[simp] theorem State.modLaunch_msix (s : State) (i : Nat) (f : Machine.Launch → Machine.Launch) : (s.modLaunch i f).msix = s.msix := rfl
@[simp] theorem State.modLaunch_deferred (s : State) (i : Nat) (f : Machine.Launch → Machine.Launch) : (s.modLaunch i f).deferred = s.deferred := rfl
@[simp] theorem State.modLaunch_hostWdev (s : State) (i : Nat) (f : Machine.Launch → Machine.Launch) : (s.modLaunch i f).hostWdev = s.hostWdev := rfl
@[simp] theorem State.modLaunch_hostRead (s : State) (i : Nat) (f : Machine.Launch → Machine.Launch) : (s.modLaunch i f).hostRead = s.hostRead := rfl
@[simp] theorem State.modLaunch_agenda (s : State) (i : Nat) (f : Machine.Launch → Machine.Launch) : (s.modLaunch i f).agenda = s.agenda := rfl
@[simp] theorem State.modLaunch_outside (s : State) (i : Nat) (f : Machine.Launch → Machine.Launch) : (s.modLaunch i f).outside = s.outside := rfl
@[simp] theorem State.modLaunch_linkOut (s : State) (i : Nat) (f : Machine.Launch → Machine.Launch) : (s.modLaunch i f).linkOut = s.linkOut := rfl
@[simp] theorem State.modLaunch_picks (s : State) (i : Nat) (f : Machine.Launch → Machine.Launch) : (s.modLaunch i f).picks = s.picks := rfl
@[simp] theorem State.modLaunch_cur (s : State) (i : Nat) (f : Machine.Launch → Machine.Launch) : (s.modLaunch i f).cur = s.cur := rfl
@[simp] theorem State.modLaunch_fresh (s : State) (i : Nat) (f : Machine.Launch → Machine.Launch) : (s.modLaunch i f).fresh = s.fresh := rfl
@[simp] theorem State.modLaunch_turn (s : State) (i : Nat) (f : Machine.Launch → Machine.Launch) : (s.modLaunch i f).turn = s.turn := rfl
@[simp] theorem State.modLaunch_drops (s : State) (i : Nat) (f : Machine.Launch → Machine.Launch) : (s.modLaunch i f).drops = s.drops := rfl
@[simp] theorem State.modLaunch_report (s : State) (i : Nat) (f : Machine.Launch → Machine.Launch) : (s.modLaunch i f).report = s.report := rfl

/-! ### State.modCore -/

@[simp] theorem State.modCore_time (s : State) (k : Nat) (f : Core → Core) : (s.modCore k f).time = s.time := rfl
@[simp] theorem State.modCore_mem (s : State) (k : Nat) (f : Core → Core) : (s.modCore k f).mem = s.mem := rfl
@[simp] theorem State.modCore_host (s : State) (k : Nat) (f : Core → Core) : (s.modCore k f).host = s.host := rfl
@[simp] theorem State.modCore_vault (s : State) (k : Nat) (f : Core → Core) : (s.modCore k f).vault = s.vault := rfl
@[simp] theorem State.modCore_bad (s : State) (k : Nat) (f : Core → Core) : (s.modCore k f).bad = s.bad := rfl
@[simp] theorem State.modCore_l2 (s : State) (k : Nat) (f : Core → Core) : (s.modCore k f).l2 = s.l2 := rfl
@[simp] theorem State.modCore_slmap (s : State) (k : Nat) (f : Core → Core) : (s.modCore k f).slmap = s.slmap := rfl
@[simp] theorem State.modCore_tlbs (s : State) (k : Nat) (f : Core → Core) : (s.modCore k f).tlbs = s.tlbs := rfl
@[simp] theorem State.modCore_maps (s : State) (k : Nat) (f : Core → Core) : (s.modCore k f).maps = s.maps := rfl
@[simp] theorem State.modCore_hostStale (s : State) (k : Nat) (f : Core → Core) : (s.modCore k f).hostStale = s.hostStale := rfl
@[simp] theorem State.modCore_past (s : State) (k : Nat) (f : Core → Core) : (s.modCore k f).past = s.past := rfl
@[simp] theorem State.modCore_reqs (s : State) (k : Nat) (f : Core → Core) : (s.modCore k f).reqs = s.reqs := rfl
@[simp] theorem State.modCore_nextReq (s : State) (k : Nat) (f : Core → Core) : (s.modCore k f).nextReq = s.nextReq := rfl
@[simp] theorem State.modCore_blocks (s : State) (k : Nat) (f : Core → Core) : (s.modCore k f).blocks = s.blocks := rfl
@[simp] theorem State.modCore_nextUid (s : State) (k : Nat) (f : Core → Core) : (s.modCore k f).nextUid = s.nextUid := rfl
@[simp] theorem State.modCore_nextOp (s : State) (k : Nat) (f : Core → Core) : (s.modCore k f).nextOp = s.nextOp := rfl
@[simp] theorem State.modCore_launches (s : State) (k : Nat) (f : Core → Core) : (s.modCore k f).launches = s.launches := rfl
@[simp] theorem State.modCore_nextLid (s : State) (k : Nat) (f : Core → Core) : (s.modCore k f).nextLid = s.nextLid := rfl
@[simp] theorem State.modCore_accepted (s : State) (k : Nat) (f : Core → Core) : (s.modCore k f).accepted = s.accepted := rfl
@[simp] theorem State.modCore_devLaunches (s : State) (k : Nat) (f : Core → Core) : (s.modCore k f).devLaunches = s.devLaunches := rfl
@[simp] theorem State.modCore_groups (s : State) (k : Nat) (f : Core → Core) : (s.modCore k f).groups = s.groups := rfl
@[simp] theorem State.modCore_nextFault (s : State) (k : Nat) (f : Core → Core) : (s.modCore k f).nextFault = s.nextFault := rfl
@[simp] theorem State.modCore_faultQ (s : State) (k : Nat) (f : Core → Core) : (s.modCore k f).faultQ = s.faultQ := rfl
@[simp] theorem State.modCore_faultLog (s : State) (k : Nat) (f : Core → Core) : (s.modCore k f).faultLog = s.faultLog := rfl
@[simp] theorem State.modCore_queues (s : State) (k : Nat) (f : Core → Core) : (s.modCore k f).queues = s.queues := rfl
@[simp] theorem State.modCore_lastQueue (s : State) (k : Nat) (f : Core → Core) : (s.modCore k f).lastQueue = s.lastQueue := rfl
@[simp] theorem State.modCore_events (s : State) (k : Nat) (f : Core → Core) : (s.modCore k f).events = s.events := rfl
@[simp] theorem State.modCore_tensors (s : State) (k : Nat) (f : Core → Core) : (s.modCore k f).tensors = s.tensors := rfl
@[simp] theorem State.modCore_dev (s : State) (k : Nat) (f : Core → Core) : (s.modCore k f).dev = s.dev := rfl
@[simp] theorem State.modCore_env (s : State) (k : Nat) (f : Core → Core) : (s.modCore k f).env = s.env := rfl
@[simp] theorem State.modCore_fq (s : State) (k : Nat) (f : Core → Core) : (s.modCore k f).fq = s.fq := rfl
@[simp] theorem State.modCore_el (s : State) (k : Nat) (f : Core → Core) : (s.modCore k f).el = s.el := rfl
@[simp] theorem State.modCore_pr (s : State) (k : Nat) (f : Core → Core) : (s.modCore k f).pr = s.pr := rfl
@[simp] theorem State.modCore_bps (s : State) (k : Nat) (f : Core → Core) : (s.modCore k f).bps = s.bps := rfl
@[simp] theorem State.modCore_trigs (s : State) (k : Nat) (f : Core → Core) : (s.modCore k f).trigs = s.trigs := rfl
@[simp] theorem State.modCore_msix (s : State) (k : Nat) (f : Core → Core) : (s.modCore k f).msix = s.msix := rfl
@[simp] theorem State.modCore_deferred (s : State) (k : Nat) (f : Core → Core) : (s.modCore k f).deferred = s.deferred := rfl
@[simp] theorem State.modCore_hostWdev (s : State) (k : Nat) (f : Core → Core) : (s.modCore k f).hostWdev = s.hostWdev := rfl
@[simp] theorem State.modCore_hostRead (s : State) (k : Nat) (f : Core → Core) : (s.modCore k f).hostRead = s.hostRead := rfl
@[simp] theorem State.modCore_agenda (s : State) (k : Nat) (f : Core → Core) : (s.modCore k f).agenda = s.agenda := rfl
@[simp] theorem State.modCore_outside (s : State) (k : Nat) (f : Core → Core) : (s.modCore k f).outside = s.outside := rfl
@[simp] theorem State.modCore_linkOut (s : State) (k : Nat) (f : Core → Core) : (s.modCore k f).linkOut = s.linkOut := rfl
@[simp] theorem State.modCore_picks (s : State) (k : Nat) (f : Core → Core) : (s.modCore k f).picks = s.picks := rfl
@[simp] theorem State.modCore_cur (s : State) (k : Nat) (f : Core → Core) : (s.modCore k f).cur = s.cur := rfl
@[simp] theorem State.modCore_fresh (s : State) (k : Nat) (f : Core → Core) : (s.modCore k f).fresh = s.fresh := rfl
@[simp] theorem State.modCore_turn (s : State) (k : Nat) (f : Core → Core) : (s.modCore k f).turn = s.turn := rfl
@[simp] theorem State.modCore_drops (s : State) (k : Nat) (f : Core → Core) : (s.modCore k f).drops = s.drops := rfl
@[simp] theorem State.modCore_report (s : State) (k : Nat) (f : Core → Core) : (s.modCore k f).report = s.report := rfl

/-! ### State.modReq -/

@[simp] theorem State.modReq_time (s : State) (i : Nat) (f : Req → Req) : (s.modReq i f).time = s.time := rfl
@[simp] theorem State.modReq_mem (s : State) (i : Nat) (f : Req → Req) : (s.modReq i f).mem = s.mem := rfl
@[simp] theorem State.modReq_host (s : State) (i : Nat) (f : Req → Req) : (s.modReq i f).host = s.host := rfl
@[simp] theorem State.modReq_vault (s : State) (i : Nat) (f : Req → Req) : (s.modReq i f).vault = s.vault := rfl
@[simp] theorem State.modReq_bad (s : State) (i : Nat) (f : Req → Req) : (s.modReq i f).bad = s.bad := rfl
@[simp] theorem State.modReq_l2 (s : State) (i : Nat) (f : Req → Req) : (s.modReq i f).l2 = s.l2 := rfl
@[simp] theorem State.modReq_slmap (s : State) (i : Nat) (f : Req → Req) : (s.modReq i f).slmap = s.slmap := rfl
@[simp] theorem State.modReq_tlbs (s : State) (i : Nat) (f : Req → Req) : (s.modReq i f).tlbs = s.tlbs := rfl
@[simp] theorem State.modReq_maps (s : State) (i : Nat) (f : Req → Req) : (s.modReq i f).maps = s.maps := rfl
@[simp] theorem State.modReq_hostStale (s : State) (i : Nat) (f : Req → Req) : (s.modReq i f).hostStale = s.hostStale := rfl
@[simp] theorem State.modReq_past (s : State) (i : Nat) (f : Req → Req) : (s.modReq i f).past = s.past := rfl
@[simp] theorem State.modReq_cores (s : State) (i : Nat) (f : Req → Req) : (s.modReq i f).cores = s.cores := rfl
@[simp] theorem State.modReq_nextReq (s : State) (i : Nat) (f : Req → Req) : (s.modReq i f).nextReq = s.nextReq := rfl
@[simp] theorem State.modReq_blocks (s : State) (i : Nat) (f : Req → Req) : (s.modReq i f).blocks = s.blocks := rfl
@[simp] theorem State.modReq_nextUid (s : State) (i : Nat) (f : Req → Req) : (s.modReq i f).nextUid = s.nextUid := rfl
@[simp] theorem State.modReq_nextOp (s : State) (i : Nat) (f : Req → Req) : (s.modReq i f).nextOp = s.nextOp := rfl
@[simp] theorem State.modReq_launches (s : State) (i : Nat) (f : Req → Req) : (s.modReq i f).launches = s.launches := rfl
@[simp] theorem State.modReq_nextLid (s : State) (i : Nat) (f : Req → Req) : (s.modReq i f).nextLid = s.nextLid := rfl
@[simp] theorem State.modReq_accepted (s : State) (i : Nat) (f : Req → Req) : (s.modReq i f).accepted = s.accepted := rfl
@[simp] theorem State.modReq_devLaunches (s : State) (i : Nat) (f : Req → Req) : (s.modReq i f).devLaunches = s.devLaunches := rfl
@[simp] theorem State.modReq_groups (s : State) (i : Nat) (f : Req → Req) : (s.modReq i f).groups = s.groups := rfl
@[simp] theorem State.modReq_nextFault (s : State) (i : Nat) (f : Req → Req) : (s.modReq i f).nextFault = s.nextFault := rfl
@[simp] theorem State.modReq_faultQ (s : State) (i : Nat) (f : Req → Req) : (s.modReq i f).faultQ = s.faultQ := rfl
@[simp] theorem State.modReq_faultLog (s : State) (i : Nat) (f : Req → Req) : (s.modReq i f).faultLog = s.faultLog := rfl
@[simp] theorem State.modReq_queues (s : State) (i : Nat) (f : Req → Req) : (s.modReq i f).queues = s.queues := rfl
@[simp] theorem State.modReq_lastQueue (s : State) (i : Nat) (f : Req → Req) : (s.modReq i f).lastQueue = s.lastQueue := rfl
@[simp] theorem State.modReq_events (s : State) (i : Nat) (f : Req → Req) : (s.modReq i f).events = s.events := rfl
@[simp] theorem State.modReq_tensors (s : State) (i : Nat) (f : Req → Req) : (s.modReq i f).tensors = s.tensors := rfl
@[simp] theorem State.modReq_dev (s : State) (i : Nat) (f : Req → Req) : (s.modReq i f).dev = s.dev := rfl
@[simp] theorem State.modReq_env (s : State) (i : Nat) (f : Req → Req) : (s.modReq i f).env = s.env := rfl
@[simp] theorem State.modReq_fq (s : State) (i : Nat) (f : Req → Req) : (s.modReq i f).fq = s.fq := rfl
@[simp] theorem State.modReq_el (s : State) (i : Nat) (f : Req → Req) : (s.modReq i f).el = s.el := rfl
@[simp] theorem State.modReq_pr (s : State) (i : Nat) (f : Req → Req) : (s.modReq i f).pr = s.pr := rfl
@[simp] theorem State.modReq_bps (s : State) (i : Nat) (f : Req → Req) : (s.modReq i f).bps = s.bps := rfl
@[simp] theorem State.modReq_trigs (s : State) (i : Nat) (f : Req → Req) : (s.modReq i f).trigs = s.trigs := rfl
@[simp] theorem State.modReq_msix (s : State) (i : Nat) (f : Req → Req) : (s.modReq i f).msix = s.msix := rfl
@[simp] theorem State.modReq_deferred (s : State) (i : Nat) (f : Req → Req) : (s.modReq i f).deferred = s.deferred := rfl
@[simp] theorem State.modReq_hostWdev (s : State) (i : Nat) (f : Req → Req) : (s.modReq i f).hostWdev = s.hostWdev := rfl
@[simp] theorem State.modReq_hostRead (s : State) (i : Nat) (f : Req → Req) : (s.modReq i f).hostRead = s.hostRead := rfl
@[simp] theorem State.modReq_agenda (s : State) (i : Nat) (f : Req → Req) : (s.modReq i f).agenda = s.agenda := rfl
@[simp] theorem State.modReq_outside (s : State) (i : Nat) (f : Req → Req) : (s.modReq i f).outside = s.outside := rfl
@[simp] theorem State.modReq_linkOut (s : State) (i : Nat) (f : Req → Req) : (s.modReq i f).linkOut = s.linkOut := rfl
@[simp] theorem State.modReq_picks (s : State) (i : Nat) (f : Req → Req) : (s.modReq i f).picks = s.picks := rfl
@[simp] theorem State.modReq_cur (s : State) (i : Nat) (f : Req → Req) : (s.modReq i f).cur = s.cur := rfl
@[simp] theorem State.modReq_fresh (s : State) (i : Nat) (f : Req → Req) : (s.modReq i f).fresh = s.fresh := rfl
@[simp] theorem State.modReq_turn (s : State) (i : Nat) (f : Req → Req) : (s.modReq i f).turn = s.turn := rfl
@[simp] theorem State.modReq_drops (s : State) (i : Nat) (f : Req → Req) : (s.modReq i f).drops = s.drops := rfl
@[simp] theorem State.modReq_report (s : State) (i : Nat) (f : Req → Req) : (s.modReq i f).report = s.report := rfl

/-! ### State.modQueue -/

@[simp] theorem State.modQueue_time (s : State) (q : Nat) (f : Queue → Queue) : (s.modQueue q f).time = s.time := rfl
@[simp] theorem State.modQueue_mem (s : State) (q : Nat) (f : Queue → Queue) : (s.modQueue q f).mem = s.mem := rfl
@[simp] theorem State.modQueue_host (s : State) (q : Nat) (f : Queue → Queue) : (s.modQueue q f).host = s.host := rfl
@[simp] theorem State.modQueue_vault (s : State) (q : Nat) (f : Queue → Queue) : (s.modQueue q f).vault = s.vault := rfl
@[simp] theorem State.modQueue_bad (s : State) (q : Nat) (f : Queue → Queue) : (s.modQueue q f).bad = s.bad := rfl
@[simp] theorem State.modQueue_l2 (s : State) (q : Nat) (f : Queue → Queue) : (s.modQueue q f).l2 = s.l2 := rfl
@[simp] theorem State.modQueue_slmap (s : State) (q : Nat) (f : Queue → Queue) : (s.modQueue q f).slmap = s.slmap := rfl
@[simp] theorem State.modQueue_tlbs (s : State) (q : Nat) (f : Queue → Queue) : (s.modQueue q f).tlbs = s.tlbs := rfl
@[simp] theorem State.modQueue_maps (s : State) (q : Nat) (f : Queue → Queue) : (s.modQueue q f).maps = s.maps := rfl
@[simp] theorem State.modQueue_hostStale (s : State) (q : Nat) (f : Queue → Queue) : (s.modQueue q f).hostStale = s.hostStale := rfl
@[simp] theorem State.modQueue_past (s : State) (q : Nat) (f : Queue → Queue) : (s.modQueue q f).past = s.past := rfl
@[simp] theorem State.modQueue_cores (s : State) (q : Nat) (f : Queue → Queue) : (s.modQueue q f).cores = s.cores := rfl
@[simp] theorem State.modQueue_reqs (s : State) (q : Nat) (f : Queue → Queue) : (s.modQueue q f).reqs = s.reqs := rfl
@[simp] theorem State.modQueue_nextReq (s : State) (q : Nat) (f : Queue → Queue) : (s.modQueue q f).nextReq = s.nextReq := rfl
@[simp] theorem State.modQueue_blocks (s : State) (q : Nat) (f : Queue → Queue) : (s.modQueue q f).blocks = s.blocks := rfl
@[simp] theorem State.modQueue_nextUid (s : State) (q : Nat) (f : Queue → Queue) : (s.modQueue q f).nextUid = s.nextUid := rfl
@[simp] theorem State.modQueue_nextOp (s : State) (q : Nat) (f : Queue → Queue) : (s.modQueue q f).nextOp = s.nextOp := rfl
@[simp] theorem State.modQueue_launches (s : State) (q : Nat) (f : Queue → Queue) : (s.modQueue q f).launches = s.launches := rfl
@[simp] theorem State.modQueue_nextLid (s : State) (q : Nat) (f : Queue → Queue) : (s.modQueue q f).nextLid = s.nextLid := rfl
@[simp] theorem State.modQueue_accepted (s : State) (q : Nat) (f : Queue → Queue) : (s.modQueue q f).accepted = s.accepted := rfl
@[simp] theorem State.modQueue_devLaunches (s : State) (q : Nat) (f : Queue → Queue) : (s.modQueue q f).devLaunches = s.devLaunches := rfl
@[simp] theorem State.modQueue_groups (s : State) (q : Nat) (f : Queue → Queue) : (s.modQueue q f).groups = s.groups := rfl
@[simp] theorem State.modQueue_nextFault (s : State) (q : Nat) (f : Queue → Queue) : (s.modQueue q f).nextFault = s.nextFault := rfl
@[simp] theorem State.modQueue_faultQ (s : State) (q : Nat) (f : Queue → Queue) : (s.modQueue q f).faultQ = s.faultQ := rfl
@[simp] theorem State.modQueue_faultLog (s : State) (q : Nat) (f : Queue → Queue) : (s.modQueue q f).faultLog = s.faultLog := rfl
@[simp] theorem State.modQueue_lastQueue (s : State) (q : Nat) (f : Queue → Queue) : (s.modQueue q f).lastQueue = s.lastQueue := rfl
@[simp] theorem State.modQueue_events (s : State) (q : Nat) (f : Queue → Queue) : (s.modQueue q f).events = s.events := rfl
@[simp] theorem State.modQueue_tensors (s : State) (q : Nat) (f : Queue → Queue) : (s.modQueue q f).tensors = s.tensors := rfl
@[simp] theorem State.modQueue_dev (s : State) (q : Nat) (f : Queue → Queue) : (s.modQueue q f).dev = s.dev := rfl
@[simp] theorem State.modQueue_env (s : State) (q : Nat) (f : Queue → Queue) : (s.modQueue q f).env = s.env := rfl
@[simp] theorem State.modQueue_fq (s : State) (q : Nat) (f : Queue → Queue) : (s.modQueue q f).fq = s.fq := rfl
@[simp] theorem State.modQueue_el (s : State) (q : Nat) (f : Queue → Queue) : (s.modQueue q f).el = s.el := rfl
@[simp] theorem State.modQueue_pr (s : State) (q : Nat) (f : Queue → Queue) : (s.modQueue q f).pr = s.pr := rfl
@[simp] theorem State.modQueue_bps (s : State) (q : Nat) (f : Queue → Queue) : (s.modQueue q f).bps = s.bps := rfl
@[simp] theorem State.modQueue_trigs (s : State) (q : Nat) (f : Queue → Queue) : (s.modQueue q f).trigs = s.trigs := rfl
@[simp] theorem State.modQueue_msix (s : State) (q : Nat) (f : Queue → Queue) : (s.modQueue q f).msix = s.msix := rfl
@[simp] theorem State.modQueue_deferred (s : State) (q : Nat) (f : Queue → Queue) : (s.modQueue q f).deferred = s.deferred := rfl
@[simp] theorem State.modQueue_hostWdev (s : State) (q : Nat) (f : Queue → Queue) : (s.modQueue q f).hostWdev = s.hostWdev := rfl
@[simp] theorem State.modQueue_hostRead (s : State) (q : Nat) (f : Queue → Queue) : (s.modQueue q f).hostRead = s.hostRead := rfl
@[simp] theorem State.modQueue_agenda (s : State) (q : Nat) (f : Queue → Queue) : (s.modQueue q f).agenda = s.agenda := rfl
@[simp] theorem State.modQueue_outside (s : State) (q : Nat) (f : Queue → Queue) : (s.modQueue q f).outside = s.outside := rfl
@[simp] theorem State.modQueue_linkOut (s : State) (q : Nat) (f : Queue → Queue) : (s.modQueue q f).linkOut = s.linkOut := rfl
@[simp] theorem State.modQueue_picks (s : State) (q : Nat) (f : Queue → Queue) : (s.modQueue q f).picks = s.picks := rfl
@[simp] theorem State.modQueue_cur (s : State) (q : Nat) (f : Queue → Queue) : (s.modQueue q f).cur = s.cur := rfl
@[simp] theorem State.modQueue_fresh (s : State) (q : Nat) (f : Queue → Queue) : (s.modQueue q f).fresh = s.fresh := rfl
@[simp] theorem State.modQueue_turn (s : State) (q : Nat) (f : Queue → Queue) : (s.modQueue q f).turn = s.turn := rfl
@[simp] theorem State.modQueue_drops (s : State) (q : Nat) (f : Queue → Queue) : (s.modQueue q f).drops = s.drops := rfl
@[simp] theorem State.modQueue_report (s : State) (q : Nat) (f : Queue → Queue) : (s.modQueue q f).report = s.report := rfl

/-! ### State.popPick -/

@[simp] theorem State.popPick_time (s : State) : (s.popPick).time = s.time := rfl
@[simp] theorem State.popPick_mem (s : State) : (s.popPick).mem = s.mem := rfl
@[simp] theorem State.popPick_host (s : State) : (s.popPick).host = s.host := rfl
@[simp] theorem State.popPick_vault (s : State) : (s.popPick).vault = s.vault := rfl
@[simp] theorem State.popPick_bad (s : State) : (s.popPick).bad = s.bad := rfl
@[simp] theorem State.popPick_l2 (s : State) : (s.popPick).l2 = s.l2 := rfl
@[simp] theorem State.popPick_slmap (s : State) : (s.popPick).slmap = s.slmap := rfl
@[simp] theorem State.popPick_tlbs (s : State) : (s.popPick).tlbs = s.tlbs := rfl
@[simp] theorem State.popPick_maps (s : State) : (s.popPick).maps = s.maps := rfl
@[simp] theorem State.popPick_hostStale (s : State) : (s.popPick).hostStale = s.hostStale := rfl
@[simp] theorem State.popPick_past (s : State) : (s.popPick).past = s.past := rfl
@[simp] theorem State.popPick_cores (s : State) : (s.popPick).cores = s.cores := rfl
@[simp] theorem State.popPick_reqs (s : State) : (s.popPick).reqs = s.reqs := rfl
@[simp] theorem State.popPick_nextReq (s : State) : (s.popPick).nextReq = s.nextReq := rfl
@[simp] theorem State.popPick_blocks (s : State) : (s.popPick).blocks = s.blocks := rfl
@[simp] theorem State.popPick_nextUid (s : State) : (s.popPick).nextUid = s.nextUid := rfl
@[simp] theorem State.popPick_nextOp (s : State) : (s.popPick).nextOp = s.nextOp := rfl
@[simp] theorem State.popPick_launches (s : State) : (s.popPick).launches = s.launches := rfl
@[simp] theorem State.popPick_nextLid (s : State) : (s.popPick).nextLid = s.nextLid := rfl
@[simp] theorem State.popPick_accepted (s : State) : (s.popPick).accepted = s.accepted := rfl
@[simp] theorem State.popPick_devLaunches (s : State) : (s.popPick).devLaunches = s.devLaunches := rfl
@[simp] theorem State.popPick_groups (s : State) : (s.popPick).groups = s.groups := rfl
@[simp] theorem State.popPick_nextFault (s : State) : (s.popPick).nextFault = s.nextFault := rfl
@[simp] theorem State.popPick_faultQ (s : State) : (s.popPick).faultQ = s.faultQ := rfl
@[simp] theorem State.popPick_faultLog (s : State) : (s.popPick).faultLog = s.faultLog := rfl
@[simp] theorem State.popPick_queues (s : State) : (s.popPick).queues = s.queues := rfl
@[simp] theorem State.popPick_lastQueue (s : State) : (s.popPick).lastQueue = s.lastQueue := rfl
@[simp] theorem State.popPick_events (s : State) : (s.popPick).events = s.events := rfl
@[simp] theorem State.popPick_tensors (s : State) : (s.popPick).tensors = s.tensors := rfl
@[simp] theorem State.popPick_dev (s : State) : (s.popPick).dev = s.dev := rfl
@[simp] theorem State.popPick_env (s : State) : (s.popPick).env = s.env := rfl
@[simp] theorem State.popPick_fq (s : State) : (s.popPick).fq = s.fq := rfl
@[simp] theorem State.popPick_el (s : State) : (s.popPick).el = s.el := rfl
@[simp] theorem State.popPick_pr (s : State) : (s.popPick).pr = s.pr := rfl
@[simp] theorem State.popPick_bps (s : State) : (s.popPick).bps = s.bps := rfl
@[simp] theorem State.popPick_trigs (s : State) : (s.popPick).trigs = s.trigs := rfl
@[simp] theorem State.popPick_msix (s : State) : (s.popPick).msix = s.msix := rfl
@[simp] theorem State.popPick_deferred (s : State) : (s.popPick).deferred = s.deferred := rfl
@[simp] theorem State.popPick_hostWdev (s : State) : (s.popPick).hostWdev = s.hostWdev := rfl
@[simp] theorem State.popPick_hostRead (s : State) : (s.popPick).hostRead = s.hostRead := rfl
@[simp] theorem State.popPick_agenda (s : State) : (s.popPick).agenda = s.agenda := rfl
@[simp] theorem State.popPick_outside (s : State) : (s.popPick).outside = s.outside := rfl
@[simp] theorem State.popPick_linkOut (s : State) : (s.popPick).linkOut = s.linkOut := rfl
@[simp] theorem State.popPick_cur (s : State) : (s.popPick).cur = s.cur := rfl
@[simp] theorem State.popPick_fresh (s : State) : (s.popPick).fresh = s.fresh := rfl
@[simp] theorem State.popPick_turn (s : State) : (s.popPick).turn = s.turn := rfl
@[simp] theorem State.popPick_drops (s : State) : (s.popPick).drops = s.drops := rfl
@[simp] theorem State.popPick_report (s : State) : (s.popPick).report = s.report := rfl

/-! ### State.draw and State.raise -/

@[simp] theorem State.draw_time (s : State) : s.draw.2.time = s.time := rfl
@[simp] theorem State.draw_mem (s : State) : s.draw.2.mem = s.mem := rfl
@[simp] theorem State.draw_host (s : State) : s.draw.2.host = s.host := rfl
@[simp] theorem State.draw_vault (s : State) : s.draw.2.vault = s.vault := rfl
@[simp] theorem State.draw_bad (s : State) : s.draw.2.bad = s.bad := rfl
@[simp] theorem State.draw_l2 (s : State) : s.draw.2.l2 = s.l2 := rfl
@[simp] theorem State.draw_slmap (s : State) : s.draw.2.slmap = s.slmap := rfl
@[simp] theorem State.draw_tlbs (s : State) : s.draw.2.tlbs = s.tlbs := rfl
@[simp] theorem State.draw_maps (s : State) : s.draw.2.maps = s.maps := rfl
@[simp] theorem State.draw_hostStale (s : State) : s.draw.2.hostStale = s.hostStale := rfl
@[simp] theorem State.draw_past (s : State) : s.draw.2.past = s.past := rfl
@[simp] theorem State.draw_cores (s : State) : s.draw.2.cores = s.cores := rfl
@[simp] theorem State.draw_reqs (s : State) : s.draw.2.reqs = s.reqs := rfl
@[simp] theorem State.draw_nextReq (s : State) : s.draw.2.nextReq = s.nextReq := rfl
@[simp] theorem State.draw_blocks (s : State) : s.draw.2.blocks = s.blocks := rfl
@[simp] theorem State.draw_nextUid (s : State) : s.draw.2.nextUid = s.nextUid := rfl
@[simp] theorem State.draw_nextOp (s : State) : s.draw.2.nextOp = s.nextOp := rfl
@[simp] theorem State.draw_launches (s : State) : s.draw.2.launches = s.launches := rfl
@[simp] theorem State.draw_nextLid (s : State) : s.draw.2.nextLid = s.nextLid := rfl
@[simp] theorem State.draw_accepted (s : State) : s.draw.2.accepted = s.accepted := rfl
@[simp] theorem State.draw_devLaunches (s : State) : s.draw.2.devLaunches = s.devLaunches := rfl
@[simp] theorem State.draw_groups (s : State) : s.draw.2.groups = s.groups := rfl
@[simp] theorem State.draw_nextFault (s : State) : s.draw.2.nextFault = s.nextFault := rfl
@[simp] theorem State.draw_faultQ (s : State) : s.draw.2.faultQ = s.faultQ := rfl
@[simp] theorem State.draw_faultLog (s : State) : s.draw.2.faultLog = s.faultLog := rfl
@[simp] theorem State.draw_queues (s : State) : s.draw.2.queues = s.queues := rfl
@[simp] theorem State.draw_lastQueue (s : State) : s.draw.2.lastQueue = s.lastQueue := rfl
@[simp] theorem State.draw_events (s : State) : s.draw.2.events = s.events := rfl
@[simp] theorem State.draw_tensors (s : State) : s.draw.2.tensors = s.tensors := rfl
@[simp] theorem State.draw_dev (s : State) : s.draw.2.dev = s.dev := rfl
@[simp] theorem State.draw_env (s : State) : s.draw.2.env = s.env := rfl
@[simp] theorem State.draw_fq (s : State) : s.draw.2.fq = s.fq := rfl
@[simp] theorem State.draw_el (s : State) : s.draw.2.el = s.el := rfl
@[simp] theorem State.draw_pr (s : State) : s.draw.2.pr = s.pr := rfl
@[simp] theorem State.draw_bps (s : State) : s.draw.2.bps = s.bps := rfl
@[simp] theorem State.draw_trigs (s : State) : s.draw.2.trigs = s.trigs := rfl
@[simp] theorem State.draw_msix (s : State) : s.draw.2.msix = s.msix := rfl
@[simp] theorem State.draw_deferred (s : State) : s.draw.2.deferred = s.deferred := rfl
@[simp] theorem State.draw_hostWdev (s : State) : s.draw.2.hostWdev = s.hostWdev := rfl
@[simp] theorem State.draw_hostRead (s : State) : s.draw.2.hostRead = s.hostRead := rfl
@[simp] theorem State.draw_agenda (s : State) : s.draw.2.agenda = s.agenda := rfl
@[simp] theorem State.draw_outside (s : State) : s.draw.2.outside = s.outside := rfl
@[simp] theorem State.draw_linkOut (s : State) : s.draw.2.linkOut = s.linkOut := rfl
@[simp] theorem State.draw_picks (s : State) : s.draw.2.picks = s.picks := rfl
@[simp] theorem State.draw_cur (s : State) : s.draw.2.cur = s.cur := rfl
@[simp] theorem State.draw_turn (s : State) : s.draw.2.turn = s.turn := rfl
@[simp] theorem State.draw_drops (s : State) : s.draw.2.drops = s.drops := rfl
@[simp] theorem State.draw_report (s : State) : s.draw.2.report = s.report := rfl
@[simp] theorem State.raise_time (s : State) (v : Nat) : (s.raise v).time = s.time := by by_cases h : v < 2048 <;> simp only [State.raise, h, if_true, if_false]
@[simp] theorem State.raise_mem (s : State) (v : Nat) : (s.raise v).mem = s.mem := by by_cases h : v < 2048 <;> simp only [State.raise, h, if_true, if_false]
@[simp] theorem State.raise_host (s : State) (v : Nat) : (s.raise v).host = s.host := by by_cases h : v < 2048 <;> simp only [State.raise, h, if_true, if_false]
@[simp] theorem State.raise_vault (s : State) (v : Nat) : (s.raise v).vault = s.vault := by by_cases h : v < 2048 <;> simp only [State.raise, h, if_true, if_false]
@[simp] theorem State.raise_bad (s : State) (v : Nat) : (s.raise v).bad = s.bad := by by_cases h : v < 2048 <;> simp only [State.raise, h, if_true, if_false]
@[simp] theorem State.raise_l2 (s : State) (v : Nat) : (s.raise v).l2 = s.l2 := by by_cases h : v < 2048 <;> simp only [State.raise, h, if_true, if_false]
@[simp] theorem State.raise_slmap (s : State) (v : Nat) : (s.raise v).slmap = s.slmap := by by_cases h : v < 2048 <;> simp only [State.raise, h, if_true, if_false]
@[simp] theorem State.raise_tlbs (s : State) (v : Nat) : (s.raise v).tlbs = s.tlbs := by by_cases h : v < 2048 <;> simp only [State.raise, h, if_true, if_false]
@[simp] theorem State.raise_maps (s : State) (v : Nat) : (s.raise v).maps = s.maps := by by_cases h : v < 2048 <;> simp only [State.raise, h, if_true, if_false]
@[simp] theorem State.raise_hostStale (s : State) (v : Nat) : (s.raise v).hostStale = s.hostStale := by by_cases h : v < 2048 <;> simp only [State.raise, h, if_true, if_false]
@[simp] theorem State.raise_past (s : State) (v : Nat) : (s.raise v).past = s.past := by by_cases h : v < 2048 <;> simp only [State.raise, h, if_true, if_false]
@[simp] theorem State.raise_cores (s : State) (v : Nat) : (s.raise v).cores = s.cores := by by_cases h : v < 2048 <;> simp only [State.raise, h, if_true, if_false]
@[simp] theorem State.raise_reqs (s : State) (v : Nat) : (s.raise v).reqs = s.reqs := by by_cases h : v < 2048 <;> simp only [State.raise, h, if_true, if_false]
@[simp] theorem State.raise_nextReq (s : State) (v : Nat) : (s.raise v).nextReq = s.nextReq := by by_cases h : v < 2048 <;> simp only [State.raise, h, if_true, if_false]
@[simp] theorem State.raise_blocks (s : State) (v : Nat) : (s.raise v).blocks = s.blocks := by by_cases h : v < 2048 <;> simp only [State.raise, h, if_true, if_false]
@[simp] theorem State.raise_nextUid (s : State) (v : Nat) : (s.raise v).nextUid = s.nextUid := by by_cases h : v < 2048 <;> simp only [State.raise, h, if_true, if_false]
@[simp] theorem State.raise_nextOp (s : State) (v : Nat) : (s.raise v).nextOp = s.nextOp := by by_cases h : v < 2048 <;> simp only [State.raise, h, if_true, if_false]
@[simp] theorem State.raise_launches (s : State) (v : Nat) : (s.raise v).launches = s.launches := by by_cases h : v < 2048 <;> simp only [State.raise, h, if_true, if_false]
@[simp] theorem State.raise_nextLid (s : State) (v : Nat) : (s.raise v).nextLid = s.nextLid := by by_cases h : v < 2048 <;> simp only [State.raise, h, if_true, if_false]
@[simp] theorem State.raise_accepted (s : State) (v : Nat) : (s.raise v).accepted = s.accepted := by by_cases h : v < 2048 <;> simp only [State.raise, h, if_true, if_false]
@[simp] theorem State.raise_devLaunches (s : State) (v : Nat) : (s.raise v).devLaunches = s.devLaunches := by by_cases h : v < 2048 <;> simp only [State.raise, h, if_true, if_false]
@[simp] theorem State.raise_groups (s : State) (v : Nat) : (s.raise v).groups = s.groups := by by_cases h : v < 2048 <;> simp only [State.raise, h, if_true, if_false]
@[simp] theorem State.raise_nextFault (s : State) (v : Nat) : (s.raise v).nextFault = s.nextFault := by by_cases h : v < 2048 <;> simp only [State.raise, h, if_true, if_false]
@[simp] theorem State.raise_faultQ (s : State) (v : Nat) : (s.raise v).faultQ = s.faultQ := by by_cases h : v < 2048 <;> simp only [State.raise, h, if_true, if_false]
@[simp] theorem State.raise_faultLog (s : State) (v : Nat) : (s.raise v).faultLog = s.faultLog := by by_cases h : v < 2048 <;> simp only [State.raise, h, if_true, if_false]
@[simp] theorem State.raise_queues (s : State) (v : Nat) : (s.raise v).queues = s.queues := by by_cases h : v < 2048 <;> simp only [State.raise, h, if_true, if_false]
@[simp] theorem State.raise_lastQueue (s : State) (v : Nat) : (s.raise v).lastQueue = s.lastQueue := by by_cases h : v < 2048 <;> simp only [State.raise, h, if_true, if_false]
@[simp] theorem State.raise_events (s : State) (v : Nat) : (s.raise v).events = s.events := by by_cases h : v < 2048 <;> simp only [State.raise, h, if_true, if_false]
@[simp] theorem State.raise_tensors (s : State) (v : Nat) : (s.raise v).tensors = s.tensors := by by_cases h : v < 2048 <;> simp only [State.raise, h, if_true, if_false]
@[simp] theorem State.raise_dev (s : State) (v : Nat) : (s.raise v).dev = s.dev := by by_cases h : v < 2048 <;> simp only [State.raise, h, if_true, if_false]
@[simp] theorem State.raise_env (s : State) (v : Nat) : (s.raise v).env = s.env := by by_cases h : v < 2048 <;> simp only [State.raise, h, if_true, if_false]
@[simp] theorem State.raise_fq (s : State) (v : Nat) : (s.raise v).fq = s.fq := by by_cases h : v < 2048 <;> simp only [State.raise, h, if_true, if_false]
@[simp] theorem State.raise_el (s : State) (v : Nat) : (s.raise v).el = s.el := by by_cases h : v < 2048 <;> simp only [State.raise, h, if_true, if_false]
@[simp] theorem State.raise_pr (s : State) (v : Nat) : (s.raise v).pr = s.pr := by by_cases h : v < 2048 <;> simp only [State.raise, h, if_true, if_false]
@[simp] theorem State.raise_bps (s : State) (v : Nat) : (s.raise v).bps = s.bps := by by_cases h : v < 2048 <;> simp only [State.raise, h, if_true, if_false]
@[simp] theorem State.raise_trigs (s : State) (v : Nat) : (s.raise v).trigs = s.trigs := by by_cases h : v < 2048 <;> simp only [State.raise, h, if_true, if_false]
@[simp] theorem State.raise_deferred (s : State) (v : Nat) : (s.raise v).deferred = s.deferred := by by_cases h : v < 2048 <;> simp only [State.raise, h, if_true, if_false]
@[simp] theorem State.raise_hostWdev (s : State) (v : Nat) : (s.raise v).hostWdev = s.hostWdev := by by_cases h : v < 2048 <;> simp only [State.raise, h, if_true, if_false]
@[simp] theorem State.raise_hostRead (s : State) (v : Nat) : (s.raise v).hostRead = s.hostRead := by by_cases h : v < 2048 <;> simp only [State.raise, h, if_true, if_false]
@[simp] theorem State.raise_agenda (s : State) (v : Nat) : (s.raise v).agenda = s.agenda := by by_cases h : v < 2048 <;> simp only [State.raise, h, if_true, if_false]
@[simp] theorem State.raise_outside (s : State) (v : Nat) : (s.raise v).outside = s.outside := by by_cases h : v < 2048 <;> simp only [State.raise, h, if_true, if_false]
@[simp] theorem State.raise_linkOut (s : State) (v : Nat) : (s.raise v).linkOut = s.linkOut := by by_cases h : v < 2048 <;> simp only [State.raise, h, if_true, if_false]
@[simp] theorem State.raise_picks (s : State) (v : Nat) : (s.raise v).picks = s.picks := by by_cases h : v < 2048 <;> simp only [State.raise, h, if_true, if_false]
@[simp] theorem State.raise_cur (s : State) (v : Nat) : (s.raise v).cur = s.cur := by by_cases h : v < 2048 <;> simp only [State.raise, h, if_true, if_false]
@[simp] theorem State.raise_fresh (s : State) (v : Nat) : (s.raise v).fresh = s.fresh := by by_cases h : v < 2048 <;> simp only [State.raise, h, if_true, if_false]
@[simp] theorem State.raise_turn (s : State) (v : Nat) : (s.raise v).turn = s.turn := by by_cases h : v < 2048 <;> simp only [State.raise, h, if_true, if_false]
@[simp] theorem State.raise_drops (s : State) (v : Nat) : (s.raise v).drops = s.drops := by by_cases h : v < 2048 <;> simp only [State.raise, h, if_true, if_false]
@[simp] theorem State.raise_report (s : State) (v : Nat) : (s.raise v).report = s.report := by by_cases h : v < 2048 <;> simp only [State.raise, h, if_true, if_false]

/-! ### Warp.setV -/

@[simp] theorem Warp.setV_sched (w : Warp) (n : Nat) (m : LaneMask) (f : Lane → Word) : (w.setV n m f).sched = w.sched := rfl
@[simp] theorem Warp.setV_slot (w : Warp) (n : Nat) (m : LaneMask) (f : Lane → Word) : (w.setV n m f).slot = w.slot := rfl
@[simp] theorem Warp.setV_age (w : Warp) (n : Nat) (m : LaneMask) (f : Lane → Word) : (w.setV n m f).age = w.age := rfl
@[simp] theorem Warp.setV_split (w : Warp) (n : Nat) (m : LaneMask) (f : Lane → Word) : (w.setV n m f).split = w.split := rfl
@[simp] theorem Warp.setV_join (w : Warp) (n : Nat) (m : LaneMask) (f : Lane → Word) : (w.setV n m f).join = w.join := rfl
@[simp] theorem Warp.setV_s (w : Warp) (n : Nat) (m : LaneMask) (f : Lane → Word) : (w.setV n m f).s = w.s := rfl
@[simp] theorem Warp.setV_h (w : Warp) (n : Nat) (m : LaneMask) (f : Lane → Word) : (w.setV n m f).h = w.h := rfl
@[simp] theorem Warp.setV_cc0 (w : Warp) (n : Nat) (m : LaneMask) (f : Lane → Word) : (w.setV n m f).cc0 = w.cc0 := rfl
@[simp] theorem Warp.setV_cc1 (w : Warp) (n : Nat) (m : LaneMask) (f : Lane → Word) : (w.setV n m f).cc1 = w.cc1 := rfl
@[simp] theorem Warp.setV_vFull (w : Warp) (n : Nat) (m : LaneMask) (f : Lane → Word) : (w.setV n m f).vFull = w.vFull := rfl
@[simp] theorem Warp.setV_sFull (w : Warp) (n : Nat) (m : LaneMask) (f : Lane → Word) : (w.setV n m f).sFull = w.sFull := rfl
@[simp] theorem Warp.setV_hFull (w : Warp) (n : Nat) (m : LaneMask) (f : Lane → Word) : (w.setV n m f).hFull = w.hFull := rfl
@[simp] theorem Warp.setV_tick (w : Warp) (n : Nat) (m : LaneMask) (f : Lane → Word) : (w.setV n m f).tick = w.tick := rfl
@[simp] theorem Warp.setV_part (w : Warp) (n : Nat) (m : LaneMask) (f : Lane → Word) : (w.setV n m f).part = w.part := rfl
@[simp] theorem Warp.setV_amax (w : Warp) (n : Nat) (m : LaneMask) (f : Lane → Word) : (w.setV n m f).amax = w.amax := rfl
@[simp] theorem Warp.setV_nanSeen (w : Warp) (n : Nat) (m : LaneMask) (f : Lane → Word) : (w.setV n m f).nanSeen = w.nanSeen := rfl
@[simp] theorem Warp.setV_lfsr (w : Warp) (n : Nat) (m : LaneMask) (f : Lane → Word) : (w.setV n m f).lfsr = w.lfsr := rfl
@[simp] theorem Warp.setV_repc (w : Warp) (n : Nat) (m : LaneMask) (f : Lane → Word) : (w.setV n m f).repc = w.repc := rfl
@[simp] theorem Warp.setV_x (w : Warp) (n : Nat) (m : LaneMask) (f : Lane → Word) : (w.setV n m f).x = w.x := rfl
@[simp] theorem Warp.setV_exited (w : Warp) (n : Nat) (m : LaneMask) (f : Lane → Word) : (w.setV n m f).exited = w.exited := rfl
@[simp] theorem Warp.setV_resv (w : Warp) (n : Nat) (m : LaneMask) (f : Lane → Word) : (w.setV n m f).resv = w.resv := rfl
@[simp] theorem Warp.setV_hdie (w : Warp) (n : Nat) (m : LaneMask) (f : Lane → Word) : (w.setV n m f).hdie = w.hdie := rfl
@[simp] theorem Warp.setV_hdev (w : Warp) (n : Nat) (m : LaneMask) (f : Lane → Word) : (w.setV n m f).hdev = w.hdev := rfl
@[simp] theorem Warp.setV_hpod (w : Warp) (n : Nat) (m : LaneMask) (f : Lane → Word) : (w.setV n m f).hpod = w.hpod := rfl
@[simp] theorem Warp.setV_handler (w : Warp) (n : Nat) (m : LaneMask) (f : Lane → Word) : (w.setV n m f).handler = w.handler := rfl
@[simp] theorem Warp.setV_rep (w : Warp) (n : Nat) (m : LaneMask) (f : Lane → Word) : (w.setV n m f).rep = w.rep := rfl
@[simp] theorem Warp.setV_nopre (w : Warp) (n : Nat) (m : LaneMask) (f : Lane → Word) : (w.setV n m f).nopre = w.nopre := rfl
@[simp] theorem Warp.setV_ordinal (w : Warp) (n : Nat) (m : LaneMask) (f : Lane → Word) : (w.setV n m f).ordinal = w.ordinal := rfl
@[simp] theorem Warp.setV_reason (w : Warp) (n : Nat) (m : LaneMask) (f : Lane → Word) : (w.setV n m f).reason = w.reason := rfl
@[simp] theorem Warp.setV_stalls (w : Warp) (n : Nat) (m : LaneMask) (f : Lane → Word) : (w.setV n m f).stalls = w.stalls := rfl
@[simp] theorem Warp.setV_specs (w : Warp) (n : Nat) (m : LaneMask) (f : Lane → Word) : (w.setV n m f).specs = w.specs := rfl
@[simp] theorem Warp.setV_pipe (w : Warp) (n : Nat) (m : LaneMask) (f : Lane → Word) : (w.setV n m f).pipe = w.pipe := rfl
@[simp] theorem Warp.setV_started (w : Warp) (n : Nat) (m : LaneMask) (f : Lane → Word) : (w.setV n m f).started = w.started := rfl
@[simp] theorem Warp.setV_windowHeld (w : Warp) (n : Nat) (m : LaneMask) (f : Lane → Word) : (w.setV n m f).windowHeld = w.windowHeld := rfl

/-! ### Warp.setVP -/

@[simp] theorem Warp.setVP_sched (w : Warp) (n : Nat) (m : LaneMask) (f : Lane → DWord) : (w.setVP n m f).sched = w.sched := rfl
@[simp] theorem Warp.setVP_slot (w : Warp) (n : Nat) (m : LaneMask) (f : Lane → DWord) : (w.setVP n m f).slot = w.slot := rfl
@[simp] theorem Warp.setVP_age (w : Warp) (n : Nat) (m : LaneMask) (f : Lane → DWord) : (w.setVP n m f).age = w.age := rfl
@[simp] theorem Warp.setVP_split (w : Warp) (n : Nat) (m : LaneMask) (f : Lane → DWord) : (w.setVP n m f).split = w.split := rfl
@[simp] theorem Warp.setVP_join (w : Warp) (n : Nat) (m : LaneMask) (f : Lane → DWord) : (w.setVP n m f).join = w.join := rfl
@[simp] theorem Warp.setVP_s (w : Warp) (n : Nat) (m : LaneMask) (f : Lane → DWord) : (w.setVP n m f).s = w.s := rfl
@[simp] theorem Warp.setVP_h (w : Warp) (n : Nat) (m : LaneMask) (f : Lane → DWord) : (w.setVP n m f).h = w.h := rfl
@[simp] theorem Warp.setVP_cc0 (w : Warp) (n : Nat) (m : LaneMask) (f : Lane → DWord) : (w.setVP n m f).cc0 = w.cc0 := rfl
@[simp] theorem Warp.setVP_cc1 (w : Warp) (n : Nat) (m : LaneMask) (f : Lane → DWord) : (w.setVP n m f).cc1 = w.cc1 := rfl
@[simp] theorem Warp.setVP_vFull (w : Warp) (n : Nat) (m : LaneMask) (f : Lane → DWord) : (w.setVP n m f).vFull = w.vFull := rfl
@[simp] theorem Warp.setVP_sFull (w : Warp) (n : Nat) (m : LaneMask) (f : Lane → DWord) : (w.setVP n m f).sFull = w.sFull := rfl
@[simp] theorem Warp.setVP_hFull (w : Warp) (n : Nat) (m : LaneMask) (f : Lane → DWord) : (w.setVP n m f).hFull = w.hFull := rfl
@[simp] theorem Warp.setVP_tick (w : Warp) (n : Nat) (m : LaneMask) (f : Lane → DWord) : (w.setVP n m f).tick = w.tick := rfl
@[simp] theorem Warp.setVP_part (w : Warp) (n : Nat) (m : LaneMask) (f : Lane → DWord) : (w.setVP n m f).part = w.part := rfl
@[simp] theorem Warp.setVP_amax (w : Warp) (n : Nat) (m : LaneMask) (f : Lane → DWord) : (w.setVP n m f).amax = w.amax := rfl
@[simp] theorem Warp.setVP_nanSeen (w : Warp) (n : Nat) (m : LaneMask) (f : Lane → DWord) : (w.setVP n m f).nanSeen = w.nanSeen := rfl
@[simp] theorem Warp.setVP_lfsr (w : Warp) (n : Nat) (m : LaneMask) (f : Lane → DWord) : (w.setVP n m f).lfsr = w.lfsr := rfl
@[simp] theorem Warp.setVP_repc (w : Warp) (n : Nat) (m : LaneMask) (f : Lane → DWord) : (w.setVP n m f).repc = w.repc := rfl
@[simp] theorem Warp.setVP_x (w : Warp) (n : Nat) (m : LaneMask) (f : Lane → DWord) : (w.setVP n m f).x = w.x := rfl
@[simp] theorem Warp.setVP_exited (w : Warp) (n : Nat) (m : LaneMask) (f : Lane → DWord) : (w.setVP n m f).exited = w.exited := rfl
@[simp] theorem Warp.setVP_resv (w : Warp) (n : Nat) (m : LaneMask) (f : Lane → DWord) : (w.setVP n m f).resv = w.resv := rfl
@[simp] theorem Warp.setVP_hdie (w : Warp) (n : Nat) (m : LaneMask) (f : Lane → DWord) : (w.setVP n m f).hdie = w.hdie := rfl
@[simp] theorem Warp.setVP_hdev (w : Warp) (n : Nat) (m : LaneMask) (f : Lane → DWord) : (w.setVP n m f).hdev = w.hdev := rfl
@[simp] theorem Warp.setVP_hpod (w : Warp) (n : Nat) (m : LaneMask) (f : Lane → DWord) : (w.setVP n m f).hpod = w.hpod := rfl
@[simp] theorem Warp.setVP_handler (w : Warp) (n : Nat) (m : LaneMask) (f : Lane → DWord) : (w.setVP n m f).handler = w.handler := rfl
@[simp] theorem Warp.setVP_rep (w : Warp) (n : Nat) (m : LaneMask) (f : Lane → DWord) : (w.setVP n m f).rep = w.rep := rfl
@[simp] theorem Warp.setVP_nopre (w : Warp) (n : Nat) (m : LaneMask) (f : Lane → DWord) : (w.setVP n m f).nopre = w.nopre := rfl
@[simp] theorem Warp.setVP_ordinal (w : Warp) (n : Nat) (m : LaneMask) (f : Lane → DWord) : (w.setVP n m f).ordinal = w.ordinal := rfl
@[simp] theorem Warp.setVP_reason (w : Warp) (n : Nat) (m : LaneMask) (f : Lane → DWord) : (w.setVP n m f).reason = w.reason := rfl
@[simp] theorem Warp.setVP_stalls (w : Warp) (n : Nat) (m : LaneMask) (f : Lane → DWord) : (w.setVP n m f).stalls = w.stalls := rfl
@[simp] theorem Warp.setVP_specs (w : Warp) (n : Nat) (m : LaneMask) (f : Lane → DWord) : (w.setVP n m f).specs = w.specs := rfl
@[simp] theorem Warp.setVP_pipe (w : Warp) (n : Nat) (m : LaneMask) (f : Lane → DWord) : (w.setVP n m f).pipe = w.pipe := rfl
@[simp] theorem Warp.setVP_started (w : Warp) (n : Nat) (m : LaneMask) (f : Lane → DWord) : (w.setVP n m f).started = w.started := rfl
@[simp] theorem Warp.setVP_windowHeld (w : Warp) (n : Nat) (m : LaneMask) (f : Lane → DWord) : (w.setVP n m f).windowHeld = w.windowHeld := rfl

/-! ### Warp.setS -/

@[simp] theorem Warp.setS_sched (w : Warp) (n : Nat) (x : Word) : (w.setS n x).sched = w.sched := by unfold Warp.setS; split <;> rfl
@[simp] theorem Warp.setS_slot (w : Warp) (n : Nat) (x : Word) : (w.setS n x).slot = w.slot := by unfold Warp.setS; split <;> rfl
@[simp] theorem Warp.setS_age (w : Warp) (n : Nat) (x : Word) : (w.setS n x).age = w.age := by unfold Warp.setS; split <;> rfl
@[simp] theorem Warp.setS_split (w : Warp) (n : Nat) (x : Word) : (w.setS n x).split = w.split := by unfold Warp.setS; split <;> rfl
@[simp] theorem Warp.setS_join (w : Warp) (n : Nat) (x : Word) : (w.setS n x).join = w.join := by unfold Warp.setS; split <;> rfl
@[simp] theorem Warp.setS_v (w : Warp) (n : Nat) (x : Word) : (w.setS n x).v = w.v := by unfold Warp.setS; split <;> rfl
@[simp] theorem Warp.setS_h (w : Warp) (n : Nat) (x : Word) : (w.setS n x).h = w.h := by unfold Warp.setS; split <;> rfl
@[simp] theorem Warp.setS_cc0 (w : Warp) (n : Nat) (x : Word) : (w.setS n x).cc0 = w.cc0 := by unfold Warp.setS; split <;> rfl
@[simp] theorem Warp.setS_cc1 (w : Warp) (n : Nat) (x : Word) : (w.setS n x).cc1 = w.cc1 := by unfold Warp.setS; split <;> rfl
@[simp] theorem Warp.setS_vFull (w : Warp) (n : Nat) (x : Word) : (w.setS n x).vFull = w.vFull := by unfold Warp.setS; split <;> rfl
@[simp] theorem Warp.setS_sFull (w : Warp) (n : Nat) (x : Word) : (w.setS n x).sFull = w.sFull := by unfold Warp.setS; split <;> rfl
@[simp] theorem Warp.setS_hFull (w : Warp) (n : Nat) (x : Word) : (w.setS n x).hFull = w.hFull := by unfold Warp.setS; split <;> rfl
@[simp] theorem Warp.setS_tick (w : Warp) (n : Nat) (x : Word) : (w.setS n x).tick = w.tick := by unfold Warp.setS; split <;> rfl
@[simp] theorem Warp.setS_part (w : Warp) (n : Nat) (x : Word) : (w.setS n x).part = w.part := by unfold Warp.setS; split <;> rfl
@[simp] theorem Warp.setS_amax (w : Warp) (n : Nat) (x : Word) : (w.setS n x).amax = w.amax := by unfold Warp.setS; split <;> rfl
@[simp] theorem Warp.setS_nanSeen (w : Warp) (n : Nat) (x : Word) : (w.setS n x).nanSeen = w.nanSeen := by unfold Warp.setS; split <;> rfl
@[simp] theorem Warp.setS_lfsr (w : Warp) (n : Nat) (x : Word) : (w.setS n x).lfsr = w.lfsr := by unfold Warp.setS; split <;> rfl
@[simp] theorem Warp.setS_repc (w : Warp) (n : Nat) (x : Word) : (w.setS n x).repc = w.repc := by unfold Warp.setS; split <;> rfl
@[simp] theorem Warp.setS_x (w : Warp) (n : Nat) (x : Word) : (w.setS n x).x = w.x := by unfold Warp.setS; split <;> rfl
@[simp] theorem Warp.setS_exited (w : Warp) (n : Nat) (x : Word) : (w.setS n x).exited = w.exited := by unfold Warp.setS; split <;> rfl
@[simp] theorem Warp.setS_resv (w : Warp) (n : Nat) (x : Word) : (w.setS n x).resv = w.resv := by unfold Warp.setS; split <;> rfl
@[simp] theorem Warp.setS_hdie (w : Warp) (n : Nat) (x : Word) : (w.setS n x).hdie = w.hdie := by unfold Warp.setS; split <;> rfl
@[simp] theorem Warp.setS_hdev (w : Warp) (n : Nat) (x : Word) : (w.setS n x).hdev = w.hdev := by unfold Warp.setS; split <;> rfl
@[simp] theorem Warp.setS_hpod (w : Warp) (n : Nat) (x : Word) : (w.setS n x).hpod = w.hpod := by unfold Warp.setS; split <;> rfl
@[simp] theorem Warp.setS_handler (w : Warp) (n : Nat) (x : Word) : (w.setS n x).handler = w.handler := by unfold Warp.setS; split <;> rfl
@[simp] theorem Warp.setS_rep (w : Warp) (n : Nat) (x : Word) : (w.setS n x).rep = w.rep := by unfold Warp.setS; split <;> rfl
@[simp] theorem Warp.setS_nopre (w : Warp) (n : Nat) (x : Word) : (w.setS n x).nopre = w.nopre := by unfold Warp.setS; split <;> rfl
@[simp] theorem Warp.setS_ordinal (w : Warp) (n : Nat) (x : Word) : (w.setS n x).ordinal = w.ordinal := by unfold Warp.setS; split <;> rfl
@[simp] theorem Warp.setS_reason (w : Warp) (n : Nat) (x : Word) : (w.setS n x).reason = w.reason := by unfold Warp.setS; split <;> rfl
@[simp] theorem Warp.setS_stalls (w : Warp) (n : Nat) (x : Word) : (w.setS n x).stalls = w.stalls := by unfold Warp.setS; split <;> rfl
@[simp] theorem Warp.setS_specs (w : Warp) (n : Nat) (x : Word) : (w.setS n x).specs = w.specs := by unfold Warp.setS; split <;> rfl
@[simp] theorem Warp.setS_pipe (w : Warp) (n : Nat) (x : Word) : (w.setS n x).pipe = w.pipe := by unfold Warp.setS; split <;> rfl
@[simp] theorem Warp.setS_started (w : Warp) (n : Nat) (x : Word) : (w.setS n x).started = w.started := by unfold Warp.setS; split <;> rfl
@[simp] theorem Warp.setS_windowHeld (w : Warp) (n : Nat) (x : Word) : (w.setS n x).windowHeld = w.windowHeld := by unfold Warp.setS; split <;> rfl

/-! ### Warp.setH -/

@[simp] theorem Warp.setH_sched (w : Warp) (n : Nat) (x : DWord) : (w.setH n x).sched = w.sched := rfl
@[simp] theorem Warp.setH_slot (w : Warp) (n : Nat) (x : DWord) : (w.setH n x).slot = w.slot := rfl
@[simp] theorem Warp.setH_age (w : Warp) (n : Nat) (x : DWord) : (w.setH n x).age = w.age := rfl
@[simp] theorem Warp.setH_split (w : Warp) (n : Nat) (x : DWord) : (w.setH n x).split = w.split := rfl
@[simp] theorem Warp.setH_join (w : Warp) (n : Nat) (x : DWord) : (w.setH n x).join = w.join := rfl
@[simp] theorem Warp.setH_v (w : Warp) (n : Nat) (x : DWord) : (w.setH n x).v = w.v := rfl
@[simp] theorem Warp.setH_s (w : Warp) (n : Nat) (x : DWord) : (w.setH n x).s = w.s := rfl
@[simp] theorem Warp.setH_cc0 (w : Warp) (n : Nat) (x : DWord) : (w.setH n x).cc0 = w.cc0 := rfl
@[simp] theorem Warp.setH_cc1 (w : Warp) (n : Nat) (x : DWord) : (w.setH n x).cc1 = w.cc1 := rfl
@[simp] theorem Warp.setH_vFull (w : Warp) (n : Nat) (x : DWord) : (w.setH n x).vFull = w.vFull := rfl
@[simp] theorem Warp.setH_sFull (w : Warp) (n : Nat) (x : DWord) : (w.setH n x).sFull = w.sFull := rfl
@[simp] theorem Warp.setH_hFull (w : Warp) (n : Nat) (x : DWord) : (w.setH n x).hFull = w.hFull := rfl
@[simp] theorem Warp.setH_tick (w : Warp) (n : Nat) (x : DWord) : (w.setH n x).tick = w.tick := rfl
@[simp] theorem Warp.setH_part (w : Warp) (n : Nat) (x : DWord) : (w.setH n x).part = w.part := rfl
@[simp] theorem Warp.setH_amax (w : Warp) (n : Nat) (x : DWord) : (w.setH n x).amax = w.amax := rfl
@[simp] theorem Warp.setH_nanSeen (w : Warp) (n : Nat) (x : DWord) : (w.setH n x).nanSeen = w.nanSeen := rfl
@[simp] theorem Warp.setH_lfsr (w : Warp) (n : Nat) (x : DWord) : (w.setH n x).lfsr = w.lfsr := rfl
@[simp] theorem Warp.setH_repc (w : Warp) (n : Nat) (x : DWord) : (w.setH n x).repc = w.repc := rfl
@[simp] theorem Warp.setH_x (w : Warp) (n : Nat) (x : DWord) : (w.setH n x).x = w.x := rfl
@[simp] theorem Warp.setH_exited (w : Warp) (n : Nat) (x : DWord) : (w.setH n x).exited = w.exited := rfl
@[simp] theorem Warp.setH_resv (w : Warp) (n : Nat) (x : DWord) : (w.setH n x).resv = w.resv := rfl
@[simp] theorem Warp.setH_hdie (w : Warp) (n : Nat) (x : DWord) : (w.setH n x).hdie = w.hdie := rfl
@[simp] theorem Warp.setH_hdev (w : Warp) (n : Nat) (x : DWord) : (w.setH n x).hdev = w.hdev := rfl
@[simp] theorem Warp.setH_hpod (w : Warp) (n : Nat) (x : DWord) : (w.setH n x).hpod = w.hpod := rfl
@[simp] theorem Warp.setH_handler (w : Warp) (n : Nat) (x : DWord) : (w.setH n x).handler = w.handler := rfl
@[simp] theorem Warp.setH_rep (w : Warp) (n : Nat) (x : DWord) : (w.setH n x).rep = w.rep := rfl
@[simp] theorem Warp.setH_nopre (w : Warp) (n : Nat) (x : DWord) : (w.setH n x).nopre = w.nopre := rfl
@[simp] theorem Warp.setH_ordinal (w : Warp) (n : Nat) (x : DWord) : (w.setH n x).ordinal = w.ordinal := rfl
@[simp] theorem Warp.setH_reason (w : Warp) (n : Nat) (x : DWord) : (w.setH n x).reason = w.reason := rfl
@[simp] theorem Warp.setH_stalls (w : Warp) (n : Nat) (x : DWord) : (w.setH n x).stalls = w.stalls := rfl
@[simp] theorem Warp.setH_specs (w : Warp) (n : Nat) (x : DWord) : (w.setH n x).specs = w.specs := rfl
@[simp] theorem Warp.setH_pipe (w : Warp) (n : Nat) (x : DWord) : (w.setH n x).pipe = w.pipe := rfl
@[simp] theorem Warp.setH_started (w : Warp) (n : Nat) (x : DWord) : (w.setH n x).started = w.started := rfl
@[simp] theorem Warp.setH_windowHeld (w : Warp) (n : Nat) (x : DWord) : (w.setH n x).windowHeld = w.windowHeld := rfl

/-! ### Warp.setCC -/

@[simp] theorem Warp.setCC_sched (w : Warp) (k : Bool) (m : LaneMask) (f : Lane → CC) : (w.setCC k m f).sched = w.sched := by unfold Warp.setCC; split <;> rfl
@[simp] theorem Warp.setCC_slot (w : Warp) (k : Bool) (m : LaneMask) (f : Lane → CC) : (w.setCC k m f).slot = w.slot := by unfold Warp.setCC; split <;> rfl
@[simp] theorem Warp.setCC_age (w : Warp) (k : Bool) (m : LaneMask) (f : Lane → CC) : (w.setCC k m f).age = w.age := by unfold Warp.setCC; split <;> rfl
@[simp] theorem Warp.setCC_split (w : Warp) (k : Bool) (m : LaneMask) (f : Lane → CC) : (w.setCC k m f).split = w.split := by unfold Warp.setCC; split <;> rfl
@[simp] theorem Warp.setCC_join (w : Warp) (k : Bool) (m : LaneMask) (f : Lane → CC) : (w.setCC k m f).join = w.join := by unfold Warp.setCC; split <;> rfl
@[simp] theorem Warp.setCC_v (w : Warp) (k : Bool) (m : LaneMask) (f : Lane → CC) : (w.setCC k m f).v = w.v := by unfold Warp.setCC; split <;> rfl
@[simp] theorem Warp.setCC_s (w : Warp) (k : Bool) (m : LaneMask) (f : Lane → CC) : (w.setCC k m f).s = w.s := by unfold Warp.setCC; split <;> rfl
@[simp] theorem Warp.setCC_h (w : Warp) (k : Bool) (m : LaneMask) (f : Lane → CC) : (w.setCC k m f).h = w.h := by unfold Warp.setCC; split <;> rfl
@[simp] theorem Warp.setCC_vFull (w : Warp) (k : Bool) (m : LaneMask) (f : Lane → CC) : (w.setCC k m f).vFull = w.vFull := by unfold Warp.setCC; split <;> rfl
@[simp] theorem Warp.setCC_sFull (w : Warp) (k : Bool) (m : LaneMask) (f : Lane → CC) : (w.setCC k m f).sFull = w.sFull := by unfold Warp.setCC; split <;> rfl
@[simp] theorem Warp.setCC_hFull (w : Warp) (k : Bool) (m : LaneMask) (f : Lane → CC) : (w.setCC k m f).hFull = w.hFull := by unfold Warp.setCC; split <;> rfl
@[simp] theorem Warp.setCC_tick (w : Warp) (k : Bool) (m : LaneMask) (f : Lane → CC) : (w.setCC k m f).tick = w.tick := by unfold Warp.setCC; split <;> rfl
@[simp] theorem Warp.setCC_part (w : Warp) (k : Bool) (m : LaneMask) (f : Lane → CC) : (w.setCC k m f).part = w.part := by unfold Warp.setCC; split <;> rfl
@[simp] theorem Warp.setCC_amax (w : Warp) (k : Bool) (m : LaneMask) (f : Lane → CC) : (w.setCC k m f).amax = w.amax := by unfold Warp.setCC; split <;> rfl
@[simp] theorem Warp.setCC_nanSeen (w : Warp) (k : Bool) (m : LaneMask) (f : Lane → CC) : (w.setCC k m f).nanSeen = w.nanSeen := by unfold Warp.setCC; split <;> rfl
@[simp] theorem Warp.setCC_lfsr (w : Warp) (k : Bool) (m : LaneMask) (f : Lane → CC) : (w.setCC k m f).lfsr = w.lfsr := by unfold Warp.setCC; split <;> rfl
@[simp] theorem Warp.setCC_repc (w : Warp) (k : Bool) (m : LaneMask) (f : Lane → CC) : (w.setCC k m f).repc = w.repc := by unfold Warp.setCC; split <;> rfl
@[simp] theorem Warp.setCC_x (w : Warp) (k : Bool) (m : LaneMask) (f : Lane → CC) : (w.setCC k m f).x = w.x := by unfold Warp.setCC; split <;> rfl
@[simp] theorem Warp.setCC_exited (w : Warp) (k : Bool) (m : LaneMask) (f : Lane → CC) : (w.setCC k m f).exited = w.exited := by unfold Warp.setCC; split <;> rfl
@[simp] theorem Warp.setCC_resv (w : Warp) (k : Bool) (m : LaneMask) (f : Lane → CC) : (w.setCC k m f).resv = w.resv := by unfold Warp.setCC; split <;> rfl
@[simp] theorem Warp.setCC_hdie (w : Warp) (k : Bool) (m : LaneMask) (f : Lane → CC) : (w.setCC k m f).hdie = w.hdie := by unfold Warp.setCC; split <;> rfl
@[simp] theorem Warp.setCC_hdev (w : Warp) (k : Bool) (m : LaneMask) (f : Lane → CC) : (w.setCC k m f).hdev = w.hdev := by unfold Warp.setCC; split <;> rfl
@[simp] theorem Warp.setCC_hpod (w : Warp) (k : Bool) (m : LaneMask) (f : Lane → CC) : (w.setCC k m f).hpod = w.hpod := by unfold Warp.setCC; split <;> rfl
@[simp] theorem Warp.setCC_handler (w : Warp) (k : Bool) (m : LaneMask) (f : Lane → CC) : (w.setCC k m f).handler = w.handler := by unfold Warp.setCC; split <;> rfl
@[simp] theorem Warp.setCC_rep (w : Warp) (k : Bool) (m : LaneMask) (f : Lane → CC) : (w.setCC k m f).rep = w.rep := by unfold Warp.setCC; split <;> rfl
@[simp] theorem Warp.setCC_nopre (w : Warp) (k : Bool) (m : LaneMask) (f : Lane → CC) : (w.setCC k m f).nopre = w.nopre := by unfold Warp.setCC; split <;> rfl
@[simp] theorem Warp.setCC_ordinal (w : Warp) (k : Bool) (m : LaneMask) (f : Lane → CC) : (w.setCC k m f).ordinal = w.ordinal := by unfold Warp.setCC; split <;> rfl
@[simp] theorem Warp.setCC_reason (w : Warp) (k : Bool) (m : LaneMask) (f : Lane → CC) : (w.setCC k m f).reason = w.reason := by unfold Warp.setCC; split <;> rfl
@[simp] theorem Warp.setCC_stalls (w : Warp) (k : Bool) (m : LaneMask) (f : Lane → CC) : (w.setCC k m f).stalls = w.stalls := by unfold Warp.setCC; split <;> rfl
@[simp] theorem Warp.setCC_specs (w : Warp) (k : Bool) (m : LaneMask) (f : Lane → CC) : (w.setCC k m f).specs = w.specs := by unfold Warp.setCC; split <;> rfl
@[simp] theorem Warp.setCC_pipe (w : Warp) (k : Bool) (m : LaneMask) (f : Lane → CC) : (w.setCC k m f).pipe = w.pipe := by unfold Warp.setCC; split <;> rfl
@[simp] theorem Warp.setCC_started (w : Warp) (k : Bool) (m : LaneMask) (f : Lane → CC) : (w.setCC k m f).started = w.started := by unfold Warp.setCC; split <;> rfl
@[simp] theorem Warp.setCC_windowHeld (w : Warp) (k : Bool) (m : LaneMask) (f : Lane → CC) : (w.setCC k m f).windowHeld = w.windowHeld := by unfold Warp.setCC; split <;> rfl

/-! ### Warp.modFrag -/

@[simp] theorem Warp.modFrag_sched (w : Warp) (f : Frag → Frag) (r : FragSel) : (w.modFrag f r).sched = w.sched := by cases r <;> rfl
@[simp] theorem Warp.modFrag_slot (w : Warp) (f : Frag → Frag) (r : FragSel) : (w.modFrag f r).slot = w.slot := by cases r <;> rfl
@[simp] theorem Warp.modFrag_age (w : Warp) (f : Frag → Frag) (r : FragSel) : (w.modFrag f r).age = w.age := by cases r <;> rfl
@[simp] theorem Warp.modFrag_join (w : Warp) (f : Frag → Frag) (r : FragSel) : (w.modFrag f r).join = w.join := by cases r <;> rfl
@[simp] theorem Warp.modFrag_v (w : Warp) (f : Frag → Frag) (r : FragSel) : (w.modFrag f r).v = w.v := by cases r <;> rfl
@[simp] theorem Warp.modFrag_s (w : Warp) (f : Frag → Frag) (r : FragSel) : (w.modFrag f r).s = w.s := by cases r <;> rfl
@[simp] theorem Warp.modFrag_h (w : Warp) (f : Frag → Frag) (r : FragSel) : (w.modFrag f r).h = w.h := by cases r <;> rfl
@[simp] theorem Warp.modFrag_cc0 (w : Warp) (f : Frag → Frag) (r : FragSel) : (w.modFrag f r).cc0 = w.cc0 := by cases r <;> rfl
@[simp] theorem Warp.modFrag_cc1 (w : Warp) (f : Frag → Frag) (r : FragSel) : (w.modFrag f r).cc1 = w.cc1 := by cases r <;> rfl
@[simp] theorem Warp.modFrag_vFull (w : Warp) (f : Frag → Frag) (r : FragSel) : (w.modFrag f r).vFull = w.vFull := by cases r <;> rfl
@[simp] theorem Warp.modFrag_sFull (w : Warp) (f : Frag → Frag) (r : FragSel) : (w.modFrag f r).sFull = w.sFull := by cases r <;> rfl
@[simp] theorem Warp.modFrag_hFull (w : Warp) (f : Frag → Frag) (r : FragSel) : (w.modFrag f r).hFull = w.hFull := by cases r <;> rfl
@[simp] theorem Warp.modFrag_tick (w : Warp) (f : Frag → Frag) (r : FragSel) : (w.modFrag f r).tick = w.tick := by cases r <;> rfl
@[simp] theorem Warp.modFrag_part (w : Warp) (f : Frag → Frag) (r : FragSel) : (w.modFrag f r).part = w.part := by cases r <;> rfl
@[simp] theorem Warp.modFrag_amax (w : Warp) (f : Frag → Frag) (r : FragSel) : (w.modFrag f r).amax = w.amax := by cases r <;> rfl
@[simp] theorem Warp.modFrag_nanSeen (w : Warp) (f : Frag → Frag) (r : FragSel) : (w.modFrag f r).nanSeen = w.nanSeen := by cases r <;> rfl
@[simp] theorem Warp.modFrag_lfsr (w : Warp) (f : Frag → Frag) (r : FragSel) : (w.modFrag f r).lfsr = w.lfsr := by cases r <;> rfl
@[simp] theorem Warp.modFrag_repc (w : Warp) (f : Frag → Frag) (r : FragSel) : (w.modFrag f r).repc = w.repc := by cases r <;> rfl
@[simp] theorem Warp.modFrag_x (w : Warp) (f : Frag → Frag) (r : FragSel) : (w.modFrag f r).x = w.x := by cases r <;> rfl
@[simp] theorem Warp.modFrag_exited (w : Warp) (f : Frag → Frag) (r : FragSel) : (w.modFrag f r).exited = w.exited := by cases r <;> rfl
@[simp] theorem Warp.modFrag_resv (w : Warp) (f : Frag → Frag) (r : FragSel) : (w.modFrag f r).resv = w.resv := by cases r <;> rfl
@[simp] theorem Warp.modFrag_hdie (w : Warp) (f : Frag → Frag) (r : FragSel) : (w.modFrag f r).hdie = w.hdie := by cases r <;> rfl
@[simp] theorem Warp.modFrag_hdev (w : Warp) (f : Frag → Frag) (r : FragSel) : (w.modFrag f r).hdev = w.hdev := by cases r <;> rfl
@[simp] theorem Warp.modFrag_hpod (w : Warp) (f : Frag → Frag) (r : FragSel) : (w.modFrag f r).hpod = w.hpod := by cases r <;> rfl
@[simp] theorem Warp.modFrag_handler (w : Warp) (f : Frag → Frag) (r : FragSel) : (w.modFrag f r).handler = w.handler := by cases r <;> rfl
@[simp] theorem Warp.modFrag_rep (w : Warp) (f : Frag → Frag) (r : FragSel) : (w.modFrag f r).rep = w.rep := by cases r <;> rfl
@[simp] theorem Warp.modFrag_nopre (w : Warp) (f : Frag → Frag) (r : FragSel) : (w.modFrag f r).nopre = w.nopre := by cases r <;> rfl
@[simp] theorem Warp.modFrag_ordinal (w : Warp) (f : Frag → Frag) (r : FragSel) : (w.modFrag f r).ordinal = w.ordinal := by cases r <;> rfl
@[simp] theorem Warp.modFrag_reason (w : Warp) (f : Frag → Frag) (r : FragSel) : (w.modFrag f r).reason = w.reason := by cases r <;> rfl
@[simp] theorem Warp.modFrag_stalls (w : Warp) (f : Frag → Frag) (r : FragSel) : (w.modFrag f r).stalls = w.stalls := by cases r <;> rfl
@[simp] theorem Warp.modFrag_pipe (w : Warp) (f : Frag → Frag) (r : FragSel) : (w.modFrag f r).pipe = w.pipe := by cases r <;> rfl
@[simp] theorem Warp.modFrag_started (w : Warp) (f : Frag → Frag) (r : FragSel) : (w.modFrag f r).started = w.started := by cases r <;> rfl
@[simp] theorem Warp.modFrag_windowHeld (w : Warp) (f : Frag → Frag) (r : FragSel) : (w.modFrag f r).windowHeld = w.windowHeld := by cases r <;> rfl

/-! ### Warp.amaxUpd -/

@[simp] theorem Warp.amaxUpd_sched (w : Warp) (u : Word × Bool) : (w.amaxUpd u).sched = w.sched := rfl
@[simp] theorem Warp.amaxUpd_slot (w : Warp) (u : Word × Bool) : (w.amaxUpd u).slot = w.slot := rfl
@[simp] theorem Warp.amaxUpd_age (w : Warp) (u : Word × Bool) : (w.amaxUpd u).age = w.age := rfl
@[simp] theorem Warp.amaxUpd_split (w : Warp) (u : Word × Bool) : (w.amaxUpd u).split = w.split := rfl
@[simp] theorem Warp.amaxUpd_join (w : Warp) (u : Word × Bool) : (w.amaxUpd u).join = w.join := rfl
@[simp] theorem Warp.amaxUpd_v (w : Warp) (u : Word × Bool) : (w.amaxUpd u).v = w.v := rfl
@[simp] theorem Warp.amaxUpd_s (w : Warp) (u : Word × Bool) : (w.amaxUpd u).s = w.s := rfl
@[simp] theorem Warp.amaxUpd_h (w : Warp) (u : Word × Bool) : (w.amaxUpd u).h = w.h := rfl
@[simp] theorem Warp.amaxUpd_cc0 (w : Warp) (u : Word × Bool) : (w.amaxUpd u).cc0 = w.cc0 := rfl
@[simp] theorem Warp.amaxUpd_cc1 (w : Warp) (u : Word × Bool) : (w.amaxUpd u).cc1 = w.cc1 := rfl
@[simp] theorem Warp.amaxUpd_vFull (w : Warp) (u : Word × Bool) : (w.amaxUpd u).vFull = w.vFull := rfl
@[simp] theorem Warp.amaxUpd_sFull (w : Warp) (u : Word × Bool) : (w.amaxUpd u).sFull = w.sFull := rfl
@[simp] theorem Warp.amaxUpd_hFull (w : Warp) (u : Word × Bool) : (w.amaxUpd u).hFull = w.hFull := rfl
@[simp] theorem Warp.amaxUpd_tick (w : Warp) (u : Word × Bool) : (w.amaxUpd u).tick = w.tick := rfl
@[simp] theorem Warp.amaxUpd_part (w : Warp) (u : Word × Bool) : (w.amaxUpd u).part = w.part := rfl
@[simp] theorem Warp.amaxUpd_lfsr (w : Warp) (u : Word × Bool) : (w.amaxUpd u).lfsr = w.lfsr := rfl
@[simp] theorem Warp.amaxUpd_repc (w : Warp) (u : Word × Bool) : (w.amaxUpd u).repc = w.repc := rfl
@[simp] theorem Warp.amaxUpd_x (w : Warp) (u : Word × Bool) : (w.amaxUpd u).x = w.x := rfl
@[simp] theorem Warp.amaxUpd_exited (w : Warp) (u : Word × Bool) : (w.amaxUpd u).exited = w.exited := rfl
@[simp] theorem Warp.amaxUpd_resv (w : Warp) (u : Word × Bool) : (w.amaxUpd u).resv = w.resv := rfl
@[simp] theorem Warp.amaxUpd_hdie (w : Warp) (u : Word × Bool) : (w.amaxUpd u).hdie = w.hdie := rfl
@[simp] theorem Warp.amaxUpd_hdev (w : Warp) (u : Word × Bool) : (w.amaxUpd u).hdev = w.hdev := rfl
@[simp] theorem Warp.amaxUpd_hpod (w : Warp) (u : Word × Bool) : (w.amaxUpd u).hpod = w.hpod := rfl
@[simp] theorem Warp.amaxUpd_handler (w : Warp) (u : Word × Bool) : (w.amaxUpd u).handler = w.handler := rfl
@[simp] theorem Warp.amaxUpd_rep (w : Warp) (u : Word × Bool) : (w.amaxUpd u).rep = w.rep := rfl
@[simp] theorem Warp.amaxUpd_nopre (w : Warp) (u : Word × Bool) : (w.amaxUpd u).nopre = w.nopre := rfl
@[simp] theorem Warp.amaxUpd_ordinal (w : Warp) (u : Word × Bool) : (w.amaxUpd u).ordinal = w.ordinal := rfl
@[simp] theorem Warp.amaxUpd_reason (w : Warp) (u : Word × Bool) : (w.amaxUpd u).reason = w.reason := rfl
@[simp] theorem Warp.amaxUpd_stalls (w : Warp) (u : Word × Bool) : (w.amaxUpd u).stalls = w.stalls := rfl
@[simp] theorem Warp.amaxUpd_specs (w : Warp) (u : Word × Bool) : (w.amaxUpd u).specs = w.specs := rfl
@[simp] theorem Warp.amaxUpd_pipe (w : Warp) (u : Word × Bool) : (w.amaxUpd u).pipe = w.pipe := rfl
@[simp] theorem Warp.amaxUpd_started (w : Warp) (u : Word × Bool) : (w.amaxUpd u).started = w.started := rfl
@[simp] theorem Warp.amaxUpd_windowHeld (w : Warp) (u : Word × Bool) : (w.amaxUpd u).windowHeld = w.windowHeld := rfl

/-! ### Warp.mark -/

@[simp] theorem Warp.mark_sched (w : Warp) (b : Bool) (r : RegClass × Nat) : (w.mark b r).sched = w.sched := by unfold Warp.mark; split <;> rfl
@[simp] theorem Warp.mark_slot (w : Warp) (b : Bool) (r : RegClass × Nat) : (w.mark b r).slot = w.slot := by unfold Warp.mark; split <;> rfl
@[simp] theorem Warp.mark_age (w : Warp) (b : Bool) (r : RegClass × Nat) : (w.mark b r).age = w.age := by unfold Warp.mark; split <;> rfl
@[simp] theorem Warp.mark_split (w : Warp) (b : Bool) (r : RegClass × Nat) : (w.mark b r).split = w.split := by unfold Warp.mark; split <;> rfl
@[simp] theorem Warp.mark_join (w : Warp) (b : Bool) (r : RegClass × Nat) : (w.mark b r).join = w.join := by unfold Warp.mark; split <;> rfl
@[simp] theorem Warp.mark_v (w : Warp) (b : Bool) (r : RegClass × Nat) : (w.mark b r).v = w.v := by unfold Warp.mark; split <;> rfl
@[simp] theorem Warp.mark_s (w : Warp) (b : Bool) (r : RegClass × Nat) : (w.mark b r).s = w.s := by unfold Warp.mark; split <;> rfl
@[simp] theorem Warp.mark_h (w : Warp) (b : Bool) (r : RegClass × Nat) : (w.mark b r).h = w.h := by unfold Warp.mark; split <;> rfl
@[simp] theorem Warp.mark_cc0 (w : Warp) (b : Bool) (r : RegClass × Nat) : (w.mark b r).cc0 = w.cc0 := by unfold Warp.mark; split <;> rfl
@[simp] theorem Warp.mark_cc1 (w : Warp) (b : Bool) (r : RegClass × Nat) : (w.mark b r).cc1 = w.cc1 := by unfold Warp.mark; split <;> rfl
@[simp] theorem Warp.mark_tick (w : Warp) (b : Bool) (r : RegClass × Nat) : (w.mark b r).tick = w.tick := by unfold Warp.mark; split <;> rfl
@[simp] theorem Warp.mark_part (w : Warp) (b : Bool) (r : RegClass × Nat) : (w.mark b r).part = w.part := by unfold Warp.mark; split <;> rfl
@[simp] theorem Warp.mark_amax (w : Warp) (b : Bool) (r : RegClass × Nat) : (w.mark b r).amax = w.amax := by unfold Warp.mark; split <;> rfl
@[simp] theorem Warp.mark_nanSeen (w : Warp) (b : Bool) (r : RegClass × Nat) : (w.mark b r).nanSeen = w.nanSeen := by unfold Warp.mark; split <;> rfl
@[simp] theorem Warp.mark_lfsr (w : Warp) (b : Bool) (r : RegClass × Nat) : (w.mark b r).lfsr = w.lfsr := by unfold Warp.mark; split <;> rfl
@[simp] theorem Warp.mark_repc (w : Warp) (b : Bool) (r : RegClass × Nat) : (w.mark b r).repc = w.repc := by unfold Warp.mark; split <;> rfl
@[simp] theorem Warp.mark_x (w : Warp) (b : Bool) (r : RegClass × Nat) : (w.mark b r).x = w.x := by unfold Warp.mark; split <;> rfl
@[simp] theorem Warp.mark_exited (w : Warp) (b : Bool) (r : RegClass × Nat) : (w.mark b r).exited = w.exited := by unfold Warp.mark; split <;> rfl
@[simp] theorem Warp.mark_resv (w : Warp) (b : Bool) (r : RegClass × Nat) : (w.mark b r).resv = w.resv := by unfold Warp.mark; split <;> rfl
@[simp] theorem Warp.mark_hdie (w : Warp) (b : Bool) (r : RegClass × Nat) : (w.mark b r).hdie = w.hdie := by unfold Warp.mark; split <;> rfl
@[simp] theorem Warp.mark_hdev (w : Warp) (b : Bool) (r : RegClass × Nat) : (w.mark b r).hdev = w.hdev := by unfold Warp.mark; split <;> rfl
@[simp] theorem Warp.mark_hpod (w : Warp) (b : Bool) (r : RegClass × Nat) : (w.mark b r).hpod = w.hpod := by unfold Warp.mark; split <;> rfl
@[simp] theorem Warp.mark_handler (w : Warp) (b : Bool) (r : RegClass × Nat) : (w.mark b r).handler = w.handler := by unfold Warp.mark; split <;> rfl
@[simp] theorem Warp.mark_rep (w : Warp) (b : Bool) (r : RegClass × Nat) : (w.mark b r).rep = w.rep := by unfold Warp.mark; split <;> rfl
@[simp] theorem Warp.mark_nopre (w : Warp) (b : Bool) (r : RegClass × Nat) : (w.mark b r).nopre = w.nopre := by unfold Warp.mark; split <;> rfl
@[simp] theorem Warp.mark_ordinal (w : Warp) (b : Bool) (r : RegClass × Nat) : (w.mark b r).ordinal = w.ordinal := by unfold Warp.mark; split <;> rfl
@[simp] theorem Warp.mark_reason (w : Warp) (b : Bool) (r : RegClass × Nat) : (w.mark b r).reason = w.reason := by unfold Warp.mark; split <;> rfl
@[simp] theorem Warp.mark_stalls (w : Warp) (b : Bool) (r : RegClass × Nat) : (w.mark b r).stalls = w.stalls := by unfold Warp.mark; split <;> rfl
@[simp] theorem Warp.mark_specs (w : Warp) (b : Bool) (r : RegClass × Nat) : (w.mark b r).specs = w.specs := by unfold Warp.mark; split <;> rfl
@[simp] theorem Warp.mark_pipe (w : Warp) (b : Bool) (r : RegClass × Nat) : (w.mark b r).pipe = w.pipe := by unfold Warp.mark; split <;> rfl
@[simp] theorem Warp.mark_started (w : Warp) (b : Bool) (r : RegClass × Nat) : (w.mark b r).started = w.started := by unfold Warp.mark; split <;> rfl
@[simp] theorem Warp.mark_windowHeld (w : Warp) (b : Bool) (r : RegClass × Nat) : (w.mark b r).windowHeld = w.windowHeld := by unfold Warp.mark; split <;> rfl

/-! ### Frag.retire -/

@[simp] theorem Frag.retire_mask (f : Frag) (n : Nat) : (f.retire n).mask = f.mask := rfl
@[simp] theorem Frag.retire_join (f : Frag) (n : Nat) : (f.retire n).join = f.join := rfl
@[simp] theorem Frag.retire_depth (f : Frag) (n : Nat) : (f.retire n).depth = f.depth := rfl
@[simp] theorem Frag.retire_rank (f : Frag) (n : Nat) : (f.retire n).rank = f.rank := rfl
@[simp] theorem Frag.retire_halted (f : Frag) (n : Nat) : (f.retire n).halted = f.halted := rfl
@[simp] theorem Frag.retire_wait (f : Frag) (n : Nat) : (f.retire n).wait = f.wait := rfl
@[simp] theorem Frag.retire_handler (f : Frag) (n : Nat) : (f.retire n).handler = f.handler := rfl
@[simp] theorem Frag.retire_replay (f : Frag) (n : Nat) : (f.retire n).replay = f.replay := rfl
@[simp] theorem Frag.retire_acquire (f : Frag) (n : Nat) : (f.retire n).acquire = f.acquire := rfl
@[simp] theorem Frag.retire_redo (f : Frag) (n : Nat) : (f.retire n).redo = f.redo := rfl
@[simp] theorem Frag.retire_undo (f : Frag) (n : Nat) : (f.retire n).undo = f.undo := rfl
@[simp] theorem Frag.retire_held (f : Frag) (n : Nat) : (f.retire n).held = f.held := rfl
@[simp] theorem Frag.retire_walkEnd (f : Frag) (n : Nat) : (f.retire n).walkEnd = f.walkEnd := rfl
@[simp] theorem Frag.retire_stepped (f : Frag) (n : Nat) : (f.retire n).stepped = f.stepped := rfl
@[simp] theorem Frag.retire_pc (f : Frag) (n : Nat) : (f.retire n).pc = f.pc + BitVec.ofNat 64 n := rfl
@[simp] theorem Frag.retire_st (f : Frag) (n : Nat) : (f.retire n).st = .ready := rfl

end Sys2Proof.Machine
end

