-- ==== Sys2Proof/Laws/Issue.lean ====
section
/-! SUPPORT. What finding and updating the parts of the state comes to, and what the issue of an instruction can do: one lemma
per shared operation. -/

namespace Sys2Proof.Machine

/-! ### Finding and updating -/

theorem find?_updFirst_self {α : Type} {p : α → Bool} {f : α → α} {l : List α} (hf : ∀ x, p x = true → p (f x) = true) :
    (updFirst p f l).find? p = (l.find? p).map f := by
  induction l with
  | nil => rfl
  | cons x r ih =>
    simp only [updFirst]
    split
    · simp [List.find?, hf x ‹_›, ‹p x = true›]
    · simp [List.find?, ‹¬p x = true›, ih]

theorem find?_updFirst_other {α : Type} {p q : α → Bool} {f : α → α} {l : List α} (hf : ∀ x, p x = true → q x = false)
    (hg : ∀ x, p x = true → q (f x) = false) : (updFirst p f l).find? q = l.find? q := by
  induction l with
  | nil => rfl
  | cons x r ih =>
    simp only [updFirst]
    split
    · simp [List.find?, hf x ‹_›, hg x ‹_›]
    · simp [List.find?, ih]

theorem getElem?_updAt {α : Type} (f : α → α) (i j : Nat) (l : List α) :
    (updAt f i l)[j]? = if i = j then l[j]?.map f else l[j]? := by
  induction l generalizing i j with
  | nil => simp [updAt]
  | cons x r ih =>
    cases i with
    | zero =>
      cases j with
      | zero => simp [updAt]
      | succ j => simp [updAt]
    | succ i =>
      cases j with
      | zero => simp [updAt]
      | succ j => simp [updAt, ih]

/-- A block found has the name it was looked for under. -/
theorem State.block?_uid {s : State} {u : Nat} {b : Block} (h : s.block? u = some b) : b.uid = u := by
  simpa using List.find?_some h

theorem State.block?_modBlock (s : State) (u : Nat) (f : Block → Block) (hf : ∀ b, (f b).uid = b.uid) :
    (s.modBlock u f).block? u = (s.block? u).map f :=
  find?_updFirst_self fun b hb => by simpa [hf b] using hb

theorem State.block?_modBlock_ne (s : State) {u v : Nat} (f : Block → Block) (hf : ∀ b, (f b).uid = b.uid) (h : v ≠ u) :
    (s.modBlock u f).block? v = s.block? v :=
  find?_updFirst_other (fun b hb => by simp at hb ⊢; omega) (fun b hb => by simp [hf b] at hb ⊢; omega)

theorem State.block?_modWarp (s : State) (u i : Nat) (f : Warp → Warp) :
    (s.modWarp u i f).block? u = (s.block? u).map fun b => { b with warps := updAt f i b.warps } :=
  State.block?_modBlock _ _ _ fun _ => rfl

theorem State.block?_modWarp_ne (s : State) {u v : Nat} (i : Nat) (f : Warp → Warp) (h : v ≠ u) :
    (s.modWarp u i f).block? v = s.block? v :=
  State.block?_modBlock_ne _ _ (fun _ => rfl) h

theorem State.warp?_modWarp (s : State) (u i : Nat) (f : Warp → Warp) :
    (s.modWarp u i f).warp? u i = (s.warp? u i).map f := by
  rw [State.warp?, State.block?_modWarp, State.warp?]
  cases s.block? u with
  | none => rfl
  | some b => simp [getElem?_updAt]

theorem State.warp?_modWarp_ne (s : State) {u i v j : Nat} (f : Warp → Warp) (h : (v, j) ≠ (u, i)) :
    (s.modWarp u i f).warp? v j = s.warp? v j := by
  rw [State.warp?, State.warp?]
  by_cases hv : v = u
  · subst hv
    rw [State.block?_modWarp]
    cases s.block? v with
    | none => rfl
    | some b =>
      have : i ≠ j := fun h' => h (by rw [h'])
      simp [getElem?_updAt, this]
  · rw [State.block?_modWarp_ne _ _ _ hv]

/-- What a context is made of. -/
theorem State.ctx?_eq {s : State} {r : FragRef} {c : Ctx} (h : s.ctx? r = some c) :
    c.ref = r ∧ s.block? r.block = some c.b ∧ s.warp? r.block r.warp = some c.w ∧ c.w.frag? r.sel = some c.f ∧
    s.launch? c.b.lid = some c.l := by
  simp only [State.ctx?, Option.bind_eq_bind, Option.bind_eq_some_iff, Option.some.injEq, pure] at h
  obtain ⟨b, hb, w, hw, f, hf, l, hl, rfl⟩ := h
  exact ⟨rfl, hb, by simp [State.warp?, hb, hw], hf, hl⟩

theorem Warp.frag?_modFrag (w : Warp) (f : Frag → Frag) (i : Fin 32) :
    (w.modFrag f (.entry i)).frag? (.entry i) = (w.frag? (.entry i)).map f := by
  simp [Warp.modFrag, Warp.frag?]

theorem Warp.frag?_modFrag_ne (w : Warp) (f : Frag → Frag) {i : Fin 32} {r : FragSel} (h : r ≠ .entry i) :
    (w.modFrag f (.entry i)).frag? r = w.frag? r := by
  cases r with
  | entry j =>
    have hj : i.val ≠ j.val := fun h' => h (by rw [Fin.ext h'])
    simp [Warp.modFrag, Warp.frag?, hj]
  | path j t => rfl

/-! ### The checks before an instruction's effect -/

/-- Where an instruction executes normally, no check stops it. -/
theorem gate_none {i : Instr} {s : State} {c : Ctx} (h : Issues i s c) : gate s c i.layout = none := by
  have hp := h.here
  have hw : windowWaits c i.layout false = false := by simp [windowWaits, hp]
  have hst : staticCheck c.l.desc i.layout (i.layout.opnds (vaultDims s c.l.asid c.w i.layout)) = none := by
    unfold staticCheck
    rw [if_neg, if_neg]
    · simp only [Bool.and_eq_true, not_and, Bool.not_eq_true]
      rintro ⟨hal, -⟩
      cases hh : i.layout.head with
      | none => rfl
      | some x => simp [h.guard hal x hh]
    · simp only [Bool.or_eq_true, Bool.and_eq_true, List.any_eq_true, not_or, not_and, not_exists, Bool.not_eq_true',
        beq_iff_eq]
      refine ⟨fun hm => by have := h.tiles hm; omega, fun o ho => ?_⟩
      simp [h.legal o ho]
  have hfull : ∀ o ∈ i.layout.opnds (vaultDims s c.l.asid c.w i.layout), o.src = true ∨ o.dst = true →
      o.regs.all (regFull c.b c.w) = true := fun o ho hs => by
    simpa using h.full o ho hs
  have h1 : (i.layout.opnds (vaultDims s c.l.asid c.w i.layout)).find?
      (fun o => o.src && o.e && !o.regs.all (regFull c.b c.w)) = none := by
    simp only [List.find?_eq_none, Bool.and_eq_true, not_and, Bool.not_eq_true, Bool.not_eq_false']
    intro o ho hs
    exact hfull o ho (.inl hs.1)
  have h2 : (i.layout.opnds (vaultDims s c.l.asid c.w i.layout)).filter
      (fun o => (o.src || o.dst) && !o.regs.all (regFull c.b c.w)) = [] := by
    simp only [List.filter_eq_nil_iff, Bool.and_eq_true, Bool.or_eq_true, not_and, Bool.not_eq_true, Bool.not_eq_false']
    exact fun o ho hs => hfull o ho hs
  unfold gate
  simp only [hw, Bool.false_eq_true, if_false, hst, h1, h2, h.quiet]
  split
  · rename_i he
    simp only [Bool.and_eq_true, Bool.not_eq_true', beq_eq_false_iff_ne] at he
    exact absurd (h.whole he.1) he.2
  · have hw : (i.layout.awaitsWalk && !s.condMet c .translation) = false := by
      cases ha : i.layout.awaitsWalk with
      | false => rfl
      | true => simp [State.condMet, h.walked ha]
    have hr : (i.layout.sendsRequests && !s.condMet c (.requestRoom (popcount c.f.mask))) = false := by
      cases ha : i.layout.sendsRequests with
      | false => rfl
      | true => simp [State.condMet, h.room ha]
    simp only [hw, hr, Bool.false_eq_true, if_false]
    split
    · rename_i n hn
      have : i.layout.isAccess = false := by
        cases ha : i.layout.isAccess with
        | false => rfl
        | true => rw [h.open_ ha] at hn; cases hn
      simp [this]
    · rfl

/-- Where an instruction executes normally, `issue` is its own effect and its end. -/
theorem issue_of_issues {i : Instr} {s : State} {c : Ctx} (body : Ctx → LaneMask → State → Eff) (h : Issues i s c) :
    issue i body s = .next (finish c i (body c (c.lanes i) s)) := by
  have hc : s.cur.bind s.ctx? = some c := by rw [h.cur]; exact h.ctx
  simp only [issue, hc, gate_none h]
  rfl

/-! ### What tracing does -/

/-- From s to t, blocks change at most in their warps; the launches, the device's registers, the time and the requests stay. -/
def WarpsOnly (s t : State) : Prop :=
  (∀ u, ∃ f : Block → List Warp, t.block? u = (s.block? u).map fun b => { b with warps := f b }) ∧
  t.launches = s.launches ∧ t.dev = s.dev ∧ t.time = s.time ∧ t.reqs = s.reqs

theorem WarpsOnly.of_blocks {s t : State} (hb : t.blocks = s.blocks) (hl : t.launches = s.launches) (hd : t.dev = s.dev)
    (ht : t.time = s.time) (hr : t.reqs = s.reqs) : WarpsOnly s t :=
  ⟨fun u => ⟨Block.warps, by rw [State.block?, hb]; show s.block? u = _; cases s.block? u <;> rfl⟩, hl, hd, ht, hr⟩

theorem WarpsOnly.refl (s : State) : WarpsOnly s s := .of_blocks rfl rfl rfl rfl rfl

theorem WarpsOnly.trans {s t u : State} (h : WarpsOnly s t) (k : WarpsOnly t u) : WarpsOnly s u := by
  obtain ⟨hb, h1, h2, h3, h4⟩ := h
  obtain ⟨kb, k1, k2, k3, k4⟩ := k
  refine ⟨fun v => ?_, k1.trans h1, k2.trans h2, k3.trans h3, k4.trans h4⟩
  obtain ⟨f, hf⟩ := hb v
  obtain ⟨g, hg⟩ := kb v
  refine ⟨fun b => g { b with warps := f b }, ?_⟩
  rw [hg, hf]
  cases s.block? v <;> rfl

theorem WarpsOnly.modWarp (s : State) (u i : Nat) (f : Warp → Warp) : WarpsOnly s (s.modWarp u i f) := by
  refine ⟨fun v => ?_, rfl, rfl, rfl, rfl⟩
  by_cases hv : v = u
  · subst hv
    exact ⟨_, State.block?_modWarp s v i f⟩
  · exact ⟨Block.warps, by rw [State.block?_modWarp_ne _ _ _ hv]; cases s.block? v <;> rfl⟩

theorem WarpsOnly.modCore (s : State) (k : Nat) (f : Core → Core) : WarpsOnly s (s.modCore k f) := .of_blocks rfl rfl rfl rfl rfl

theorem WarpsOnly.clearResv (s : State) (t : Target) (pa n : Nat) : WarpsOnly s (s.clearResv t pa n) := by
  refine ⟨fun u => ⟨fun b => b.warps.map fun w =>
    { w with resv := w.resv.map fun r => if resvHit t pa n r then none else r }, ?_⟩, rfl, rfl, rfl, rfl⟩
  rw [State.clearResv, State.block?, List.find?_map]
  rfl

theorem WarpsOnly.physWrite (s : State) (t : Target) (pa : Nat) (bs : List Byte) : WarpsOnly s (s.physWrite t pa bs) := by
  unfold State.physWrite
  split <;> cases t <;> exact .of_blocks rfl rfl rfl rfl rfl

theorem WarpsOnly.lineWrite (s : State) (t : Target) (pa : Nat) (bs : List Byte) (d : Option Nat) :
    WarpsOnly s (s.lineWrite t pa bs d).1 :=
  ((WarpsOnly.physWrite s t pa bs).trans (WarpsOnly.clearResv _ t pa _)).trans (.of_blocks rfl rfl rfl rfl rfl)

theorem WarpsOnly.sliceWrite (s : State) (t : Target) (pa : Nat) (bs : List Byte) (d : Option Nat) :
    WarpsOnly s (s.sliceWrite t pa bs d).1 := by
  unfold State.sliceWrite
  split
  · exact WarpsOnly.lineWrite ..
  · suffices h : ∀ (l : List (Nat × List Byte)) (x : State × Nat × Nat), WarpsOnly s x.1 → WarpsOnly s (l.foldl (fun x p =>
        let y := x.1.lineWrite t p.1 p.2 d
        (y.1, max x.2.1 y.2.1, max x.2.2 y.2.2)) x).1 from h _ _ (.refl s)
    intro l
    induction l with
    | nil => exact fun _ h => h
    | cons p r ih => exact fun x h => ih _ (h.trans (WarpsOnly.lineWrite _ _ _ _ d))

theorem WarpsOnly.foldl {α : Type} (f : State → α → State) (hf : ∀ s x, WarpsOnly s (f s x)) (l : List α) (s : State) :
    WarpsOnly s (l.foldl f s) := by
  induction l generalizing s with
  | nil => exact .refl s
  | cons x r ih => exact (hf s x).trans (ih _)

/-- What the writing of a core's packets can change (R362). -/
theorem WarpsOnly.flushTrace (s : State) (k : Nat) : WarpsOnly s (s.flushTrace k) := by
  unfold State.flushTrace
  extract_lets
  split
  · exact .refl s
  · refine (WarpsOnly.foldl _ (fun s p => ?_) _ _).trans (.modCore _ _ _)
    unfold State.putPacket
    extract_lets
    split
    · exact ((WarpsOnly.foldl _ (fun _ _ => .sliceWrite _ _ _ _ _) _ _).trans (.modCore _ _ _)).trans (.modCore _ _ _)
    · exact .modCore _ _ _

theorem WarpsOnly.flushTraces (s : State) : WarpsOnly s s.flushTraces := .foldl _ .flushTrace _ _

/-- A packet is only noted in its core (R362). -/
theorem State.packet_eq (s : State) (k a : Nat) (h : Option (BitVec 8)) (bs : List Byte) :
    ∃ x, s.packet k a h bs = { s with cores := x } := by
  unfold State.packet State.packetIf
  split
  · exact ⟨s.cores, rfl⟩
  · exact ⟨_, rfl⟩

/-! ### The end of an instruction that retires -/

/-- From s to t, the issuing warp changes by g, and nothing else but what its core keeps for itself. -/
structure Noted (c : Ctx) (g : Warp → Warp) (s t : State) : Prop where
  outside : SameOutside s t
  blocks : ∀ u, u ≠ c.ref.block → t.block? u = s.block? u
  block : ∃ f : Block → List Warp, t.block? c.ref.block = (s.block? c.ref.block).map fun b => { b with warps := f b }
  others : SameOtherWarps c s t
  warp : t.warp? c.ref.block c.ref.warp = (s.warp? c.ref.block c.ref.warp).map g

theorem SameOutside.refl (s : State) : SameOutside s s := ⟨rfl, rfl, rfl, rfl, rfl, rfl, rfl, rfl, rfl, rfl, rfl, rfl, rfl⟩

theorem SameOutside.trans {s t u : State} (h : SameOutside s t) (k : SameOutside t u) : SameOutside s u :=
  ⟨k.mem.trans h.mem, k.host.trans h.host, k.vault.trans h.vault, k.l2.trans h.l2, k.reqs.trans h.reqs,
    k.launches.trans h.launches, k.groups.trans h.groups, k.queues.trans h.queues, k.events.trans h.events,
    k.tensors.trans h.tensors, k.tlbs.trans h.tlbs, k.dev.trans h.dev, k.time.trans h.time⟩

theorem Noted.trans {c : Ctx} {f g : Warp → Warp} {s t u : State} (h : Noted c f s t) (k : Noted c g t u) :
    Noted c (fun w => g (f w)) s u := by
  refine ⟨h.outside.trans k.outside, fun v hv => (k.blocks v hv).trans (h.blocks v hv), ?_,
    fun v j hv => (k.others v j hv).trans (h.others v j hv), ?_⟩
  · obtain ⟨x, hx⟩ := h.block
    obtain ⟨y, hy⟩ := k.block
    refine ⟨fun b => y { b with warps := x b }, ?_⟩
    rw [hy, hx]
    cases s.block? c.ref.block <;> rfl
  · rw [k.warp, h.warp]
    cases s.warp? c.ref.block c.ref.warp <;> rfl

theorem Noted.modW (s : State) (c : Ctx) (f : Warp → Warp) : Noted c f s (s.modW c f) where
  outside := ⟨rfl, rfl, rfl, rfl, rfl, rfl, rfl, rfl, rfl, rfl, rfl, rfl, rfl⟩
  blocks _ hu := State.block?_modWarp_ne _ _ _ hu
  block := ⟨_, State.block?_modWarp s c.ref.block c.ref.warp f⟩
  others _ _ hne := State.warp?_modWarp_ne _ _ hne
  warp := State.warp?_modWarp _ _ _ _

/-- What a core keeps for itself is no matter of the warps. -/
theorem Noted.cores (s : State) (c : Ctx) (x : Table Core) : Noted c id s { s with cores := x } where
  outside := ⟨rfl, rfl, rfl, rfl, rfl, rfl, rfl, rfl, rfl, rfl, rfl, rfl, rfl⟩
  blocks _ _ := rfl
  block := ⟨Block.warps, by show s.block? _ = _; cases s.block? c.ref.block <;> rfl⟩
  others _ _ _ := rfl
  warp := by show s.warp? _ _ = _; cases s.warp? c.ref.block c.ref.warp <;> rfl

/-- A warp's first SYNC changes that warp's mark. -/
theorem firstSync_noted (s : State) (c : Ctx) :
    ∃ st : Warp → Bool, Noted c (fun w => { w with started := st w }) s (s.firstSync c) := by
  unfold State.firstSync
  split
  · exact ⟨Warp.started, Noted.cores s c s.cores⟩
  · obtain ⟨x, hx⟩ := State.packet_eq (s.modW c fun w => { w with started := true }) c.b.core c.l.asid none
      (syncPacket c.w.warpSlot (idxOf c.ref.sel).val c.f.pc (s.modW c fun w => { w with started := true }).time c.f.mask)
    refine ⟨fun _ => true, ?_⟩
    rw [State.syncFrag, hx]
    exact (Noted.modW s c _).trans (Noted.cores _ c x)

/-- `noteIssue` notes a first issue and a stop site in the issuing warp. -/
theorem noteIssue_noted (s : State) (c : Ctx) (l : Layout) :
    ∃ (st : Warp → Bool) (od : Warp → Word), Noted c (fun w => { w with started := st w, ordinal := od w }) s (s.noteIssue c l) := by
  obtain ⟨st, h⟩ := firstSync_noted s c
  unfold State.noteIssue
  split
  · exact ⟨Warp.started, Warp.ordinal, Noted.cores s c s.cores⟩
  · extract_lets s1
    split
    · have k := h.trans (Noted.modW _ c fun w => { w with ordinal := s1.ordinalOf c.l c.f.pc })
      exact ⟨st, fun _ => s1.ordinalOf c.l c.f.pc, k.trans (Noted.cores _ c _)⟩
    · exact ⟨st, Warp.ordinal, h⟩

/-- What the end of an instruction that retires does. -/
theorem finish_ok (i : Instr) {c : Ctx} (s : State) (hp : isPath c.ref.sel = false) :
    ∃ (st : Warp → Bool) (od : Warp → Word), Noted c
      (fun w => ({ w with started := st w, ordinal := od w } : Warp).modFrag (fun f => f.retire i.len) c.ref.sel) s
      (finish c i (.ok s)) := by
  obtain ⟨st, od, h⟩ := noteIssue_noted s c i.layout
  have hn : ∀ w' : Warp, w'.noteWindow c.ref.sel c.f.pc i 1 = w' := fun w' => by
    cases hs : c.ref.sel with
    | entry k => rfl
    | path k t => rw [hs] at hp; cases hp
  have k := (h.trans (Noted.modW _ c fun w => w.noteWindow c.ref.sel c.f.pc i 1)).trans
    (Noted.modW _ c fun w => w.modFrag (fun f => f.retire i.len) c.ref.sel)
  exact ⟨st, od, by simpa only [finish, State.modFrag, State.modW, hn] using k⟩

end Sys2Proof.Machine
end

