-- ==== Sys2Proof/Laws/Lane.lean ====
section
/-! SUPPORT. What a lane instruction can do: the shared operation `lane` under `issue`, and the writers of registers and flags. -/

namespace Sys2Proof.Machine

/-! ### Lane vectors -/

@[simp] theorem getElem_lanesSet {α : Type} (old : Lanes α) (m : LaneMask) (f : Lane → α) (l : Lane) :
    (lanesSet old m f)[l] = if m.getLsbD l.val then f l else old[l] := by
  simp [lanesSet]

theorem vget_vset {α : Type} {n : Nat} (d : α) (v : Vector α n) (i j : Nat) (x : α) :
    vget d (vset v i x) j = if i = j ∧ i < n then x else vget d v j := by
  simp only [vget, vset]
  by_cases hi : i < n
  · by_cases hij : i = j
    · subst hij
      simp [hi]
    · simp [hij]
  · rw [Vector.setIfInBounds_eq_of_size_le (by simpa using hi)]
    simp [hi]

/-! ### Reading after writing -/

theorem Warp.vl_setV (w : Warp) (n k : Nat) (m : LaneMask) (f : Lane → Word) (l : Lane) :
    (w.setV n m f).vl k l = if n = k ∧ n < 128 ∧ m.getLsbD l.val then f l else w.vl k l := by
  rw [Warp.vl, Warp.vr, Warp.setV, vget_vset]
  by_cases h : n = k ∧ n < 128
  · obtain ⟨rfl, h⟩ := h
    simp only [h, and_self, if_true, getElem_lanesSet, true_and]
    rfl
  · rw [if_neg h, if_neg (fun x => h ⟨x.1, x.2.1⟩)]
    rfl

theorem Warp.vl_setVP (w : Warp) (n k : Nat) (m : LaneMask) (f : Lane → DWord) (l : Lane) :
    (w.setVP n m f).vl k l = if n + 1 = k ∧ n + 1 < 128 ∧ m.getLsbD l.val then hiOf (f l)
      else if n = k ∧ n < 128 ∧ m.getLsbD l.val then loOf (f l) else w.vl k l := by
  rw [Warp.setVP, Warp.vl_setV, Warp.vl_setV]

theorem Warp.cc_setCC (w : Warp) (set k : Bool) (m : LaneMask) (f : Lane → CC) (l : Lane) :
    (w.setCC set m f).cc k l = if set = k ∧ m.getLsbD l.val then f l else w.cc k l := by
  cases set <;> cases k <;> simp only [Warp.setCC, Warp.cc, if_true, if_false, Bool.false_eq_true, getElem_lanesSet,
    true_and, false_and, reduceCtorEq]

theorem Warp.sr_setS (w : Warp) (n k : Nat) (x : Word) :
    (w.setS n x).sr k = if n = k ∧ n ≠ 0 ∧ n < 64 then x else w.sr k := by
  unfold Warp.setS
  split
  · subst ‹n = 0›
    simp
  · simp only [Warp.sr, vget_vset]
    split
    · subst ‹k = 0›
      rw [if_neg (by omega)]
    · by_cases h : n = k ∧ n < 64
      · rw [if_pos h, if_pos ⟨h.1, by omega, h.2⟩]
      · rw [if_neg h, if_neg (fun x => h ⟨x.1, x.2.2⟩)]

@[simp] theorem Warp.vl_setCC (w : Warp) (set : Bool) (m : LaneMask) (f : Lane → CC) (n : Nat) (l : Lane) :
    (w.setCC set m f).vl n l = w.vl n l := by simp [Warp.vl, Warp.vr]
@[simp] theorem Warp.cc_setV (w : Warp) (n : Nat) (m : LaneMask) (f : Lane → Word) (k : Bool) (l : Lane) :
    (w.setV n m f).cc k l = w.cc k l := rfl
@[simp] theorem Warp.cc_setVP (w : Warp) (n : Nat) (m : LaneMask) (f : Lane → DWord) (k : Bool) (l : Lane) :
    (w.setVP n m f).cc k l = w.cc k l := rfl

/-- Two registers of a pair read back. -/
theorem pairOf_halves (x : DWord) : pairOf (loOf x) (hiOf x) = x := by
  apply BitVec.eq_of_getLsbD_eq
  intro i hi
  simp only [pairOf, loOf, hiOf, BitVec.getLsbD_append, BitVec.getLsbD_extractLsb']
  by_cases h : i < 32
  · simp [h]
  · have : i - 32 < 32 := by omega
    simp [h, this, show 32 + (i - 32) = i by omega]

/-! ### The lane instruction -/

/-- What the effect of a lane instruction on a warp must keep, for its frame to hold. -/
structure LaneKeeps (i : Instr) (c : Ctx) (w : Warp) : Prop where
  split : w.split = c.w.split
  specs : w.specs = c.w.specs
  resv : w.resv = c.w.resv
  regs : SameRegs i c w
  full : SameFull c.w w
  specials : SameSpecials c.w w
  amax : setsAmax i.layout = false → w.amax = c.w.amax ∧ w.nanSeen = c.w.nanSeen

/-- A lane instruction completes with its effect on the issuing warp and the lane frame. -/
theorem lane_completes {i : Instr} {s : State} {c : Ctx} (g : LaneMask → Warp → Warp) (h : Issues i s c)
    (hk : LaneKeeps i c (g (c.lanes i) c.w)) :
    ∃ t w, issue i (lane g) s = .next t ∧ t.warp? c.ref.block c.ref.warp = some w ∧ LaneFrame i s c t w ∧
      w.v = (g (c.lanes i) c.w).v ∧ w.s = (g (c.lanes i) c.w).s ∧ w.h = (g (c.lanes i) c.w).h ∧
      w.cc0 = (g (c.lanes i) c.w).cc0 ∧ w.cc1 = (g (c.lanes i) c.w).cc1 := by
  obtain ⟨-, hb, hw, hf, -⟩ := State.ctx?_eq h.ctx
  have hw1 : (s.modW c (g (c.lanes i))).warp? c.ref.block c.ref.warp = some (g (c.lanes i) c.w) := by
    rw [State.modW, State.warp?_modWarp, hw]
    rfl
  obtain ⟨st, od, hn⟩ := finish_ok i (s.modW c (g (c.lanes i))) h.here
  have hfin := hn.warp
  rw [hw1, Option.map_some] at hfin
  cases hs : c.ref.sel with
  | path k t =>
    have := h.here
    rw [hs] at this
    cases this
  | entry k =>
    rw [hs] at hfin hf
    have hsp : (g (c.lanes i) c.w).frag? (.entry k) = some c.f := by
      rw [← hf]
      simp [Warp.frag?, hk.split]
    refine ⟨_, _, issue_of_issues _ h, hfin, ?_, ?_, ?_, ?_, ?_, ?_⟩
    · refine ⟨⟨⟨c.f.retire i.len, ?_, ⟨rfl, rfl, rfl, rfl, rfl, rfl, rfl⟩⟩, ?_, ?_⟩, ?_, ?_, ?_, ?_⟩
      · rw [hs, Warp.frag?_modFrag]
        show ((g (c.lanes i) c.w).frag? (.entry k)).map _ = _
        rw [hsp]
        rfl
      · intro r hr
        rw [hs] at hr
        rw [Warp.frag?_modFrag_ne _ _ hr]
        cases r with
        | entry j => simp [Warp.frag?, hk.split]
        | path j b => simp [Warp.frag?, hk.specs]
      · have ho := (Noted.modW s c (g (c.lanes i))).trans hn
        obtain ⟨f, hbf⟩ := ho.block
        rw [hb] at hbf
        exact ⟨ho.outside, ho.others, ⟨_, hbf, rfl⟩, hk.resv⟩
      · exact ⟨fun n l hn => hk.regs.v n l hn, fun n hn => hk.regs.s n hn, fun n hn => hk.regs.h n hn,
          fun x l hx => hk.regs.cc x l hx⟩
      · exact ⟨hk.full.v, hk.full.s, hk.full.h⟩
      · exact ⟨hk.specials.x, hk.specials.part, hk.specials.lfsr, hk.specials.repc, hk.specials.tick, hk.specials.join,
          hk.specials.exited, hk.specials.handler, hk.specials.nopre, hk.specials.hdie, hk.specials.hdev, hk.specials.hpod⟩
      · exact hk.amax
    all_goals rfl

end Sys2Proof.Machine
end

