-- ==== Sys2Proof/Laws/Memory.lean ====
section
/-! SUPPORT. Laws of the byte memories: read after write, and that every operation keeps the canonical form. -/

namespace Sys2Proof.Machine

/-! ### The canonical form -/

/-- Addresses strictly rising. -/
def Rising (l : List Host.Cell) : Prop := l.Pairwise fun x y => x.1 < y.1

theorem zipTail_iff_rising (l : List Host.Cell) :
    (l.zip l.tail).all (fun p => decide (p.1.1 < p.2.1)) = true ↔ Rising l := by
  induction l with
  | nil => simp [Rising]
  | cons x r ih =>
    cases r with
    | nil => simp [Rising]
    | cons y r =>
      simp only [List.tail_cons, List.zip_cons_cons, List.all_cons, Bool.and_eq_true, decide_eq_true_eq] at ih ⊢
      rw [ih]
      simp only [Rising, List.pairwise_cons, List.mem_cons]
      constructor
      · rintro ⟨h, h1, h2⟩
        refine ⟨?_, h1, h2⟩
        rintro a (rfl | ha)
        · exact h
        · exact Nat.lt_trans h (h1 a ha)
      · rintro ⟨h, h1, h2⟩
        exact ⟨h y (.inl rfl), h1, h2⟩

theorem Memory.wf_iff (m : Memory) : m.wf = true ↔ (∀ c ∈ m, c.2 ≠ 0) ∧ Rising m := by
  rw [Memory.wf, Bool.and_eq_true, zipTail_iff_rising]
  simp

theorem mem_cellPut {l : List Host.Cell} {a : Nat} {b : Byte} {c : Host.Cell} (h : c ∈ cellPut l a b) :
    c = (a, b) ∨ c ∈ l := by
  induction l with
  | nil => exact .inl (by simpa [cellPut] using h)
  | cons x r ih =>
    simp only [cellPut] at h
    split at h
    · simpa using h
    · split at h
      · rcases List.mem_cons.1 h with h | h
        · exact .inl h
        · exact .inr (List.mem_cons_of_mem _ h)
      · rcases List.mem_cons.1 h with h | h
        · exact .inr (by simp [h])
        · exact (ih h).imp id (List.mem_cons_of_mem _)

theorem rising_cellPut {l : List Host.Cell} (a : Nat) (b : Byte) (h : Rising l) : Rising (cellPut l a b) := by
  induction l with
  | nil => simp [cellPut, Rising]
  | cons x r ih =>
    obtain ⟨k, c⟩ := x
    have hr := List.pairwise_cons.1 h
    simp only [cellPut]
    split
    · refine List.pairwise_cons.2 ⟨?_, h⟩
      intro y hy
      rcases List.mem_cons.1 hy with rfl | hy
      · assumption
      · exact Nat.lt_trans ‹a < k› (hr.1 y hy)
    · split
      · subst ‹a = k›
        exact List.pairwise_cons.2 ⟨hr.1, hr.2⟩
      · refine List.pairwise_cons.2 ⟨?_, ih hr.2⟩
        intro y hy
        rcases mem_cellPut hy with rfl | hy
        · show k < a
          omega
        · exact hr.1 y hy

theorem sublist_cellDel (l : List Host.Cell) (a : Nat) : (cellDel l a).Sublist l := by
  induction l with
  | nil => exact .slnil
  | cons x r ih =>
    simp only [cellDel]
    split
    · exact List.sublist_cons_self _ _
    · exact ih.cons_cons _

theorem Memory.put_wf {m : Memory} (a : Nat) (b : Byte) (h : m.wf = true) : (m.put a b).wf = true := by
  obtain ⟨h0, h1⟩ := m.wf_iff.1 h
  rw [Memory.put, Memory.wf_iff]
  split
  · exact ⟨fun c hc => h0 c ((sublist_cellDel m a).subset hc), List.Pairwise.sublist (sublist_cellDel m a) h1⟩
  · refine ⟨fun c hc => ?_, rising_cellPut a b h1⟩
    rcases mem_cellPut hc with rfl | hc
    · assumption
    · exact h0 c hc

theorem Memory.writeBytes_wf {m : Memory} (a : Nat) (bs : List Byte) (h : m.wf = true) : (m.writeBytes a bs).wf = true := by
  induction bs generalizing m a with
  | nil => exact h
  | cons b r ih => exact ih _ (m.put_wf a b h)

theorem Memory.write_wf {m : Memory} (a n v : Nat) (h : m.wf = true) : (m.write a n v).wf = true :=
  m.writeBytes_wf a _ h

/-! ### Read after write -/

theorem cellAt_cellPut (d : Byte) (l : List Host.Cell) (a x : Nat) (b : Byte) :
    cellAt d (cellPut l a b) x = if x = a then b else cellAt d l x := by
  induction l with
  | nil => simp [cellPut, cellAt]
  | cons c r ih =>
    obtain ⟨k, v⟩ := c
    simp only [cellPut]
    split
    · simp [cellAt]
    · split
      · subst ‹a = k›
        simp only [cellAt]
        split <;> rfl
      · simp only [cellAt, ih]
        split <;> split <;> simp_all

theorem cellAt_of_lt {d : Byte} {l : List Host.Cell} {x : Nat} (h : ∀ c ∈ l, x < c.1) : cellAt d l x = d := by
  induction l with
  | nil => rfl
  | cons c r ih =>
    obtain ⟨k, v⟩ := c
    have := h (k, v) (by simp)
    simp only [cellAt]
    rw [if_neg (by simp at this; omega)]
    exact ih fun c hc => h c (by simp [hc])

theorem cellAt_cellDel (d : Byte) {l : List Host.Cell} (h : Rising l) (a x : Nat) :
    cellAt d (cellDel l a) x = if x = a then d else cellAt d l x := by
  induction l with
  | nil => simp [cellDel, cellAt]
  | cons c r ih =>
    obtain ⟨k, v⟩ := c
    have hr := List.pairwise_cons.1 h
    simp only [cellDel]
    split
    · subst ‹a = k›
      by_cases hx : x = a
      · subst hx
        rw [if_pos rfl]
        exact cellAt_of_lt fun c hc => hr.1 c hc
      · simp [cellAt, hx]
    · simp only [cellAt, ih hr.2]
      split <;> split <;> simp_all

/-- A byte reads as last written; every other byte as before. -/
theorem Memory.get_put {m : Memory} (h : m.wf = true) (a x : Nat) (b : Byte) :
    (m.put a b).get x = if x = a then b else m.get x := by
  rw [Memory.put, Memory.get, Memory.get]
  split
  · rw [cellAt_cellDel 0 (m.wf_iff.1 h).2]
    subst ‹b = 0›
    rfl
  · exact cellAt_cellPut 0 m a x b

/-- The bytes written read back; every other byte reads as before. -/
theorem Memory.get_writeBytes {m : Memory} (h : m.wf = true) (a x : Nat) (bs : List Byte) :
    (m.writeBytes a bs).get x = if a ≤ x ∧ x < a + bs.length then bs.getD (x - a) 0 else m.get x := by
  induction bs generalizing m a with
  | nil =>
    rw [if_neg (by simp only [List.length_nil]; omega)]
    rfl
  | cons b r ih =>
    rw [Memory.writeBytes, ih (m.put_wf a b h), m.get_put h]
    simp only [List.length_cons]
    by_cases hx : x = a
    · subst hx
      rw [if_neg (by omega), if_pos rfl, if_pos (by omega)]
      simp
    · rw [if_neg hx]
      by_cases hin : a + 1 ≤ x ∧ x < a + 1 + r.length
      · rw [if_pos hin, if_pos (by omega)]
        obtain ⟨k, rfl⟩ : ∃ k, x = a + 1 + k := ⟨x - (a + 1), by omega⟩
        rw [show a + 1 + k - a = k + 1 by omega, show a + 1 + k - (a + 1) = k by omega]
        simp
      · rw [if_neg hin, if_neg (by omega)]

@[simp] theorem leBytes_length (n v : Nat) : (leBytes n v).length = n := by
  induction n generalizing v with
  | zero => rfl
  | succ n ih => simp [leBytes, ih]

end Sys2Proof.Machine
end

