-- ==== Sys2Proof/Laws/PerInstr.lean ====
section
/-! SUPPORT. Laws made per instruction: the length of every instruction's encoding (R86). -/

namespace Sys2Proof.Laws

/-- The encoding of an instruction has half as many halfwords as the instruction has bytes; an event of the device has none. -/
def EncodedLength.Statement (i : Instr) : Prop := 2 * (encode i).length = i.len

theorem EncodedLength.iaddH2 (o : H2) : EncodedLength.Statement (.iaddH2 o) := rfl
theorem EncodedLength.isubH2 (o : H2) : EncodedLength.Statement (.isubH2 o) := rfl
theorem EncodedLength.imulH2 (o : H2) : EncodedLength.Statement (.imulH2 o) := rfl
theorem EncodedLength.andH2 (o : H2) : EncodedLength.Statement (.andH2 o) := rfl
theorem EncodedLength.orH2 (o : H2) : EncodedLength.Statement (.orH2 o) := rfl
theorem EncodedLength.xorH2 (o : H2) : EncodedLength.Statement (.xorH2 o) := rfl
theorem EncodedLength.shlH2 (o : H2) : EncodedLength.Statement (.shlH2 o) := rfl
theorem EncodedLength.shrH2 (o : H2) : EncodedLength.Statement (.shrH2 o) := rfl
theorem EncodedLength.sarH2 (o : H2) : EncodedLength.Statement (.sarH2 o) := rfl
theorem EncodedLength.movH2 (o : H2) : EncodedLength.Statement (.movH2 o) := rfl
theorem EncodedLength.moviH2 (o : H2) : EncodedLength.Statement (.moviH2 o) := rfl
theorem EncodedLength.faddH2 (o : H2) : EncodedLength.Statement (.faddH2 o) := rfl
theorem EncodedLength.fsubH2 (o : H2) : EncodedLength.Statement (.fsubH2 o) := rfl
theorem EncodedLength.fmulH2 (o : H2) : EncodedLength.Statement (.fmulH2 o) := rfl
theorem EncodedLength.fmaxH2 (o : H2) : EncodedLength.Statement (.fmaxH2 o) := rfl
theorem EncodedLength.fminH2 (o : H2) : EncodedLength.Statement (.fminH2 o) := rfl
theorem EncodedLength.iaddN3 (o : N3) : EncodedLength.Statement (.iaddN3 o) := rfl
theorem EncodedLength.isubN3 (o : N3) : EncodedLength.Statement (.isubN3 o) := rfl
theorem EncodedLength.imulN3 (o : N3) : EncodedLength.Statement (.imulN3 o) := rfl
theorem EncodedLength.iminN3 (o : N3) : EncodedLength.Statement (.iminN3 o) := rfl
theorem EncodedLength.imaxN3 (o : N3) : EncodedLength.Statement (.imaxN3 o) := rfl
theorem EncodedLength.andN3 (o : N3) : EncodedLength.Statement (.andN3 o) := rfl
theorem EncodedLength.orN3 (o : N3) : EncodedLength.Statement (.orN3 o) := rfl
theorem EncodedLength.xorN3 (o : N3) : EncodedLength.Statement (.xorN3 o) := rfl
theorem EncodedLength.andnN3 (o : N3) : EncodedLength.Statement (.andnN3 o) := rfl
theorem EncodedLength.shlN3 (o : N3) : EncodedLength.Statement (.shlN3 o) := rfl
theorem EncodedLength.shrN3 (o : N3) : EncodedLength.Statement (.shrN3 o) := rfl
theorem EncodedLength.sarN3 (o : N3) : EncodedLength.Statement (.sarN3 o) := rfl
theorem EncodedLength.faddN3 (o : N3) : EncodedLength.Statement (.faddN3 o) := rfl
theorem EncodedLength.fsubN3 (o : N3) : EncodedLength.Statement (.fsubN3 o) := rfl
theorem EncodedLength.fmulN3 (o : N3) : EncodedLength.Statement (.fmulN3 o) := rfl
theorem EncodedLength.fminN3 (o : N3) : EncodedLength.Statement (.fminN3 o) := rfl
theorem EncodedLength.fmaxN3 (o : N3) : EncodedLength.Statement (.fmaxN3 o) := rfl
theorem EncodedLength.hadd2N3 (o : N3) : EncodedLength.Statement (.hadd2N3 o) := rfl
theorem EncodedLength.hmul2N3 (o : N3) : EncodedLength.Statement (.hmul2N3 o) := rfl
theorem EncodedLength.badd2N3 (o : N3) : EncodedLength.Statement (.badd2N3 o) := rfl
theorem EncodedLength.bmul2N3 (o : N3) : EncodedLength.Statement (.bmul2N3 o) := rfl
theorem EncodedLength.movN3 (o : N3) : EncodedLength.Statement (.movN3 o) := rfl
theorem EncodedLength.icmpN3 (o : N3) : EncodedLength.Statement (.icmpN3 o) := rfl
theorem EncodedLength.fcmpN3 (o : N3) : EncodedLength.Statement (.fcmpN3 o) := rfl
theorem EncodedLength.iaddi (o : NI) : EncodedLength.Statement (.iaddi o) := rfl
theorem EncodedLength.shli (o : NI) : EncodedLength.Statement (.shli o) := rfl
theorem EncodedLength.shri (o : NI) : EncodedLength.Statement (.shri o) := rfl
theorem EncodedLength.sari (o : NI) : EncodedLength.Statement (.sari o) := rfl
theorem EncodedLength.andi (o : NI) : EncodedLength.Statement (.andi o) := rfl
theorem EncodedLength.ori (o : NI) : EncodedLength.Statement (.ori o) := rfl
theorem EncodedLength.xori (o : NI) : EncodedLength.Statement (.xori o) := rfl
theorem EncodedLength.movi8 (o : NI) : EncodedLength.Statement (.movi8 o) := rfl
theorem EncodedLength.icmpi (o : NI) : EncodedLength.Statement (.icmpi o) := rfl
theorem EncodedLength.ld32 (o : NM) : EncodedLength.Statement (.ld32 o) := rfl
theorem EncodedLength.st32 (o : NM) : EncodedLength.Statement (.st32 o) := rfl
theorem EncodedLength.lds32 (o : NM) : EncodedLength.Statement (.lds32 o) := rfl
theorem EncodedLength.sts32 (o : NM) : EncodedLength.Statement (.sts32 o) := rfl
theorem EncodedLength.jmpNJ (o : NJ) : EncodedLength.Statement (.jmpNJ o) := rfl
theorem EncodedLength.repNP (o : RepFields) : EncodedLength.Statement (.repNP o) := rfl
theorem EncodedLength.iadd (o : Xr) : EncodedLength.Statement (.iadd o) := rfl
theorem EncodedLength.isub (o : Xr) : EncodedLength.Statement (.isub o) := rfl
theorem EncodedLength.iaddc (o : Xr) : EncodedLength.Statement (.iaddc o) := rfl
theorem EncodedLength.isubb (o : Xr) : EncodedLength.Statement (.isubb o) := rfl
theorem EncodedLength.ineg (o : Xr) : EncodedLength.Statement (.ineg o) := rfl
theorem EncodedLength.iabs (o : Xr) : EncodedLength.Statement (.iabs o) := rfl
theorem EncodedLength.imul (o : Xr) : EncodedLength.Statement (.imul o) := rfl
theorem EncodedLength.imulh (o : Xr) : EncodedLength.Statement (.imulh o) := rfl
theorem EncodedLength.imad (o : Xr) : EncodedLength.Statement (.imad o) := rfl
theorem EncodedLength.imadw (o : Xr) : EncodedLength.Statement (.imadw o) := rfl
theorem EncodedLength.idiv (o : Xr) : EncodedLength.Statement (.idiv o) := rfl
theorem EncodedLength.irem (o : Xr) : EncodedLength.Statement (.irem o) := rfl
theorem EncodedLength.imin (o : Xr) : EncodedLength.Statement (.imin o) := rfl
theorem EncodedLength.imax (o : Xr) : EncodedLength.Statement (.imax o) := rfl
theorem EncodedLength.icmp (o : Xr) : EncodedLength.Statement (.icmp o) := rfl
theorem EncodedLength.isel (o : Sel) : EncodedLength.Statement (.isel o) := rfl
theorem EncodedLength.lea (o : Xr) : EncodedLength.Statement (.lea o) := rfl
theorem EncodedLength.iadd64 (o : Xr) : EncodedLength.Statement (.iadd64 o) := rfl
theorem EncodedLength.isub64 (o : Xr) : EncodedLength.Statement (.isub64 o) := rfl
theorem EncodedLength.shl (o : Xr) : EncodedLength.Statement (.shl o) := rfl
theorem EncodedLength.shr (o : Xr) : EncodedLength.Statement (.shr o) := rfl
theorem EncodedLength.sar (o : Xr) : EncodedLength.Statement (.sar o) := rfl
theorem EncodedLength.rol (o : Xr) : EncodedLength.Statement (.rol o) := rfl
theorem EncodedLength.ror (o : Xr) : EncodedLength.Statement (.ror o) := rfl
theorem EncodedLength.fshl (o : Xr) : EncodedLength.Statement (.fshl o) := rfl
theorem EncodedLength.fshr (o : Xr) : EncodedLength.Statement (.fshr o) := rfl
theorem EncodedLength.and (o : Xr) : EncodedLength.Statement (.and o) := rfl
theorem EncodedLength.or (o : Xr) : EncodedLength.Statement (.or o) := rfl
theorem EncodedLength.xor (o : Xr) : EncodedLength.Statement (.xor o) := rfl
theorem EncodedLength.andn (o : Xr) : EncodedLength.Statement (.andn o) := rfl
theorem EncodedLength.not (o : Xr) : EncodedLength.Statement (.not o) := rfl
theorem EncodedLength.lut3 (o : Lut3) : EncodedLength.Statement (.lut3 o) := rfl
theorem EncodedLength.popc (o : Xr) : EncodedLength.Statement (.popc o) := rfl
theorem EncodedLength.clz (o : Xr) : EncodedLength.Statement (.clz o) := rfl
theorem EncodedLength.ctz (o : Xr) : EncodedLength.Statement (.ctz o) := rfl
theorem EncodedLength.brev (o : Xr) : EncodedLength.Statement (.brev o) := rfl
theorem EncodedLength.bfe (o : Xr) : EncodedLength.Statement (.bfe o) := rfl
theorem EncodedLength.bfi (o : Xr) : EncodedLength.Statement (.bfi o) := rfl
theorem EncodedLength.bysel (o : Xr) : EncodedLength.Statement (.bysel o) := rfl
theorem EncodedLength.fadd (o : Xr) : EncodedLength.Statement (.fadd o) := rfl
theorem EncodedLength.fsub (o : Xr) : EncodedLength.Statement (.fsub o) := rfl
theorem EncodedLength.fmul (o : Xr) : EncodedLength.Statement (.fmul o) := rfl
theorem EncodedLength.ffma (o : Xr) : EncodedLength.Statement (.ffma o) := rfl
theorem EncodedLength.fmin (o : Xr) : EncodedLength.Statement (.fmin o) := rfl
theorem EncodedLength.fmax (o : Xr) : EncodedLength.Statement (.fmax o) := rfl
theorem EncodedLength.fminm (o : Xr) : EncodedLength.Statement (.fminm o) := rfl
theorem EncodedLength.fmaxm (o : Xr) : EncodedLength.Statement (.fmaxm o) := rfl
theorem EncodedLength.fcmp (o : Xr) : EncodedLength.Statement (.fcmp o) := rfl
theorem EncodedLength.fsel (o : Sel) : EncodedLength.Statement (.fsel o) := rfl
theorem EncodedLength.frnd (o : Xr) : EncodedLength.Statement (.frnd o) := rfl
theorem EncodedLength.fclass (o : Xr) : EncodedLength.Statement (.fclass o) := rfl
theorem EncodedLength.fscale (o : Fscale) : EncodedLength.Statement (.fscale o) := rfl
theorem EncodedLength.hadd2 (o : Xr) : EncodedLength.Statement (.hadd2 o) := rfl
theorem EncodedLength.hmul2 (o : Xr) : EncodedLength.Statement (.hmul2 o) := rfl
theorem EncodedLength.hfma2 (o : Xr) : EncodedLength.Statement (.hfma2 o) := rfl
theorem EncodedLength.badd2 (o : Xr) : EncodedLength.Statement (.badd2 o) := rfl
theorem EncodedLength.bmul2 (o : Xr) : EncodedLength.Statement (.bmul2 o) := rfl
theorem EncodedLength.bfma2 (o : Xr) : EncodedLength.Statement (.bfma2 o) := rfl
theorem EncodedLength.frcp (o : Xr) : EncodedLength.Statement (.frcp o) := rfl
theorem EncodedLength.frsq (o : Xr) : EncodedLength.Statement (.frsq o) := rfl
theorem EncodedLength.fsqrt (o : Xr) : EncodedLength.Statement (.fsqrt o) := rfl
theorem EncodedLength.fexp2 (o : Xr) : EncodedLength.Statement (.fexp2 o) := rfl
theorem EncodedLength.flog2 (o : Xr) : EncodedLength.Statement (.flog2 o) := rfl
theorem EncodedLength.fdiv (o : Xr) : EncodedLength.Statement (.fdiv o) := rfl
theorem EncodedLength.cvt (o : Cvt) : EncodedLength.Statement (.cvt o) := rfl
theorem EncodedLength.cvt8 (o : Pack) : EncodedLength.Statement (.cvt8 o) := rfl
theorem EncodedLength.wid8 (o : Pack) : EncodedLength.Statement (.wid8 o) := rfl
theorem EncodedLength.cvt4 (o : Pack) : EncodedLength.Statement (.cvt4 o) := rfl
theorem EncodedLength.wid4 (o : Pack) : EncodedLength.Statement (.wid4 o) := rfl
theorem EncodedLength.mov (o : Xr) : EncodedLength.Statement (.mov o) := rfl
theorem EncodedLength.movi (o : Movi) : EncodedLength.Statement (.movi o) := rfl
theorem EncodedLength.movs (o : Movs) : EncodedLength.Statement (.movs o) := rfl
theorem EncodedLength.rdl (o : Xr) : EncodedLength.Statement (.rdl o) := rfl
theorem EncodedLength.rdsr (o : Sr) : EncodedLength.Statement (.rdsr o) := rfl
theorem EncodedLength.wrsr (o : Sr) : EncodedLength.Statement (.wrsr o) := rfl
theorem EncodedLength.shfl (o : Shfl) : EncodedLength.Statement (.shfl o) := rfl
theorem EncodedLength.vote (o : Vote) : EncodedLength.Statement (.vote o) := rfl
theorem EncodedLength.tred (o : Tred) : EncodedLength.Statement (.tred o) := rfl
theorem EncodedLength.part (o : PartOp) : EncodedLength.Statement (.part o) := rfl
theorem EncodedLength.xrng (o : Xrng) : EncodedLength.Statement (.xrng o) := rfl
theorem EncodedLength.xsort (o : Xsort) : EncodedLength.Statement (.xsort o) := rfl
theorem EncodedLength.xqnt (o : Xqnt) : EncodedLength.Statement (.xqnt o) := rfl
theorem EncodedLength.xdqnt (o : Xdqnt) : EncodedLength.Statement (.xdqnt o) := rfl
theorem EncodedLength.br (o : Br) : EncodedLength.Statement (.br o) := rfl
theorem EncodedLength.bru (o : Jump) : EncodedLength.Statement (.bru o) := rfl
theorem EncodedLength.jmp (o : Jump) : EncodedLength.Statement (.jmp o) := rfl
theorem EncodedLength.jmpr (o : JumpReg) : EncodedLength.Statement (.jmpr o) := rfl
theorem EncodedLength.brx (o : Brx) : EncodedLength.Statement (.brx o) := rfl
theorem EncodedLength.call (o : Jump) : EncodedLength.Statement (.call o) := rfl
theorem EncodedLength.callr (o : JumpReg) : EncodedLength.Statement (.callr o) := rfl
theorem EncodedLength.ret (o : JumpReg) : EncodedLength.Statement (.ret o) := rfl
theorem EncodedLength.exit (o : Head) : EncodedLength.Statement (.exit o) := rfl
theorem EncodedLength.join (o : Head) : EncodedLength.Statement (.join o) := rfl
theorem EncodedLength.yield (o : Head) : EncodedLength.Statement (.yield o) := rfl
theorem EncodedLength.nop (o : Head) : EncodedLength.Statement (.nop o) := rfl
theorem EncodedLength.rep (o : Rep) : EncodedLength.Statement (.rep o) := rfl
theorem EncodedLength.sleep (o : Xi) : EncodedLength.Statement (.sleep o) := rfl
theorem EncodedLength.ld (o : Xm) : EncodedLength.Statement (.ld o) := rfl
theorem EncodedLength.st (o : Xm) : EncodedLength.Statement (.st o) := rfl
theorem EncodedLength.lds (o : Xp) : EncodedLength.Statement (.lds o) := rfl
theorem EncodedLength.sts (o : Xp) : EncodedLength.Statement (.sts o) := rfl
theorem EncodedLength.ldl (o : Xp) : EncodedLength.Statement (.ldl o) := rfl
theorem EncodedLength.stl (o : Xp) : EncodedLength.Statement (.stl o) := rfl
theorem EncodedLength.ldc (o : Xp) : EncodedLength.Statement (.ldc o) := rfl
theorem EncodedLength.lda (o : Xm) : EncodedLength.Statement (.lda o) := rfl
theorem EncodedLength.atom (o : Xa) : EncodedLength.Statement (.atom o) := rfl
theorem EncodedLength.red (o : Xa) : EncodedLength.Statement (.red o) := rfl
theorem EncodedLength.atoms (o : Xas) : EncodedLength.Statement (.atoms o) := rfl
theorem EncodedLength.lr (o : Xm) : EncodedLength.Statement (.lr o) := rfl
theorem EncodedLength.sc (o : Xm) : EncodedLength.Statement (.sc o) := rfl
theorem EncodedLength.fence (o : Xm) : EncodedLength.Statement (.fence o) := rfl
theorem EncodedLength.waita (o : Waita) : EncodedLength.Statement (.waita o) := rfl
theorem EncodedLength.pref (o : Xm) : EncodedLength.Statement (.pref o) := rfl
theorem EncodedLength.lock (o : Xm) : EncodedLength.Statement (.lock o) := rfl
theorem EncodedLength.unlock (o : Xm) : EncodedLength.Statement (.unlock o) := rfl
theorem EncodedLength.bank (o : Bank) : EncodedLength.Statement (.bank o) := rfl
theorem EncodedLength.mst (o : Xm) : EncodedLength.Statement (.mst o) := rfl
theorem EncodedLength.barv (o : Xs) : EncodedLength.Statement (.barv o) := rfl
theorem EncodedLength.bwait (o : Xs) : EncodedLength.Statement (.bwait o) := rfl
theorem EncodedLength.bgrp (o : Xs) : EncodedLength.Statement (.bgrp o) := rfl
theorem EncodedLength.boinit (o : Xs) : EncodedLength.Statement (.boinit o) := rfl
theorem EncodedLength.boarv (o : Xs) : EncodedLength.Statement (.boarv o) := rfl
theorem EncodedLength.bowait (o : Xs) : EncodedLength.Statement (.bowait o) := rfl
theorem EncodedLength.botest (o : Xs) : EncodedLength.Statement (.botest o) := rfl
theorem EncodedLength.boexp (o : Xs) : EncodedLength.Statement (.boexp o) := rfl
theorem EncodedLength.mlw (o : Mlw) : EncodedLength.Statement (.mlw o) := rfl
theorem EncodedLength.mma (o : Mma) : EncodedLength.Statement (.mma o) := rfl
theorem EncodedLength.mdr (o : Mdr) : EncodedLength.Statement (.mdr o) := rfl
theorem EncodedLength.mzr (o : Mzr) : EncodedLength.Statement (.mzr o) := rfl
theorem EncodedLength.mrs (o : Mrs) : EncodedLength.Statement (.mrs o) := rfl
theorem EncodedLength.mws (o : Mws) : EncodedLength.Statement (.mws o) := rfl
theorem EncodedLength.copy (o : Copy) : EncodedLength.Statement (.copy o) := rfl
theorem EncodedLength.copym (o : Copy) : EncodedLength.Statement (.copym o) := rfl
theorem EncodedLength.copyl (o : Copy) : EncodedLength.Statement (.copyl o) := rfl
theorem EncodedLength.copyx (o : Copyx) : EncodedLength.Statement (.copyx o) := rfl
theorem EncodedLength.hwait (o : Hw) : EncodedLength.Statement (.hwait o) := rfl
theorem EncodedLength.htest (o : Hw) : EncodedLength.Statement (.htest o) := rfl
theorem EncodedLength.hcan (o : OpA) : EncodedLength.Statement (.hcan o) := rfl
theorem EncodedLength.hsav (o : OpAB) : EncodedLength.Statement (.hsav o) := rfl
theorem EncodedLength.hld (o : OpDA) : EncodedLength.Statement (.hld o) := rfl
theorem EncodedLength.scan (o : Scan) : EncodedLength.Statement (.scan o) := rfl
theorem EncodedLength.topk (o : OpDA) : EncodedLength.Statement (.topk o) := rfl
theorem EncodedLength.smax (o : ChainOp) : EncodedLength.Statement (.smax o) := rfl
theorem EncodedLength.samp (o : ChainOp) : EncodedLength.Statement (.samp o) := rfl
theorem EncodedLength.cjoin (o : Cjoin) : EncodedLength.Statement (.cjoin o) := rfl
theorem EncodedLength.csend (o : OpA) : EncodedLength.Statement (.csend o) := rfl
theorem EncodedLength.crecv (o : OpD) : EncodedLength.Statement (.crecv o) := rfl
theorem EncodedLength.cleave (o : Head) : EncodedLength.Statement (.cleave o) := rfl
theorem EncodedLength.launch (o : Launch) : EncodedLength.Statement (.launch o) := rfl
theorem EncodedLength.lqry (o : OpDA) : EncodedLength.Statement (.lqry o) := rfl
theorem EncodedLength.trap (o : Xi) : EncodedLength.Statement (.trap o) := rfl
theorem EncodedLength.rte (o : Head) : EncodedLength.Statement (.rte o) := rfl
theorem EncodedLength.bkpt (o : Xi) : EncodedLength.Statement (.bkpt o) := rfl
theorem EncodedLength.trace (o : OpA) : EncodedLength.Statement (.trace o) := rfl
theorem EncodedLength.nopre (o : Head) : EncodedLength.Statement (.nopre o) := rfl
theorem EncodedLength.preok (o : Head) : EncodedLength.Statement (.preok o) := rfl
theorem EncodedLength.l1inv (o : OpAB) : EncodedLength.Statement (.l1inv o) := rfl
theorem EncodedLength.powerGood (img : FirmwareImage) (tr : Training) : EncodedLength.Statement (.powerGood img tr) := rfl
theorem EncodedLength.functionLevelReset (tr : Training) : EncodedLength.Statement (.functionLevelReset tr) := rfl
theorem EncodedLength.recoveryImageLoad (img : FirmwareImage) (tr : Training) : EncodedLength.Statement (.recoveryImageLoad img tr) := rfl
theorem EncodedLength.registerWrite (off : Nat) (v : Word) : EncodedLength.Statement (.registerWrite off v) := rfl
theorem EncodedLength.qwptrWrite (q : Fin 64) (v : Word) : EncodedLength.Statement (.qwptrWrite q v) := rfl
theorem EncodedLength.qctlWrite (q : Fin 64) (v : Word) : EncodedLength.Statement (.qctlWrite q v) := rfl
theorem EncodedLength.qstatWrite (q : Fin 64) (v : Word) : EncodedLength.Statement (.qstatWrite q v) := rfl
theorem EncodedLength.eventCounterWrite (idx : Fin 4096) (v : DWord) : EncodedLength.Statement (.eventCounterWrite idx v) := rfl
theorem EncodedLength.nopPacket (q : Fin 64) : EncodedLength.Statement (.nopPacket q) := rfl
theorem EncodedLength.klaunch (q : Fin 64) : EncodedLength.Statement (.klaunch q) := rfl
theorem EncodedLength.evsig (q : Fin 64) : EncodedLength.Statement (.evsig q) := rfl
theorem EncodedLength.evwait (q : Fin 64) : EncodedLength.Statement (.evwait q) := rfl
theorem EncodedLength.evwaitSatisfied (q : Fin 64) : EncodedLength.Statement (.evwaitSatisfied q) := rfl
theorem EncodedLength.vdef (q : Fin 64) : EncodedLength.Statement (.vdef q) := rfl
theorem EncodedLength.mapflush (q : Fin 64) : EncodedLength.Statement (.mapflush q) := rfl
theorem EncodedLength.mapflushComplete (q : Fin 64) : EncodedLength.Statement (.mapflushComplete q) := rfl
theorem EncodedLength.launchStart (lid : Nat) : EncodedLength.Statement (.launchStart lid) := rfl
theorem EncodedLength.blockPlace : EncodedLength.Statement (.blockPlace) := rfl
theorem EncodedLength.coopLaunchPlace (lid : Nat) : EncodedLength.Statement (.coopLaunchPlace lid) := rfl
theorem EncodedLength.chainLaunchPlace (lid : Nat) : EncodedLength.Statement (.chainLaunchPlace lid) := rfl
theorem EncodedLength.coopHeadWaitExpiry (lid : Nat) : EncodedLength.Statement (.coopHeadWaitExpiry lid) := rfl
theorem EncodedLength.issueCycle (core : Nat) : EncodedLength.Statement (.issueCycle core) := rfl
theorem EncodedLength.fairnessRotation (w : WarpRef) : EncodedLength.Statement (.fairnessRotation w) := rfl
theorem EncodedLength.joinPark (f : FragRef) : EncodedLength.Statement (.joinPark f) := rfl
theorem EncodedLength.branchConfirm (f : FragRef) : EncodedLength.Statement (.branchConfirm f) := rfl
theorem EncodedLength.repIteration (w : WarpRef) : EncodedLength.Statement (.repIteration w) := rfl
theorem EncodedLength.fragmentWake (f : FragRef) : EncodedLength.Statement (.fragmentWake f) := rfl
theorem EncodedLength.sleepWake (f : FragRef) : EncodedLength.Statement (.sleepWake f) := rfl
theorem EncodedLength.waitaWake (f : FragRef) : EncodedLength.Statement (.waitaWake f) := rfl
theorem EncodedLength.waitaTimeout (f : FragRef) : EncodedLength.Statement (.waitaTimeout f) := rfl
theorem EncodedLength.waitaReread (f : FragRef) : EncodedLength.Statement (.waitaReread f) := rfl
theorem EncodedLength.fenceReleaseEnd (f : FragRef) : EncodedLength.Statement (.fenceReleaseEnd f) := rfl
theorem EncodedLength.loadResult (id : Nat) : EncodedLength.Statement (.loadResult id) := rfl
theorem EncodedLength.writeTimesReturn (id : Nat) : EncodedLength.Statement (.writeTimesReturn id) := rfl
theorem EncodedLength.transformPipeReply (w : WarpRef) : EncodedLength.Statement (.transformPipeReply w) := rfl
theorem EncodedLength.sliceLeaseRequest (id : Nat) : EncodedLength.Statement (.sliceLeaseRequest id) := rfl
theorem EncodedLength.sliceWrite (id : Nat) : EncodedLength.Statement (.sliceWrite id) := rfl
theorem EncodedLength.sliceRead (id : Nat) : EncodedLength.Statement (.sliceRead id) := rfl
theorem EncodedLength.sliceAtomic (id : Nat) : EncodedLength.Statement (.sliceAtomic id) := rfl
theorem EncodedLength.remoteRequest (r : RemoteEvent) : EncodedLength.Statement (.remoteRequest r) := rfl
theorem EncodedLength.remoteRequestTimeout (id : Nat) : EncodedLength.Statement (.remoteRequestTimeout id) := rfl
theorem EncodedLength.hostMemoryWrite (off : Nat) (bytes : List Byte) : EncodedLength.Statement (.hostMemoryWrite off bytes) := rfl
theorem EncodedLength.hostMemoryRead (off len : Nat) : EncodedLength.Statement (.hostMemoryRead off len) := rfl
theorem EncodedLength.faultRecordWrite : EncodedLength.Statement (.faultRecordWrite) := rfl
theorem EncodedLength.fresumeRetry (id : Nat) : EncodedLength.Statement (.fresumeRetry id) := rfl
theorem EncodedLength.fresumeFail (id : Nat) : EncodedLength.Statement (.fresumeFail id) := rfl
theorem EncodedLength.blockEnd (b : Nat) : EncodedLength.Statement (.blockEnd b) := rfl
theorem EncodedLength.kernelBoundary (lid : Nat) : EncodedLength.Statement (.kernelBoundary lid) := rfl
theorem EncodedLength.kernelTreeEnd (lid : Nat) : EncodedLength.Statement (.kernelTreeEnd lid) := rfl
theorem EncodedLength.preqGo (q : Fin 64) : EncodedLength.Statement (.preqGo q) := rfl
theorem EncodedLength.autoPreempt (lid : Nat) : EncodedLength.Statement (.autoPreempt lid) := rfl
theorem EncodedLength.nopreWindowExpiry (w : WarpRef) : EncodedLength.Statement (.nopreWindowExpiry w) := rfl
theorem EncodedLength.contextSaveComplete (b : Nat) : EncodedLength.Statement (.contextSaveComplete b) := rfl
theorem EncodedLength.blockRestore (b : Nat) : EncodedLength.Statement (.blockRestore b) := rfl
theorem EncodedLength.migrationStart (b : Nat) (column : Fin 40) : EncodedLength.Statement (.migrationStart b column) := rfl
theorem EncodedLength.migrationAbandon (b : Nat) : EncodedLength.Statement (.migrationAbandon b) := rfl
theorem EncodedLength.migrationResume (b : Nat) : EncodedLength.Statement (.migrationResume b) := rfl
theorem EncodedLength.dieDrop (die : Fin 8) : EncodedLength.Statement (.dieDrop die) := rfl
theorem EncodedLength.dieFailure (die : Fin 8) : EncodedLength.Statement (.dieFailure die) := rfl
theorem EncodedLength.droopStretch (column : Fin 40) (ratio : Nat) : EncodedLength.Statement (.droopStretch column ratio) := rfl
theorem EncodedLength.powerLimitStretch (ratio : Nat) : EncodedLength.Statement (.powerLimitStretch ratio) := rfl
theorem EncodedLength.columnOvertemp (column : Fin 40) : EncodedLength.Statement (.columnOvertemp column) := rfl
theorem EncodedLength.moduleOvertempShutdown : EncodedLength.Statement (.moduleOvertempShutdown) := rfl
theorem EncodedLength.linkDegrade (port : Fin 18) (lanes : Nat) : EncodedLength.Statement (.linkDegrade port lanes) := rfl
theorem EncodedLength.cxlPortDown (port : Fin 4) : EncodedLength.Statement (.cxlPortDown port) := rfl
theorem EncodedLength.podSyncLoss : EncodedLength.Statement (.podSyncLoss) := rfl
theorem EncodedLength.attestationRequest : EncodedLength.Statement (.attestationRequest) := rfl
theorem EncodedLength.debugHalt (v : Word) : EncodedLength.Statement (.debugHalt v) := rfl
theorem EncodedLength.debugResume (v : Word) : EncodedLength.Statement (.debugResume v) := rfl
theorem EncodedLength.debugStep (v : Word) : EncodedLength.Statement (.debugStep v) := rfl
theorem EncodedLength.dbgdataRead : EncodedLength.Statement (.dbgdataRead) := rfl
theorem EncodedLength.dbgdataWrite (v : DWord) : EncodedLength.Statement (.dbgdataWrite v) := rfl
theorem EncodedLength.faultRingControl (v : Word) : EncodedLength.Statement (.faultRingControl v) := rfl
theorem EncodedLength.errorRingControl (v : Word) : EncodedLength.Statement (.errorRingControl v) := rfl
theorem EncodedLength.profilingRingControl (v : Word) : EncodedLength.Statement (.profilingRingControl v) := rfl
theorem EncodedLength.traceControl (v : Word) : EncodedLength.Statement (.traceControl v) := rfl
theorem EncodedLength.tgctlWrite (n : Fin 4) (v : Word) : EncodedLength.Statement (.tgctlWrite n v) := rfl
theorem EncodedLength.triggerStateChange (core : Nat) (n : Fin 4) : EncodedLength.Statement (.triggerStateChange core n) := rfl
theorem EncodedLength.profileSample (core : Nat) : EncodedLength.Statement (.profileSample core) := rfl
theorem EncodedLength.engineComplete (id : Nat) : EncodedLength.Statement (.engineComplete id) := rfl
theorem EncodedLength.mlwLoadComplete (id : Nat) : EncodedLength.Statement (.mlwLoadComplete id) := rfl
theorem EncodedLength.mmaRow (id : Nat) : EncodedLength.Statement (.mmaRow id) := rfl
theorem EncodedLength.mdrRow (id : Nat) : EncodedLength.Statement (.mdrRow id) := rfl
theorem EncodedLength.mzrEngineZero (id : Nat) : EncodedLength.Statement (.mzrEngineZero id) := rfl
theorem EncodedLength.copyChunk (id chunk : Nat) : EncodedLength.Statement (.copyChunk id chunk) := rfl
theorem EncodedLength.ldaDelivery (id : Nat) : EncodedLength.Statement (.ldaDelivery id) := rfl
theorem EncodedLength.scanEngineRun (id : Nat) : EncodedLength.Statement (.scanEngineRun id) := rfl
theorem EncodedLength.chainEntryDeliver (b : Nat) : EncodedLength.Statement (.chainEntryDeliver b) := rfl
theorem EncodedLength.barrierArrival (g : Nat) (b : Nat) : EncodedLength.Statement (.barrierArrival g b) := rfl
theorem EncodedLength.barrierComplete (g : Nat) : EncodedLength.Statement (.barrierComplete g) := rfl
theorem EncodedLength.launchSumpRoom (f : FragRef) : EncodedLength.Statement (.launchSumpRoom f) := rfl
theorem EncodedLength.correctedErrorRateLimit : EncodedLength.Statement (.correctedErrorRateLimit) := rfl
theorem EncodedLength.hostWriteTakesEffect : EncodedLength.Statement (.hostWriteTakesEffect) := rfl

end Sys2Proof.Laws
end

