-- ==== Sys2Proof/Laws/Results.lean ====
section
/-! SUPPORT. The result forms of lane instructions: a word, a pair or flags alone, each with its frame. A statement about one
instruction follows from the form's lemma and the instruction's own `sem`. -/

namespace Sys2Proof.Machine

theorem Warp.vl_put (w : Warp) (m : LaneMask) (d n : Nat) (c set : Bool) (f : Lane → Word × CC) (l : Lane) :
    (w.put m d c set f).vl n l = if d = n ∧ d < 128 ∧ m.getLsbD l.val then (f l).1 else w.vl n l := by
  unfold Warp.put
  cases c <;> simp [Warp.vl_setV]

theorem Warp.cc_put (w : Warp) (m : LaneMask) (d : Nat) (c set k : Bool) (f : Lane → Word × CC) (l : Lane) :
    (w.put m d c set f).cc k l = if c = true ∧ set = k ∧ m.getLsbD l.val then (f l).2 else w.cc k l := by
  unfold Warp.put
  cases c <;> simp [Warp.cc_setCC]

theorem Warp.cc_putP (w : Warp) (m : LaneMask) (d : Nat) (c set k : Bool) (f : Lane → DWord × CC) (l : Lane) :
    (w.putP m d c set f).cc k l = if c = true ∧ set = k ∧ m.getLsbD l.val then (f l).2 else w.cc k l := by
  unfold Warp.putP
  cases c <;> simp [Warp.cc_setCC]

theorem Warp.vl_putP (w : Warp) (m : LaneMask) (d n : Nat) (c set : Bool) (f : Lane → DWord × CC) (l : Lane) :
    (w.putP m d c set f).vl n l = if d + 1 = n ∧ d + 1 < 128 ∧ m.getLsbD l.val then hiOf (f l).1
      else if d = n ∧ d < 128 ∧ m.getLsbD l.val then loOf (f l).1 else w.vl n l := by
  unfold Warp.putP
  cases c <;> simp [Warp.vl_setVP]

theorem Warp.vp_putP (w : Warp) (m : LaneMask) (d : Nat) (c set : Bool) (f : Lane → DWord × CC) (l : Lane)
    (hd : d + 1 < 128) (hl : m.getLsbD l.val = true) : (w.putP m d c set f).vp d l = (f l).1 := by
  rw [Warp.vp, Warp.vl_putP, Warp.vl_putP, if_neg (by omega), if_pos ⟨rfl, by omega, hl⟩, if_pos ⟨rfl, hd, hl⟩, pairOf_halves]

/-- A warp whose v registers and flags alone were written keeps the rest. -/
theorem laneKeeps_of {i : Instr} {c : Ctx} {w : Warp} (hw : ∃ v c0 c1, w = { c.w with v := v, cc0 := c0, cc1 := c1 })
    (hv : ∀ n l, ((RegClass.v, n) ∉ writesRegs i ∨ (c.lanes i).getLsbD l.val = false) → w.vl n l = c.w.vl n l)
    (hcc : ∀ k l, (i.layout.ccOut ≠ some k ∨ (c.lanes i).getLsbD l.val = false) → w.cc k l = c.w.cc k l) :
    LaneKeeps i c w := by
  obtain ⟨v, c0, c1, rfl⟩ := hw
  exact ⟨rfl, rfl, rfl, ⟨hv, fun _ _ => rfl, fun _ _ => rfl, hcc⟩, ⟨rfl, rfl, rfl⟩,
    ⟨rfl, rfl, rfl, rfl, rfl, rfl, rfl, rfl, rfl, rfl, rfl, rfl⟩, fun _ => ⟨rfl, rfl⟩⟩

theorem Warp.put_fields (w : Warp) (m : LaneMask) (d : Nat) (c set : Bool) (f : Lane → Word × CC) :
    ∃ v c0 c1, w.put m d c set f = { w with v := v, cc0 := c0, cc1 := c1 } := by
  unfold Warp.put Warp.setCC
  cases c <;> cases set <;> exact ⟨_, _, _, rfl⟩

theorem Warp.putP_fields (w : Warp) (m : LaneMask) (d : Nat) (c set : Bool) (f : Lane → DWord × CC) :
    ∃ v c0 c1, w.putP m d c set f = { w with v := v, cc0 := c0, cc1 := c1 } := by
  unfold Warp.putP Warp.setCC
  cases c <;> cases set <;> exact ⟨_, _, _, rfl⟩

theorem vl_of_v {w w' : Warp} (h : w.v = w'.v) (n : Nat) (l : Lane) : w.vl n l = w'.vl n l := by
  simp [Warp.vl, Warp.vr, h]

theorem vp_of_v {w w' : Warp} (h : w.v = w'.v) (n : Nat) (l : Lane) : w.vp n l = w'.vp n l := by
  simp [Warp.vp, vl_of_v h]

theorem cc_of_cc {w w' : Warp} (h0 : w.cc0 = w'.cc0) (h1 : w.cc1 = w'.cc1) (k : Bool) (l : Lane) : w.cc k l = w'.cc k l := by
  simp [Warp.cc, h0, h1]

/-- Where a compare executes normally, its issue is an instruction's. -/
theorem issueCmp_of_issues {i : Instr} {s : State} {c : Ctx} (h : Issues i s c) :
    issueCmp i s = issue i (lane (cmpSem i)) s := by
  have hc : s.cur.bind s.ctx? = some c := by rw [h.cur]; exact h.ctx
  rw [issue_of_issues _ h]
  simp only [issueCmp, hc, gate_none h]
  rfl

/-- An instruction whose effect is one `put` gives the word. -/
theorem givesWord_of {i : Instr} {d : Nat} {c set : Bool} {f : Warp → Lane → Word × CC} (g : LaneMask → Warp → Warp)
    (hx : ∀ s c, Issues i s c → exec i s = issue i (lane g) s) (hg : ∀ m w, g m w = w.put m d c set (f w)) (hd : d < 128)
    (hw : (RegClass.v, d) ∈ writesRegs i) (hc : i.layout.ccOut = if c then some set else none) : GivesWord i d f := by
  intro s x h
  obtain ⟨t, w, he, ht, hf, hv, -, -, h0, h1⟩ := lane_completes g h (by
    rw [hg]
    refine laneKeeps_of (Warp.put_fields _ _ _ _ _ _) (fun n l hn => ?_) (fun k l hk => ?_)
    · rw [Warp.vl_put, if_neg]
      rintro ⟨rfl, -, hl⟩
      rcases hn with hn | hn
      · exact hn hw
      · rw [hn] at hl; cases hl
    · rw [Warp.cc_put, if_neg]
      rintro ⟨rfl, rfl, hl⟩
      rcases hk with hk | hk
      · exact hk hc
      · rw [hk] at hl; cases hl)
  refine ⟨t, w, (hx s x h).trans he, ht, hf, fun l hl => ⟨?_, fun k hk => ?_⟩⟩
  · rw [vl_of_v hv, hg, Warp.vl_put, if_pos ⟨rfl, hd, hl⟩]
  · rw [cc_of_cc h0 h1, hg, Warp.cc_put, if_pos]
    rw [hc] at hk
    cases c
    · cases hk
    · exact ⟨rfl, Option.some.inj hk, hl⟩

/-- An instruction whose effect is one `putP` gives the pair. -/
theorem givesPair_of {i : Instr} {d : Nat} {c set : Bool} {f : Warp → Lane → DWord × CC} (g : LaneMask → Warp → Warp)
    (hx : ∀ s c, Issues i s c → exec i s = issue i (lane g) s) (hg : ∀ m w, g m w = w.putP m d c set (f w))
    (hd : ∀ s x, Issues i s x → d + 1 < 128)
    (hw : (RegClass.v, d) ∈ writesRegs i ∧ (RegClass.v, d + 1) ∈ writesRegs i)
    (hc : i.layout.ccOut = if c then some set else none) : GivesPair i d f := by
  intro s x h
  obtain ⟨t, w, he, ht, hf, hv, -, -, h0, h1⟩ := lane_completes g h (by
    rw [hg]
    refine laneKeeps_of (Warp.putP_fields _ _ _ _ _ _) (fun n l hn => ?_) (fun k l hk => ?_)
    · rw [Warp.vl_putP, if_neg, if_neg] <;>
      · rintro ⟨rfl, -, hl⟩
        rcases hn with hn | hn
        · first | exact hn hw.1 | exact hn hw.2
        · rw [hn] at hl; cases hl
    · rw [Warp.cc_putP, if_neg]
      rintro ⟨rfl, rfl, hl⟩
      rcases hk with hk | hk
      · exact hk hc
      · rw [hk] at hl; cases hl)
  refine ⟨t, w, (hx s x h).trans he, ht, hf, fun l hl => ⟨?_, fun k hk => ?_⟩⟩
  · rw [vp_of_v hv, hg, Warp.vp_putP _ _ _ _ _ _ _ (hd s x h) hl]
  · rw [cc_of_cc h0 h1, hg, Warp.cc_putP, if_pos]
    rw [hc] at hk
    cases c
    · cases hk
    · exact ⟨rfl, Option.some.inj hk, hl⟩

/-- A compare gives the flags alone. -/
theorem givesFlags_of {i : Instr} {set : Bool} {f : Warp → Lane → CC} (g : LaneMask → Warp → Warp)
    (hx : ∀ s c, Issues i s c → exec i s = issue i (lane g) s) (hg : ∀ m w, g m w = w.putCC m set (f w))
    (hc : i.wellFormed = true → i.layout.ccOut = some set) : GivesFlags i f := by
  intro s x h
  have hc := hc h.wf
  obtain ⟨t, w, he, ht, hf, -, -, -, h0, h1⟩ := lane_completes g h (by
    rw [hg, Warp.putCC]
    refine laneKeeps_of (by unfold Warp.setCC; cases set <;> exact ⟨_, _, _, rfl⟩) (fun n l _ => by simp) (fun k l hk => ?_)
    rw [Warp.cc_setCC, if_neg]
    rintro ⟨rfl, hl⟩
    rcases hk with hk | hk
    · exact hk hc
    · rw [hk] at hl; cases hl)
  refine ⟨t, w, (hx s x h).trans he, ht, hf, fun l hl k hk => ?_⟩
  rw [cc_of_cc h0 h1, hg, Warp.putCC, Warp.cc_setCC, if_pos ⟨Option.some.inj (hc.symm.trans hk), hl⟩]

end Sys2Proof.Machine
end

