-- ==== Sys2Proof/Tests/Slice0.lean ====
section
/-! SUPPORT. Tests: words of the spec's encodings, well-formedness, and for every statement a state that meets its hypotheses. -/

namespace Sys2Proof.Tests

open Sys2Proof Sys2Proof.Machine

set_option Elab.async false

/-! ### The states of the tests -/

/-- The fragment of the tests. -/
def r0 : FragRef := ⟨1, 0, .entry 0⟩

/-- One warp of a running launch that stands at 0x10000 and issues (Step.lean), at a microsecond. -/
def base : State := { State.reset.withFetchWord 64 0 with picks := [], cur := some r0, time := 1000 }

def warp (f : Warp → Warp) (s : State := base) : State := s.modWarp 1 0 f
def frag (f : Frag → Frag) (s : State := base) : State := s.modFrag r0 f
def block (f : Block → Block) (s : State := base) : State := s.modBlock 1 f
def launch (f : Machine.Launch → Machine.Launch) (s : State := base) : State := s.modLaunch 1 f

/-- `Issues`, evaluated. -/
def issuesB (i : Instr) (s : State) (c : Ctx) : Bool :=
  let os := i.layout.opnds (vaultDims s c.l.asid c.w i.layout)
  i.wellFormed && s.cur == some c.ref && !isPath c.ref.sel && (!i.layout.isMatrix || decide (0 < c.l.desc.tiles)) &&
    os.all (·.legal c.l.desc.regs c.l.desc.tiles) &&
    (!i.layout.needsAl || (match i.layout.head with | some h => h.guard == .al | none => true)) &&
    os.all (fun o => !(o.src || o.dst) || o.regs.all (regFull c.b c.w)) && suspendedOn c.b c.ref.warp c.w i.layout os == none &&
    (!i.layout.isEngine || c.f.mask == 0xFFFF_FFFF) && (!i.layout.isAccess || c.f.acquire.isNone) &&
    (!i.layout.awaitsWalk || decide (c.f.walkEnd ≤ s.time)) &&
    (!i.layout.sendsRequests ||
      decide ((s.reqs.filter fun q => q.core == c.b.core).length + popcount c.f.mask ≤ Config.maxRequests))

theorem ctx_ref {s : State} {r : FragRef} {c : Ctx} (h : s.ctx? r = some c) : c.ref = r := by
  simp only [State.ctx?, Option.bind_eq_bind, Option.bind_eq_some_iff, Option.pure_def, Option.some.injEq] at h
  obtain ⟨_, _, _, _, _, _, _, _, rfl⟩ := h
  rfl

theorem issues_of {i : Instr} {s : State} {c : Ctx} (h : s.ctx? r0 = some c) (hb : issuesB i s c = true) : Issues i s c := by
  have hr := ctx_ref h
  simp only [issuesB, Bool.and_eq_true, Bool.or_eq_true, Bool.not_eq_true', decide_eq_true_eq, List.all_eq_true,
    beq_iff_eq] at hb
  obtain ⟨⟨⟨⟨⟨⟨⟨⟨⟨⟨⟨h1, h2⟩, h3⟩, h4⟩, h5⟩, h6⟩, h7⟩, h8⟩, h9⟩, h10⟩, h11⟩, h12⟩ := hb
  refine ⟨h1, h2, hr ▸ h, h3, fun h => ?_, h5, fun h g hg => ?_, fun o ho hs r hr => ?_, h8, fun h => ?_, fun h => ?_,
    fun h => h11.resolve_left (by simp [h]), fun h => h12.resolve_left (by simp [h])⟩
  · exact h4.resolve_left (by simp [h])
  · have := h6.resolve_left (by simp [h])
    simpa [hg] using this
  · refine (h7 o ho).resolve_left (by rcases hs with h | h <;> simp [h]) r hr
  · exact h9.resolve_left (by simp [h])
  · simpa using h10.resolve_left (by simp [h])

/-- Some state and fragment meet the hypotheses of a statement about an instruction. -/
def Has (i : Instr) (P : State → Ctx → Prop) : Prop := ∃ s c, Issues i s c ∧ P s c

/-- Where the fragment of the tests meets them in a state. -/
theorem has {i : Instr} {P : State → Ctx → Prop} [∀ s c, Decidable (P s c)] (s : State)
    (h : (match s.ctx? r0 with | some c => issuesB i s c && decide (P s c) | none => false) = true) : Has i P := by
  split at h
  · rename_i c hc
    rw [Bool.and_eq_true, decide_eq_true_eq] at h
    exact ⟨s, c, issues_of hc h.1, h.2⟩
  · cases h

/-- Some fragment in some state meets the hypotheses of a statement about a fragment. -/
def At (P : State → Ctx → Prop) : Prop := ∃ s c, s.ctx? c.ref = some c ∧ P s c

theorem stands {P : State → Ctx → Prop} [∀ s c, Decidable (P s c)] (s : State)
    (h : (match s.ctx? r0 with | some c => decide (P s c) | none => false) = true) : At P := by
  split at h
  · rename_i c hc
    exact ⟨s, c, ctx_ref hc ▸ hc, of_decide_eq_true h⟩
  · cases h

def al : Head := ⟨false, false, false, .al, false⟩

/-- Every v register i of every lane holds l + n. -/
def vreg (i : Nat) (n : Lane → Word) (s : State := base) : State := warp (fun w => w.setV i 0xFFFF_FFFF n) s
def sreg (i : Nat) (n : Word) (s : State := base) : State := warp (fun w => w.setS i n) s
def spair (i : Nat) (n : DWord) (s : State := base) : State := warp (fun w => w.setSP i n) s
/-- Z of cc0 is set in these lanes. -/
def zero (m : LaneMask) (s : State := base) : State :=
  warp (fun w => { w with cc0 := Vector.ofFn fun l => { z := m.getLsbD l.val } }) s
/-- Only these lanes are in the fragment. -/
def lanes (m : LaneMask) (s : State := base) : State := frag (fun f => { f with mask := m }) s

/-- The instruction executes normally in a state. -/
def ready (s : State) (i : Instr) : Bool := match s.ctx? r0 with | some c => issuesB i s c | none => false

theorem ready_has {s : State} {is : List Instr} (h : is.all (ready s) = true) : ∀ i ∈ is, Has i fun _ _ => True := by
  intro i hi
  refine has s ?_
  have := List.all_eq_true.mp h i hi
  unfold ready at this
  split at this <;> simp_all

/-! ### Witnesses of the statements' hypotheses: lane instructions -/

/-- The operands of an XR instruction: even registers, the first type of its row. -/
def xr (op : Nat) (ty : Option Ty := none) : Xr :=
  let r := xrRow op
  { h := { al with c := r.cc == .must }, d := if r.useD then 4 else 0, a := 6
    src := .regs (if r.useB then 8 else 0) (if r.useC then 10 else 0), eC := false, eB := false, eA := false, absB := false
    absA := false, negB := false, negA := false, sat := false, rnd := .rne, ty := ty.getD (r.types.headD .n32) }

def h2 : H2 := ⟨true, 5, 4⟩
def n3 : N3 := ⟨true, 8, 6, 4, false⟩
def n3c : N3 := ⟨false, 8, 6, 0, true⟩
def ni : NI := ⟨0x1F, 6, 4, true⟩

theorem witness_short : ∀ i ∈ ([.iaddH2 h2, .isubH2 h2, .imulH2 h2, .andH2 h2, .orH2 h2, .xorH2 h2, .shlH2 h2, .shrH2 h2, .sarH2 h2,
    .movH2 h2, .moviH2 h2, .faddH2 h2, .fsubH2 h2, .fmulH2 h2, .fmaxH2 h2, .fminH2 h2, .iaddN3 n3, .isubN3 n3, .imulN3 n3,
    .iminN3 n3, .imaxN3 n3, .andN3 n3, .orN3 n3, .xorN3 n3, .andnN3 n3, .shlN3 n3, .shrN3 n3, .sarN3 n3, .faddN3 n3, .fsubN3 n3,
    .fmulN3 n3, .fminN3 n3, .fmaxN3 n3, .hadd2N3 n3, .hmul2N3 n3, .badd2N3 n3, .bmul2N3 n3, .movN3 { n3 with b := 0 },
    .icmpN3 n3c, .fcmpN3 n3c, .iaddi ni, .shli ni, .shri ni, .sari ni, .andi ni, .ori ni, .xori ni, .movi8 { ni with a := 0 },
    .icmpi { ni with d := 0 }] : List Instr), Has i fun _ _ => True := ready_has (s := base) (by decide +kernel)

theorem witness_integer : ∀ i ∈ ([.iadd (xr 0), .isub (xr 1), .iaddc (xr 2), .isubb (xr 3), .ineg (xr 4), .iabs (xr 5), .imul (xr 6),
    .imulh (xr 7), .imad (xr 8), .imadw (xr 9), .idiv (xr 0xA), .irem (xr 0xB), .imin (xr 0xC), .imax (xr 0xD), .icmp (xr 0xE),
    .icmp (xr 0xE (some .n64)), .lea (xr 0x10), .lea (xr 0x10 (some .n64)), .iadd64 (xr 0x11), .isub64 (xr 0x12), .shl (xr 0x13),
    .shl (xr 0x13 (some .n64)), .shr (xr 0x14), .shr (xr 0x14 (some .n64)), .sar (xr 0x15), .sar (xr 0x15 (some .i64)),
    .mov (xr 0x140), .mov (xr 0x140 (some .n64)), .rol (xr 0x16), .ror (xr 0x17), .fshl (xr 0x18), .fshr (xr 0x19), .and (xr 0x1A),
    .or (xr 0x1B), .xor (xr 0x1C), .andn (xr 0x1D), .not (xr 0x1E), .popc (xr 0x20), .clz (xr 0x21), .ctz (xr 0x22),
    .brev (xr 0x23), .bfe (xr 0x24), .bfi (xr 0x25), .bysel (xr 0x26), .lut3 ⟨al, 4, 5, 6, 7, true, true, true, 0x96⟩,
    .isel ⟨al, 4, 5, 6, true, true, false, false, false, false, true, .gt⟩] : List Instr), Has i fun _ _ => True :=
  ready_has (s := base) (by decide +kernel)

def cvt0 (src dst : Ty) (b : RegField := 0) : Cvt := ⟨al, 4, 6, b, false, false, false, false, .rtz, src, dst⟩
def pack0 (ty : Ty) (d a : RegField) : Pack := ⟨al, d, a, 2, false, false, false, false, ty⟩

theorem witness_float : ∀ i ∈ ([.fadd (xr 0x80), .fsub (xr 0x81), .fmul (xr 0x82), .ffma (xr 0x83), .fmin (xr 0x84), .fmax (xr 0x85),
    .fminm (xr 0x86), .fmaxm (xr 0x87), .fcmp (xr 0x88), .frnd (xr 0x8A), .fclass (xr 0x8B), .hadd2 (xr 0x8D), .hmul2 (xr 0x8E),
    .hfma2 (xr 0x8F), .badd2 (xr 0x90), .bmul2 (xr 0x91), .bfma2 (xr 0x92),
    .fsel ⟨al, 4, 5, 6, true, true, true, true, true, true, false, .vs⟩, .fscale ⟨al, 4, 5, true, 0xFFFFFF⟩,
    .frcp (xr 0x100), .frsq (xr 0x101), .fsqrt (xr 0x102), .fexp2 (xr 0x103), .flog2 (xr 0x104), .fdiv (xr 0x105),
    .cvt (cvt0 .f16x2 .f32), .cvt (cvt0 .f32 .i32), .cvt (cvt0 .f32 .n32), .cvt (cvt0 .i32 .f32), .cvt (cvt0 .n32 .f32),
    .cvt { cvt0 .f32 .f16x2 8 with sat := true }, .cvt (cvt0 .f32 .bf16x2 8), .cvt { cvt0 .bf16x2 .f32 with half := true },
    .cvt (cvt0 .f16x2 .bf16x2), .cvt (cvt0 .bf16x2 .f16x2), .cvt (cvt0 .f32 .i64), .cvt (cvt0 .f32 .n64), .cvt (cvt0 .i64 .f32),
    .cvt (cvt0 .n64 .f32), .cvt (cvt0 .i32 .n64), .cvt (cvt0 .n32 .i64), .cvt (cvt0 .i64 .n32), .cvt (cvt0 .n64 .i32),
    .cvt (cvt0 .n32 .i32), .cvt (cvt0 .i32 .n32), .cvt8 { pack0 .e4m3x4 4 8 with amax := true },
    .cvt4 { pack0 .e2m1x8 4 8 with amax := true }, .cvt8 (pack0 .e4m3x4 4 8), .cvt4 (pack0 .e2m1x8 4 8), .wid8 (pack0 .e5m2x4 8 4), .wid4 (pack0 .e2m1x8 8 4),
    .movi ⟨al, 4, 7⟩, .movs ⟨al, 4, .vFromS 5⟩, .movs ⟨al, 0, .sImm 0x3FFF⟩, .movs ⟨al, 4, .sFromS 5⟩] : List Instr),
    Has i fun _ _ => True := ready_has (s := base) (by decide +kernel)

/-- R133: the divisors of the cases that the table does not name. -/
theorem witness_division : ∃ x y : Word, y ≠ 0 ∧ ¬(x = 0x8000_0000 ∧ y = 0xFFFF_FFFF) := ⟨0x8000_0000, 1, by decide⟩

/-! ### Special registers, cooperation, the transform pipe -/

def rd (n : RegField) : Sr := ⟨al, 4, n, true⟩
def wr (n : RegField) : Sr := ⟨al, n, 4, false⟩
/-- An update of AMAX is in the pipe. -/
def pipe0 : PipeItem := ⟨0xFFFF_FFFF, [(4, Vector.replicate 32 7)], none, some (0, false), false⟩

theorem witness_rdsr : (∀ i ∈ ([.rdsr (rd 0x0D), .rdsr { rd 0 with sreg := false }, .rdsr { rd 13 with d := 0 }] : List Instr),
      Has i fun _ _ => True) ∧
    Has (.rdsr (rd 16)) (fun _ c => amaxPending c.b c.ref.warp c.w = false) ∧
    Has (.rdsr (rd 17)) (fun _ c => amaxPending c.b c.ref.warp c.w = true) :=
  ⟨ready_has (s := base) (by decide +kernel), has base (by decide +kernel),
   has (warp fun w => { w with pipe := [pipe0] }) (by decide +kernel)⟩

theorem witness_wrsr :
    Has (.wrsr (wr 16)) (fun _ c => amaxPending c.b c.ref.warp c.w = false ∧ wrsrValue (wr 16) c ≠ none) ∧
    Has (.wrsr (wr 18)) (fun _ c => wrsrValue (wr 18) c ≠ none) ∧
    Has (.wrsr { wr 18 with h := { al with guard := .eq } }) (fun _ c => wrsrValue { wr 18 with h := { al with guard := .eq } } c = none) ∧
    Has (.wrsr (wr 25)) (fun _ c => c.f.handler = true) ∧ Has (.wrsr (wr 24)) (fun _ c => c.f.handler = false) :=
  ⟨has base (by decide +kernel), has base (by decide +kernel), has base (by decide +kernel),
   has (frag fun f => { f with handler := true }) (by decide +kernel), has base (by decide +kernel)⟩

theorem witness_cooperation : ∀ i ∈ ([.rdl { xr 0x143 with src := .imm 31 }, .rdl (xr 0x143 (some .n64)),
    .shfl ⟨al, 4, 5, 6, 7, true, true, true, false, true, .xor⟩, .shfl ⟨al, 4, 5, 31, 0, false, false, true, true, false, .idx⟩,
    .vote ⟨al, 4, 5, 7, true, true, true, .ballot⟩, .tred ⟨al, 4, 5, 0, false, true, .add, .f32, false⟩,
    .xrng ⟨al, 8, 12, 16, false, false, true⟩, .xsort ⟨al, 4, 5, 6, 7, true, true, true, .f32⟩, .xqnt ⟨al, 4, 8, 5, true⟩,
    .xdqnt ⟨al, 8, 4, 5, false, true, .e4m3x4⟩] : List Instr), Has i fun _ _ => True := ready_has (s := base) (by decide +kernel)

theorem witness_part : Has (.part ⟨al, 1⟩) (fun _ c => c.f.mask = ~~~c.w.exited) ∧
    Has (.part ⟨al, 5⟩) (fun _ c => c.f.mask ≠ ~~~c.w.exited) :=
  ⟨has base (by decide +kernel), has (lanes 1) (by decide +kernel)⟩

theorem witness_pipe : ∃ (s : State) (w : Warp), s.warp? 1 0 = some w ∧ w.pipe = [pipe0] ∧ (pipe0.v.map (·.1)).Nodup ∧
    (∀ x ∈ pipe0.v, x.1 < 128) ∧ pipe0.amax = some (0, false) :=
  ⟨warp fun w => { w with pipe := [pipe0] }, _, rfl, rfl, by decide, by decide, rfl⟩

/-! ### Control flow and traps -/

def br0 (g : Guard) (join : BitVec 14) : Br := ⟨{ al with guard := g }, .never, 0xFFFFFC, join⟩
def jump0 (g : Guard) : Jump := ⟨{ al with guard := g }, 0xFFFFFC⟩
def jreg : JumpReg := ⟨al, 4, true⟩
def brx0 : Brx := ⟨al, 5, true, .dynamic, 0⟩

theorem witness_uniform_branches :
    Has (.br (br0 .ne 0)) (fun _ c => c.lanes (.br (br0 .ne 0)) = c.f.mask) ∧
    Has (.br (br0 .eq 0)) (fun _ c => c.lanes (.br (br0 .eq 0)) = 0 ∧ c.f.mask ≠ 0) ∧
    Has (.bru (jump0 .ne)) (fun _ c => c.lanes (.bru (jump0 .ne)) = c.f.mask) ∧
    Has (.bru (jump0 .eq)) (fun _ c => c.lanes (.bru (jump0 .eq)) = 0 ∧ c.f.mask ≠ 0) ∧
    Has (.bru (jump0 .eq)) (fun _ c => c.lanes (.bru (jump0 .eq)) ≠ 0 ∧ c.lanes (.bru (jump0 .eq)) ≠ c.f.mask) ∧
    ∀ i ∈ ([.jmp (jump0 .al), .jmpNJ ⟨0x7FFFFF⟩, .jmpr jreg, .call (jump0 .al)] : List Instr), Has i fun _ _ => True :=
  ⟨has base (by decide +kernel), has base (by decide +kernel), has base (by decide +kernel), has base (by decide +kernel),
   has (zero 1) (by decide +kernel), ready_has (s := base) (by decide +kernel)⟩

/-- A join entry 0 that F belongs to, at the join address of `br0 .eq 0x10`. -/
def joined (s : State := base) : State :=
  frag (fun f => { f with join := 0 }) (warp (fun w => { w with join := w.join.set 0 (some ⟨0x10020, 0, 0xFFFF_FFFF, 0, 63⟩) }) s)

theorem witness_divergent_branch :
    Has (.br (br0 .eq 0)) (fun _ c => c.lanes (.br (br0 .eq 0)) ≠ 0 ∧ c.lanes (.br (br0 .eq 0)) ≠ c.f.mask ∧
      c.w.freeSplits.head? = some 1) ∧
    Has (.br (br0 .eq 0x10)) (fun _ c => c.lanes (.br (br0 .eq 0x10)) ≠ 0 ∧ c.lanes (.br (br0 .eq 0x10)) ≠ c.f.mask ∧
      c.w.freeSplits.head? = some 1 ∧ c.w.joinAt c.f.join = some (0, ⟨c.f.pc + 32, c.f.depth, 0xFFFF_FFFF, 0, 63⟩)) ∧
    Has (.br (br0 .eq 0x10)) (fun _ c => c.lanes (.br (br0 .eq 0x10)) ≠ 0 ∧ c.lanes (.br (br0 .eq 0x10)) ≠ c.f.mask ∧
      c.w.freeSplits.head? = some 1 ∧ c.w.joinAt c.f.join = none ∧ c.w.join[(0 : Fin 32)] = none) ∧
    Has (.brx brx0) (fun _ c => (groupTargets c.f.mask fun l =>
      (c.f.pc + (c.w.vl brx0.a.toNat l).signExtend 64) &&& ~~~1#64).length ≤ c.w.freeSplits.length + 1) :=
  ⟨has (zero 1) (by decide +kernel), has (joined (zero 1)) (by decide +kernel), has (zero 0x8000_0000) (by decide +kernel),
   has (vreg 5 fun l => BitVec.ofNat 32 (8 * l.val)) (by decide +kernel)⟩

theorem witness_one_target :
    Has (.callr jreg) (fun _ c => c.f.mask ≠ 0 ∧ ∀ l : Lane, c.f.mask.getLsbD l.val = true →
      c.w.vp jreg.a.toNat l &&& ~~~1#64 = 0x10000) ∧
    Has (.ret jreg) (fun _ c => c.f.mask ≠ 0 ∧ ∀ l : Lane, c.f.mask.getLsbD l.val = true →
      c.w.vp jreg.a.toNat l &&& ~~~1#64 = 0x10000) ∧
    Has (.brx brx0) (fun _ c => c.f.mask ≠ 0 ∧ ∀ l : Lane, c.f.mask.getLsbD l.val = true →
      (c.f.pc + (c.w.vl brx0.a.toNat l).signExtend 64) &&& ~~~1#64 = 0xFFFE) :=
  ⟨has (vreg 4 fun _ => 0x10001) (by decide +kernel), has (vreg 4 fun _ => 0x10001) (by decide +kernel),
   has (vreg 5 fun _ => 0xFFFF_FFFE) (by decide +kernel)⟩

/-- Two targets, the lower the odd lanes'. -/
theorem two_targets {i : Instr} {t : Ctx → Lane → DWord} (s : State) (h : (match s.ctx? r0 with
    | some c => issuesB i s c && decide (2 ≤ c.w.freeSplits.length + 1 ∧
        (c.f.mask.getLsbD 0 = true ∧ t c 0 = 0xFFFE ∧ c.f.mask.getLsbD 1 = true ∧ t c 1 = 0xFFFC) ∧
        ∀ l : Lane, t c l = 0xFFFC ∨ t c l = 0xFFFE)
    | none => false) = true) : Has i fun _ c => Targets c (t c) [0xFFFC, 0xFFFE] := by
  obtain ⟨s, c, h, h0, h1, h2⟩ := has (i := i) (P := fun _ c => 2 ≤ c.w.freeSplits.length + 1 ∧
    (c.f.mask.getLsbD 0 = true ∧ t c 0 = 0xFFFE ∧ c.f.mask.getLsbD 1 = true ∧ t c 1 = 0xFFFC) ∧
    ∀ l : Lane, t c l = 0xFFFC ∨ t c l = 0xFFFE) s h
  refine ⟨s, c, h, by decide, fun a => ⟨fun ha => ?_, ?_⟩, by decide, h0⟩
  · simp only [List.mem_cons, List.not_mem_nil, or_false] at ha
    obtain rfl | rfl := ha
    · exact ⟨1, h1.2.2.1, h1.2.2.2⟩
    · exact ⟨0, h1.1, h1.2.1⟩
  · rintro ⟨l, -, rfl⟩
    simpa using h2 l

/-- The pair of v4 and v5 holds the two addresses. -/
def pairs : State := vreg 4 (fun l => if l.val % 2 = 0 then 0xFFFE else 0xFFFC) (vreg 5 fun _ => 0)

theorem witness_two_targets :
    (Has (.brx brx0) fun _ c => Targets c (brxTarget brx0 c) [0xFFFC, 0xFFFE]) ∧
    (Has (.callr jreg) fun _ c => Targets c (pairTarget jreg c) [0xFFFC, 0xFFFE]) ∧
    (Has (.ret jreg) fun _ c => Targets c (pairTarget jreg c) [0xFFFC, 0xFFFE]) :=
  ⟨two_targets (vreg 5 fun l => if l.val % 2 = 0 then 0xFFFF_FFFE else 0xFFFF_FFFC) (by decide +kernel),
   two_targets pairs (by decide +kernel), two_targets pairs (by decide +kernel)⟩

def exitEq : Head := { al with guard := .eq }
/-- Another fragment, in entry 3. -/
def two (s : State := base) : State :=
  warp (fun w => { w with split := w.split.set 3 (some { mask := 0xFFFF_0000, pc := 0x10040, rank := 1 }) }) (lanes 0xFFFF s)

/-- The fragment, of lane 0 alone, is the only one that its join entry expects. -/
def alone : State := warp (fun w => { w with join := w.join.set 0 (some ⟨0x10020, 0, 1, 0, 63⟩) }) (joined (lanes 1))

theorem witness_exit_join :
    Has (.exit exitEq) (fun _ c => c.lanes (.exit exitEq) = 0) ∧
    Has (.exit exitEq) (fun _ c => c.lanes (.exit exitEq) ≠ 0 ∧ NoneFuses (exitJoin c (c.lanes (.exit exitEq))) ∧
      c.w.joinAt c.f.join ≠ none ∧ c.f.mask &&& ~~~c.lanes (.exit exitEq) ≠ 0) ∧
    Has (.exit al) (fun _ c => c.lanes (.exit al) ≠ 0 ∧ NoneFuses (exitJoin c (c.lanes (.exit al))) ∧
      leftOf (exitJoin c (c.lanes (.exit al)) 0) = none ∧ c.w.joinAt c.f.join ≠ none ∧ c.f.mask &&& ~~~c.lanes (.exit al) = 0) ∧
    Has (.join al) (fun _ c => c.w.joinAt c.f.join = none) ∧
    Has (.join al) (fun _ c => ∃ j, c.w.joinAt c.f.join = some (0, j) ∧ NoneFuses (parkJoin c 0)) ∧
    (At fun _ c => c.ref.sel = .entry 0 ∧ c.f.st = .ready ∧ c.w.parkEntry c.f = some 0 ∧ NoneFuses (parkJoin c 0)) ∧
    At fun _ c => c.w.split[(0 : Fin 32)] = some c.f := by
  refine ⟨has base (by decide +kernel), has (joined (zero 1)) (by decide +kernel), has alone (by decide +kernel),
    has base (by decide +kernel), ?_, stands (frag (fun f => { f with pc := 0x10020 }) (joined (lanes 1))) (by decide +kernel),
    stands base (by decide +kernel)⟩
  obtain ⟨s, c, h, h1, h2⟩ := has (i := .join al) (P := fun _ c => c.w.joinAt c.f.join = some (0, ⟨0x10020, 0, 0xFFFF_FFFF, 0, 63⟩) ∧
    NoneFuses (parkJoin c 0)) (joined (lanes 1)) (by decide +kernel)
  exact ⟨s, c, h, _, h1, h2⟩

/-- Lanes 0 to 15 stand at the join address; the others have arrived, parked in entry 3. -/
def arriving : State :=
  warp (fun w => { w with
    join := w.join.set 0 (some ⟨0x10020, 0, 0xFFFF_FFFF, 0xFFFF_0000, 63⟩)
    split := w.split.set 3 (some { mask := 0xFFFF_0000, pc := 0x10020, rank := 1, join := 0, st := .parkedJoin }) })
    (frag (fun f => { f with pc := 0x10020 }) (joined (lanes 0xFFFF)))

/-- The full entry 0 that the two fragments fuse at, and the entry 0 that is full once lanes 0 to 15 have exited. -/
def full0 : Join := ⟨0x10020, 0, 0xFFFF_FFFF, 0xFFFF_FFFF, 63⟩
def full1 : Join := ⟨0x10020, 0, 0xFFFF_0000, 0xFFFF_0000, 63⟩

def arrivedB (p : Warp) (x : Join) : Bool :=
  p.join[(0 : Fin 32)] == some x && x.arrived == x.expected && x.expected != 0 &&
  ((p.split[(3 : Fin 32)]).any fun f => f.st == .parkedJoin && f.join == 0) && (List.finRange 32).all fun q => q == 0 || p.join[q] == none

theorem of_arrivedB {p : Warp} {x : Join} (h : arrivedB p x = true) : AllArrived p 0 x := by
  simp only [arrivedB, Bool.and_eq_true, beq_iff_eq, List.all_eq_true, bne_iff_ne, Bool.or_eq_true] at h
  obtain ⟨⟨⟨⟨h1, h2⟩, h3⟩, h4⟩, h5⟩ := h
  obtain ⟨f, hf, h6⟩ := (Option.any_eq_true _ _).1 h4
  simp only [Bool.and_eq_true, beq_iff_eq] at h6
  exact ⟨h1, h2, h3, ⟨3, f, hf, h6⟩, fun q y hq hy => by simp [(h5 q (List.mem_finRange q)).resolve_left hq] at hy⟩

theorem witness_fusion :
    Has (.exit al) (fun _ c => c.lanes (.exit al) ≠ 0 ∧ ∀ w, AllArrived (exitedWarp al c w) 0 full1) ∧
    Has (.join al) (fun _ c => ∃ j x, c.w.joinAt c.f.join = some (0, j) ∧ AllArrived (c.w.parkAt (idxOf c.ref.sel) 0) 0 x) ∧
    At fun _ c => c.ref.sel = .entry 0 ∧ c.f.st = .ready ∧ c.w.parkEntry c.f = some 0 ∧ ∃ x, AllArrived (c.w.parkAt 0 0) 0 x := by
  obtain ⟨s, c, h, h1, h2⟩ := has (i := .exit al) (P := fun _ c => c.lanes (.exit al) ≠ 0 ∧ arrivedB (exitedWarp al c c.w) full1 = true)
    arriving (by decide +kernel)
  obtain ⟨s1, c1, k, k1, k2⟩ := has (i := .join al) (P := fun _ c =>
    c.w.joinAt c.f.join = some (0, ⟨0x10020, 0, 0xFFFF_FFFF, 0xFFFF_0000, 63⟩) ∧
    arrivedB (c.w.parkAt (idxOf c.ref.sel) 0) full0 = true) arriving (by decide +kernel)
  obtain ⟨s2, c2, m, m0, m1, m2, m3⟩ := stands (P := fun _ c => c.ref.sel = .entry 0 ∧ c.f.st = .ready ∧
    c.w.parkEntry c.f = some 0 ∧ arrivedB (c.w.parkAt 0 0) full0 = true) arriving (by decide +kernel)
  exact ⟨⟨s, c, h, h1, fun _ => of_arrivedB h2⟩, ⟨s1, c1, k, _, _, k1, of_arrivedB k2⟩, s2, c2, m, m0, m1, m2, _, of_arrivedB m3⟩

theorem witness_scheduling :
    (∀ i ∈ ([.nop { al with guard := .nv }, .sleep ⟨al, 0⟩, .nopre al, .preok al, .trace ⟨al, 4⟩] : List Instr), Has i fun _ _ => True) ∧
    Has (.yield al) (fun _ c => c.w.frags.length ≤ 1) ∧ Has (.yield al) (fun _ c => 1 < c.w.frags.length) ∧
    At (fun s c => c.f.st = .sleeping ∧ c.f.cond = .deadline s.time) ∧ At (fun _ c => ∃ x ∈ c.w.frags, 4096 ≤ x.2.wait.toNat) :=
  ⟨ready_has (s := base) (by decide +kernel), has base (by decide +kernel), has two (by decide +kernel),
   stands (frag fun f => { f with st := .sleeping, cond := .deadline 1000 }) (by decide +kernel),
   stands (frag fun f => { f with wait := 4096 }) (by decide +kernel)⟩

/-- `rep 2, 1, d` before an IADDI, which stand in memory. -/
def repF : RepFields := ⟨0, false, false, false, true, 1⟩
def repAdd : NI := ⟨1, 6, 4, false⟩
def repeated : State :=
  let s := State.reset.withFetchWord 64 0
  let bs := (encode (.repNP repF) ++ encode (.iaddi repAdd)).flatMap fun h => [h.extractLsb' 0 8, h.extractLsb' 8 8]
  let s := { s with mem := s.mem.writeBytes 0x10000 bs, picks := [], cur := some r0 }
  launch (fun l => { l with image := s.mem }) s

theorem witness_repeat :
    Has (.repNP repF) (fun s c => c.w.rep = none ∧
      (s.fetch c.l c.b.core (c.f.pc + BitVec.ofNat 64 4)).2 = .halves (encode (.iaddi repAdd)) ∧
      decodeHalves (encode (.iaddi repAdd)) = .ok (.iaddi repAdd) ∧
      staticCheck c.l.desc (Instr.iaddi repAdd).layout ((Instr.iaddi repAdd).layout.opnds 1) = none ∧
      repMisuse c.l.desc repF (.iaddi repAdd) 4 (halvesWord (encode (.iaddi repAdd))) = none) ∧
    ∃ g, bodyOf (.iaddi repAdd) = some (lane g) ∧ (∀ m x, (g m x).split = x.split ∧ (g m x).rep = x.rep ∧ (g m x).repc = x.repc) ∧
      Has (.iaddi repAdd) (fun s c => ∃ p : RepState, c.w.rep = some p ∧ p.owner = c.ref.sel ∧ p.addr = c.f.pc ∧ p.f = some repF ∧
        s.issues c = true ∧ c.f.redo = [] ∧ c.f.held = none ∧ stepped repF p.len p.word (c.w.repc.toNat % 64) = some (.iaddi repAdd) ∧
        gate s c (Instr.iaddi repAdd).layout true = none) := by
  refine ⟨has repeated (by decide +kernel), _, rfl, fun m x => ?_, ?_⟩
  · exact ⟨rfl, rfl, rfl⟩
  · obtain ⟨s, c, h, h1⟩ := has (i := .iaddi repAdd) (P := fun s c =>
      let p : RepState := ⟨.entry 0, 0x10000, some repF, halvesWord (encode (.iaddi repAdd)), 4, 4⟩
      c.w.rep = some p ∧ p.owner = c.ref.sel ∧ p.addr = c.f.pc ∧ p.f = some repF ∧ s.issues c = true ∧ c.f.redo = [] ∧ c.f.held = none ∧
      stepped repF p.len p.word (c.w.repc.toNat % 64) = some (.iaddi repAdd) ∧ gate s c (Instr.iaddi repAdd).layout true = none)
      (warp (fun w => { w with repc := 0x40
                               rep := some ⟨.entry 0, 0x10000, some repF, halvesWord (encode (.iaddi repAdd)), 4, 4⟩ }) repeated)
      (by decide +kernel)
    exact ⟨s, c, h, _, h1⟩

/-- The hypotheses on the way to the checks of R112, of an instruction as a fragment meets it. -/
structure Pre (i : Instr) (s : State) (c : Ctx) : Prop where
  enc : i.encodable = true
  cur : s.cur = some c.ref
  sel : isPath c.ref.sel = false

def ops (i : Instr) (s : State) (c : Ctx) : List Opnd := i.layout.opnds (vaultDims s c.l.asid c.w i.layout)
def named (i : Instr) (s : State) (c : Ctx) : Bool :=
  (!i.layout.isMatrix || c.l.desc.tiles != 0) && (ops i s c).all (·.legal c.l.desc.regs c.l.desc.tiles)
def guarded (i : Instr) : Bool := !i.layout.needsAl || i.layout.isRep || (match i.layout.head with | some h => h.guard == .al | none => true)
def unset (i : Instr) (s : State) (c : Ctx) : Bool := (ops i s c).all fun o => !(o.src && o.e) || o.regs.all (regFull c.b c.w)
def full (i : Instr) (s : State) (c : Ctx) : Bool := (ops i s c).all fun o => !(o.src || o.dst) || o.regs.all (regFull c.b c.w)
def free (c : Ctx) : Bool := c.b.ops.all fun e => e.warp != c.ref.warp || e.suspend.isNone

def few : State := launch fun l => { l with desc := { l.desc with regs := 8 } }
def pieceOf (n : Nat) : State := warp fun w => { w with vFull := w.vFull &&& ~~~(1#128 <<< n) }
def fadd0 (e : Bool) : Xr := { xr 0x80 with eA := e }
def mzr0 : Mzr := ⟨al, 3⟩
def ld0 : Xm := ⟨al, 4, 9, 0, 2, false, .default, .rlx, .core, .w32⟩

def read0 : Req :=
  { id := 5, grp := 0, kind := .read, block := 1, warp := 0, sel := .entry 0, lane := 31, core := 0, quad := 0, die := 0, asid := 0
    va := 0, pa := 0, attr := {}, bytes := 4 }

theorem witness_checks :
    At (fun s c => (Instr.fadd (fadd0 false)).encodable = true ∧ s.cur = some c.ref ∧ isPath c.ref.sel = false ∧
      named (.fadd (fadd0 false)) s c = false) ∧
    At (fun s c => s.cur = some c.ref ∧ named (.join exitEq) s c = true ∧ guarded (.join exitEq) = false) ∧
    At (fun s c => s.cur = some c.ref ∧ named (.fadd (fadd0 true)) s c = true ∧ guarded (.fadd (fadd0 true)) = true ∧
      ((ops (.fadd (fadd0 true)) s c).find? fun o => o.src && o.e && !o.regs.all (regFull c.b c.w)).isSome = true) ∧
    At (fun s c => s.cur = some c.ref ∧ named (.fadd (fadd0 false)) s c = true ∧ unset (.fadd (fadd0 false)) s c = true ∧
      full (.fadd (fadd0 false)) s c = false ∧ free c = true ∧ (Instr.fadd (fadd0 false)).isCompare = false) ∧
    At (fun s c => s.cur = some c.ref ∧ named (.mzr mzr0) s c = true ∧ full (.mzr mzr0) s c = true ∧ free c = true ∧
      (Instr.mzr mzr0).layout.isEngine = true ∧ c.f.mask ≠ 0xFFFF_FFFF) ∧
    At (fun s c => s.cur = some c.ref ∧ named (.ld ld0) s c = true ∧ full (.ld ld0) s c = true ∧ free c = true ∧
      (Instr.ld ld0).layout.isAccess = true ∧ c.f.walkEnd ≤ s.time ∧ c.f.acquire = some 9 ∧ s.condMet c (.loadsBefore 9) = false) ∧
    At (fun s c => s.cur = some c.ref ∧ named (.ld ld0) s c = true ∧ full (.ld ld0) s c = true ∧ free c = true ∧
      (Instr.ld ld0).layout.awaitsWalk = true ∧ s.time < c.f.walkEnd) ∧
    At (fun s c => s.cur = some c.ref ∧ named (.ld ld0) s c = true ∧ full (.ld ld0) s c = true ∧ free c = true ∧
      c.f.walkEnd ≤ s.time ∧ (Instr.ld ld0).layout.sendsRequests = true ∧
      Config.maxRequests < (s.reqs.filter fun q => q.core == c.b.core).length + popcount c.f.mask) :=
  ⟨stands few (by decide +kernel), stands base (by decide +kernel), stands (pieceOf 6) (by decide +kernel),
   stands (pieceOf 6) (by decide +kernel), stands (lanes 1) (by decide +kernel),
   stands { (frag fun f => { f with acquire := some 9 } : State) with reqs := [read0] } (by decide +kernel),
   stands (frag fun f => { f with walkEnd := 1001 }) (by decide +kernel),
   stands { base with reqs := List.replicate 2017 read0 } (by decide +kernel)⟩

def rep64 : Rep := ⟨{ al with guard := .ne }, repF⟩
/-- The 64-bit REP of a guard other than AL, before an IADDI (R112), or before a REP that it may not repeat. -/
def badRep (j : Instr) : State :=
  let s := State.reset.withFetchWord 64 0
  let bs := (encode (.rep rep64) ++ encode j).flatMap fun h => [h.extractLsb' 0 8, h.extractLsb' 8 8]
  let s := { s with mem := s.mem.writeBytes 0x10000 bs, picks := [], cur := some r0 }
  launch (fun l => { l with image := s.mem }) s

theorem witness_rep_guard : ∀ j ∈ ([.iaddi repAdd, .repNP repF] : List Instr), At fun s c => s.cur = some c.ref ∧ named (.rep rep64) s c = true ∧
    rep64.h.guard ≠ .al ∧ c.w.rep = none ∧ (s.fetch c.l c.b.core (c.f.pc + 8)).2 = .halves (encode j) ∧ decodeHalves (encode j) = .ok j ∧
    staticCheck c.l.desc j.layout (j.layout.opnds 1) ≠ some 2 := by
  intro j hj
  refine stands (badRep j) ?_
  revert j
  decide +kernel

/-- Halfwords that are no instruction, at the fragment's address (R112). -/
theorem witness_bad_word : At fun s c => isPath c.ref.sel = false ∧ s.cur = some c.ref ∧ s.issues c = true ∧
    (match (s.todo c).2 with | .bad .zeroHalf => true | _ => false) = true ∧ (s.todo c).1.haltOf c.l.asid = false := stands base (by decide +kernel)

def handler0 (pc : DWord := 0x10020) (s : State := base) : State := launch (fun l => { l with desc := { l.desc with trapPc := pc } }) s
/-- F is in the handler it entered with its whole mask. -/
def handling (owner : Bool := false) (m : LaneMask := 0xFFFF_FFFF) (s : State := base) : State :=
  frag (fun f => { f with handler := true }) (warp (fun w => { w with handler := some ⟨m, 63, 0, owner⟩ }) s)

theorem witness_traps :
    At (fun _ c => isPath c.ref.sel = false ∧ c.f.handler = false ∧ c.w.handler = none ∧ c.l.desc.trapPc ≠ 0) ∧
    At (fun _ c => isPath c.ref.sel = false ∧ c.w.handler.isSome = true ∧ c.f.handler = false) ∧
    At (fun _ c => isPath c.ref.sel = false ∧ c.f.handler = true ∧ c.l.st ≠ .completed) ∧
    At (fun _ c => isPath c.ref.sel = false ∧ c.w.handler = none ∧ c.l.desc.trapPc = 0 ∧ c.l.st ≠ .completed) :=
  ⟨stands handler0 (by decide +kernel), stands (warp fun w => { w with handler := some ⟨1, 63, 0, false⟩ }) (by decide +kernel),
   stands handling (by decide +kernel), stands base (by decide +kernel)⟩

theorem witness_rte :
    Has (.rte al) (fun _ c => c.f.handler = true ∧ c.w.handler = some ⟨0xFFFF_FFFF, 63, 0, false⟩ ∧
      c.f.mask = 0xFFFF_FFFF &&& ~~~c.w.exited) ∧
    Has (.rte al) (fun _ c => c.f.handler = true ∧ c.w.handler = some ⟨0xFFFF_FFFF, 63, 0, true⟩ ∧
      c.f.mask = 0xFFFF_FFFF &&& ~~~c.w.exited ∧ c.w.rep = some ⟨.entry 0, 0, none, 0, 0, 0⟩ ∧ (0 : DWord) = c.w.x.pc &&& ~~~1#64) ∧
    Has (.rte al) (fun _ c => c.f.handler = true ∧ c.w.handler = some ⟨0xFFFF_FFFF, 63, 0, true⟩ ∧
      c.f.mask = 0xFFFF_FFFF &&& ~~~c.w.exited ∧ c.w.rep = some ⟨.entry 0, 8, none, 0, 0, 0⟩ ∧ (8 : DWord) ≠ c.w.x.pc &&& ~~~1#64) ∧
    Has (.rte al) (fun _ c => c.f.handler = false) ∧
    Has (.rte al) (fun _ c => c.f.handler = true ∧ c.w.handler = some ⟨1, 63, 0, false⟩ ∧ c.f.mask ≠ 1 &&& ~~~c.w.exited) :=
  ⟨has handling (by decide +kernel),
   has (warp (fun w => { w with rep := some ⟨.entry 0, 0, none, 0, 0, 0⟩ }) (handling true)) (by decide +kernel),
   has (warp (fun w => { w with rep := some ⟨.entry 0, 8, none, 0, 0, 0⟩ }) (handling true)) (by decide +kernel),
   has base (by decide +kernel), has (handling false 1) (by decide +kernel)⟩

def xi0 : Xi := ⟨al, 0xFFFF_FFFF⟩
def bk : Xi := ⟨{ al with stop := true }, 0xFFFF_FFFF⟩
def armed : State := { base with dev := { base.dev with dbgArm := true } }

theorem witness_system :
    Has (.trap xi0) (fun _ _ => True) ∧
    Has (.bkpt bk) (fun s c => c.f.bkpt = false ∧ ¬(s.dev.dbgArm = true ∧ s.dev.dbgAsid = c.l.asid)) ∧
    Has (.bkpt bk) (fun s c => c.f.bkpt = false ∧ s.dev.dbgArm = true ∧ s.dev.dbgAsid = c.l.asid) ∧
    Has (.bkpt bk) (fun _ c => c.f.bkpt = true) ∧
    Has (.trace ⟨al, 4⟩) (fun s c => s.traceOn c.b.core = false ∨ c.l.asid ≠ s.dev.trAsid) ∧
    Has (.trace ⟨al, 4⟩) (fun s c => s.traceOn c.b.core = true ∧ c.l.asid = s.dev.trAsid ∧ c.lanes (.trace ⟨al, 4⟩) ≠ 0) :=
  ⟨has base (by decide +kernel), has base (by decide +kernel), has armed (by decide +kernel),
   has (frag fun f => { f with bkpt := true }) (by decide +kernel), has base (by decide +kernel),
   has { base with dev := { base.dev with trEn := true } } (by decide +kernel)⟩

/-! ### Memory -/

/-- Pages 1 to 3 of 64 KiB map to themselves with policy 0, page 4 with policy 1. -/
def pte (v : Nat) : BitVec 128 :=
  BitVec.ofNat 128 (1 + 2 + 2 ^ 4 + 2 ^ 5 + 2 ^ 6 + 2 ^ 15 * (if v = 4 then 1 else 0) + 2 ^ 48 * v + 2 ^ 88 * v)
def attr0 : Attr := { r := true, w := true, x := true }
def attr1 : Attr := { attr0 with policy := 1 }
def mapped (s : State := base) : State := 
  { s with
    tlbs := tput s.tlbs 0 ([1, 2, 3, 4].map fun v => ⟨0, 0, v, pte v⟩)
    maps := [1, 2, 3, 4].map fun v => ⟨0, 16, v, .device, 65536 * v, attr0.home, false⟩ }

/-- Every lane's address is 0x10000, mapped and aligned. -/
abbrev MapsTo (i : Instr) (addr : Ctx → Lane → Nat) (n : Nat) (acc : Acc) (reads : Bool) (s : State) (c : Ctx) : Prop :=
  Aligned c i n (addr c) ∧ LanesMap s c i (addr c) acc reads (fun _ => 0x10000) (fun _ => attr0)

/-- A line of core 0's L1 that holds address 0x10000; or, for `loc`, the lane's own memory. -/
def line0 (va : Nat) (loc : Bool) : L1Line := ⟨0, va / 128, va / 128, attr0, List.replicate 128 1, none, 0, loc, 0, []⟩
def cached (va : Nat) (loc : Bool) (s : State := base) : State := { s with cores := tput s.cores 0 { lines := [line0 va loc] } }

/-- [s8:s9] and [s5] as addresses, v4:v7 as data. -/
def xm0 (w : Width) (ord : Ord := .rlx) (sc : Scope := .core) (hint : Hint := .default) : Xm := ⟨al, 0, 9, 4, 0, true, hint, ord, sc, w⟩
def ld1 (w : Width) (ord : Ord := .rlx) (sc : Scope := .core) (hint : Hint := .default) : Xm := { xm0 w ord sc hint with d := 4, b := 0 }
def xa0 (op : AtomOp) (w : Width) (ord : Ord) : Xa := ⟨al, 4, 9, 8, 0, op, true, ord, .die, w⟩
def global (s : State := base) : State := vreg 8 (fun _ => 0x10000) (spair 8 0x10000 (mapped s))
abbrev gOf (o : Xm) (c : Ctx) : Lane → Nat := gAddr c.w o.a o.off.toInt o.width.bytes
abbrev gOfA (o : Xa) (c : Ctx) : Lane → Nat := gAddr c.w o.a o.off.toInt o.width.bytes

theorem witness_global_loads :
    Has (.ld (ld1 .w128 .acq .pod)) (fun s c => MapsTo (.ld (ld1 .w128 .acq .pod)) (gOf (ld1 .w128 .acq .pod)) 16 .rd true s c ∧
      ∀ l : Lane, s.l1Find c (gOf (ld1 .w128 .acq .pod) c l) = none) ∧
    Has (.ld32 ⟨0, 8, 4, true⟩) (fun s c => MapsTo (.ld32 ⟨0, 8, 4, true⟩) (fun c => gAddr c.w 8 0 4) 4 .rd true s c ∧
      ∀ l : Lane, s.l1Find c (gAddr c.w 8 0 4 l) = none) ∧
    Has (.lr (ld1 .w64)) (MapsTo (.lr (ld1 .w64)) (gOf (ld1 .w64)) 8 .rd true) ∧
    Has (.ld (ld1 .w32)) (fun s c => Aligned c (.ld (ld1 .w32)) 4 (gOf (ld1 .w32) c) ∧
      ∀ l : Lane, s.l1Find c (gOf (ld1 .w32) c l) = some (line0 0x10000 false) ∧ (line0 0x10000 false).attr.r = true ∧
        (line0 0x10000 false).badAt (gOf (ld1 .w32) c l) = none ∧ (line0 0x10000 false).attr.undef = false) :=
  ⟨has global (by decide +kernel), has global (by decide +kernel), has global (by decide +kernel),
   has (cached 0x10000 false global) (by decide +kernel)⟩

theorem witness_global_stores :
    Has (.st (xm0 .w128 .rel .pod)) (fun s c => MapsTo (.st (xm0 .w128 .rel .pod)) (gOf (xm0 .w128 .rel .pod)) 16 .wr false s c ∧
      Released s c .rel .pod ∧ s.numbered) ∧
    Has (.st32 ⟨0, 8, 4, true⟩) (fun s c => MapsTo (.st32 ⟨0, 8, 4, true⟩) (fun c => gAddr c.w 8 0 4) 4 .wr false s c ∧ s.numbered) ∧
    Has (.st (xm0 .w8 .rel .dev)) (fun s c => Aligned c (.st (xm0 .w8 .rel .dev)) 1 (gOf (xm0 .w8 .rel .dev) c) ∧ c.f.released = false ∧
      s.condMet c (.release .dev) = false) :=
  ⟨has global (by decide +kernel), has global (by decide +kernel),
   has (warp (fun w => { w with hdev := 1001 }) global) (by decide +kernel)⟩

def scReq (l : Lane) : Req :=
  { id := 1 + l.val, grp := 0, kind := .sc, block := 1, warp := 0, sel := .entry 0, lane := l.val, core := 0, quad := 0, die := 0, asid := 0
    va := 0x10000, pa := 0x10000, attr := attr0, bytes := 4, st := .performed, valueBack := true }
def sc0 : Xm := { xm0 .w32 with d := 8 }

theorem witness_atomics :
    Has (.atom (xa0 .cas .w64 .acqrel)) (fun s c => MapsTo (.atom (xa0 .cas .w64 .acqrel)) (gOfA (xa0 .cas .w64 .acqrel)) 8 .rmw true s c ∧
      Released s c .acqrel .die) ∧
    Has (.red { xa0 .decw .w32 .rel with d := 0 }) (fun s c =>
      MapsTo (.red { xa0 .decw .w32 .rel with d := 0 }) (gOfA { xa0 .decw .w32 .rel with d := 0 }) 4 .wr true s c ∧ Released s c .rel .die) ∧
    Has (.sc sc0) (fun s c => MapsTo (.sc sc0) (gOf sc0) 4 .wr true s c ∧ Released s c .rlx .core ∧ c.lanes (.sc sc0) ≠ 0 ∧
      s.scReqs c (c.lanes (.sc sc0)) = [] ∧ ∀ q ∈ s.reqs, q.block = c.ref.block ∧ q.warp = c.ref.warp ∧ q.lr = true → q.st ≠ .queued) ∧
    Has (.sc sc0) (fun s c => Aligned c (.sc sc0) 4 (gOf sc0 c) ∧ Released s c .rlx .core ∧
      s.scReqs c (c.lanes (.sc sc0)) = (lanesOf (c.lanes (.sc sc0))).map scReq ∧
      (∀ l : Lane, (scReq l).lane = l.val ∧ (scReq l).valueBack = true) ∧ ∀ q ∈ s.reqs, q.block = c.ref.block ∧ q.warp = c.ref.warp ∧ q.lr = true → q.st ≠ .queued) :=
  ⟨has global (by decide +kernel), has global (by decide +kernel), has global (by decide +kernel),
   has { (global : State) with reqs := (List.finRange 32).map scReq } (by decide +kernel)⟩

/-- No L1 of the machine after reset holds a line. -/
theorem witness_no_dirty : NoDirty (global : State) := fun _ _ h => nomatch h

def xp0 (w : Width) (ord : Ord := .rlx) : Xp := ⟨al, 0, 5, 4, 0, true, .default, ord, true, w⟩
def lp0 (w : Width) (ord : Ord := .rlx) : Xp := { xp0 w ord with d := 4, b := 0 }
abbrev pOf (o : Xp) (c : Ctx) : Lane → Nat := pAddr c.w o.a o.sreg o.off.toInt o.width.bytes
def fifo (q : List Word) (s : State := base) : State := block (fun b => { b with banks := b.banks.set 15 { fifo := true, queue := q } }) s

theorem witness_scratch_loads :
    Has (.lds (lp0 .w8 .acq)) (fun _ c => Aligned c (.lds (lp0 .w8 .acq)) 1 (pOf (lp0 .w8 .acq) c) ∧
      Within c (.lds (lp0 .w8 .acq)) c.b.scrSize 1 (pOf (lp0 .w8 .acq) c) ∧ ∀ l : Lane, c.b.fifoAt (pOf (lp0 .w8 .acq) c l) = false) ∧
    Has (.lds32 ⟨0, 6, 4, true⟩) (fun _ c => Aligned c (.lds32 ⟨0, 6, 4, true⟩) 4 (pAddr c.w 6 false 0 4) ∧
      Within c (.lds32 ⟨0, 6, 4, true⟩) c.b.scrSize 4 (pAddr c.w 6 false 0 4) ∧ ∀ l : Lane, c.b.fifoAt (pAddr c.w 6 false 0 4 l) = false) ∧
    Has (.lds (lp0 .w64)) (fun _ c => Aligned c (.lds (lp0 .w64)) 8 (pOf (lp0 .w64) c) ∧
      Within c (.lds (lp0 .w64)) c.b.scrSize 8 (pOf (lp0 .w64) c) ∧ lanesOf (c.lanes (.lds (lp0 .w64))) = [31] ∧
      pOf (lp0 .w64) c 31 / Config.bankBytes = 15 ∧ c.b.banks[15]? = some { fifo := true, queue := [7, 8] }) :=
  ⟨has base (by decide +kernel), has base (by decide +kernel),
   has (fifo [7, 8] (lanes 0x8000_0000 (sreg 5 262136))) (by decide +kernel)⟩

theorem witness_scratch_stores :
    Has (.sts (xp0 .w128 .rel)) (fun s c => Aligned c (.sts (xp0 .w128 .rel)) 16 (pOf (xp0 .w128 .rel) c) ∧
      Within c (.sts (xp0 .w128 .rel)) c.b.scrSize 16 (pOf (xp0 .w128 .rel) c) ∧ Released s c .rel .core ∧
      ∀ l : Lane, c.b.fifoAt (pOf (xp0 .w128 .rel) c l) = false) ∧
    Has (.sts32 ⟨0, 6, 4, true⟩) (fun _ c => Aligned c (.sts32 ⟨0, 6, 4, true⟩) 4 (pAddr c.w 6 false 0 4) ∧
      Within c (.sts32 ⟨0, 6, 4, true⟩) c.b.scrSize 4 (pAddr c.w 6 false 0 4) ∧ ∀ l : Lane, c.b.fifoAt (pAddr c.w 6 false 0 4 l) = false) ∧
    Has (.sts (xp0 .w32)) (fun _ c => Aligned c (.sts (xp0 .w32)) 4 (pOf (xp0 .w32) c) ∧
      Within c (.sts (xp0 .w32)) c.b.scrSize 4 (pOf (xp0 .w32) c) ∧ lanesOf (c.lanes (.sts (xp0 .w32))) = [31] ∧
      pOf (xp0 .w32) c 31 / Config.bankBytes = 15 ∧ c.b.banks[15]? = some { fifo := true, queue := [] } ∧ 1 ≤ Config.fifoWords) ∧
    Has (.atoms ⟨al, 4, 5, 8, 0, .cas, true, .acqrel, true, .w32⟩) (fun s c =>
      let o : Xas := ⟨al, 4, 5, 8, 0, .cas, true, .acqrel, true, .w32⟩
      Aligned c (.atoms o) 4 (pAddr c.w 5 true 0 4) ∧ Within c (.atoms o) c.b.scrSize 4 (pAddr c.w 5 true 0 4) ∧
      Released s c .acqrel .core ∧ ∀ l : Lane, c.b.fifoAt (pAddr c.w 5 true 0 4 l) = false) :=
  ⟨has base (by decide +kernel), has base (by decide +kernel),
   has (fifo [] (lanes 0x8000_0000 (sreg 5 262140))) (by decide +kernel), has base (by decide +kernel)⟩

abbrev lva (o : Xp) (c : Ctx) (l : Lane) : Nat := localVa c l (pOf o c l)

theorem witness_local :
    Has (.ldl (lp0 .w64)) (fun s c => Aligned c (.ldl (lp0 .w64)) 8 (pOf (lp0 .w64) c) ∧
      Within c (.ldl (lp0 .w64)) c.l.desc.localBytes 8 (pOf (lp0 .w64) c) ∧
      ∀ l : Lane, (c.lanes (.ldl (lp0 .w64))).getLsbD l.val = true → localHit s c (lva (lp0 .w64) c l) = some (line0 0x30000 true) ∧
        (line0 0x30000 true).badIn (lva (lp0 .w64) c l) 8 = none ∧ (line0 0x30000 true).attr.undef = false ∧ lva (lp0 .w64) c l % 128 + 8 ≤ 128) ∧
    Has (.ldl (lp0 .w64)) (fun s c => Aligned c (.ldl (lp0 .w64)) 8 (pOf (lp0 .w64) c) ∧
      Within c (.ldl (lp0 .w64)) c.l.desc.localBytes 8 (pOf (lp0 .w64) c) ∧ lanesOf (c.lanes (.ldl (lp0 .w64))) = [3] ∧
      localHit s c (lva (lp0 .w64) c 3) = none ∧ lva (lp0 .w64) c 3 % 128 + 8 ≤ 128 ∧
      LanesMap s c (.ldl (lp0 .w64)) (lva (lp0 .w64) c) .rd true (fun _ => 0x30038) (fun _ => attr0) ∧
      s.badIn attr0 (lva (lp0 .w64) c 3) 0x30038 8 = none ∧ s.undefAt attr0 0x30038 8 = false) ∧
    Has (.stl (xp0 .w32)) (fun s c => Aligned c (.stl (xp0 .w32)) 4 (pOf (xp0 .w32) c) ∧
      Within c (.stl (xp0 .w32)) c.l.desc.localBytes 4 (pOf (xp0 .w32) c) ∧ lanesOf (c.lanes (.stl (xp0 .w32))) = [0] ∧
      localHit s c (lva (xp0 .w32) c 0) = some (line0 0x30000 true) ∧ lva (xp0 .w32) c 0 % 128 + 4 ≤ 128 ∧
      LanesMap s c (.stl (xp0 .w32)) (lva (xp0 .w32) c) .wr false (fun _ => 0x30000) (fun _ => attr0)) ∧
    Has (.stl (xp0 .w32)) (fun s c => Aligned c (.stl (xp0 .w32)) 4 (pOf (xp0 .w32) c) ∧
      Within c (.stl (xp0 .w32)) c.l.desc.localBytes 4 (pOf (xp0 .w32) c) ∧ lanesOf (c.lanes (.stl (xp0 .w32))) = [0] ∧
      localHit s c (lva (xp0 .w32) c 0) = none ∧ lva (xp0 .w32) c 0 % 128 + 4 ≤ 128 ∧ s.mem.wf = true ∧ s.host.wf = true ∧ s.vault.wf = true ∧
      LanesMap s c (.stl (xp0 .w32)) (lva (xp0 .w32) c) .wr false (fun _ => 0x40000) (fun _ => attr1)) ∧
    Has (.stl (xp0 .w32)) (fun s c => Aligned c (.stl (xp0 .w32)) 4 (pOf (xp0 .w32) c) ∧
      Within c (.stl (xp0 .w32)) c.l.desc.localBytes 4 (pOf (xp0 .w32) c) ∧ lanesOf (c.lanes (.stl (xp0 .w32))) = [0] ∧
      localHit s c (lva (xp0 .w32) c 0) = none ∧ lva (xp0 .w32) c 0 % 128 + 4 ≤ 128 ∧
      LanesMap s c (.stl (xp0 .w32)) (lva (xp0 .w32) c) .wr true (fun _ => 0x30000) (fun _ => attr0)) :=
  ⟨has (lanes 0xFF (cached 0x30000 true mapped)) (by decide +kernel), has (lanes 8 (sreg 5 8 mapped)) (by decide +kernel),
   has (lanes 1 (cached 0x30000 true mapped)) (by decide +kernel),
   has (lanes 1 (launch (fun l => { l with desc := { l.desc with localBase := 0x40000 } }) mapped)) (by decide +kernel),
   has (lanes 1 mapped) (by decide +kernel)⟩

def ldc0 : Xp := lp0 .w32
def lda0 : Xm := ⟨al, 6, 9, 5, 0, true, .default, .rlx, .core, .w32⟩
abbrev cva (c : Ctx) (l : Lane) : Nat := (c.l.desc.cbank.toNat + pOf ldc0 c l) % 2 ^ 56

theorem witness_constant_and_asynchronous :
    Has (.ldc ldc0) (fun s c => Aligned c (.ldc ldc0) 4 (pOf ldc0 c) ∧ Within c (.ldc ldc0) 65536 4 (pOf ldc0 c) ∧
      LanesMap s c (.ldc ldc0) (cva c) .rd true (fun _ => 0x2FFFC) (fun _ => attr0) ∧ 
      s.undefAt attr0 0x2FFFC 4 = false ∧ c.l.image.read 0x2FFFC 4 = s.mem.read 0x2FFFC 4 ∧ s.past = []) ∧
    Has (.ldc ldc0) (fun s c => Aligned c (.ldc ldc0) 4 (pOf ldc0 c) ∧ Within c (.ldc ldc0) 65536 4 (pOf ldc0 c) ∧
      lanesOf (c.lanes (.ldc ldc0)) = [7] ∧ LanesMap s c (.ldc ldc0) (cva c) .rd true (fun _ => 0x20000) (fun _ => attr0)) ∧
    Has (.lda lda0) (fun s c => MapsTo (.lda lda0) (gOf lda0) 4 .rd true s c ∧ Aligned c (.lda lda0) 4 (fun l => (c.w.vl 6 l).toNat) ∧
      Within c (.lda lda0) c.b.scrSize 4 (fun l => (c.w.vl 6 l).toNat) ∧ objCheck c (c.w.sr 5).toNat = none ∧
      ∀ l : Lane, c.b.fifoAt (c.w.vl 6 l).toNat = false ∧ s.l1Find c (gOf lda0 c l) = none) :=
  ⟨has (sreg 5 0xFFFC mapped) (by decide +kernel), has (lanes 0x80 mapped) (by decide +kernel),
   has (vreg 6 (fun l => BitVec.ofNat 32 (4 * l.val)) (sreg 5 262128 global)) (by decide +kernel)⟩

theorem witness_failing_accesses :
    Has (.ld (ld1 .w32)) (fun _ c => (lanesOf (c.lanes (.ld (ld1 .w32)))).filter (fun l => gOf (ld1 .w32) c l % 4 != 0) ≠ []) ∧
    Has (.ld32 ⟨0, 8, 4, true⟩) (fun _ c => (lanesOf (c.lanes (.ld32 ⟨0, 8, 4, true⟩))).filter (fun l => gAddr c.w 8 0 4 l % 4 != 0) ≠ []) ∧
    Has (.red { xa0 .add .w32 .rlx with d := 0, scope := .core }) (fun _ c =>
      (lanesOf (c.lanes (.red { xa0 .add .w32 .rlx with d := 0, scope := .core }))).filter (fun l => gAddr c.w 9 0 4 l % 4 != 0) ≠ []) ∧
    Has (.sts (xp0 .w64)) (fun _ c => (lanesOf (c.lanes (.sts (xp0 .w64)))).filter (fun l => pOf (xp0 .w64) c l % 8 != 0) ≠ []) ∧
    Has (.atoms ⟨al, 4, 5, 8, 0, .add, true, .rlx, true, .w64⟩) (fun _ c =>
      (lanesOf (c.lanes (.atoms ⟨al, 4, 5, 8, 0, .add, true, .rlx, true, .w64⟩))).filter (fun l => pAddr c.w 5 true 0 8 l % 8 != 0) ≠ []) ∧
    Has (.sts (xp0 .w32)) (fun _ c => Aligned c (.sts (xp0 .w32)) 4 (pOf (xp0 .w32) c) ∧
      (lanesOf (c.lanes (.sts (xp0 .w32)))).filter (fun l => decide (c.b.scrSize < pOf (xp0 .w32) c l + 4)) ≠ []) ∧
    Has (.ldl (lp0 .w64)) (fun _ c => Aligned c (.ldl (lp0 .w64)) 8 (pOf (lp0 .w64) c) ∧
      (lanesOf (c.lanes (.ldl (lp0 .w64)))).filter (fun l => decide (c.l.desc.localBytes < pOf (lp0 .w64) c l + 8)) ≠ []) ∧
    Has (.ldc ldc0) (fun _ c => Aligned c (.ldc ldc0) 4 (pOf ldc0 c) ∧
      (lanesOf (c.lanes (.ldc ldc0))).filter (fun l => decide (65536 < pOf ldc0 c l + 4)) ≠ []) :=
  ⟨has (spair 8 0x10002 mapped) (by decide +kernel), has (vreg 8 (fun _ => 0x10001) mapped) (by decide +kernel),
   has (spair 8 0x10003 mapped) (by decide +kernel), has (sreg 5 4) (by decide +kernel), has (sreg 5 4) (by decide +kernel),
   has (sreg 5 262144) (by decide +kernel), has (sreg 5 16) (by decide +kernel), has (sreg 5 65536) (by decide +kernel)⟩

theorem witness_missing_translation :
    Has (.ld (ld1 .w32)) (fun s c => lanesOf (c.lanes (.ld (ld1 .w32))) = [0] ∧ Aligned c (.ld (ld1 .w32)) 4 (gOf (ld1 .w32) c) ∧
      s.l1Find c (gOf (ld1 .w32) c 0) = none ∧ s.tlbFind (s.quadOf c.b.core) c.l.asid (gOf (ld1 .w32) c 0) = none ∧
      s.walk c.l.asid (gOf (ld1 .w32) c 0) = none ∧ s.fq.en = true) ∧
    Has (.ld (ld1 .w32)) (fun s c => lanesOf (c.lanes (.ld (ld1 .w32))) = [0] ∧ Aligned c (.ld (ld1 .w32)) 4 (gOf (ld1 .w32) c) ∧
      s.l1Find c (gOf (ld1 .w32) c 0) = none ∧ s.tlbFind (s.quadOf c.b.core) c.l.asid (gOf (ld1 .w32) c 0) = none ∧
      s.walk c.l.asid (gOf (ld1 .w32) c 0) = none ∧ s.fq.en = false) :=
  ⟨has { (lanes 1 (spair 8 0x90000) : State) with fq := { en := true, size := 6 } } (by decide +kernel),
   has (lanes 1 (spair 8 0x90000)) (by decide +kernel)⟩

/-! ### Requests at their slices, waits, and the L1 -/

/-- A request of lane 31, first at its line, and the machine that has sent it. -/
def q0 (k : ReqKind) (st : ReqSt := .queued) (n : Nat := 4) : Req :=
  { id := 7, grp := 0, kind := k, block := 1, warp := 0, sel := .entry 0, lane := 31, core := 0, quad := 0, die := 0, asid := 0
    va := 0x10000, pa := 0x10000, attr := attr0, bytes := n, dst := some 4, st := st }
def sent (q : Req) (s : State := global) : State := { s with reqs := [q], nextReq := 8 }

theorem witness_no_dirty_sent : NoDirty (sent (q0 .fill)) := fun _ _ h => nomatch h

theorem witness_slices :
    (∃ s q, AtSlice s 7 q ∧ q.kind = .write ∧ q.attr.target = .device ∧ s.memOk ∧ s.lostAt q.attr.tier q.pa = none ∧
      q.pa % 128 + q.bytes ≤ 128 ∧ 0 < q.bytes ∧ NoneFailed s q) ∧
    (∃ s q, AtSlice s 7 q ∧ q.kind = .read ∧ q.lr = true ∧ q.lane < 32 ∧ s.badAt q.attr.target q.attr.tier q.pa = none ∧
      s.undefAt q.attr q.pa q.bytes = false) ∧
    (∃ s q, AtSlice s 7 q ∧ q.kind = .deliver 0 64 ∧ s.badAt q.attr.target q.attr.tier q.pa = none ∧
      s.undefAt q.attr q.pa q.bytes = false) ∧
    (∃ s q, AtSlice s 7 q ∧ q.kind = .fill ∧ q.pref = false ∧ s.badAt q.attr.target q.attr.tier q.pa = none ∧
      s.undefAt q.attr q.pa q.bytes = false ∧ NoDirty s ∧ q.attr.stable = false) ∧
    (∃ s q, AtSlice s 7 q ∧ q.kind = .fill ∧ q.pref = true ∧ s.badAt q.attr.target q.attr.tier q.pa = none) ∧
    (∃ s q, AtSlice s 7 q ∧ q.kind = .read ∧ s.badAt q.attr.target q.attr.tier q.pa = none ∧ s.undefAt q.attr q.pa q.bytes = true) ∧
    (∃ s q, AtSlice s 7 q ∧ q.kind = .atomic .add ∧ q.attr.target = .device ∧ s.memOk ∧ s.badAt .device q.attr.tier q.pa = none ∧
      s.undefAt q.attr q.pa q.bytes = false) ∧
    (∃ s q w, AtSlice s 7 q ∧ q.kind = .sc ∧ q.attr.target = .device ∧ s.memOk ∧ s.badAt .device q.attr.tier q.pa = none ∧
      s.warp? q.block q.warp = some w ∧ q.lane < 32 ∧ vget none w.resv q.lane = some (.device, q.pa / 32)) ∧
    (∃ s q w, AtSlice s 7 q ∧ q.kind = .sc ∧ q.attr.target = .device ∧ s.memOk ∧ s.badAt .device q.attr.tier q.pa = none ∧
      s.warp? q.block q.warp = some w ∧ q.lane < 32 ∧ vget none w.resv q.lane ≠ some (.device, q.pa / 32)) ∧
    (∃ s q, AtSlice s 7 q ∧ q.kind = .atomic .add ∧ q.attr.target = .device ∧ s.memOk ∧ s.badAt .device q.attr.tier q.pa = none ∧
      s.undefAt q.attr q.pa q.bytes = true) ∧
    ∃ s q, AtSlice s 7 q ∧ q.kind = .sc ∧ q.pref = false ∧ s.badAt q.attr.target q.attr.tier q.pa = some 2 := by
  have ok : (global : State).memOk := ⟨by decide +kernel, by decide +kernel, by decide +kernel⟩
  refine ⟨⟨sent (q0 .write), _, ⟨rfl, rfl, nofun, by decide +kernel⟩, rfl, rfl, ok, by decide +kernel, by decide, by decide, by
      intro x hx; obtain rfl := List.mem_singleton.1 hx; exact fun _ _ _ => rfl⟩,
    ⟨sent { q0 .read with lr := true }, _, ⟨rfl, rfl, nofun, by decide +kernel⟩, rfl, rfl, by decide, by decide +kernel, by decide +kernel⟩,
    ⟨sent (q0 (.deliver 0 64)), _, ⟨rfl, rfl, nofun, by decide +kernel⟩, rfl, by decide +kernel, by decide +kernel⟩,
    ⟨sent (q0 .fill), _, ⟨rfl, rfl, nofun, by decide +kernel⟩, rfl, rfl, by decide +kernel, by decide +kernel, witness_no_dirty_sent, rfl⟩,
    ⟨sent { q0 .fill with pref := true }, _, ⟨rfl, rfl, nofun, by decide +kernel⟩, rfl, rfl, by decide +kernel⟩,
    ⟨sent { q0 .read with attr := { attr0 with undef := true } }, _, ⟨rfl, rfl, nofun, by decide +kernel⟩, rfl, by decide +kernel, rfl⟩,
    ⟨sent (q0 (.atomic .add)), _, ⟨rfl, rfl, nofun, by decide +kernel⟩, rfl, rfl, ok, by decide +kernel, by decide +kernel⟩,
    ⟨sent (q0 .sc) (warp (fun w => { w with resv := Vector.replicate 32 (some (.device, 0x800)) }) global), _, _,
      ⟨rfl, rfl, nofun, by decide +kernel⟩, rfl, rfl, ⟨by decide +kernel, by decide +kernel, by decide +kernel⟩, by decide +kernel, rfl,
      by decide, by decide +kernel⟩,
    ⟨sent (q0 .sc), _, _, ⟨rfl, rfl, nofun, by decide +kernel⟩, rfl, rfl, ok, by decide +kernel, rfl, by decide, by decide +kernel⟩,
    ⟨sent { q0 (.atomic .add) with attr := { attr0 with undef := true } }, _, ⟨rfl, rfl, nofun, by decide +kernel⟩, rfl, rfl, ok,
      by decide +kernel, rfl⟩,
    ⟨sent (q0 .sc) { (global : State) with bad := [⟨1, 0x10000, 1⟩] }, _, ⟨rfl, rfl, nofun, by decide +kernel⟩, rfl, rfl, by decide +kernel⟩⟩

def back (k : ReqKind) (n : Nat) : Req := q0 k .performed n
def objects (x : BarObj) (s : State := base) : State := block (fun b => b.setObj 64 x) s

theorem witness_results :
    (∃ (s : State) (w : Warp) (q : Req), s.req? 7 = some q ∧ s.warp? 1 0 = some w ∧ q = back .read 16 ∧ q.valueBack = false ∧ q.drop = false ∧
      q.loc = false ∧ 4 + q.bytes / 4 ≤ 128 ∧ s.regsDue 1 0 q.id q.dests = false) ∧
    (∃ (s : State) (w : Warp) (q : Req), s.req? 7 = some q ∧ s.warp? 1 0 = some w ∧ q = { back .fill 1 with sx := true }) ∧
    (∃ (s : State) (w : Warp) (q : Req), s.req? 7 = some q ∧ s.warp? 1 0 = some w ∧ q = back .write 4 ∧ q.timesBack = false) ∧
    (∃ (s : State) (w : Warp) (q : Req), s.req? 7 = some q ∧ s.warp? 1 0 = some w ∧
      q = { back (.atomic .add) 4 with dst := none, valueBack := true } ∧ q.timesBack = false ∧ q.loc = false) ∧
    (∃ (s : State) (b : Block) (q : Req), s.req? 7 = some q ∧ s.block? 1 = some b ∧ q = back (.deliver 80 64) 4 ∧
      q.epoch = b.bankEpoch 0 ∧ b.spoilt.contains 64 = false ∧ b.fifoIn 80 4 = false ∧ b.fifoIn 64 16 = false ∧ b.obj 64 = ⟨false, 1, 1, 4, 0⟩ ∧ (b.obj 64).pbytes - 4 = 0 ∧ (b.obj 64).parr ≠ 0) ∧
    ∃ (s : State) (b : Block) (q : Req), s.req? 7 = some q ∧ s.block? 1 = some b ∧ q = back (.deliver 80 64) 4 ∧
      b.obj 64 = ⟨true, 0, 1, 4, 0⟩ ∧ (b.obj 64).pbytes - 4 = 0 ∧ (b.obj 64).parr = 0 :=
  ⟨⟨sent (back .read 16), _, _, rfl, rfl, rfl, rfl, rfl, rfl, by decide, by decide +kernel⟩,
   ⟨sent { back .fill 1 with sx := true }, _, _, rfl, rfl, rfl⟩, ⟨sent (back .write 4), _, _, rfl, rfl, rfl, rfl⟩,
   ⟨sent { back (.atomic .add) 4 with dst := none, valueBack := true }, _, _, rfl, rfl, rfl, rfl, rfl⟩,
   ⟨sent (back (.deliver 80 64) 4) (objects ⟨false, 1, 1, 4, 0⟩), _, _, rfl, rfl, rfl, by decide +kernel, by decide +kernel, by decide +kernel, by decide +kernel, by decide +kernel,
    by decide +kernel, by decide +kernel⟩,
   ⟨sent (back (.deliver 80 64) 4) (objects ⟨true, 0, 1, 4, 0⟩), _, _, rfl, rfl, rfl, by decide +kernel, by decide +kernel,
    by decide +kernel⟩⟩

def waits (st : FragState) (cond : WaitCond) (s : State := base) : State := frag (fun f => { f with st := st, cond := cond }) s

theorem witness_wakes :
    At (fun s c => c.f.st ≠ .ready ∧ c.f.st ≠ .waitConfirm ∧ c.f.cond.plain = true ∧ s.condMet c c.f.cond = true) ∧
    At (fun s c => c.f.st = .waitFence ∧ c.f.cond = .release .dev ∧ s.condMet c (.release .dev) = true) ∧
    At (fun s c => c.f.st = .waitAddress ∧ c.f.cond = .deadline 1000 ∧ c.f.deadline = some s.time ∧ 1000 ≤ s.time) ∧
    At (fun s c => c.f.st = .waitAddress ∧ c.f.cond = .monitor [] 500 ∧ c.f.deadline = none ∧ s.condMet c c.f.cond = true) ∧
    At (fun s c => c.f.st = .waitResource ∧ c.f.cond = .sumpRoom ∧ s.condMet c .sumpRoom = true) :=
  ⟨stands (waits .waitReg (.full [(.v, 5)])) (by decide +kernel), stands (waits .waitFence (.release .dev)) (by decide +kernel),
   stands (frag (fun f => { f with deadline := some 1000 }) (waits .waitAddress (.deadline 1000))) (by decide +kernel),
   stands (waits .waitAddress (.monitor [] 500)) (by decide +kernel), stands (waits .waitResource .sumpRoom) (by decide +kernel)⟩

def fence0 (ord : Ord) (sc : Scope) : Xm := ⟨al, 0, 0, 0, 0, false, .default, ord, sc, .w8⟩

theorem witness_fence :
    Has (.fence (fence0 .acqrel .pod)) (fun s c => Released s c .acqrel .pod) ∧
    Has (.fence (fence0 .acq .pod)) (fun s c => Released s c .acq .pod ∧ c.failed = []) ∧
    Has (.fence (fence0 .rel .die)) (fun s c => c.f.released = false ∧ s.condMet c (.release .die) = false) :=
  ⟨has base (by decide +kernel), has base (by decide +kernel), has (warp fun w => { w with hdie := 1001 }) (by decide +kernel)⟩

def waita0 (sp : WaitSpace) : Waita := ⟨{ al with c := true }, 6, if sp = .scratch true then 5 else 9, 4, 0, .eq, false, .acq, sp, .w32⟩
def wlds : WaitSpace := .scratch true
/-- Whether the comparison of the tests' WAITA holds in a lane. -/
def waitHolds (c : Ctx) (l : Lane) : Bool := WaitCmp.holds .eq 4 (c.b.read 0 4) (c.w.data 4 4 l)
def zeroed (s : State := base) : State := block (fun b => b.write 0 4 0) s

theorem witness_waita :
    Has (.waita (waita0 wlds)) (fun _ c => Aligned c (.waita (waita0 wlds)) 4 (pAddr c.w 5 true 0 4) ∧
      Within c (.waita (waita0 wlds)) c.b.scrSize 4 (pAddr c.w 5 true 0 4) ∧ ∀ l : Lane, waitHolds c l = true) ∧
    Has (.waita (waita0 wlds)) (fun _ c => Within c (.waita (waita0 wlds)) c.b.scrSize 4 (pAddr c.w 5 true 0 4) ∧
      (∃ l : Lane, waitHolds c l = false) ∧ c.f.deadline = none ∧ c.w.sr 6 = 0) ∧
    Has (.waita (waita0 wlds)) (fun _ c => Within c (.waita (waita0 wlds)) c.b.scrSize 4 (pAddr c.w 5 true 0 4) ∧
      (∃ l : Lane, waitHolds c l = false) ∧ c.f.deadline = none ∧ c.w.sr 6 = 0xFFFF_FFFF) ∧
    Has (.waita (waita0 (.global .pod))) (fun s c => MapsTo (.waita (waita0 (.global .pod))) (fun c => gAddr c.w 9 0 4) 4 .rd true s c ∧
      s.probes c = [] ∧ s.portQueue (s.quadOf c.b.core) (lineKey .device 0x10000) = [] ∧ s.undefAt attr0 0x10000 4 = false ∧
      ∀ l : Lane, WaitCmp.holds .eq 4 (s.mem.read 0x10000 4) (c.w.data 4 4 l) = true) ∧
    Has (.waita (waita0 (.global .pod))) (fun s c => MapsTo (.waita (waita0 (.global .pod))) (fun c => gAddr c.w 9 0 4) 4 .rd true s c ∧
      s.probes c = [] ∧ s.portQueue (s.quadOf c.b.core) (lineKey .device 0x10000) = [] ∧ s.undefAt attr0 0x10000 4 = false ∧
      (∃ l : Lane, WaitCmp.holds .eq 4 (s.mem.read 0x10000 4) (c.w.data 4 4 l) = false) ∧ c.f.deadline = none ∧ c.w.sr 6 ≠ 0 ∧
      s.time < 2 ^ 64 - 1) ∧
    ∀ d ∈ [none, some 1000], Has (.waita (waita0 (.global .pod))) (fun s c =>
      MapsTo (.waita (waita0 (.global .pod))) (fun c => gAddr c.w 9 0 4) 4 .rd true s c ∧
      s.probes c = [] ∧ s.portQueue (s.quadOf c.b.core) (lineKey .device 0x10000) = [] ∧ s.undefAt attr0 0x10000 4 = false ∧
      (∃ l : Lane, WaitCmp.holds .eq 4 (s.mem.read 0x10000 4) (c.w.data 4 4 l) = false) ∧ c.f.deadline = d ∧
      (d = none → c.w.sr 6 = 0) ∧ ∀ m ∈ d, m ≤ s.time) :=
  ⟨has zeroed (by decide +kernel), has (vreg 4 (fun l => BitVec.ofNat 32 l.val) zeroed) (by decide +kernel),
   has (sreg 6 0xFFFF_FFFF (vreg 4 (fun l => BitVec.ofNat 32 l.val) zeroed)) (by decide +kernel), has global (by decide +kernel),
   has (sreg 6 5 (vreg 4 (fun l => BitVec.ofNat 32 l.val) global)) (by decide +kernel),
   fun d hd => has (frag (fun f => { f with deadline := d }) (vreg 4 (fun l => BitVec.ofNat 32 l.val) global)) (by
     revert d; decide +kernel)⟩

def lock0 : Xm := { xm0 .w8 with b := 0, h := { al with c := true } }
def bank0 (fifo : Bool) : Bank := ⟨al, 5, fifo⟩
def mst0 : Xm := ⟨al, 6, 8, 4, 0, false, .default, .rel, .die, .w64⟩
def inv0 : OpAB := ⟨al, 9, 5⟩

theorem witness_lines :
    (∀ i ∈ ([.pref { xm0 .w8 with b := 0 }, .unlock { xm0 .w8 with b := 0 }] : List Instr), Has i fun _ _ => True) ∧
    Has (.lock lock0) (fun s c => LanesMap s c (.lock lock0) (gAddr c.w 9 0 1) .rd true (fun _ => 0x10000) (fun _ => attr0)) ∧
    Has (.l1inv inv0) (fun s c => s.condMet c .warpQuiet = true) :=
  ⟨ready_has (s := global) (by decide +kernel), has global (by decide +kernel), has global (by decide +kernel)⟩

theorem witness_banks :
    Has (.bank (bank0 true)) (fun s c => c.b.banks[(c.w.sr 5).toNat]? = some {} ∧ s.condMet c (.bankQuiet (c.w.sr 5).toNat) = true) ∧
    Has (.bank (bank0 false)) (fun _ c => c.b.banks[(c.w.sr 5).toNat]? = some {}) ∧
    Has (.bank (bank0 true)) (fun _ c => c.b.banks[(c.w.sr 5).toNat]? = none) ∧
    Has (.mst mst0) (fun s c => Aligned c (.mst mst0) 8 (pAddr c.w 8 false 0 8) ∧ Released s c .rel .die ∧ c.w.sr 6 = 1 ∧
      s.receiver c.b 0 = some c.b ∧ s.block? c.b.uid = some c.b ∧
      ∀ l : Lane, pAddr c.w 8 false 0 8 l + 8 ≤ c.b.scrSize ∧ c.b.fifoIn (pAddr c.w 8 false 0 8 l) 8 = false) :=
  ⟨has (sreg 5 15) (by decide +kernel), has (sreg 5 15) (by decide +kernel), has (sreg 5 16) (by decide +kernel),
   has (sreg 6 1) (by decide +kernel)⟩

/-! ### Barriers -/

def xs0 (sc : Scope) (ord : Ord := .rlx) (d : RegField := 6) : Xs := ⟨al, d, 4, 5, true, false, ord, sc⟩
def xb0 (sc : Scope) (ord : Ord := .rlx) (d : RegField := 6) : Xs := { xs0 sc ord d with b := 0 }
def group0 : NetGroup := ⟨false, 1, ⟨.dev, 7, 0⟩, 0, 2, [], true, [1]⟩
def grouped (s : State := base) : State := { (sreg 4 7 s : State) with groups := [group0] }
def coop0 (s : State := base) : State := launch (fun l => { l with desc := { l.desc with coop := true } }) s

theorem witness_barv :
    Has (.barv (xb0 .core .rel)) (fun s c => barIdOf .core (c.w.sr 4) = some ⟨.core, 15, 0⟩ ∧ s.barGen c.b c.l.id ⟨.core, 15, 0⟩ = some false ∧
      c.b.hasArrived ⟨.core, 15, 0⟩ c.ref.warp (c.lanes (.barv (xb0 .core .rel))) = false ∧ Released s c .rel .core) ∧
    Has (.barv (xb0 .dev .rel)) (fun s c => barIdOf .dev (c.w.sr 4) = some ⟨.dev, 7, 0⟩ ∧ s.barGen c.b c.l.id ⟨.dev, 7, 0⟩ = some true ∧
      c.b.hasArrived ⟨.dev, 7, 0⟩ c.ref.warp (c.lanes (.barv (xb0 .dev .rel))) = false ∧ Released s c .rel .dev) ∧
    Has (.barv (xb0 .core)) (fun s c => barIdOf .core (c.w.sr 4) = some ⟨.core, 0, 0⟩ ∧ s.barGen c.b c.l.id ⟨.core, 0, 0⟩ = some false ∧
      c.b.hasArrived ⟨.core, 0, 0⟩ c.ref.warp (c.lanes (.barv (xb0 .core))) = true) ∧
    Has (.barv (xb0 .core)) (fun _ c => barIdOf .core (c.w.sr 4) = none) ∧
    Has (.barv (xb0 .pod)) (fun s c => barIdOf .pod (c.w.sr 4) = some ⟨.pod, 7, 1⟩ ∧ s.barGen c.b c.l.id ⟨.pod, 7, 1⟩ = none) :=
  ⟨has (sreg 4 15) (by decide +kernel), has grouped (by decide +kernel),
   has (block fun b => { b with bars := [{ bar := ⟨.core, 0, 0⟩, lanes := [(0, 1)] }] }) (by decide +kernel),
   has (sreg 4 16) (by decide +kernel), has (sreg 4 0x107) (by decide +kernel)⟩

theorem witness_bwait :
    Has (.bwait (xs0 .dev .acq 0)) (fun s c => barIdOf .dev (c.w.sr 4) = some ⟨.dev, 7, 0⟩ ∧ s.barGen c.b c.l.id ⟨.dev, 7, 0⟩ = some true ∧
      true ≠ (c.w.sr 5).getLsbD 0) ∧
    Has (.bwait (xs0 .dev .acq 0)) (fun s c => barIdOf .dev (c.w.sr 4) = some ⟨.dev, 7, 0⟩ ∧ s.barGen c.b c.l.id ⟨.dev, 7, 0⟩ = some true ∧
      true = (c.w.sr 5).getLsbD 0) ∧
    Has (.bwait (xs0 .core .acq 0)) (fun _ c => barIdOf .core (c.w.sr 4) = none) ∧
    Has (.bwait (xs0 .pod .acq 0)) (fun s c => barIdOf .pod (c.w.sr 4) = some ⟨.pod, 7, 1⟩ ∧ s.barGen c.b c.l.id ⟨.pod, 7, 1⟩ = none) :=
  ⟨has grouped (by decide +kernel), has (sreg 5 1 grouped) (by decide +kernel), has (sreg 4 16) (by decide +kernel),
   has (sreg 4 0x107) (by decide +kernel)⟩

/-- Which group a BGRP of device scope meets. -/
def meets (s : State) (c : Ctx) (id : BarId) (g : NetGroup) : Bool := g.of c.l.id id && g.bar.g == id.g &&
  (g.inst == s.instOf g.bar.scope c.b.core || instInside g.bar.scope g.inst .dev (s.instOf .dev c.b.core))
def bgrp0 : Xs := xs0 .dev .rlx 0

theorem witness_bgrp :
    Has (.bgrp bgrp0) (fun s c => barIdOf .dev (c.w.sr 4) = some ⟨.dev, 7, 0⟩ ∧ (c.w.sr 5).toNat = 65535 ∧ c.l.desc.coop = true ∧
      s.groups.find? (meets s c ⟨.dev, 7, 0⟩) = none) ∧
    Has (.bgrp bgrp0) (fun s c => barIdOf .dev (c.w.sr 4) = some ⟨.dev, 7, 0⟩ ∧ (c.w.sr 5).toNat = 2 ∧ c.l.desc.coop = true ∧
      s.groups.find? (meets s c ⟨.dev, 7, 0⟩) = some group0 ∧ group0.members.contains c.ref.block = true) ∧
    Has (.bgrp bgrp0) (fun s c => barIdOf .dev (c.w.sr 4) = some ⟨.dev, 7, 0⟩ ∧ (c.w.sr 5).toNat = 2 ∧ c.l.desc.coop = true ∧
      s.groups.find? (meets s c ⟨.dev, 7, 0⟩) = some { group0 with members := [9] } ∧ [9].contains c.ref.block = false) ∧
    Has (.bgrp bgrp0) (fun _ c => (c.w.sr 5).toNat = 0) ∧
    Has (.bgrp bgrp0) (fun _ c => barIdOf .dev (c.w.sr 4) = some ⟨.dev, 0, 0⟩ ∧ (c.w.sr 5).toNat = 1 ∧ c.l.desc.coop = false ∧
      c.l.desc.chain = false) ∧
    Has (.bgrp bgrp0) (fun s c => barIdOf .dev (c.w.sr 4) = some ⟨.dev, 7, 0⟩ ∧ (c.w.sr 5).toNat = 3 ∧ c.l.desc.coop = true ∧
      s.groups.find? (meets s c ⟨.dev, 7, 0⟩) = some group0 ∧ group0.expected ≠ 3) ∧
    Has (.bgrp bgrp0) (fun s c => barIdOf .dev (c.w.sr 4) = some ⟨.dev, 7, 0⟩ ∧ (c.w.sr 5).toNat = 2 ∧ c.l.desc.coop = true ∧
      s.groups.find? (meets s c ⟨.dev, 7, 0⟩) = some { group0 with members := [8, 9] } ∧ [8, 9].contains c.ref.block = false) :=
  ⟨has (sreg 5 65535 (sreg 4 7 coop0)) (by decide +kernel), has (sreg 5 2 (grouped coop0)) (by decide +kernel),
   has { (sreg 5 2 (grouped coop0) : State) with groups := [{ group0 with members := [9] }] } (by decide +kernel),
   has base (by decide +kernel), has (sreg 5 1) (by decide +kernel), has (sreg 5 3 (grouped coop0)) (by decide +kernel),
   has { (sreg 5 2 (grouped coop0) : State) with groups := [{ group0 with members := [8, 9] }] } (by decide +kernel)⟩

theorem witness_network :
    (∃ (s : State) (x : NetGroup), s.groups[0]? = some x ∧ x.arrived.contains 1 = false ∧ x.arrived.length < x.expected ∧
      s.groupArrived x 1 = true) ∧
    (∃ (s : State) (x : NetGroup), s.groups[0]? = some x ∧ x.expected ≤ x.arrived.length ∧ x.members.contains 1 = true ∧ x.pod = false) ∧
    (∃ (s : State) (x : NetGroup), s.groups[0]? = some x ∧ x.expected ≤ x.arrived.length ∧ x.pod = true ∧ s.podUp = true ∧
      ∀ u ∈ x.arrived, u ∉ x.members → peerDev u ∉ s.env.unreachable) ∧
    (∃ (s : State) (x : NetGroup), s.groups[0]? = some x ∧ x.pod = true ∧ 2 ∈ x.arrived ∧ 2 ∉ x.members ∧ peerDev 2 ∈ s.env.unreachable) ∧
    ∃ (s : State) (x : NetGroup), s.groups[0]? = some x ∧ x.expected ≤ x.arrived.length ∧ x.pod = true ∧ s.podUp = false ∧
      x.members.length < x.expected :=
  ⟨⟨block (fun b => { b with bars := [{ bar := ⟨.dev, 7, 0⟩, here := true }] }) grouped, _, rfl, rfl, by decide, by decide +kernel⟩,
   ⟨{ (grouped : State) with groups := [{ group0 with arrived := [1, 2] }] }, _, rfl, by decide, rfl, rfl⟩,
   ⟨{ (grouped : State) with groups := [{ group0 with arrived := [1, 2], pod := true }], env := { base.env with unreachable := [3] } },
    _, rfl, by decide, rfl, by decide +kernel, by decide +kernel⟩,
   ⟨{ (grouped : State) with groups := [{ group0 with arrived := [1, 2], pod := true }], env := { base.env with unreachable := [2] } },
    _, rfl, rfl, by decide, by decide, by decide +kernel⟩,
   ⟨{ (grouped : State) with groups := [{ group0 with arrived := [1, 2], pod := true }], env := { base.env with syncLost := true } },
    _, rfl, by decide, rfl, by decide +kernel, by decide⟩⟩

def obj0 (parr : Nat) : BarObj := ⟨true, parr, 3, -5, 2 ^ 31 - 1⟩
/-- The object of the tests at offset 64, which s4 names. -/
def object (x : BarObj) (s : State := base) : State := sreg 4 64 (objects x s)
def xo (d : RegField := 0) (ord : Ord := .rlx) : Xs := ⟨al, d, 4, 5, true, false, ord, .core⟩
def bt : Xs := { xo with h := { al with c := true }, ord := .acq }

theorem witness_objects :
    Has (.boinit xo) (fun _ c => ObjAt c xo (obj0 0) ∧ (c.w.sr 5).toNat = 65535) ∧
    Has (.boinit xo) (fun _ c => ObjAt c xo (obj0 0) ∧ (c.w.sr 5).toNat = 0) ∧
    Has (.boarv { xo 6 .rel with b := 0 }) (fun s c => ObjAt c { xo 6 .rel with b := 0 } (obj0 1) ∧ Released s c .rel .core) ∧
    Has (.boarv { xo 6 .rel with b := 0 }) (fun _ c => ObjAt c { xo 6 .rel with b := 0 } (obj0 0)) ∧
    Has (.bowait xo) (fun _ c => ObjAt c xo (obj0 0) ∧ (obj0 0).phase ≠ (c.w.sr 5).getLsbD 0) ∧
    Has (.bowait xo) (fun _ c => ObjAt c xo (obj0 0) ∧ (obj0 0).phase = (c.w.sr 5).getLsbD 0) ∧
    Has (.botest bt) (fun _ c => ObjAt c bt (obj0 0)) ∧
    Has (.botest bt) (fun _ c => objCheck c (c.w.sr bt.a.toNat).toNat = none ∧ c.b.spoilt.contains 64 = true) ∧
    Has (.boexp { xo with next := true }) (fun _ c => ObjAt c { xo with next := true } (obj0 0) ∧ (c.w.sr 5).toNat = 0) ∧
    Has (.boexp { xo with next := true }) (fun _ c => ObjAt c { xo with next := true } (obj0 0) ∧ 2 ^ 31 ≤ (obj0 0).ebytes + (c.w.sr 5).toNat) ∧
    Has (.boexp xo) (fun _ c => ObjAt c xo (obj0 0) ∧ (obj0 0).pbytes + ((c.w.sr 5).toNat : Int) = 2 ^ 31 - 1) ∧
    Has (.boexp xo) (fun _ c => ObjAt c xo (obj0 0) ∧ (obj0 0).pbytes + ((c.w.sr 5).toNat : Int) = 2 ^ 31) :=
  ⟨has (sreg 5 65535 (object (obj0 0))) (by decide +kernel), has (object (obj0 0)) (by decide +kernel),
   has (object (obj0 1)) (by decide +kernel), has (object (obj0 0)) (by decide +kernel), has (object (obj0 0)) (by decide +kernel),
   has (sreg 5 1 (object (obj0 0))) (by decide +kernel), has (object (obj0 0)) (by decide +kernel),
   has (block (fun b => { b with spoilt := [64] }) (object (obj0 0))) (by decide +kernel),
   has (object (obj0 0)) (by decide +kernel), has (sreg 5 1 (object (obj0 0))) (by decide +kernel),
   has (sreg 5 0x8000_0004 (object (obj0 0))) (by decide +kernel), has (sreg 5 0x8000_0005 (object (obj0 0))) (by decide +kernel)⟩

/-! ### Engines, the chain and launches -/

/-- Words of the scratchpad from an offset on, with s5 at the offset, s6 = 8, s10 as given. -/
def words (off : Nat) (ws : List Nat) (s10 : Word := 0) (s : State := base) : State :=
  sreg 5 (BitVec.ofNat 32 off) (sreg 6 8 (sreg 10 s10 (block (fun b => { b with scratch := cellPuts b.scratch off (ws.flatMap (leBytes 4)) }) s)))
def noneW : Nat := 2 ^ 32 - 1
def mlw0 : Mlw := ⟨al, 5, 6, 7, 3, false, true, .scratch, .e2m1x8⟩
def mma0 : Mma := ⟨al, 10, 5, 6, 0, 3, 7, .both, false, .scratch, .e4m3x4⟩
def mdr0 : Mdr := ⟨al, false, true, 11, 6, 5, 3, 7, true, .relu, .scratch, .f32⟩
def slots0 (s : State) : State :=
  block (fun b => { b with slots := Vector.replicate 2 (some ⟨.e4m3x4, false, [], [], 0⟩) }) s

theorem witness_matrix :
    Has (.mlw mlw0) (fun s c => Free s c ∧ (match matSrc s c .scratch 5 6 with | .ok x => some x | .error _ => none) = some (.scratch 0 8) ∧
      matExtent s c (.scratch 0 8) 128 (2 * matBits .e2m1x8) = none) ∧
    Has (.mma mma0) (fun s c => Free s c ∧ shapeOf (c.w.sr 10) = some (64, 64) ∧
      (match matSrc s c .scratch 5 6 with | .ok x => some x | .error _ => none) = some (.scratch 0 8) ∧
      matExtent s c (.scratch 0 8) 64 (16 * 8 * 2) = none ∧ recordCheck c (c.w.sr 0).toNat 4 (4 * 64 * 2) = none ∧
      ∀ k ∈ slotsOf .both, c.b.slotFmt k = some .e4m3x4 ∧ pairOk .e4m3x4 .e4m3x4 = true) ∧
    Has (.mdr mdr0) (fun s c => Free s c ∧ (match matSrc s c .scratch 11 6 with | .ok x => some x | .error _ => none) = some (.scratch 1024 64) ∧
      recordCheck c (c.w.sr 5).toNat 32 32 = none ∧ epilogueAt c.b (c.w.sr 5).toNat = some ⟨128, 0, some 0, none, none, 0, 0⟩ ∧
      extentCheck c 0 (4 * 128) = none ∧ strideShort (.scratch 1024 64) (rowBytes .f32) = false ∧
      matExtent s c (.scratch 1024 64) 128 (rowBytes .f32) = none) ∧
    (∀ i ∈ ([.mzr mzr0, .mrs ⟨al, 4, 5, 127, 7, false⟩] : List Instr), Has i fun _ _ => True) ∧
    Has (.mws ⟨al, 5, 0, 4, 7, true, .i32⟩) (fun s c => s.condMet c (.tileIdle 7) = true ∧
      ∀ r, r < 128 → (c.b.tileRow 7 r).length = 16) ∧
    Has (.mws ⟨al, 5, 0, 4, 7, true, .i32⟩) (fun s c => s.condMet c (.tileIdle 7) = false) :=
  ⟨has (words 0 []) (by decide +kernel), has (slots0 (words 0 [] 0x403F)) (by decide +kernel),
   has (sreg 11 1024 (sreg 6 64 (words 32 [127, 0, noneW, noneW, 0, 0, 0, 0]))) (by decide +kernel),
   ready_has (s := base) (by decide +kernel), has base (by decide +kernel),
   has (block (fun b => { b with ops := [{ id := 5, handle := 9, hreg := none, warp := 0, pc := 0
                                           kind := .mdr { mdr0 with tile := 7 } (.scratch 1024 64) ⟨128, 0, none, none, none, 0, 0⟩ }] }) base)
     (by decide +kernel)⟩

/-- A copy of 32 words from 1024 to 2048 in the scratchpad, as a descriptor and as words. -/
def cd0 : CopyDesc := ⟨1024, 2048, [32, 1, 1, 1], [0, 0, 0], [0, 0, 0], .scratch, .scratch, 2, 0, 0⟩
def cdWords : List Nat := [1024, 0, 2048, 0, 32, 1, 1, 1, 0, 0, 0, 0, 0, 0, 37, 0]
def descOk (s : State) (c : Ctx) (off : Nat) (red : CopyRed) (many : Bool) (xf : Option CopyXf) : Option CopyDesc :=
  match copyDesc s c off red many xf 4096 with | .ok d => some d | .error _ => none

theorem witness_copies :
    Has (.copy ⟨al, 1, 5, 10, 0, true, .add⟩) (fun s c => Free s c ∧ descOk s c (c.w.sr 5).toNat .add false none = some cd0 ∧
      objCheck c (c.w.sr 10).toNat = none) ∧
    Has (.copym ⟨al, 1, 5, 10, 6, true, .none⟩) (fun s c => Free s c ∧ descOk s c (c.w.sr 5).toNat .none true none = some cd0 ∧
      bomCheck s c (c.w.sr 10).toNat 2 = none ∧ (c.w.sr 6).extractLsb' 0 16 = 2 ∧ objCheck c (c.w.sr 10).toNat ≠ none) ∧
    Has (.copyl ⟨al, 1, 5, 11, 10, true, .none⟩) (fun s c => Free s c ∧ (c.w.sr 11).toNat = 1 ∧
      descOk s c ((c.w.sr 5).toNat + 64 * 0) .none false none = some cd0 ∧ objCheck c (c.w.sr 10).toNat = none) ∧
    Has (.copyx ⟨al, 1, 5, 0, 12, false, .qnt .e4m3x4 true⟩) (fun s c => Free s c ∧ (c.w.sp 12).toNat % 2 ^ 56 = 4096 ∧
      descOk s c (c.w.sr 5).toNat .none false (some (.qnt .e4m3x4 true)) = some cd0) :=
  ⟨has (words 0 cdWords 256) (by decide +kernel),
   has (sreg 10 0x3C000 (sreg 6 2 (words 0 cdWords 256 (fifo [])))) (by decide +kernel),
   has (sreg 11 1 (words 0 cdWords 256)) (by decide +kernel), has (sreg 12 4096 (words 0 cdWords 256)) (by decide +kernel)⟩

def sd0 (w9 : Word := 0) (f16 : Nat := 0) (f24 : Nat := 0) (sp : BitVec 4 := 7) : ScanDesc :=
  ⟨1024, 2048, f16, f24, sp, 16, w9, 0, 0, false, false⟩
def sd1 : ScanDesc := { sd0 with dst := 0, sp := 1 }
def scan0 : Scan := ⟨al, 1, 5, true, true, true, .f32, .add⟩
def topk0 : OpDA := ⟨al, 1, 5⟩
def smax0 : ChainOp := ⟨al, 1, 5, true⟩
/-- A chain launch whose block is in a group of one. -/
def chained (s : State := base) : State :=
  block (fun b => { b with group := some ⟨0, 1, true⟩ }) (launch (fun l => { l with desc := { l.desc with chain := true } }) s)
def sdWords (w9 : Nat := 0) (f16 : Nat := 0) (f24 : Nat := 0) (sp : Nat := 7) (hi : Nat := 0) : List Nat :=
  [1024, 0, 2048, 0, f16, hi, f24, 0, 16, w9, 0, 0, 0, 0, 0, sp]

theorem witness_scans :
    Has (.scan scan0) (fun s c => Free s c ∧ ScanRecord c 5 ([0, 1, 2, 3, 8] ++ (if scan0.seg then [4, 5] else [])) 4 (sd0 0 3072) ∧
      (sd0 0 3072).spaces 7 = true ∧ ArraysOk c (.scan scan0 (sd0 0 3072)) (some ((sd0 0 3072).arr 2 2)) (scanSize .add) true) ∧
    Has (.topk topk0) (fun s c => Free s c ∧ ScanRecord c 5 [0, 1, 2, 3, 4, 5, 6, 7, 8, 9, 10] 4 (sd0 256 3072 4096 15) ∧
      ArraysOk c (.topk (sd0 256 3072 4096 15)) none 4 false) ∧
    Has (.topk topk0) (fun s c => Free s c ∧ ScanRecord c 5 [0, 1, 2, 3, 4, 5, 6, 7, 8, 9, 10] 4 (sd0 256 allOnes64 4096 11) ∧
      (sd0 256 allOnes64 4096 11).spaces 11 = true ∧ ArraysOk c (.topk (sd0 256 allOnes64 4096 11)) none 4 false) ∧
    Has (.smax smax0) (fun s c => Free s c ∧ ScanRecord c 5 [0, 1, 2, 3, 4, 5, 8, 9, 10, 11] 6 (sd0 0 3072) ∧
      (sd0 0 3072).spaces 7 = true ∧ ArraysOk c (.smax (sd0 0 3072) true) none 4 true) ∧
    Has (.samp smax0) (fun s c => Free s c ∧ ScanRecord c 5 [0, 1, 8, 9, 10, 11] 4 sd1 ∧ sd1.spaces 1 = true ∧ ArraysOk c (.samp sd1 true) none 4 true) :=
  ⟨has (chained (words 0 (sdWords 0 3072))) (by decide +kernel), has (words 0 (sdWords 256 3072 4096 15)) (by decide +kernel),
   has (words 0 (sdWords 256 noneW 4096 11 noneW)) (by decide +kernel),
   has (chained (words 0 (sdWords 0 3072))) (by decide +kernel),
   has (chained (words 0 [1024, 0, 0, 0, 0, 0, 0, 0, 16, 0, 0, 0, 0, 0, 0, 1])) (by decide +kernel)⟩

/-! ### Handles, operations of the engines, the chain and launches -/

def op0 (k : OpKind) (st : OpStatus := .pending) : EngOp := { id := 5, handle := 9, hreg := some 3, warp := 0, pc := 0x10000, kind := k, status := st }
def mzrOp : OpKind := .mzr 7
/-- The block has one operation, and h3 holds its handle. -/
def runs (x : EngOp) (s : State := base) : State := warp (fun w => w.setH 3 9) (block (fun b => { b with ops := [x] }) s)
def hw0 : Hw := ⟨al, 5, 3, some .pod⟩
def fault0 : OpFault := ⟨7, 64, 0, false, 0⟩

def stall0 : Suspend := ⟨0x0A, 0x10000, 1, false, 0⟩
def mlwK : OpKind := .mlw mlw0 (.scratch 0 8) 0

theorem witness_handles :
    Has (.hwait hw0) (fun _ c => c.w.hr 3 = 0) ∧
    Has (.hwait hw0) (fun _ c => c.w.hr 3 ≠ 0 ∧ c.b.opOf (c.w.hr 3) = some (op0 mzrOp .done) ∧ ∀ f, (op0 mzrOp .done).fault = some f → f.taken = true) ∧
    Has (.hwait hw0) (fun _ c => c.w.hr 3 ≠ 0 ∧ c.b.opOf (c.w.hr 3) = some { op0 mzrOp .faulted with fault := some fault0 } ∧ fault0.taken = false) ∧
    Has (.hwait hw0) (fun _ c => c.w.hr 3 ≠ 0 ∧ c.b.opOf (c.w.hr 3) = none) ∧
    Has (.htest { hw0 with d := 0, h := { al with c := true } }) (fun _ c => c.lanes (.htest { hw0 with d := 0, h := { al with c := true } }) ≠ 0) ∧
    Has (.hcan ⟨al, 3⟩) (fun _ c => c.b.opOf (c.w.hr 3) = some (op0 mzrOp) ∧ (op0 mzrOp).suspend = none ∧ (c.b.ops.map (·.id)).Nodup) ∧
    Has (.hcan ⟨al, 3⟩) (fun s c => c.b.opOf (c.w.hr 3) = some { op0 mlwK with suspend := some stall0 } ∧
      ∃ e, s.eng? 5 = some e ∧ e.b.uid = c.ref.block) ∧
    Has (.hcan ⟨al, 3⟩) (fun _ c => c.b.opOf (c.w.hr 3) = none) ∧
    Has (.hsav ⟨al, 5, 3⟩) (fun _ c => handleOff c (c.w.sr 5).toNat = none ∧ (c.w.sr 5).toNat = 64) ∧
    Has (.hld ⟨al, 3, 5⟩) (fun _ c => handleOff c (c.w.sr 5).toNat = none ∧ BitVec.ofNat 64 (c.b.read (c.w.sr 5).toNat 8) = 9 ∧
      (c.b.opOf 9).isSome = true) ∧
    Has (.hld ⟨al, 3, 5⟩) (fun _ c => handleOff c (c.w.sr 5).toNat = none ∧ BitVec.ofNat 64 (c.b.read (c.w.sr 5).toNat 8) = 8 ∧
      c.b.opOf 8 = none) :=
  by
  refine ⟨has base (by decide +kernel), has (runs (op0 mzrOp .done)) (by decide +kernel), has (runs { op0 mzrOp .faulted with fault := some fault0 }) (by decide +kernel),
   has (warp fun w => w.setH 3 8) (by decide +kernel), has base (by decide +kernel), has (runs (op0 mzrOp)) (by decide +kernel),
   ?_, has base (by decide +kernel), has (sreg 5 64) (by decide +kernel),
   has (sreg 5 64 (block (fun b => b.write 64 8 9) (runs (op0 mzrOp)))) (by decide +kernel),
   has (sreg 5 64 (block (fun b => b.write 64 8 8) (runs (op0 mzrOp)))) (by decide +kernel)⟩
  obtain ⟨s, c, h, h1, h2⟩ := has (i := .hcan ⟨al, 3⟩) (P := fun s c => c.b.opOf (c.w.hr 3) = some { op0 mlwK with suspend := some stall0 } ∧
    (s.eng? 5).any (fun e => e.b.uid == c.ref.block) = true) (runs { op0 mlwK with suspend := some stall0 }) (by decide +kernel)
  obtain ⟨e, he, h3⟩ := (Option.any_eq_true _ _).1 h2
  exact ⟨s, c, h, h1, e, he, by simpa using h3⟩

/-- Some operation in some state meets the hypotheses of a statement about an operation. -/
def Runs (P : State → Eng → Prop) : Prop := ∃ s e, s.eng? 5 = some e ∧ s.block? e.b.uid = some e.b ∧ P s e

theorem running {P : State → Eng → Prop} [∀ s e, Decidable (P s e)] (s : State)
    (h : (match s.eng? 5 with | some e => s.block? e.b.uid == some e.b && decide (P s e) | none => false) = true) : Runs P := by
  split at h
  · rename_i e he
    rw [Bool.and_eq_true, decide_eq_true_eq, beq_iff_eq] at h
    exact ⟨s, e, he, h⟩
  · cases h

/-- An answer without a stop, of which `p` holds. -/
def got {α : Type} (x : State × Except EngStop α) (p : State → Bool) : Bool := match x with | (u, .ok _) => p u | (_, .error _) => false

def mmaK : OpKind := .mma mma0 (.scratch 0 8) 64 64 0
def ep0 : Epilogue := ⟨128, 0, some 0, none, none, 0, 0⟩
def mdrK : OpKind := .mdr mdr0 (.scratch 1024 64) ep0
def copyK : OpKind := .copy cd0 .none none
def scan1 : Scan := { scan0 with seg := false, chain := false }
def scanK : OpKind := .scan scan1 (sd0 0 3072)

/-- A translation that answers an address and its attributes, and leaves the state. -/
def okAt (s : State) (x : State × Except EngStop (Nat × Attr)) (pa : Nat) (a : Attr) : Bool :=
  match x with
  | (u, .ok p) => u == s && p == (pa, a)
  | _ => false

theorem of_okAt {s : State} {x : State × Except EngStop (Nat × Attr)} {pa : Nat} {a : Attr} (h : okAt s x pa a = true) :
    x = (s, .ok (pa, a)) := by
  obtain ⟨u, p | p⟩ := x
  · cases h
  · simpa [okAt] using h

/-- A tensor of 128 rows of 64 bytes in stack 0. -/
def tensor0 : Tensor := ⟨2, 2, 0, [16, 128], 0⟩

/-- No bank of the block has changed its mode since the operation was issued. -/
def sameBanks (e : Eng) (b : Block) : Bool := e.o.epochs.isEmpty && b.banks.all (·.epoch == 0)

theorem of_sameBanks {e : Eng} {b : Block} (h : sameBanks e b = true) : SameBanks e b := by
  simp only [sameBanks, Bool.and_eq_true, List.isEmpty_iff, List.all_eq_true, beq_iff_eq] at h
  intro k
  have : e.o.wasEpoch b.uid k = 0 := by simp [EngOp.wasEpoch, h.1, tget]
  rw [this, Block.bankEpoch]
  split
  · rename_i x hx
    exact (h.2 x (List.mem_of_getElem? hx)).symm
  · rfl

theorem witness_operations :
    Runs (fun _ e => e.o.status = .pending ∧ e.o.finished = true) ∧
    Runs (fun s e => s.engTurn e = true ∧ e.o.progress = 0 ∧ e.o.kind = mlwK ∧ mlw0.sp = false ∧
      got (s.matRows (fun s k => s.matRead e (.scratch 0 8) k 0 (2 * matBits mlw0.fmt)) 128) (fun u => u.block? e.b.uid == some e.b) = true) ∧
    Runs (fun s e => s.engTurn e = true ∧ e.o.kind = mmaK ∧ e.o.progress < 64 ∧ e.o.cancel = false ∧
      ((slotsOf mma0.kmode).all fun k => (vget none e.b.slots k).any fun sl => pairOk mma0.fmt sl.fmt) = true ∧
      got (s.actRow e (.scratch 0 8) mma0.sp e.o.progress (matBits mma0.fmt) 2) (fun u => u.block? e.b.uid == some e.b) = true) ∧
    Runs (fun s e => s.engTurn e = true ∧ e.o.kind = mdrK ∧ e.o.progress < ep0.count ∧ e.o.cancel = false ∧
      e.b.fifoIn (1024 + e.o.progress * 64) (rowBytes mdr0.fmt) = false ∧ sameBanks e e.b = true) ∧
    Runs (fun s e => s.engTurn e = true ∧ e.o.kind = .mdr mdr0 (.global 0x10000 64) ep0 ∧ e.o.progress < ep0.count ∧ e.o.cancel = false ∧
      (0x10000 + e.o.progress * 64) % 65536 + rowBytes mdr0.fmt ≤ 65536 ∧
      okAt s (s.engXlate e (0x10000 + e.o.progress * 64) .engWr) 0x11FC0 attr0 = true ∧ s.lostAt attr0.tier 0x11FC0 = none) ∧
    Runs (fun s e => s.engTurn e = true ∧ e.o.kind = .mdr mdr0 (.vault 0 [0, 0]) ep0 ∧ e.o.progress < ep0.count ∧ e.o.cancel = false ∧
      s.tensor? e.l.asid 0 = some tensor0 ∧
      ((vaultWords [0, 0] e.o.progress 0 (rowBytes mdr0.fmt)).map tensor0.addr).Pairwise (fun x y => x + 4 ≤ y ∨ y + 4 ≤ x)) ∧
    Runs (fun s e => s.engTurn e = true ∧ e.o.progress = 0 ∧ e.o.kind = .mlw { mlw0 with sp := true } (.scratch 0 8) 0 ∧
      got (s.matRows (fun s j => s.matGroup e (.scratch 0 8) j 0 (matBits mlw0.fmt)) 16) (fun u => u.block? e.b.uid == some e.b) = true) ∧
    Runs (fun s e => s.engTurn e = true ∧ e.o.kind = mzrOp) :=
  ⟨running (runs { op0 mlwK with progress := 1 }) (by decide +kernel), running (runs (op0 mlwK)) (by decide +kernel),
   running (runs { op0 mmaK with progress := 63 } (slots0 base)) (by decide +kernel), running (runs { op0 mdrK with progress := 127 }) (by decide +kernel),
   running (runs { op0 (.mdr mdr0 (.global 0x10000 64) ep0) with progress := 127 } mapped) (by decide +kernel),
   running { (runs { op0 (.mdr mdr0 (.vault 0 [0, 0]) ep0) with progress := 127 } : State) with tensors := [(0, tensor0)] }
     (by decide +kernel),
   running (runs (op0 (.mlw { mlw0 with sp := true } (.scratch 0 8) 0)) (words 0 (List.replicate 64 0))) (by decide +kernel),
   running (runs (op0 mzrOp)) (by decide +kernel)⟩

/-- No bank of a block with no bank in FIFO mode is in FIFO mode. -/
theorem fifo_of_banks {b : Block} (h : (b.banks.all fun k => !k.fifo) = true) (y n : Nat) : b.fifoIn y n = false := by
  have ha (o : Nat) : b.fifoAt o = false := by
    unfold Block.fifoAt
    split
    · rename_i k hk
      simpa using List.all_eq_true.mp h _ (List.mem_of_getElem? hk)
    · rfl
  simp [Block.fifoIn, ha]

theorem witness_copy : Runs fun s e => s.engTurn e = true ∧ e.o.kind = copyK ∧ e.o.entry = 0 ∧ e.o.cancel = false ∧ 0 < cd0.chunkCount ∧
    e.o.chunks.contains 0 = false ∧ (⟨cd0, none, 0, .none, none⟩ : CopyJob).overlaps s e.l.asid true = false ∧ (e.b.banks.all fun k => !k.fifo) = true ∧
    sameBanks e e.b = true :=
  running (runs (op0 copyK)) (by decide +kernel)

theorem witness_copy_apart : let dst (n : Nat) : Nat := intBits 32 ((cd0.sides none).2.base + (cd0.sides none).2.delta (indexOf cd0.ext n))
    ∀ m ∈ cd0.chunkIdx 0, ∀ n ∈ cd0.chunkIdx 0, m ≠ n → dst m + 2 ^ cd0.size ≤ dst n ∨ dst n + 2 ^ cd0.size ≤ dst m := by decide +kernel

theorem witness_scan : Runs fun s e => s.engTurn e = true ∧ e.o.kind = scanK ∧ e.o.progress = 0 ∧ scan1.chain = false ∧ scan1.seg = false ∧
    (OpKind.scan scan1 (sd0 0 3072)).overlaps = false ∧ (e.b.banks.all fun k => !k.fifo) = true ∧ sameBanks e e.b = true :=
  running (runs (op0 scanK)) (by decide +kernel)

def copyJ : CopyJob := ⟨cd0, none, 0, .add, none⟩
def quantJ : CopyJob := ⟨cd0, some (.qnt .e4m3x4 true), 4096, .none, none⟩
def castJ (n : BitVec 16) : CopyJob := ⟨cd0, none, 0, .none, some n⟩
/-- The hypotheses of `ChunkDue` on an operation that runs. -/
def due (s : State) (e : Eng) (j : CopyJob) (k : Nat) : Bool :=
  s.engTurn e && e.o.kind.job e.o.entry == some j && decide (e.o.entry < e.o.kind.entries) && !e.o.cancel &&
    decide (k < j.d.chunkCount) && !e.o.chunks.contains k && s.mem.wf && s.host.wf && s.vault.wf && sameBanks e e.b &&
    !j.overlaps s e.l.asid (s.ownDst e j)

theorem of_due {s : State} {id : Nat} {e : Eng} {j : CopyJob} {k : Nat} (he : s.eng? id = some e) (hb : s.block? e.b.uid = some e.b)
    (h : due s e j k = true) : ChunkDue s id k e j := by
  simp only [due, Bool.and_eq_true, decide_eq_true_eq, beq_iff_eq, Bool.not_eq_true'] at h
  obtain ⟨⟨⟨⟨⟨⟨⟨⟨⟨⟨h1, h2⟩, h3⟩, h4⟩, h5⟩, h6⟩, h7⟩, h8⟩, h9⟩, h10⟩, h11⟩ := h
  exact ⟨he, h1, h2, h3, h4, h5, h6, hb, ⟨h7, h8, h9⟩, of_sameBanks h10, h11⟩

theorem witness_copy_chunk : ∃ (s : State) (e : Eng), ChunkDue s 5 0 e copyJ ∧
    (∀ i ∈ cd0.chunkIdx 0, Reaches s e (·) [.engRd] 4 (copyJ.src s e.l.asid i) ∧
      Reaches s e (·) [.engRd, .engWr, .engRmw] 4 (copyJ.dst s e.l.asid i)) ∧
    (∀ i ∈ cd0.chunkIdx 0, ∀ i' ∈ cd0.chunkIdx 0, i ≠ i' →
      Apart (placeAt (·) (copyJ.dst s e.l.asid i)) 4 (placeAt (·) (copyJ.dst s e.l.asid i')) 4) ∧
    e.o.kind.counts = some 64 ∧
    CountsAt e.b 64 (copyJ.dstBytes 32) ((cd0.chunkIdx 0).map fun i => (placeAt (·) (copyJ.dst s e.l.asid i), 4)) := by
  obtain ⟨s, e, he, hb, h1, h2, h3⟩ := running (P := fun s e => due s e copyJ 0 = true ∧ (e.b.banks.all fun k => !k.fifo) = true ∧
    (∀ i ∈ cd0.chunkIdx 0, ∀ i' ∈ cd0.chunkIdx 0, i ≠ i' →
      Apart (placeAt (·) (copyJ.dst s e.l.asid i)) 4 (placeAt (·) (copyJ.dst s e.l.asid i')) 4) ∧ e.o.kind.counts = some 64 ∧
    CountsAt e.b 64 (copyJ.dstBytes 32) ((cd0.chunkIdx 0).map fun i => (placeAt (·) (copyJ.dst s e.l.asid i), 4)))
    (runs (op0 (.copy cd0 .add (some 64))) (objects ⟨false, 1, 1, 128, 0⟩)) (by decide +kernel)
  exact ⟨s, e, of_due he hb h1, fun i _ => ⟨fifo_of_banks h2 _ _, fifo_of_banks h2 _ _⟩, h3⟩

theorem witness_quant_chunk : ∃ (s : State) (e : Eng), ChunkDue s 5 0 e quantJ ∧
    (∀ i ∈ cd0.chunkIdx 0, Reaches s e (·) [.engRd] 4 (quantJ.src s e.l.asid i) ∧ Reaches s e (·) [.engWr] 1 (quantJ.dst s e.l.asid i)) ∧
    (∀ i ∈ quantJ.blocks 0, Reaches s e (·) [.engWr] 4 (quantJ.scaleLoc i)) ∧
    (((cd0.chunkIdx 0).map fun i => (placeAt (·) (quantJ.dst s e.l.asid i), 1)) ++
      (quantJ.blocks 0).map fun i => (placeAt (·) (quantJ.scaleLoc i), 4)).Pairwise (fun a b : (Nat × Nat) × Nat => Apart a.1 a.2 b.1 b.2) ∧
    e.o.kind.counts = none := by
  obtain ⟨s, e, he, hb, h1, h2, h3⟩ := running (P := fun s e => due s e quantJ 0 = true ∧ (e.b.banks.all fun k => !k.fifo) = true ∧
    (((cd0.chunkIdx 0).map fun i => (placeAt (·) (quantJ.dst s e.l.asid i), 1)) ++
      (quantJ.blocks 0).map fun i => (placeAt (·) (quantJ.scaleLoc i), 4)).Pairwise (fun a b : (Nat × Nat) × Nat => Apart a.1 a.2 b.1 b.2) ∧
    e.o.kind.counts = none) (runs (op0 (.copyx cd0 (.qnt .e4m3x4 true) 4096 none))) (by decide +kernel)
  exact ⟨s, e, of_due he hb h1, fun i _ => ⟨fifo_of_banks h2 _ _, fifo_of_banks h2 _ _⟩, fun i _ => fifo_of_banks h2 _ _, h3⟩

theorem witness_multicast_chunk :
    (∃ (s : State) (e : Eng), ChunkDue s 5 0 e (castJ 1) ∧ e.o.kind = .copym cd0 64 1 ∧ (castJ 1).failing s e 1 0 = [] ∧
      (∀ i ∈ cd0.chunkIdx 0, Reaches s e (·) [.engRd] 4 ((castJ 1).src s e.l.asid i)) ∧
      ∀ x, x < 16 → (1 : BitVec 16).getLsbD x = true → ∀ r, s.receiver e.b x = some r → s.block? r.uid = some r ∧ SameBanks e r ∧
        CountsAt r 64 128 ((cd0.chunkIdx 0).map fun i => ((1, 2048 + 4 * i), 4)) ∧
        ∀ x' r', x' < 16 → x' ≠ x → (1 : BitVec 16).getLsbD x' = true → s.receiver e.b x' = some r' → r'.uid ≠ r.uid) ∧
    ∃ (s : State) (e : Eng), ChunkDue s 5 0 e (castJ 2) ∧ e.o.kind = .copym cd0 64 2 ∧ (castJ 2).failing s e 2 0 ≠ [] := by
  have one : ∀ x : Nat, x < 16 → (1 : BitVec 16).getLsbD x = true → x = 0 := by decide
  refine ⟨?_, ?_⟩
  · obtain ⟨s, e, he, hb, h1, h2, h3, h4, h5, h6, h7⟩ := running (P := fun s e => due s e (castJ 1) 0 = true ∧
      (e.b.banks.all fun k => !k.fifo) = true ∧ e.o.kind = .copym cd0 64 1 ∧ (castJ 1).failing s e 1 0 = [] ∧ s.receiver e.b 0 = some e.b ∧
      sameBanks e e.b = true ∧ CountsAt e.b 64 128 ((cd0.chunkIdx 0).map fun i => ((1, 2048 + 4 * i), 4)))
      (runs (op0 (.copym cd0 64 1)) (objects ⟨false, 1, 1, 128, 0⟩)) (by decide +kernel)
    refine ⟨s, e, of_due he hb h1, h3, h4, fun i _ => fifo_of_banks h2 _ _, fun x hx hc r hr => ?_⟩
    obtain rfl := one x hx hc
    obtain rfl := Option.some.inj (h5.symm.trans hr)
    exact ⟨hb, of_sameBanks h6, h7, fun x' _ h8 h9 h10 => absurd (one x' h8 h10) h9⟩
  · obtain ⟨s, e, he, hb, h1, h2, h3⟩ := running (P := fun s e => due s e (castJ 2) 0 = true ∧ e.o.kind = .copym cd0 64 2 ∧
      (castJ 2).failing s e 2 0 ≠ []) (runs (op0 (.copym cd0 64 2)) (objects ⟨false, 1, 1, 128, 0⟩)) (by decide +kernel)
    exact ⟨s, e, of_due he hb h1, h2, h3⟩

def msg0 : ChainEntry := .message (List.replicate 16 1) 5
/-- Two blocks of a chain group of two: this one at position 0, the other at 1. -/
def paired (s : State := base) : State :=
  let s := block (fun b => { b with group := some ⟨0, 2, true⟩ }) (launch (fun l => { l with desc := { l.desc with chain := true } }) s)
  match s.block? 1 with
  | some b => { s with blocks := s.blocks ++ [{ b with uid := 2, index := 1 }] }
  | none => s
def peer : Option Block := ((paired : State).block? 2)

/-- A chained sum over the scratchpad, of the second block of a chain group of two. -/
def sumK : OpKind := .scan { scan1 with chain := true } (sd0 0 3072)
def inChain (chain : List ChainEntry) (g : ChainGroup := ⟨0, 2, false⟩) (s : State := base) : State :=
  block (fun b => { b with index := 1, group := some g, chain := chain }) (chained s)
def data (s : State) : State := block (fun b => { b with scratch := cellPuts b.scratch 1024 (leBytes 128 (2 ^ 1000 - 1)) }) s
def scanReady (s : State) (e : Eng) (k : OpKind) (cin : Option (List Word)) : Bool :=
  s.engTurn e && e.o.kind == k && opUnit k == 2 && e.o.progress == 0 && !k.overlaps && sameBanks e e.b &&
    (k.arrays.1 ++ k.arrays.2.map (·.1)).all (·.scratch) &&
    ((k.arrays.2.map (·.1)).zip (k.compute (e.b.successor false).isNone cin (k.arrays.1.map fun a => e.b.bytesAt a.base a.n)).outs).all fun x =>
      x.2.length == x.1.n && !e.b.fifoIn x.1.base x.1.n

theorem witness_scan_engine :
    Runs (fun s e => scanReady s e scanK e.o.carry = true ∧ e.needsCarry = false ∧ s.carryRoom e = .none) ∧
    Runs (fun s e => scanReady s e sumK (some [7]) = true ∧ e.needsCarry = true ∧ sumK.chained = some (0, 4) ∧
      e.b.chain = [.carry 0 4 [7]] ∧ s.carryRoom e = .none) ∧
    Runs (fun s e => scanReady s e sumK e.o.carry = true ∧ e.needsCarry = false ∧ s.carryRoom e = .room) ∧
    Runs (fun s e => scanReady s e sumK none = true ∧ e.needsCarry = true ∧ e.b.chain = [msg0]) ∧
    Runs (fun s e => scanReady s e sumK none = true ∧ e.needsCarry = false ∧ s.carryRoom e = .misuse) :=
  ⟨running (runs (op0 scanK) (data base)) (by decide +kernel), running (runs (op0 sumK) (inChain [.carry 0 4 [7]] (s := data base))) (by decide +kernel),
   running (runs (op0 sumK) (data paired)) (by decide +kernel), running (runs (op0 sumK) (inChain [msg0] (s := data base))) (by decide +kernel),
   running (runs (op0 sumK) (data (block (fun b => { b with group := some ⟨0, 2, false⟩ }) paired))) (by decide +kernel)⟩

theorem witness_delivery :
    ∃ (s : State) (b n : Block), s.block? 1 = some b ∧ b.link = [msg0] ∧
      ((b.successor true).bind (s.blockAt b.lid) = some n ∧ n.group = b.group ∧ n.chain.length < 2 ∧ s.block? n.uid = some n ∧ n.uid ≠ 1) := by
  refine ⟨block (fun b => { b with link := [msg0] }) paired, _, _, rfl, rfl, rfl, ?_⟩
  decide +kernel

theorem has_each {s : State} {P : Ctx → Bool} {is : List Instr}
    (h : (is.all fun i => match s.ctx? r0 with | some c => issuesB i s c && P c | none => false) = true) :
    ∀ i ∈ is, Has i fun _ c => P c = true := by
  intro i hi
  refine has s ?_
  have := List.all_eq_true.mp h i hi
  split at this <;> simp_all

def cj : Cjoin := ⟨al, 5, 6, true⟩

theorem witness_chain :
    Has (.cjoin cj) (fun _ c => c.l.desc.chain = true ∧ c.w.sr 6 = 1 ∧ c.w.sr 5 = 0 ∧ c.b.index = 0 ∧
      0 + 1 ≤ c.l.desc.gx * c.l.desc.gy * c.l.desc.gz ∧ c.b.group = some ⟨0, 1, true⟩) ∧
    Has (.cjoin cj) (fun _ c => c.l.desc.chain = false) ∧
    Has (.cjoin cj) (fun _ c => c.l.desc.chain = true ∧ (c.w.sr 6).toNat = 0) ∧
    Has (.csend ⟨al, 5⟩) (fun s c => chainCheck c true = none ∧ c.b.successor true = some 1 ∧
      (∀ n ∈ s.blockAt c.b.lid 1, n.group = c.b.group) ∧ s.condMet c .storesReturned = true ∧ s.condMet c .chainRoom = true) ∧
    Has (.csend ⟨al, 5⟩) (fun _ c => chainCheck c true = none ∧ c.b.successor true = none) ∧
    (∀ i ∈ ([.csend ⟨al, 5⟩, .crecv ⟨al, 5⟩, .cleave al] : List Instr), Has i (fun _ c => c.l.desc.chain = false) ∧
      Has i (fun _ c => c.l.desc.chain = true ∧ c.b.group = none)) ∧
    Has (.csend ⟨al, 5⟩) (fun s c => chainCheck c true = none ∧ c.b.successor true = some 1 ∧
      ((s.blockAt c.b.lid 1).any fun n => n.group.isSome && n.group != c.b.group) = true) ∧
    Has (.crecv ⟨al, 5⟩) (fun _ c => chainCheck c true = none ∧ c.b.hasPredecessor true = false) ∧
    Has (.crecv ⟨al, 5⟩) (fun _ c => chainCheck c true = none ∧ c.b.hasPredecessor true = true ∧ c.b.chain = [.carry 0 4 [7]]) ∧
    Has (.crecv ⟨al, 5⟩) (fun s c => chainCheck c true = none ∧ c.b.hasPredecessor true = true ∧ c.b.chain = [.message [] 1000] ∧
      s.time ≤ 1000) ∧
    Has (.crecv ⟨al, 5⟩) (fun s c => chainCheck c true = none ∧ c.b.hasPredecessor true = true ∧ c.b.chain = [msg0] ∧ 5 < s.time) ∧
    Has (.crecv ⟨al, 5⟩) (fun _ c => chainCheck c true = none ∧ c.b.hasPredecessor true = true ∧ c.b.chain = []) ∧
    Has (.cleave al) (fun s c => chainCheck c true = none ∧ s.condMet c .chainQuiet = true) :=
  ⟨has (sreg 6 1 chained) (by decide +kernel), has base (by decide +kernel), has chained (by decide +kernel), has paired (by decide +kernel),
   has (block (fun b => { b with group := some ⟨0, 1, false⟩ }) chained) (by decide +kernel),
   fun i hi => ⟨has_each (s := base) (P := fun c => !c.l.desc.chain) (by decide +kernel) i hi |>.imp fun _ h => h.imp fun _ h => by simpa using h,
     has_each (s := block (fun b => { b with group := none }) chained) (P := fun c => c.l.desc.chain && c.b.group.isNone) (by decide +kernel) i hi
       |>.imp fun _ h => h.imp fun _ h => by simpa using h⟩,
   has (block (fun b => { b with group := some ⟨0, 2, false⟩ }) paired) (by decide +kernel),
   has (block (fun b => { b with group := some ⟨0, 1, false⟩ }) chained) (by decide +kernel),
   has (inChain [.carry 0 4 [7]]) (by decide +kernel), has (inChain [.message [] 1000]) (by decide +kernel),
   has (block (fun b => { b with chain := [msg0] }) chained) (by decide +kernel), has chained (by decide +kernel), has chained (by decide +kernel)⟩

/-- A descriptor of one block of one warp at 0x10000, whose bytes at 48 and 49 are given. -/
def descAt (regs warps : Nat) (s : State := base) (more : List (Nat × Nat) := []) : State :=
  let s := global s
  { s with mem := s.mem.writeBytes 0x10000 ((List.range 128).map fun k => BitVec.ofNat 8 ((more.lookup k).getD
      (if k = 36 ∨ k = 40 ∨ k = 42 then 1 else if k = 48 then regs else if k = 49 then warps else 0))) }
def launch0 (wait now : Bool) : Sys2Proof.Launch := ⟨{ al with c := true }, 5, 8, wait, now⟩
/-- LAUNCH's reads of a descriptor at 0x10000 and of its list answer, and `p` holds of them and of the state after them. -/
def loaded (s : State) (c : Ctx) (p : State → List Byte → List Nat → Bool) : Bool :=
  s.condMet c (.linesQuiet (s.linesAt c 0x10000 128)) && match s.loadBytes c 0x10000 128 with
  | (u, .ok bs) => (match u.loadList c (descOf bs) with
    | (v, .ok l) => u.condMet c (.linesQuiet (u.linesAt c ((descOf bs).listAddr.toNat % 2 ^ 56)
        (if (descOf bs).hasList then 4 * (descOf bs).total else 0))) && p v bs l
    | (_, .error _) => false)
  | (_, .error _) => false
def fits (s : State) (c : Ctx) (v : State) (bs : List Byte) (l : List Nat) : Bool :=
  badField bs == none && s.tooLarge (descOf bs) == none && !s.badList l && v.condMet { c with w := v.warpOf c } (.release .dev)
def fullSump (s : State := base) : State :=
  match s.launch? 1 with | some l => { s with launches := s.launches ++ List.replicate Config.sumpEntries { l with id := 2, st := .sump } } | none => s

theorem witness_launch :
    Has (.launch (launch0 false true)) (fun s c => c.f.offer = none ∧ (c.w.sp 8).toNat = 0x10000 ∧ loaded s c (fits s c) = true ∧
      s.condMet c .sumpRoom = true) ∧
    Has (.launch (launch0 true true)) (fun s c => c.f.offer.isSome = true ∧ c.f.released = true ∧ s.condMet c .sumpRoom = true) ∧
    Has (.launch (launch0 false false)) (fun s c => c.f.offer = none ∧ (c.w.sp 8).toNat = 0x10000 ∧ loaded s c (fits s c) = true ∧
      s.condMet c .sumpRoom = false) ∧
    Has (.launch (launch0 false true)) (fun s c => c.f.offer = none ∧ (c.w.sp 8).toNat = 0x10000 ∧
      loaded s c (fun _ bs _ => badField bs == some 49) = true) ∧
    Has (.launch (launch0 false true)) (fun s c => c.f.offer = none ∧ (c.w.sp 8).toNat = 0x10000 ∧
      loaded s c (fun _ bs _ => badField bs == none && s.tooLarge (descOf bs) != none) = true) ∧
    Has (.launch (launch0 false true)) (fun s c => c.f.offer = none ∧ (c.w.sp 8).toNat = 0x10000 ∧
      loaded s c (fun _ bs l => badField bs == none && s.tooLarge (descOf bs) == none && s.badList l) = true) ∧
    Has (.launch (launch0 false true)) (fun s c => c.f.offer = none ∧ (c.w.sp 8).toNat = 0x10000 ∧
      s.condMet c (.linesQuiet (s.linesAt c 0x10000 128)) = false) ∧
    Has (.launch (launch0 false true)) (fun _ c => c.f.offer = none ∧ (c.w.sp 8).toNat % 2 ^ 56 % 128 ≠ 0) :=
  ⟨has (descAt 128 1) (by decide +kernel),
   has (frag (fun f => { f with offer := some (descOf [], []), released := true }) (descAt 128 1)) (by decide +kernel),
   has (fullSump (descAt 128 1)) (by decide +kernel), has (descAt 8 33) (by decide +kernel),
   has (descAt 128 1 (more := [(38, 1), (51, 1)])) (by decide +kernel),
   has (descAt 128 1 (more := [(51, 16), (64, 0x40), (66, 1)])) (by decide +kernel),
   has { (descAt 128 1 : State) with reqs := [{ read0 with kind := .write, warp := 1, pa := 0x10040, attr := attr0 }] } (by decide +kernel), has (spair 8 0x10040 global) (by decide +kernel)⟩

def lq : OpDA := ⟨al, 6, 5⟩

/-- A launch of a state that its identifier names: no later one has the same. -/
def shown (s : State) (id : Nat) (p : Machine.Launch → Bool) : Bool :=
  match s.launches.reverse with | l :: _ => launchIdent l.id == id && p l | [] => false

theorem of_shown {s : State} {id : Nat} {p : Machine.Launch → Bool} (h : shown s id p = true) : ∃ l before later,
    s.launches = before ++ l :: later ∧ launchIdent l.id = id ∧ (∀ x ∈ later, launchIdent x.id ≠ id) ∧ p l = true := by
  unfold shown at h
  split at h
  · rename_i l ls hl
    rw [Bool.and_eq_true, beq_iff_eq] at h
    exact ⟨l, ls.reverse, [], by rw [← List.reverse_reverse s.launches, hl, List.reverse_cons], h.1, by simp, h.2⟩
  · cases h

/-- Two launches of one identifier, the later in the sump. -/
def wrapped (st : LaunchState) : State :=
  match base.launch? 1 with
  | some l => { base with launches := base.launches ++ [{ l with id := 2, st := .running }, { l with id := 0x8000_0001, st := st }] }
  | none => base

theorem witness_query :
    Has (.lqry lq) (fun _ c => (c.w.sr 5).toNat = launchIdent c.l.id) ∧
    Has (.lqry lq) (fun s c => (c.w.sr 5).toNat ≠ launchIdent c.l.id ∧ ∀ l ∈ s.launches, launchIdent l.id ≠ (c.w.sr 5).toNat) ∧
    (∀ st ∈ [LaunchState.waiting, .sump, .running, .ended, .completed, .aborted], Has (.lqry lq) (fun s c =>
      (c.w.sr 5).toNat ≠ launchIdent c.l.id ∧ ∃ l before later, s.launches = before ++ l :: later ∧ launchIdent l.id = (c.w.sr 5).toNat ∧
        (∀ x ∈ later, launchIdent x.id ≠ (c.w.sr 5).toNat) ∧ l.st = st ∧ s.devLaunches < l.devCount + 65536)) ∧
    Has (.lqry lq) (fun s c => (c.w.sr 5).toNat ≠ launchIdent c.l.id ∧ ∃ l before later, s.launches = before ++ l :: later ∧
      launchIdent l.id = (c.w.sr 5).toNat ∧ (∀ x ∈ later, launchIdent x.id ≠ (c.w.sr 5).toNat) ∧ l.devCount + 65536 ≤ s.devLaunches) := by
  refine ⟨has (sreg 5 1) (by decide +kernel), has (sreg 5 3) (by decide +kernel), fun st hst => ?_, ?_⟩
  · obtain ⟨s, c, h, h1, h2⟩ := has (i := .lqry lq) (P := fun s c => (c.w.sr 5).toNat ≠ launchIdent c.l.id ∧
      shown s (c.w.sr 5).toNat (fun l => l.st == st && decide (s.devLaunches < l.devCount + 65536)) = true) (sreg 5 2 (wrapped st))
      (by revert st; decide +kernel)
    obtain ⟨l, before, later, h3, h4, h5, h6⟩ := of_shown h2
    rw [Bool.and_eq_true, beq_iff_eq, decide_eq_true_eq] at h6
    exact ⟨s, c, h, h1, l, before, later, h3, h4, h5, h6⟩
  · obtain ⟨s, c, h, h1, h2⟩ := has (i := .lqry lq) (P := fun s c => (c.w.sr 5).toNat ≠ launchIdent c.l.id ∧
      shown s (c.w.sr 5).toNat (fun l => decide (l.devCount + 65536 ≤ s.devLaunches)) = true)
      { (sreg 5 2 (wrapped .sump) : State) with devLaunches := 65536 } (by decide +kernel)
    obtain ⟨l, before, later, h3, h4, h5, h6⟩ := of_shown h2
    exact ⟨s, c, h, h1, l, before, later, h3, h4, h5, of_decide_eq_true h6⟩

/-! ### The device's own work -/

/-- The page table of context 0 maps pages 1 and 2 (R327-R329), for the packets' addresses. -/
def paged (s : State := base) : State :=
  let slot (v : Nat) : Nat := 0x40000 + 128 * (v * 0x9E3779B97F4A7C15 % 2 ^ 64 / 2 ^ 54)
  let put (m : Memory) (v : Nat) : Memory := m.writeBytes (slot v) (leBytes 16 (pte v).toNat)
  { s with mem := put (put ((s.mem.writeBytes 0 (leBytes 8 0x40000)).writeBytes 8 (leBytes 4 0x8000_000A)) 1) 2 }
/-- Queue 3 holds a packet of a type at 0x10000. -/
def queued (ty x8 x16 : Nat) (s : State := paged) : State :=
  let bs := leBytes 8 (ty + 0x200) ++ leBytes 8 x8 ++ leBytes 8 x16 ++ leBytes 8 (2047 + if ty = 5 then 0x10000 - 2047 else 0) ++
    leBytes 4 (if ty = 5 then 1 + 2047 * 65536 else 0) ++ List.replicate 28 0
  { s with mem := s.mem.writeBytes 0x10000 bs, queues := s.queues.set 3 { base := 0x10000, en := true, size := 6, wptr := 1 } }
def packet (s : State) : List Byte := ((s.nextPacket (s.queue 3)).bind id).getD []
/-- A vault descriptor, or a kernel descriptor, at 0x20000. -/
def vdAt (s : State) : State :=
  { s with mem := s.mem.writeBytes 0x20000 ([1, 2, 0, 0] ++ leBytes 4 0 ++ leBytes 16 (1 + 2 ^ 32 + 2 ^ 64 + 2 ^ 96) ++ leBytes 8 128) }
def kdAt (s : State) : State :=
  { s with mem := s.mem.writeBytes 0x20000 ((List.range 128).map fun k =>
      BitVec.ofNat 8 (if k = 36 ∨ k = 40 ∨ k = 42 ∨ k = 49 then 1 else if k = 48 then 128 else 0)) }
/-- A status record can be written at an address. -/
def stores (s : State) (asid a : Nat) : Bool :=
  match (s.walk asid (a % 2 ^ 56)).map (pteResult · (a % 2 ^ 56) .wr) with | some (.ok _ _) => true | _ => false
/-- The packet has been on hold at a breakpoint. -/
def again (s : State) : State := { s with queues := s.queues.set 3 { s.queue 3 with bpDone := true } }
def klOk (s : State) : Bool := match s.klCheck 0 (pktOf (packet s)).x8 with | .ok (_, l) => l == [] | .error _ => false

theorem witness_packets :
    (∃ s : State, Serves s 3 (packet s) 0) ∧
    (∃ s : State, Serves s 3 (packet s) 1 ∧ (∀ b ∈ s.bps.toList, b.en = false) ∧ (pktOf (packet s)).x16 = 0 ∧ klOk s = true) ∧
    (∃ s : State, Serves s 3 (packet s) 2) ∧ (∃ s : State, Serves s 3 (packet s) 3) ∧
    (∃ s : State, Serves s 3 (packet s) 4 ∧ (pktOf (packet s)).x16 = 0) ∧
    (∃ s : State, Serves s 3 (packet s) 4 ∧ (pktOf (packet s)).x16 ≠ 0 ∧
      ∃ n ∈ s.virtRead (s.queue 3).asid (pktOf (packet s)).x16 64, (tensorOf (leBytes 64 n)).isSome = true) ∧
    (∃ s : State, Serves s 3 (packet s) 5) ∧
    (∀ ty ∈ [0, 1, 2, 3, 4, 5, 6], ∃ s : State, s.served = some 3 ∧ s.nextPacket (s.queue 3) = some (some (packet s)) ∧
      pktError (packet s) = some (if ty = 6 then 1 else 2) ∧ (pktOf (packet s)).ty = ty) ∧
    (∃ s : State, Serves s 3 (packet s) 1 ∧ (s.queue 3).bpDone = false ∧
      ∃ b ∈ s.bps.toList, b.hits 3 (s.virtRead (s.queue 3).asid (pktOf (packet s)).x8 8) = true) ∧
    (∃ s : State, Serves s 3 (packet s) 1 ∧ (s.queue 3).bpDone = true ∧ (pktOf (packet s)).x16 ≠ 0 ∧
      stores s (s.queue 3).asid (pktOf (packet s)).x16 = true ∧ klOk s = true) ∧
    (∃ s : State, Serves s 3 (packet s) 1 ∧ (s.queue 3).bpDone = true ∧ (pktOf (packet s)).x16 = 0 ∧ klOk s = false) ∧
    (∃ s : State, Serves s 3 (packet s) 1 ∧ (s.queue 3).bpDone = true ∧ (pktOf (packet s)).x16 ≠ 0 ∧
      stores s (s.queue 3).asid (pktOf (packet s)).x16 = false) ∧
    (∃ s : State, Serves s 3 (packet s) 4 ∧ (pktOf (packet s)).x16 ≠ 0 ∧ s.virtRead (s.queue 3).asid (pktOf (packet s)).x16 64 = none) ∧
    (∃ s : State, Serves s 3 (packet s) 4 ∧ (pktOf (packet s)).x16 ≠ 0 ∧
      ∃ n ∈ s.virtRead (s.queue 3).asid (pktOf (packet s)).x16 64, tensorOf (leBytes 64 n) = none) ∧
    (∃ s : State, s.served = some 3 ∧ s.nextPacket (s.queue 3) = some none) :=
  ⟨⟨queued 0 0 0, by decide +kernel⟩, ⟨kdAt (queued 1 0x20000 0), by decide +kernel⟩, ⟨queued 2 4095 9, by decide +kernel⟩,
   ⟨queued 3 4095 9, by decide +kernel⟩, ⟨queued 4 4095 0, by decide +kernel⟩, ⟨vdAt (queued 4 4095 0x20000), by decide +kernel⟩,
   ⟨queued 5 0x10000 0x10000, by decide +kernel⟩, fun ty h => ⟨queued ty 4097 0, by revert ty; decide +kernel⟩,
   ⟨{ queued 1 0x20000 0 with bps := base.bps.set 0 { en := true, mq := true, qn := 3 } }, by decide +kernel⟩,
   ⟨again (kdAt (queued 1 0x20000 0x20080)), by decide +kernel⟩, ⟨again (queued 1 0x30000 0), by decide +kernel⟩,
   ⟨again (queued 1 0x20000 0x30000), by decide +kernel⟩, ⟨queued 4 4095 0x30000, by decide +kernel⟩,
   ⟨queued 4 4095 0x20000, by decide +kernel⟩, ⟨{ (queued 0 0 0) with queues := base.queues.set 3 { base := 0x30000, en := true, size := 6, wptr := 1 } }, by decide +kernel⟩⟩

def pends (p : Pending) (s : State := base) : State := { s with queues := s.queues.set 3 { en := true, size := 6, pending := [p] } }

theorem witness_pending :
    (∃ s : State, (s.queue 3).pending = [.evwait 0 0 (some 1)] ∧ s.dev.ready = true ∧ (0 : DWord) ≤ tget 0 s.events 0) ∧
    (∃ s : State, (s.queue 3).pending = [.mapflush 0x10000 0 0x10000 true false none] ∧ s.dev.ready = true ∧
      s.flushable (s.queue 3).asid 0x10000 0x10000 = true) ∧
    (∃ s : State, (s.queue 3).pending = [.mapflush 0x10000 0 0x10000 false true none] ∧ s.dev.ready = true) :=
  ⟨⟨pends (.evwait 0 0 (some 1)), by decide +kernel⟩, ⟨pends (.mapflush 0x10000 0 0x10000 true false none), by decide +kernel⟩,
   ⟨pends (.mapflush 0x10000 0 0x10000 false true none), by decide +kernel⟩⟩

/-- A second launch like the first, changed by `f`. -/
def second (f : Machine.Launch → Machine.Launch) (s : State := base) : State :=
  match s.launch? 1 with | some l => { s with launches := s.launches ++ [f { l with id := 2, root := 2, next := 0 }], nextLid := 3 } | none => s
/-- The launch's blocks go to core 1. -/
def onCore1 (f : KDesc → KDesc) (l : Machine.Launch) : Machine.Launch := { l with desc := f { l.desc with hasList := true }, list := [1] }
def oneDie (s : State := base) : State := { s with dev := { s.dev with dies := 1 } }

theorem witness_launches :
    (∃ s : State, ∃ l ∈ s.launch? 2, s.startable l = true) ∧
    (∃ s : State, ∃ p ∈ s.nextPlace, p.1.desc.whole = false ∧ s.launch? p.1.id = some p.1 ∧ (s.chooseCore p.1).isSome = true ∧
      ∀ b ∈ s.blocks, b.uid < s.nextUid) ∧
    (∃ s : State, ∃ p ∈ s.nextPlace, s.launch? p.1.id = some p.1 ∧ p.1.next = 0 ∧ p.1.desc.coop = true ∧ p.1.desc.chain = false ∧
      ∀ b ∈ s.blocks, b.uid < s.nextUid) ∧
    (∃ s : State, ∃ p ∈ s.nextPlace, s.launch? p.1.id = some p.1 ∧ p.1.next = 0 ∧ p.1.desc.chain = true ∧
      ∀ b ∈ s.blocks, b.uid < s.nextUid) ∧
    (∃ s : State, ∃ l ∈ s.launch? 2, l.st = .running ∧ l.desc.whole = true ∧ l.starved = false ∧ l.headSince = some 0 ∧ 0 + 1000000 ≤ s.time) :=
  ⟨⟨second (fun l => { l with st := .waiting }), by decide +kernel⟩, ⟨second (onCore1 id) oneDie, by decide +kernel⟩,
   ⟨second (onCore1 fun k => { k with coop := true }) oneDie, by decide +kernel⟩,
   ⟨second (fun l => { l with desc := { l.desc with chain := true } }) oneDie, by decide +kernel⟩,
   ⟨{ (second fun l => { l with desc := { l.desc with coop := true }, headSince := some 0 } : State) with time := 1000000 }, by decide +kernel⟩⟩

theorem witness_ends :
    (∃ s : State, ∃ b ∈ s.block? 1, ∃ l ∈ s.launch? b.lid, s.blockEnds b l = true ∧ l.st = .running ∧ s.drops = [] ∧
      (∀ o ∈ b.ops, ∀ g ∈ o.fault, g.taken = true) ∧ b.failedWrite = [] ∧ s.dev.trEn = false ∧
      (s.core b.core).pkts = [] ∧ l.next = l.desc.total ∧
      ∀ y ∈ s.blocks, y.lid = l.id → y.uid = 1) ∧
    (∃ s : State, ∃ b ∈ s.block? 1, ∃ l ∈ s.launch? b.lid, s.blockEnds b l = true ∧ l.st = .running ∧ s.drops = [] ∧ b.failedWrite = [] ∧
      ∃ o ∈ b.ops, ∃ g ∈ o.fault, g.taken = false) ∧
    (∃ s : State, ∃ l ∈ s.launch? 2, s.atBoundary l = true ∧ l.st = .ended) ∧
    (∃ s : State, ∃ l ∈ s.launch? 2, l.root = 2 ∧ l.treeDone = false ∧ (∀ x ∈ s.launches, x.root = 2 → x.over = true) ∧ l.status = 0) ∧
    ∀ st ∈ [LaunchState.completed, .aborted], ∃ s : State, s.memOk ∧ ∃ l ∈ s.launch? 2, l.root = 2 ∧ l.treeDone = false ∧ l.st = st ∧
      (∀ x ∈ s.launches, x.root = 2 → x.over = true) ∧ l.status = 0x20080 ∧
      (s.walk l.asid (l.status % 2 ^ 56)).map (pteResult · (l.status % 2 ^ 56) .wr) = some (.ok 0x20080 attr0) ∧
      s.lostAt attr0.tier 0x20080 = none :=
  ⟨⟨warp fun w => { w with exited := 0xFFFF_FFFF }, by decide +kernel⟩,
   ⟨warp (fun w => { w with exited := 0xFFFF_FFFF }) (block fun b => { b with ops :=
      [{ op0 (.mzr 0) .faulted with fault := some ⟨0x0A, 0, 0, false, 0⟩ }] }), by decide +kernel⟩,
   ⟨second fun l => { l with st := .ended }, by decide +kernel⟩,
   ⟨second fun l => { l with st := .completed }, by decide +kernel⟩,
   fun st h => ⟨second (fun l => { l with st := st, status := 0x20080 }) paged, ⟨by revert st; decide +kernel, by revert st; decide +kernel, by revert st; decide +kernel⟩,
     by revert st; decide +kernel⟩⟩

def cmp0 : Instr := .icmpN3 n3c
def brw : Br := ⟨{ al with guard := .ne }, .dynamic, 0, 0x10⟩
/-- The prediction of the tests. -/
def spec0 (w : Warp) : Spec :=
  { entry := 0, cmp := cmp0, br := brw, brPc := 0x10000, tp := 0xFFFF_FFFF, taken := some { frag := { mask := 0xFFFF_FFFF, pc := 0x10040 } }
    fall := none, since := 1000, v0 := w.v, cc0 := w.cc0, cc1 := w.cc1 }
def predicted : State := warp (fun w => { w with specs := [spec0 w] }) (waits .waitConfirm (.full []))

theorem witness_cycle :
    (∃ s : State, 0 < s.numCores ∧ s.env.stretchOf (s.columnOf 0) < 1000 ∧ (∀ n : Fin 4, s.trigDue 0 n = false) ∧
      ∀ b ∈ s.blocks, b.core = 0 → b.reissue = []) ∧
    At (fun s c => (∃ p ∈ c.w.specs.find? (fun p => c.ref.sel == .entry p.entry), p.cmp = cmp0) ∧ s.condMet c c.f.cond = true) :=
  ⟨⟨base, by decide +kernel⟩, stands predicted (by decide +kernel)⟩

def phase (p : Phase) (s : State := base) : State := block (fun b => { b with phase := p }) s
def nopre (s : State) : State := { (warp (fun w => { w with nopre := true }) s : State) with time := 3000 }
def handled (s : State := base) : State := launch (fun l => { l with desc := { l.desc with trapPc := 0x20000 } }) s

theorem witness_preemption :
    (∃ s : State, HostFree s ∧ ∃ b ∈ s.block? 1, ∃ l ∈ s.launch? b.lid, b.phase = .resident ∧ l.queue = 0 ∧ l.st ≠ .aborted) ∧
    (∃ s : State, ∃ l ∈ s.launch? 2, s.dev.apre = true ∧ l.st = .running ∧ l.next < l.desc.total ∧ l.waitSince + 1000 * s.dev.apdly < s.time ∧
      s.placesWithout l s.leaving = false ∧ s.displace l (s.victims l) s.leaving = some [1] ∧ s.needed l s.leaving [1] = [1]) ∧
    (∃ s : State, ∃ b ∈ s.block? 1, ∃ l ∈ s.launch? b.lid, b.phase = .stopping 1000 .preempt ∧ ∃ w ∈ b.warps[0]?, w.nopre = true ∧
      w.stopped = false ∧ 1000 + 2000 + w.windowHeld ≤ s.time ∧ w.specs = [] ∧ (∃ f ∈ w.frag? (.entry 0), w.overrunFrags = [(0, f)] ∧ f.handler = false) ∧
      w.handler = none ∧ l.desc.trapPc ≠ 0) ∧
    (∃ s : State, ∃ b ∈ s.block? 1, ∃ l ∈ s.launch? b.lid, b.phase = .stopping 1000 .preempt ∧ s.atRest b = true ∧ l.st = .running ∧ s.drops = []) ∧
    (∃ s : State, ∃ b ∈ s.block? 1, ∃ l ∈ s.launch? b.lid, b.phase = .stopping 1000 (.migrate 3) ∧ s.atRest b = true ∧ l.st = .running ∧ s.drops = [] ∧
      s.mayMove b = true) ∧
    ∃ s : State, ∃ b ∈ s.block? 1, ∃ l ∈ s.launch? b.lid, b.phase = .saved 0x1000 ∧ l.desc.whole = false ∧ (s.queue l.queue).hold = false ∧
      l.st ≠ .aborted ∧ s.heldBack l = false ∧ s.drops = [] ∧ (∀ w ∈ b.warps, w.hdev ≤ s.time) ∧ b.writesPast s.time false = true ∧ (s.restoreCore b l).isSome = true ∧ b.reissue = [] ∧
      b.tree = false ∧ s.recordNow (s.queue l.queue).asid (b.record.length / 4096 + 1) 0x1000 b.record.length = some b.record :=
  ⟨⟨base, by decide +kernel⟩,
   ⟨{ (second fun l => { l with prio := 1, desc := { l.desc with hasList := true }, list := [0] } : State) with
        time := 200000, dev := { base.dev with apre := true } }, by decide +kernel⟩,
   ⟨nopre (phase (.stopping 1000 .preempt) handled), by decide +kernel⟩, ⟨phase (.stopping 1000 .preempt), by decide +kernel⟩,
   ⟨phase (.stopping 1000 (.migrate 3)), by decide +kernel⟩, ⟨phase (.saved 0x1000), by decide +kernel⟩⟩

def movable (s : State := base) : State := launch (fun l => { l with desc := { l.desc with migratable := true } }) s

/-- Column 0 has been above its threshold for 1 ms. -/
def hotter (s : State) : State :=
  { s with time := 2000000, dev := { s.dev with dies := 1 }, env := { s.env with
      config := { s.env.config with thresholds := List.replicate 40 90 }, hotSince := s.env.hotSince.set 0 (some 1000) } }

def leaving : State := phase (.stopping 1000 (.migrate 3)) movable
def memPark : Replay := .mem 0x10000 (.ld32 ⟨0, 8, 4, true⟩) 0xFF 7 3

theorem witness_migration :
    (∃ s : State, ∃ b ∈ s.block? 1, ∃ l ∈ s.launch? b.lid, s.migratable b = true ∧ s.migrating (s.columnOf b.core) = false ∧
      s.hotLong (s.columnOf b.core) = true ∧
      (∀ x ∈ s.blocks, s.columnOf x.core = s.columnOf b.core → s.migratable x = true → b.stamp ≤ x.stamp) ∧
      s.takesMigrant l.desc (s.columnOf b.core) 3 = true ∧ (∀ k ∈ List.range Config.numColumns,
        s.takesMigrant l.desc (s.columnOf b.core) k = true → vget 0 s.env.temps 3 ≤ vget 0 s.env.temps k) ∧ s.drops = []) ∧
    (∃ s : State, ∃ b ∈ s.block? 1, b.phase = .stopping 1000 (.migrate 3) ∧ (∃ w ∈ b.warps, w.stopped = false ∧ 1000 + 2000 + w.windowHeld ≤ s.time) ∧ b.wantSave = false) ∧
    (∃ s : State, ∃ b ∈ s.block? 1, ∃ l ∈ s.launch? b.lid, b.phase = .stopping 1000 (.migrate 3) ∧ s.atRest b = true ∧ l.st ≠ .aborted ∧
      s.drops = [] ∧ b.wantSave = false ∧ b.group ≠ none) ∧
    (∃ s : State, ∃ b ∈ s.block? 1, ∃ l ∈ s.launch? b.lid, b.phase = .stopping 1000 (.migrate 3) ∧ s.atRest b = true ∧ l.st ≠ .aborted ∧
      s.drops = [] ∧ b.wantSave = false ∧ ∃ g ∈ s.groups, 1 ∈ g.members ∧ (g.bar.scope = .quad ∨ g.bar.scope = .die)) ∧
    (∃ s : State, ∃ b ∈ s.block? 1, ∃ l ∈ s.launch? b.lid, b.phase = .stopping 1000 (.migrate 3) ∧ s.atRest b = true ∧ l.st ≠ .aborted ∧
      s.drops = [] ∧ b.wantSave = false ∧ ∃ w ∈ b.warps, ∃ x ∈ w.frags, x.2.replay ≠ none) ∧
    ∃ s : State, ∃ b ∈ s.block? 1, ∃ l ∈ s.launch? b.lid, b.phase = .moving 3 ∧ ∃ p ∈ s.targetCore l.desc 3, s.synchronised b p.1 = true ∧
      l.st ≠ .aborted ∧ s.drops = [] ∧ b.wantSave = false ∧ b.reissue = [] :=
  ⟨⟨hotter movable, by decide +kernel⟩,
   ⟨nopre (phase (.stopping 1000 (.migrate 3))), by decide +kernel⟩,
   ⟨block (fun b => { b with group := some ⟨0, 1, true⟩ }) leaving, by decide +kernel⟩,
   ⟨{ leaving with groups := [⟨false, 1, ⟨.quad, 0, 0⟩, 0, 1, [], true, [1]⟩] }, by decide +kernel⟩,
   ⟨frag (fun f => { f with st := .parkedReplay, replay := some memPark }) leaving, by decide +kernel⟩, ⟨phase (.moving 3) movable, by decide +kernel⟩⟩

def rec0 : FaultRec := ⟨7, 8, 0, 0, 0x50000, 1, 0, 0, 1000⟩

/-- An operation suspended under fault 7, with a fragment parked on its handle. -/
def onHold : State :=
  frag (fun f => { f with st := .parkedReplay, replay := some (.handle 0x10000 3) })
    (runs { op0 mlwK with suspend := some { stall0 with fault := 7 } })

theorem witness_faults :
    (∃ s : State, s.faultQ = [rec0] ∧ s.fq.en = true ∧ 0 < s.fq.room) ∧
    (∀ p ∈ [memPark, .fetch 0x10040 0xFF 7, .reissue 0x10000 0xFF 7 3],
      At (fun s c => HostFree s ∧ 7 < 2 ^ 30 ∧ c.f.replay = some p ∧ s.parkedFrag 7 = some (c.ref, p) ∧ c.b.present = true ∧
        c.b.reissue = [] ∧ c.f.undo = none ∧ c.w.handler = none ∧ c.f.handler = false ∧ c.l.desc.trapPc ≠ 0 ∧ isPath c.ref.sel = false)) ∧
    ∃ (s : State) (e : Eng) (x : Suspend), HostFree s ∧ s.parkedFrag 7 = none ∧ s.suspended 7 = some (e, x) ∧
      s.block? e.b.uid = some e.b ∧ e.b.present = true ∧ e.o.handle ≠ 0 ∧ (∃ w ∈ e.b.warps[0]?, w.hr 3 = e.o.handle ∧
        ∃ f ∈ w.split[(0 : Fin 32)], f.replay = some (.handle 0x10000 3)) := by
  refine ⟨⟨{ (base : State) with faultQ := [rec0], fq := { en := true, size := 6 } }, by decide +kernel⟩, fun p hp => ?_, ?_⟩
  · refine stands (frag (fun f => { f with st := .parkedReplay, replay := some p }) handled) ?_
    revert p
    decide +kernel
  · have h : ∃ x ∈ onHold.suspended 7, HostFree onHold ∧ onHold.parkedFrag 7 = none ∧ onHold.block? x.1.b.uid = some x.1.b ∧
        x.1.b.present = true ∧ x.1.o.handle ≠ 0 ∧ (∃ w ∈ x.1.b.warps[0]?, w.hr 3 = x.1.o.handle ∧
        ∃ f ∈ w.split[(0 : Fin 32)], f.replay = some (.handle 0x10000 3)) := by decide +kernel
    obtain ⟨x, h1, h2, h3, h4⟩ := h
    exact ⟨_, x.1, x.2, h2, h3, h1, h4⟩

def dbg (s : State := base) : State :=
  { (frag (fun f => { f with halted := true }) s : State) with dev := { s.dev with dbgHalt := true, dbgSel := 0x1005_0000 } }

/-- Port 0 serves 4 KiB from 0x1000, and is down. -/
def portLost : State :=
  { (base : State) with env := { base.env with cxlRanges := base.env.cxlRanges.set 0 (0x1000, 0x1000), cxlUp := base.env.cxlUp.set 0 false } }

theorem witness_host :
    (∃ s : State, HostFree s) ∧ (∃ s : State, s.dev.ready = false) ∧ (∃ s : State, s.dev.ready = true ∧ (s.deferred ≠ [] ∨ s.time < s.hostWdev)) ∧
    (∃ s : State, s.deferred = [(1000, .event 5 6)] ∧ 1000 ≤ s.time) ∧ (∃ s : State, s.dev.ready = true ∧ s.memOk) ∧
    (∀ en, ∃ s : State, HostFree s ∧ (s.queue 3).en = en) ∧ (∃ s : State, s.dev.ready = true ∧ s.deferred ≠ []) ∧
    (∃ s : State, ∃ off len, s.dev.ready = true ∧ s.env.barBytes < off + len) ∧
    (∃ s : State, s.dev.ready = true ∧ 0x1000 + 4 ≤ s.env.barBytes ∧ s.deferred = [] ∧ s.portDown (s.dev.hwin.toNat + 0x1000) = true) ∧
    (∃ s : State, s.dev.ready = true ∧ 0x1000 + 4 ≤ s.env.barBytes ∧ s.deferred = [] ∧
      ∀ k ∈ List.range 4, s.portDown (s.dev.hwin.toNat + 0x1000 + k) = false) ∧
    (∃ s : State, HostFree s ∧ s.dev.dbgHalt = true ∧ fieldOf (0 : Word) 0 16 = s.dev.dbgAsid ∧ ∃ b ∈ s.block? 1, b.present = true ∧
      ∃ l ∈ s.launch? b.lid, l.asid = s.dev.dbgAsid ∧ ∃ w ∈ b.warps[0]?, ∃ f ∈ w.frag? (.entry 0), f.halted = true) ∧
    (∃ s : State, ∃ x ∈ s.debugWarp, s.warp? x.1.uid x.2.1 = some x.2.2.1 ∧ fieldOf s.dev.dbgSel 28 4 = 1 ∧ fieldOf s.dev.dbgSel 16 7 < 64) ∧
    ∃ s : State, s.debugWarp.isNone = true :=
  ⟨⟨base, by decide +kernel⟩, ⟨.reset, rfl⟩, ⟨{ base with hostWdev := 2000 }, by decide +kernel⟩, ⟨{ base with deferred := [(1000, .event 5 6)] }, by decide +kernel⟩,
   ⟨base, rfl, by decide +kernel, by decide +kernel, by decide +kernel⟩,
   fun en => ⟨{ (base : State) with queues := base.queues.set 3 { en := en } }, by revert en; decide +kernel⟩,
   ⟨{ base with deferred := [(1000, .event 5 6)] }, by decide +kernel⟩, ⟨base, 2 ^ 40, 4, by decide +kernel⟩, ⟨portLost, by decide +kernel⟩,
   ⟨base, by decide +kernel⟩, ⟨dbg, by decide +kernel⟩, ⟨dbg, by decide +kernel⟩, ⟨base, by decide +kernel⟩⟩

def window (s : State := base) : State := { s with dev := { s.dev with pod := s.dev.pod.set 0 (0x20001, 0x20000) } }
def away0 (k : ReqKind) : State := sent { q0 k with attr := { attr0 with target := .remote 5 } } { base with time := 300000 }

theorem witness_remote :
    (∃ s : State, s.podUp = true ∧ s.dev.ready = true ∧ s.admitsPeer 0x2FFF0 16 = true ∧ s.badRange 0x2FFF0 16 = false ∧ s.memOk ∧
      (∀ k ∈ List.range 16, s.portDown (0x2FFF0 + k) = false) ∧ 0x2FFF0 % 128 + 16 ≤ 128) ∧
    (∃ s : State, s.podUp = true ∧ s.dev.ready = true ∧ s.admitsPeer 0x20000 4 = true ∧ s.badRange 0x20000 4 = true ∧
      s.portDown 0x20000 = true ∧ s.memOk) ∧
    (∃ s : State, s.podUp = true ∧ s.dev.ready = true ∧ s.admitsPeer 0x2FFF1 16 = false) ∧
    (∀ k ∈ [ReqKind.read, .fill, .atomic .add, .write], ∃ s : State, ∃ q ∈ s.req? 7, s.away q = true ∧ s.podUp = true ∧ s.numbered ∧
      NoneFailed s q ∧ q.pref = false ∧ q.kind = k) ∧
    ∀ k ∈ [ReqKind.read, .write], ∃ s : State, ∃ q ∈ s.req? 7, s.away q = true ∧ q.sentAt + 200000 ≤ s.time ∧ s.numbered ∧ q.kind = k ∧
      (s.block? q.block).isSome = true :=
  ⟨⟨window, by decide +kernel, rfl, by decide +kernel, by decide +kernel, ⟨by decide +kernel, by decide +kernel, by decide +kernel⟩,
    by decide +kernel, by decide⟩,
   ⟨{ window with env := { base.env with cxlRanges := base.env.cxlRanges.set 0 (0x20000, 0x1000), cxlUp := base.env.cxlUp.set 0 false } },
    by decide +kernel, rfl, by decide +kernel, by decide +kernel, by decide +kernel, by decide +kernel, by decide +kernel, by decide +kernel⟩,
   ⟨window, by decide +kernel⟩,
   fun k h => ⟨away0 k, _, rfl, by revert k; decide +kernel, by revert k; decide +kernel, by revert k; decide +kernel, by
      intro x hx; obtain rfl := List.mem_singleton.1 hx; exact fun _ _ _ => rfl, rfl, rfl⟩,
   fun k h => ⟨away0 k, by revert k; decide +kernel⟩⟩

def idle : State := { State.reset with dev := { State.reset.dev with ready := true, dies := 0xFF } }

def imaged : State := { State.reset with dev := { State.reset.dev with recovery := true, imgGo := true, imgLen := 1 } }
def img0 : FirmwareImage :=
  { edSigOk := true, mlSigOk := true, version := 1, classOk := true, config := base.env.config, bytes := imaged.imageBytes }

theorem img0_bytes : img0.bytes = imaged.imageBytes ∧ img0.bytes ≠ [] := by
  refine ⟨by simp only [img0], fun h => ?_⟩
  simp only [img0, State.imageBytes, List.map_eq_nil_iff, List.range_eq_nil] at h
  exact absurd h (by decide)

theorem witness_service :
    (∃ (s : State) (img : FirmwareImage), s.dev.recovery = true ∧ s.dev.imgGo = true ∧ img.bytes = s.imageBytes ∧ img.bytes ≠ []) ∧
    (∃ s : State, s.dev.dies.getLsbD 3 = true ∧ s.drops = [] ∧ s.blocks = [] ∧ (∀ l ∈ s.launches, l.st ≠ .running) ∧ s.dev.ready = true ∧ HostFree s) ∧
    (∃ s : State, 2 < s.env.linkLanes[(17 : Fin 18)]) ∧
    (∃ s : State, s.picks = [] ∧ s.agenda = [] ∧ s.outside = [(1000, .manage .power)] ∧ 1000 ≤ s.time) ∧
    ∃ s : State, ∃ b, s.blocks = [b] ∧ ∃ l ∈ s.launch? b.lid, l.asid = s.dev.trAsid ∧ s.pr.en = true ∧
      b.warps.length < s.pr.room :=
  ⟨⟨imaged, img0, rfl, rfl, img0_bytes.1, img0_bytes.2⟩, ⟨idle, by decide +kernel⟩, ⟨idle, by decide +kernel⟩,
   ⟨{ base with outside := [(1000, .manage .power)] }, rfl, rfl, rfl, by decide⟩,
   ⟨{ (base : State) with pr := { en := true, size := 6 } }, (base.block? 1).get (by decide +kernel), by decide +kernel⟩⟩

def triggered : State := { base with
  trigs := base.trigs.set 2 { base.trigs[(2 : Fin 4)] with en := true }
  cores := tput base.cores 0 { trigEv := Vector.replicate 4 (true, false) } }

theorem witness_triggers :
    (∃ s : State, s.picks = [] ∧ s.trigDue 0 2 = true) ∧
    (∃ s : State, s.pr.en = true ∧ s.dev.prSmp = true ∧ (s.core 1).sampleAt / 2 ^ s.dev.prPer ≠ s.time / 2 ^ s.dev.prPer ∧
      (s.sampled 1).isNone = true) ∧
    ∃ s : State, ∃ p ∈ s.sampled 0, s.pr.en = true ∧ s.dev.prSmp = true ∧
      (s.core 0).sampleAt / 2 ^ s.dev.prPer ≠ s.time / 2 ^ s.dev.prPer ∧ 0 < s.pr.room ∧ p.1.uid = 1 :=
  ⟨⟨triggered, by decide +kernel⟩,
   ⟨{ base with time := 65536, pr := { en := true, size := 6 }, dev := { base.dev with prSmp := true } }, by decide +kernel⟩,
   ⟨{ base with time := 65536, pr := { en := true, size := 6 }, dev := { base.dev with prSmp := true } }, by decide +kernel⟩⟩

/-! ### The step, encodings and the invariant -/

/-- A machine picked to run MOVI (R146), with or without its context halted. -/
def ready0 (halt : Bool) : State :=
  let s := State.reset.withFetchWord 64 0x12345678_00900505
  { s with dev := { s.dev with dbgHalt := halt } }
/-- What the fragment that stands in a state fetches and decodes, where it does not halt there. -/
def fetched (s : State) (c : Ctx) : Option Instr :=
  match s.fetch c.l c.b.core c.f.pc with
  | (u, .halves hs) => (match decodeHalves hs with | .ok i => if u.haltsAt c i then none else some i | .error _ => none)
  | _ => none

/-- The machine as the turn of that fragment begins. -/
def turn (halt : Bool) : State := { ready0 halt with picks := [], cur := some r0 }

theorem witness_step : ∀ halt, ∃ c0 ∈ (turn halt).ctx? r0, (ready0 halt).picks = [r0] ∧ (turn halt).issues c0 = true ∧ c0.f.halted = false ∧
    c0.reissueDue = false ∧
    let c := ((turn halt).moveOn c0).2
    c.f.redo = [] ∧ c.f.held = none ∧ c.parksAt = none ∧ c.inRep.isNone = true ∧
      (fetched ((turn halt).moveOn c0).1 c).isSome = true ∧ ((turn halt).moveOn c0).1.haltOf c.l.asid = halt := by decide +kernel

theorem witness_event : ∃ s : State, s.picks = [] ∧ s.agenda = [(5, .podSyncLoss)] ∧ ∀ k, (s.core k).pkts = [] :=
  ⟨{ base with agenda := [(5, .podSyncLoss)] }, rfl, rfl, fun _ => rfl⟩

/-- A page noted where the table no longer maps it, and one noted as it is mapped. -/
def note1 : PageMap := { asid := 0, shift := 16, page := 1, target := .device, pa := 0x50000, home := none }
def noted : State := { paged with maps := [note1, ((paged.mapping 0 0x20000).get (by decide +kernel))] }

/-- With a line of the page in the L2, and without (R264). -/
theorem witness_settled : noted.mem ≠ (base : State).mem ∧ noted.maps.map noted.moved = [true, false] ∧
    noted.pageInL2 note1 = false ∧ { noted with l2 := [(lineKey .device 0x50080, {})] }.pageInL2 note1 = true := by decide +kernel

theorem witness_fetch : ∃ s : State, ∃ l ∈ s.launch? 1, (s.xlate (s.quadOf 0) l.asid 0x10000 .fetch).2 = .ok 0x10000 attr0 ∧
    attr0.target = .device ∧ attr0.undef = false ∧
    (let u := (s.xlate (s.quadOf 0) l.asid 0x10000 .fetch).1
     u.badAt .device attr0.tier 0x10000 = none ∧ u.mem.read 0x10000 2 = l.image.read 0x10000 2 ∧ (∀ p ∈ u.past, p.target = .device → p.at_ = 0x10000 → l.begun ≤ p.until_ → p.half = BitVec.ofNat 16 (u.mem.read 0x10000 2))) :=
  ⟨base, by decide +kernel⟩

theorem witness_round_trip : (∃ i : Instr, i.wellFormed = true ∧ i.len = 2) ∧ (∃ i : Instr, i.wellFormed = true ∧ i.len = 4) ∧
    (∃ i : Instr, i.wellFormed = true ∧ i.len = 8) ∧ ∃ hs i, decodeHalves hs = .ok i ∧ 2 * hs.length = 2 :=
  ⟨⟨.iaddH2 h2, by decide +kernel⟩, ⟨.iaddN3 n3, by decide +kernel⟩, ⟨.ld (ld1 .w32), by decide +kernel⟩,
   ⟨[0x8000 ||| 2], _, rfl, rfl⟩⟩

theorem test_reset : State.reset.memOk := ⟨by decide, by decide, by decide⟩
theorem witness_invariant : ∃ s t, s.memOk ∧ step s = .next t := ⟨.reset, _, test_reset, rfl⟩
theorem witness_numbered : ∃ s t, s.numbered ∧ step s = .next t := ⟨.reset, _, by decide +kernel, rfl⟩

/-! ### Ill-formed instructions: one for each check of WellFormed.lean -/

def alG : Head := { al with gset := true }
def alS : Head := { al with ccSet := true }
def alC : Head := { al with c := true }

/-- R90, R93, R95, R126, R129, R134-R136, R144, R145. -/
theorem test_ill_formed_lane : ([.iaddH2 ⟨false, 0, 0⟩, .movN3 n3, .icmpN3 { n3c with c := false }, .fcmpN3 { n3c with d := 1 },
    .shli { ni with imm := 32 }, .movi8 ni, .icmpi ni, .movi ⟨alG, 4, 7⟩, .movi ⟨alS, 4, 7⟩, .icmp { xr 0xE with h := al },
    .imadw { xr 9 with src := .imm 3 }, .iadd { xr 0 with src := .regs 8 1 }, .ineg { xr 4 with src := .regs 8 0 },
    .rdl { xr 0x143 with src := .imm 32 }, .idiv { xr 0xA with ty := .f32 }, .iadd { xr 0 with rnd := .rtz }, .icmp { xr 0xE with d := 4 },
    .iadd { xr 0 with eC := true }, .ineg { xr 4 with eB := true }, .and { xr 0x1A with absB := true }, .and { xr 0x1A with negA := true },
    .popc { xr 0x20 with sat := true }, .isel ⟨al, 4, 5, 6, true, true, true, false, false, false, true, .gt⟩,
    .cvt { cvt0 .f16x2 .f32 with src := .e2m1x8 }, .cvt (cvt0 .f32 .i32 1), .cvt { cvt0 .f32 .i32 with half := true },
    .cvt8 { pack0 .e4m3x4 4 8 with ty := .e2m1x8 }, .cvt4 { pack0 .e2m1x8 4 8 with sat := true },
    .wid8 { pack0 .e5m2x4 8 4 with amax := true }] : List Instr).all (fun i => !i.wellFormed) = true := by decide

/-- R54, R147, R150-R153, R156, R157, R106, R159, R162, R246. -/
theorem test_ill_formed_flow : ([.rdsr ⟨al, 4, 100, true⟩, .rdsr ⟨al, 4, 0, true⟩, .wrsr ⟨al, 1, 4, false⟩,
    .shfl ⟨al, 4, 5, 32, 0, false, false, true, true, false, .idx⟩, .shfl ⟨al, 4, 5, 6, 7, false, true, true, false, false, .xor⟩,
    .vote ⟨al, 4, 5, 7, false, true, false, .ballot⟩, .tred ⟨al, 4, 5, 0, false, true, .and, .f32, false⟩,
    .tred ⟨al, 4, 5, 7, false, true, .add, .f32, false⟩, .part ⟨al, 0⟩, .part ⟨al, 6⟩, .xsort ⟨al, 4, 5, 6, 4, true, true, true, .f32⟩,
    .xsort ⟨al, 4, 5, 6, 7, true, true, true, .n64⟩, .xdqnt ⟨al, 8, 4, 5, false, true, .e2m1x8⟩, .br { br0 .eq 0 with h := alC },
    .brx { brx0 with hint := .uniform }, .exit alC, .bkpt xi0] : List Instr).all (fun i => !i.wellFormed) = true := by decide

/-- R174-R192, R198. -/
theorem test_ill_formed_memory : ([.ld { ld1 .w32 with h := alC }, .lda { lda0 with width := .w8 }, .ld (ld1 .w32 .rel), .pref { xm0 .w8 with b := 0, scope := .die },
    .mst { mst0 with scope := .dev }, .fence { fence0 .acq .pod with hint := .noL1 }, .st { xm0 .w32 with d := 1 }, .fence { fence0 .acq .pod with a := 1 },
    .ld { ld1 .w32 with b := 1 }, .ld { ld1 .w8 with b := 2 }, .lds { lp0 .w32 with h := alC }, .ldl (lp0 .w32 .acq), .ldc { ldc0 with hint := .noL1 },
    .sts { xp0 .w32 with d := 1 }, .lds { lp0 .w32 with b := 1 }, .atom (xa0 .add .w8 .rlx), .red { xa0 .exch .w32 .rlx with d := 0 },
    .red { xa0 .add .w32 .acq with d := 0 }, .red (xa0 .add .w32 .rlx), .waita { waita0 wlds with h := al }, .waita { waita0 wlds with width := .w16 },
    .waita { waita0 wlds with ord := .rel }, .bwait (xs0 .die .rel 0), .barv (xs0 .core), .bwait { xs0 .dev .acq 0 with d := 1 },
    .boinit { xo with next := false, scope := .pod }] : List Instr).all (fun i => !i.wellFormed) = true := by decide

/-- R209, R210, R214, R217-R234, R242. -/
theorem test_ill_formed_engine : ([.mlw { mlw0 with fmt := .f32 }, .mma { mma0 with fmt := .f32 }, .mdr { mdr0 with fmt := .e2m1x8, h := alC },
    .mdr { mdr0 with sat := true }, .mrs ⟨al, 4, 5, 1, 7, true⟩, .mws ⟨al, 5, 1, 4, 7, true, .i32⟩, .mws ⟨al, 5, 0, 4, 7, false, .n32⟩,
    .copy ⟨al, 1, 5, 10, 1, true, .add⟩, .copy ⟨al, 1, 5, 10, 0, false, .add⟩, .copym ⟨al, 1, 5, 10, 6, false, .none⟩,
    .copym ⟨al, 1, 5, 10, 6, true, .add⟩, .copyl ⟨al, 1, 5, 11, 10, false, .none⟩, .copyx ⟨al, 1, 5, 0, 0, false, .qnt .f32 true⟩,
    .copyx ⟨al, 1, 5, 0, 12, false, .tr⟩, .copyx ⟨al, 1, 5, 1, 12, false, .qnt .e4m3x4 true⟩, .htest hw0, .hwait { hw0 with h := alC },
    .scan { scan0 with ty := .e2m1x8 }, .cleave alC, .launch { launch0 true true with h := al }] : List Instr).all
      (fun i => !i.wellFormed) = true := by decide

/-! ### The spec's worked examples -/

/-- What a state's warp holds after an instruction. -/
def ran {α : Type} (i : Instr) (s : State) (f : Warp → α) : Option α :=
  match exec i s with | .next t => (t.warp? 1 0).map f | _ => none
def vals (l : List Word) (k : Lane) : Word := l.getD k.val 0
def cc4 (c : CC) : Nat := 8 * c.n.toNat + 4 * c.z.toNat + 2 * c.c.toNat + c.v.toNat

/-- Dividing by zero next to ordinary lanes (08_lane_instructions_notes.md). -/
theorem test_idiv : ran (.idiv { xr 0xA (some .i32) with h := alC, d := 3, a := 1, src := .regs 2 0 })
    (vreg 1 (vals [7, -7, 5, -5, 0x8000_0000, 0]) (vreg 2 (vals [2, 2, 0, 0, -1, 0])))
    (fun w => ((List.range 6).map fun k => (w.vl 3 (Fin.ofNat 32 k), cc4 (w.cc false (Fin.ofNat 32 k))))) =
    some [(3, 0), (0xFFFF_FFFD, 8), (0x7FFF_FFFF, 1), (0x8000_0000, 9), (0x8000_0000, 9), (0x7FFF_FFFF, 1)] := by decide +kernel
theorem test_irem : ran (.irem { xr 0xB (some .i32) with d := 3, a := 1, src := .regs 2 0 })
    (vreg 1 (vals [7, -7, 5, -5, 0x8000_0000, 0]) (vreg 2 (vals [2, 2, 0, 0, -1, 0])))
    (fun w => ((List.range 6).map fun k => w.vl 3 (Fin.ofNat 32 k))) = some [1, 0xFFFF_FFFF, 5, 0xFFFF_FFFB, 0, 0] := by decide +kernel
/-- The last word of a 128-bit sum (08_lane_instructions_notes.md). -/
theorem test_iaddc : ran (.iaddc { xr 2 with h := alC, d := 9, a := 1, src := .regs 5 0 })
    (warp (fun w => { w with cc0 := Vector.replicate 32 { c := true } }) (vreg 1 fun _ => 0x7FFF_FFFF))
    (fun w => (w.vl 9 31, cc4 (w.cc false 31))) = some (0x8000_0000, 9) := by decide +kernel
/-- The REP word of that listing. -/
theorem test_rep_word : decodeTableWord 32 0x0003_85C1 = some (.repNP ⟨0, false, true, true, true, 2⟩) := by decide +kernel
/-- The SCAN word of 12_engine_notes.md. -/
theorem test_scan_word : decodeTableWord 64 0x0445_0000_0010_0D03 = some (.scan ⟨al, 1, 0, true, false, false, .f32, .linrec⟩) := by decide +kernel
/-- R135: t = 0xE8 gives the majority, 0xAC a where c is 1 and b where c is 0. -/
theorem test_lut3 : [0xE8, 0xAC].map (fun t => ran (.lut3 ⟨al, 4, 5, 6, 7, true, true, true, t⟩)
    (vreg 5 (fun _ => 0xF0F0_F0F0) (vreg 6 (fun _ => 0xCCCC_CCCC) (vreg 7 fun _ => 0xFF00_FF00))) (fun w => w.vl 4 7)) =
    [some 0xFCC0_FCC0, some 0xF0CC_F0CC] := by decide +kernel
/-- R136: the examples of BYSEL. -/
theorem test_bysel : [0x0001_0203, 0x0808_0800, 0x1111_1101].map (fun b => ran (.bysel { xr 0x26 with d := 3, a := 1, src := .regs 2 5 })
    (vreg 1 (fun _ => 0x1122_8344) (vreg 2 fun _ => b)) (fun w => w.vl 3 0)) =
    [some 0x4483_2211, some 0x0000_0044, some 0xFFFF_FF83] := by decide +kernel
/-- R76: 300.0, 464.0, 465.0 and −1000.0 in E4M3, plain and with `.sat` (04_state_and_formats_notes.md). -/
theorem test_cvt8 : [false, true].map (fun sat => ran (.cvt8 { pack0 .e4m3x4 4 8 with sat := sat })
    (sreg 2 0x3F80_0000 (vreg 8 (fun _ => 0x4396_0000) (vreg 9 (fun _ => 0x43E8_0000) (vreg 10 (fun _ => 0x43E8_8000) (vreg 11 fun _ => 0xC47A_0000)))))
    (fun w => w.vl 4 9)) = [some 0xFF7F_7E79, some 0xFE7E_7E79] := by decide +kernel
/-- R77: 0x79 is 288.0. -/
theorem test_wid8 : ran (.wid8 (pack0 .e4m3x4 8 4)) (sreg 2 0x3F80_0000 (vreg 4 fun _ => 0x79)) (fun w => w.vl 8 0) = some 0x4390_0000 := by
  decide +kernel
/-- R75: ties of FP32 to BF16, and 65520.0 to FP16 under RTZ. -/
theorem test_cvt : ran (.cvt { cvt0 .f32 .bf16x2 6 with rnd := .rne }) (vreg 6 (vals [0x3F80_8000, 0x3F81_8000, 0x3F80_8001]))
      (fun w => [0, 1, 2].map fun k => w.vl 4 k) = some [0x3F80_3F80, 0x3F82_3F82, 0x3F81_3F81] ∧
    ran (.cvt (cvt0 .f32 .f16x2 6)) (vreg 6 fun _ => 0x477F_F000) (fun w => w.vl 4 0) = some 0x7BFF_7BFF := by decide +kernel
/-- R155: Philox of counter 0 and key 0. -/
theorem test_xrng : ran (.xrng ⟨al, 8, 12, 16, false, false, false⟩) base (fun w => w.pipe.map fun x => x.v.map fun y => y.2[(0 : Fin 32)]) =
    some [[0x6627_E8D5, 0xE169_C58D, 0xBC57_AC4C, 0x9B00_DBD8]] := by decide +kernel
/-- Votes confined to partition tiles (08_lane_instructions_notes.md). -/
theorem test_vote : ran (.vote ⟨al, 5, 6, 0, false, false, false, .ballot⟩)
    (warp (fun w => { w with part := 3 }) (vreg 6 fun l => if l.val % 3 = 0 then 1 else 0)) (fun w => [7, 8, 16, 31].map fun l => w.vl 5 l) =
    some [0x49, 0x9200, 0x0024_0000, 0x4900_0000] := by decide +kernel
/-- Member masks with exited or absent lanes (08_lane_instructions_notes.md). -/
theorem test_tred : ran (.tred ⟨{ al with guard := .ne }, 2, 1, 7, false, false, .add, .n32, true⟩)
    (sreg 7 0xF000_00FF (vreg 1 (fun l => BitVec.ofNat 32 (l.val + 1)) (zero 8 (warp (fun w => { w with exited := 0xF000_0000 }) (lanes 0xFFFF)))))
    (fun w => [0, 3, 7, 8, 15, 16].map fun l => w.vl 2 l) = some [32, 0, 32, 32, 32, 0] := by decide +kernel

/-! ### Words written out from the spec's tables -/

/-- R90, R91. -/
theorem test_word_iaddH2 : decodeTableWord 16 (1#1 ++ 9#5 ++ 4#5 ++ 0x0#4 ++ 0#1 : BitVec 16).toNat =
    some (.iaddH2 ⟨true, 9, 4⟩) := by decide +kernel

/-- R92, R93. -/
theorem test_word_isubN3 : decodeTableWord 32 (0#1 ++ 7#7 ++ 6#7 ++ 5#7 ++ 1#1 ++ 0x01#7 ++ 1#2 : BitVec 32).toNat =
    some (.isubN3 ⟨false, 7, 6, 5, true⟩) := by decide +kernel

/-- R92, R93. -/
theorem test_word_iaddi : decodeTableWord 32 (0xFE#8 ++ 6#7 ++ 5#7 ++ 0#1 ++ 0x40#7 ++ 1#2 : BitVec 32).toNat =
    some (.iaddi ⟨0xFE, 6, 5, false⟩) := by decide +kernel

/-- R92, R93. -/
theorem test_word_ld32 : decodeTableWord 32 (0x03#8 ++ 8#7 ++ 5#7 ++ 1#1 ++ 0x60#7 ++ 1#2 : BitVec 32).toNat =
    some (.ld32 ⟨3, 8, 5, true⟩) := by decide +kernel

/-- R92, R93. -/
theorem test_word_jmpNJ : decodeTableWord 32 (0x7FFFFE#23 ++ 0x68#7 ++ 1#2 : BitVec 32).toNat =
    some (.jmpNJ ⟨0x7FFFFE⟩) := by decide +kernel

/-- R92, R106. -/
theorem test_word_repNP : decodeTableWord 32 (0#11 ++ 2#2 ++ 0#1 ++ 1#1 ++ 0#1 ++ 1#1 ++ 3#6 ++ 0x70#7 ++ 1#2 : BitVec 32).toNat =
    some (.repNP ⟨2, false, true, false, true, 3⟩) := by decide +kernel

/-- R94-R96, R129. -/
theorem test_word_iaddc : decodeTableWord 64 (0#2 ++ 0#3 ++ 0#4 ++ 0#1 ++ 0#2 ++ 0#4 ++ 0#7 ++ 5#7 ++ 4#7 ++ 3#7 ++ 1#1 ++ 1#1 ++ 0#1 ++ 0x0#4 ++ 0#1 ++ 0x002#10 ++ 3#2 : BitVec 64).toNat =
    some (.iaddc ⟨⟨true, true, false, .al, false⟩, 3, 4, .regs 5 0, false, false, false, false, false, false, false, false, .rne, .n32⟩) := by decide +kernel

/-- R94-R96, R138. -/
theorem test_word_ffma : decodeTableWord 64 (0x0004#16 ++ 6#7 ++ 5#7 ++ 4#7 ++ 3#7 ++ 0#1 ++ 0#1 ++ 0#1 ++ 0x0#4 ++ 0#1 ++ 0x083#10 ++ 3#2 : BitVec 64).toNat =
    some (.ffma ⟨⟨false, false, false, .al, false⟩, 3, 4, .regs 5 6, false, false, false, false, false, false, false, false, .rne, .f32⟩) := by decide +kernel

/-- R96, R143. -/
theorem test_word_fexp2 : decodeTableWord 64 (0#2 ++ 0#2 ++ 1#1 ++ 0#1 ++ 1#1 ++ 0#1 ++ 1#1 ++ 0#3 ++ 4#4 ++ 0#7 ++ 0#7 ++ 4#7 ++ 3#7 ++ 0#1 ++ 0#1 ++ 0#1 ++ 0x0#4 ++ 0#1 ++ 0x103#10 ++ 3#2 : BitVec 64).toNat =
    some (.fexp2 ⟨⟨false, false, false, .al, false⟩, 3, 4, .regs 0 0, false, false, true, false, true, false, true, false, .rne, .f32⟩) := by decide +kernel

/-- R97, R146. -/
theorem test_word_movi : decodeTableWord 64 (0x12345678#32 ++ 0#5 ++ 9#7 ++ 0#1 ++ 0#1 ++ 0#1 ++ 0x1#4 ++ 0#1 ++ 0x141#10 ++ 3#2 : BitVec 64).toNat =
    some (.movi ⟨⟨false, false, false, .eq, false⟩, 9, 0x12345678⟩) := by decide +kernel

/-- R156. -/
theorem test_word_xsort : decodeTableWord 64 (0#11 ++ 1#1 ++ 4#4 ++ 4#7 ++ 3#7 ++ 2#7 ++ 1#7 ++ 0#1 ++ 0#1 ++ 0#1 ++ 0x0#4 ++ 0#1 ++ 0x181#10 ++ 3#2 : BitVec 64).toNat =
    some (.xsort ⟨⟨false, false, false, .al, false⟩, 1, 2, 3, 4, false, false, true, .f32⟩) := by decide +kernel

/-- R100, R159. -/
theorem test_word_br : decodeTableWord 64 (0#4 ++ 2#2 ++ 0xFFFFFC#24 ++ 0x0010#14 ++ 0#1 ++ 0#1 ++ 1#1 ++ 0x2#4 ++ 0#1 ++ 0x1c0#10 ++ 3#2 : BitVec 64).toNat =
    some (.br ⟨⟨false, false, true, .ne, false⟩, .never, 0xFFFFFC, 0x10⟩) := by decide +kernel

/-- R97, R158. -/
theorem test_word_sleep : decodeTableWord 64 (1000#32 ++ 0#5 ++ 0#7 ++ 0#1 ++ 0#1 ++ 0#1 ++ 0x0#4 ++ 1#1 ++ 0x1cd#10 ++ 3#2 : BitVec 64).toNat =
    some (.sleep ⟨⟨false, false, false, .al, true⟩, 1000⟩) := by decide +kernel

/-- R99, R102, R174. -/
theorem test_word_ld : decodeTableWord 64 (0xFFF#12 ++ 0#1 ++ 3#2 ++ 1#2 ++ 3#3 ++ 2#3 ++ 0#7 ++ 8#7 ++ 5#7 ++ 0#1 ++ 0#1 ++ 0#1 ++ 0x0#4 ++ 0#1 ++ 0x200#10 ++ 3#2 : BitVec 64).toNat =
    some (.ld ⟨⟨false, false, false, .al, false⟩, 5, 8, 0, 0xFFF, false, .noL1, .acq, .dev, .w32⟩) := by decide +kernel

/-- R99, R174, R175. -/
theorem test_word_lds : decodeTableWord 64 (0x002#12 ++ 1#1 ++ 0#2 ++ 0#2 ++ 1#3 ++ 1#3 ++ 1#7 ++ 9#7 ++ 5#7 ++ 0#1 ++ 0#1 ++ 0#1 ++ 0x0#4 ++ 0#1 ++ 0x202#10 ++ 3#2 : BitVec 64).toNat =
    some (.lds ⟨⟨false, false, false, .al, false⟩, 5, 9, 1, 2, true, .default, .rlx, true, .w16⟩) := by decide +kernel

/-- R99, R183. -/
theorem test_word_atom : decodeTableWord 64 (0x01#8 ++ 9#4 ++ 0#1 ++ 0#2 ++ 3#2 ++ 2#3 ++ 3#3 ++ 12#7 ++ 8#7 ++ 4#7 ++ 0#1 ++ 0#1 ++ 0#1 ++ 0x0#4 ++ 0#1 ++ 0x208#10 ++ 3#2 : BitVec 64).toNat =
    some (.atom ⟨⟨false, false, false, .al, false⟩, 4, 8, 12, 1, .cas, false, .acqrel, .die, .w64⟩) := by decide +kernel

/-- R192. -/
theorem test_word_bwait : decodeTableWord 64 (0#12 ++ 0#1 ++ 0#2 ++ 1#2 ++ 3#3 ++ 0#3 ++ 2#7 ++ 1#7 ++ 0#7 ++ 0#1 ++ 0#1 ++ 0#1 ++ 0x0#4 ++ 0#1 ++ 0x281#10 ++ 3#2 : BitVec 64).toNat =
    some (.bwait ⟨⟨false, false, false, .al, false⟩, 0, 1, 2, false, false, .acq, .dev⟩) := by decide +kernel

/-- R214, R218. -/
theorem test_word_mma : decodeTableWord 64 (3#4 ++ 5#3 ++ 2#2 ++ 0#1 ++ 1#2 ++ 7#4 ++ 9#7 ++ 8#7 ++ 7#7 ++ 6#7 ++ 0#1 ++ 0#1 ++ 0#1 ++ 0x0#4 ++ 0#1 ++ 0x2c1#10 ++ 3#2 : BitVec 64).toNat =
    some (.mma ⟨⟨false, false, false, .al, false⟩, 6, 7, 8, 9, 3, 5, .both, false, .scratch, .e4m3x4⟩) := by decide +kernel

/-- R224. -/
theorem test_word_copy : decodeTableWord 64 (0#7 ++ 1#1 ++ 1#4 ++ 0#4 ++ 0#7 ++ 6#7 ++ 4#7 ++ 1#7 ++ 0#1 ++ 0#1 ++ 0#1 ++ 0x0#4 ++ 0#1 ++ 0x300#10 ++ 3#2 : BitVec 64).toNat =
    some (.copy ⟨⟨false, false, false, .al, false⟩, 1, 4, 6, 0, true, .add⟩) := by decide +kernel

/-- R208. -/
theorem test_word_hwait : decodeTableWord 64 (0#12 ++ 3#3 ++ 1#1 ++ 0#7 ++ 0#7 ++ 2#7 ++ 4#7 ++ 0#1 ++ 0#1 ++ 0#1 ++ 0x0#4 ++ 0#1 ++ 0x304#10 ++ 3#2 : BitVec 64).toNat =
    some (.hwait ⟨⟨false, false, false, .al, false⟩, 4, 2, some .dev⟩) := by decide +kernel

/-- R229. -/
theorem test_word_scan : decodeTableWord 64 (0#5 ++ 1#1 ++ 0#1 ++ 1#1 ++ 4#4 ++ 2#4 ++ 0#7 ++ 0#7 ++ 4#7 ++ 1#7 ++ 0#1 ++ 0#1 ++ 0#1 ++ 0x0#4 ++ 0#1 ++ 0x340#10 ++ 3#2 : BitVec 64).toNat =
    some (.scan ⟨⟨false, false, false, .al, false⟩, 1, 4, true, false, true, .f32, .max⟩) := by decide +kernel

/-- R241. -/
theorem test_word_launch : decodeTableWord 64 (0#13 ++ 1#1 ++ 1#2 ++ 0#7 ++ 0#7 ++ 2#7 ++ 5#7 ++ 0#1 ++ 1#1 ++ 0#1 ++ 0x0#4 ++ 0#1 ++ 0x380#10 ++ 3#2 : BitVec 64).toNat =
    some (.launch ⟨⟨false, true, false, .al, false⟩, 5, 2, true, true⟩) := by decide +kernel

end Sys2Proof.Tests
end

section
/-! What stops an instruction before any effect (R112, R336): each check of `gate` in its order, and that every
instruction passes through it. -/

namespace Sys2Proof.Machine

/-! ### Every instruction goes through the common checks -/

/-- Every encodable instruction but a compare is `issue` of its own effect. -/
theorem exec_eq_issue {i : Instr} (h : i.encodable = true) (hc : i.isCompare = false) :
    ∃ body, ∀ s, exec i s = issue i body s := by
  cases i <;> cases h <;> cases hc
  case jmpNJ o => exact ⟨fun c _ s => .went (s.goto c (relTarget c.f.pc o.off)), fun _ => rfl⟩
  case jmp o => exact ⟨fun c _ s => .went (s.goto c (relTarget c.f.pc o.target)), fun _ => rfl⟩
  case nop => exact ⟨fun _ _ s => .ok s, fun _ => rfl⟩
  case nopre => exact ⟨fun c _ s => .ok (s.modW c fun w => { w with nopre := true }), fun _ => rfl⟩
  case preok => exact ⟨fun c _ s => .ok (s.modW c fun w => { w with nopre := false }), fun _ => rfl⟩
  all_goals exact ⟨_, fun _ => rfl⟩

theorem exec_eq_issueCmp {i : Instr} (h : i.isCompare = true) (s : State) : exec i s = issueCmp i s := by
  cases i <;> cases h <;> rfl

/-- A compare that a check stops ends as any instruction does, but where it waits for a register (R169). -/
theorem issueCmp_of_gate {i : Instr} {s : State} {c : Ctx} {e : Eff} (hc : s.cur.bind s.ctx? = some c)
    (hg : gate s c i.layout = some e) (he : ∀ rs t, e ≠ .wait .waitReg (.full rs) t) :
    issueCmp i s = .next (finish c i e) := by
  -- `he` rules out the alternative that sets the compare aside.
  simp only [issueCmp, hc, hg]

/-- The check that stops an instruction is its whole outcome. -/
theorem exec_of_gate {i : Instr} {s : State} {c : Ctx} {e : Eff} (hi : i.encodable = true) (hcur : s.cur = some c.ref)
    (hctx : s.ctx? c.ref = some c) (hg : gate s c i.layout = some e)
    (he : i.isCompare = true → ∀ rs t, e ≠ .wait .waitReg (.full rs) t) : exec i s = .next (finish c i e) := by
  have hc : s.cur.bind s.ctx? = some c := by rw [hcur]; exact hctx
  cases hk : i.isCompare with
  | true => rw [exec_eq_issueCmp hk, issueCmp_of_gate hc hg (he hk)]
  | false =>
    obtain ⟨body, hb⟩ := exec_eq_issue hi hk
    simp only [hb, issue, hc, hg]

/-- A trap before an effect is taken by the fragment that issues, which has not issued by it. -/
theorem finish_trap {i : Instr} {s : State} {c : Ctx} {cause : Nat} {info : Word} (hp : isPath c.ref.sel = false)
    (hk : cause ≤ 5) :
    finish c i (.trap (c.trap cause info) s) = s.takeTrap c ⟨cause, 0, c.f.mask, info, c.f.pc⟩ := by
  have hn : (c.trap cause info).issued c i.layout = false := by
    simp [TrapInfo.issued, Ctx.trap]
    omega
  simp only [finish, hn, Bool.false_eq_true, if_false, State.trapOr, hp]
  rfl

/-- A check's trap is taken at the instruction's own address, with nothing before it. -/
theorem exec_of_gate_trap {i : Instr} {s : State} {c : Ctx} {cause : Nat} {info : Word} (hi : i.encodable = true)
    (hcur : s.cur = some c.ref) (hctx : s.ctx? c.ref = some c) (hp : isPath c.ref.sel = false) (hk : cause ≤ 5)
    (hg : gate s c i.layout = some (.trap (c.trap cause info) s)) :
    exec i s = .next (s.takeTrap c ⟨cause, 0, c.f.mask, info, c.f.pc⟩) := by
  rw [exec_of_gate hi hcur hctx hg (fun _ _ _ => nofun), finish_trap hp hk]

/-! ### The checks on the operands -/

/-- The registers and tiles an instruction names are the block's (R27, R89). -/
def Named (d : KDesc) (l : Layout) (ops : List Opnd) : Prop :=
  (l.isMatrix = true → d.tiles ≠ 0) ∧ ∀ o ∈ ops, o.legal d.regs d.tiles = true

/-- The guard is AL where it must be, REP's apart (R112). -/
def Guarded (l : Layout) : Prop := l.needsAl = true → l.isRep = false → ∀ h, l.head = some h → h.guard = .al

theorem staticCheck_of_not_named {d : KDesc} {l : Layout} {ops : List Opnd} (h : ¬Named d l ops) :
    staticCheck d l ops = some 2 := by
  refine if_pos ?_
  simp only [Named, not_and_or, Classical.not_imp, not_not, not_forall, Bool.not_eq_true] at h
  simpa using h

theorem staticCheck_of_named {d : KDesc} {l : Layout} {ops : List Opnd} (h : Named d l ops) :
    staticCheck d l ops =
      if l.needsAl && !l.isRep && (match l.head with | some h => h.guard != .al | none => false) then some 6 else none := by
  refine if_neg ?_
  obtain ⟨ht, hl⟩ := h
  simpa using ⟨ht, hl⟩

theorem staticCheck_of_not_guarded {d : KDesc} {l : Layout} {ops : List Opnd} (hn : Named d l ops) (h : ¬Guarded l) :
    staticCheck d l ops = some 6 := by
  simp only [Guarded, Classical.not_imp, not_forall] at h
  obtain ⟨hal, hrep, x, hx, hne⟩ := h
  rw [staticCheck_of_named hn, hal, hrep, hx]
  exact if_pos (by simpa using hne)

theorem staticCheck_of_guarded {d : KDesc} {l : Layout} {ops : List Opnd} (hn : Named d l ops) (h : Guarded l) :
    staticCheck d l ops = none := by
  rw [staticCheck_of_named hn]
  cases hal : l.needsAl with
  | false => rfl
  | true =>
    cases hrep : l.isRep with
    | true => rfl
    | false =>
      cases hx : l.head with
      | none => rfl
      | some x => simp [h hal hrep x hx]

/-- A fragment none of whose warp's operations is suspended waits for none (R207). -/
theorem suspendedOn_eq_none {b : Block} {wi : Nat} (h : ∀ e ∈ b.ops, e.warp = wi → e.suspend = none) (w : Warp)
    (l : Layout) (ops : List Opnd) : suspendedOn b wi w l ops = none := by
  have hs : (b.ops.filter fun o => o.warp == wi && o.suspend.isSome && o.status == .pending) = [] := by
    simp only [List.filter_eq_nil_iff, Bool.and_eq_true, beq_iff_eq, not_and]
    intro e he hw
    simp [h e he hw.1] at hw
  have hr (p : Opnd → Bool) : (ops.filter p).find? (fun _ => false) = none := List.find?_eq_none.mpr (by simp)
  simp only [suspendedOn, hs, List.any_nil, List.find?_nil, Option.map_none, hr]
  cases layoutUnit l <;> rfl

/-- The operands of an instruction that a fragment issues. -/
abbrev opndsOf (s : State) (c : Ctx) (l : Layout) : List Opnd := l.opnds (vaultDims s c.l.asid c.w l)

/-- A source with its E bit set names an empty register: the fragment traps (R63). -/
abbrev emptySource (c : Ctx) (o : Opnd) : Bool := o.src && o.e && !o.regs.all (regFull c.b c.w)

/-- An operand read or written names an empty register: the fragment waits for it (R63). -/
abbrev emptyOperand (c : Ctx) (o : Opnd) : Bool := (o.src || o.dst) && !o.regs.all (regFull c.b c.w)

/-- No empty source has its E bit set. -/
theorem find?_emptySource {c : Ctx} {ops : List Opnd}
    (h : ∀ o ∈ ops, o.src = true → o.e = true → ∀ r ∈ o.regs, regFull c.b c.w r = true) :
    ops.find? (emptySource c) = none := by
  simp only [List.find?_eq_none, Bool.and_eq_true, not_and, Bool.not_eq_true, Bool.not_eq_false', List.all_eq_true]
  exact fun o ho hs => h o ho hs.1 hs.2

/-- Every source and destination is full just where the check finds none to wait for. -/
theorem filter_emptyOperands {c : Ctx} {ops : List Opnd} :
    ops.filter (emptyOperand c) = [] ↔
      ∀ o ∈ ops, o.src = true ∨ o.dst = true → ∀ r ∈ o.regs, regFull c.b c.w r = true := by
  simp only [List.filter_eq_nil_iff, Bool.and_eq_true, Bool.or_eq_true, not_and, Bool.not_eq_true, Bool.not_eq_false',
    List.all_eq_true]

/-- The operands waited for name an empty register. -/
theorem exists_empty_of_filter {c : Ctx} {ops os : List Opnd} {o : Opnd}
    (h : ops.filter (emptyOperand c) = o :: os) :
    ∃ r ∈ (o :: os).flatMap Opnd.regs, regFull c.b c.w r = false := by
  have ho := List.of_mem_filter (h ▸ List.mem_cons_self : o ∈ ops.filter _)
  simp only [Bool.and_eq_true, Bool.not_eq_true', List.all_eq_false, Bool.not_eq_true] at ho
  obtain ⟨-, r, hr, he⟩ := ho
  exact ⟨r, List.mem_flatMap.mpr ⟨o, List.mem_cons_self, hr⟩, he⟩

/-- A check of `gate` whose condition holds where it is asked for stops nothing. -/
theorem check_passes {p q : Bool} (h : p = true → q = true) : (p && !q) = false := by
  cases p with
  | false => rfl
  | true => rw [h rfl]; rfl

/-! ### The checks in their order (R336) -/

section
variable {s : State} {c : Ctx} {l : Layout} (hp : isPath c.ref.sel = false)
include hp

theorem gate_of_static {x : Word} (h : staticCheck c.l.desc l (opndsOf s c l) = some x) :
    gate s c l = some (.trap (c.trap 1 x) s) := by
  simp only [gate, windowWaits, hp, h, Bool.false_and, Bool.false_eq_true, if_false]

variable (hst : staticCheck c.l.desc l (opndsOf s c l) = none)
include hst

theorem gate_of_emptySource {o : Opnd}
    (h : (opndsOf s c l).find? (emptySource c) = some o) :
    gate s c l = some (.trap (c.trap 5 (emptyInfo o)) s) := by
  simp only [gate, windowWaits, hp, hst, h, Bool.false_and, Bool.false_eq_true, if_false]

variable
  (hsrc : (opndsOf s c l).find? (emptySource c) = none)
  (hsus : suspendedOn c.b c.ref.warp c.w l (opndsOf s c l) = none)
include hsrc hsus

theorem gate_of_emptyOperands {o : Opnd} {r : List Opnd}
    (h : (opndsOf s c l).filter (emptyOperand c) = o :: r) :
    gate s c l = some (.wait (if (o :: r).all (·.cls == .h) then .waitHandle else .waitReg)
      (.full ((o :: r).flatMap Opnd.regs)) s) := by
  simp only [gate, windowWaits, hp, hst, hsrc, hsus, h, Bool.false_and, Bool.false_eq_true, if_false]

variable
  (hfull : (opndsOf s c l).filter (emptyOperand c) = [])
include hfull

theorem gate_of_partOfWarp (he : l.isEngine = true) (hm : c.f.mask ≠ 0xFFFF_FFFF) :
    gate s c l = some (.trap (c.trap 4 2) s) := by
  simp only [gate, windowWaits, hp, hst, hsrc, hsus, hfull, he, beq_eq_false_iff_ne.mpr hm, Bool.false_and, Bool.true_and,
    Bool.not_false, Bool.false_eq_true, if_false, if_true]

variable (hwhole : l.isEngine = true → c.f.mask = 0xFFFF_FFFF)
include hwhole

theorem gate_of_walk (ha : l.awaitsWalk = true) (ht : s.condMet c .translation = false) :
    gate s c l = some (.wait .waitTranslation .translation s) := by
  simp only [gate, windowWaits, hp, hst, hsrc, hsus, hfull, check_passes fun h => beq_iff_eq.mpr (hwhole h), ha, ht,
    Bool.false_and, Bool.true_and, Bool.not_false, Bool.false_eq_true, if_false, if_true]

variable (hwalk : l.awaitsWalk = true → s.condMet c .translation = true)
include hwalk

theorem gate_of_noRoom (ha : l.sendsRequests = true) (hr : s.condMet c (.requestRoom (popcount c.f.mask)) = false) :
    gate s c l = some (.wait .waitResource (.requestRoom (popcount c.f.mask)) s) := by
  simp only [gate, windowWaits, hp, hst, hsrc, hsus, hfull, check_passes fun h => beq_iff_eq.mpr (hwhole h),
    check_passes hwalk, ha, hr, Bool.false_and, Bool.true_and, Bool.not_false, Bool.false_eq_true, if_false, if_true]

theorem gate_of_acquire {n : Nat} (hroom : l.sendsRequests = true → s.condMet c (.requestRoom (popcount c.f.mask)) = true)
    (ha : l.isAccess = true) (hn : c.f.acquire = some n) (hl : s.condMet c (.loadsBefore n) = false) :
    gate s c l = some (.wait .waitFence (.loadsBefore n) s) := by
  simp only [gate, windowWaits, hp, hst, hsrc, hsus, hfull, check_passes fun h => beq_iff_eq.mpr (hwhole h),
    check_passes hwalk, check_passes hroom, ha, hn, hl, Bool.false_and, Bool.true_and, Bool.not_false, Bool.false_eq_true,
    if_false, if_true]

end

/-! ### REP -/

/-- The common checks ask nothing of a REP, which names no register and judges its own guard (R112). -/
theorem gate_rep (o : Rep) (s : State) {c : Ctx} (hp : isPath c.ref.sel = false) :
    gate s c (.rep 0x1cc o) = none := by
  cases ha : c.f.acquire <;>
    simp [gate, windowWaits, hp, ha, staticCheck, Layout.opnds, suspendedOn, layoutUnit, Layout.isMatrix, Layout.isEngine,
      Layout.isRep, Layout.awaitsWalk, Layout.sendsRequests, Layout.isAccess, Layout.op]

/-- A REP whose guard is not AL names what is wrong with the instruction it repeats, and else its guard (R107, R112). -/
theorem repEff_of_guard {o : Rep} {s u : State} {c : Ctx} {m : LaneMask} {hs : List Half} {j : Instr} (hrep : c.w.rep = none)
    (hf : s.fetch c.l c.b.core (c.f.pc + 8) = (u, .halves hs)) (hd : decodeHalves hs = .ok j)
    (hj : staticCheck c.l.desc j.layout (j.layout.opnds 1) ≠ some 2) :
    repEff false o.f 8 c m s = .trap (c.trap 1 ((repMisuse c.l.desc o.f j j.len (halvesWord hs)).getD 6)) u := by
  have hf' : s.fetch c.l c.b.core (c.f.pc + BitVec.ofNat 64 8) = (u, .halves hs) := hf
  simp only [repEff, hrep, Bool.not_true, Bool.false_eq_true, if_false, hf', hd, beq_eq_false_iff_ne.mpr hj, Bool.not_false,
    if_true]
  cases repMisuse c.l.desc o.f j j.len (halvesWord hs) <;> rfl

/-- A REP comes to its own effect at once. -/
theorem exec_rep (o : Rep) {s : State} {c : Ctx} (hcur : s.cur = some c.ref) (hctx : s.ctx? c.ref = some c)
    (hp : isPath c.ref.sel = false) :
    exec (.rep o) s = .next (finish c (.rep o) (repEff (o.h.guard == .al) o.f 8 c (c.w.execMask c.f.mask (some o.h)) s)) := by
  have hg : gate s c (Instr.rep o).layout = none := gate_rep o s hp
  show issue (.rep o) (repEff (o.h.guard == .al) o.f 8) s = _
  simp only [issue, hcur, Option.bind_some, hctx, hg]
  rfl

/-! ### The checks come before the effects -/

/-- The statement's first half holds: each check stops the instruction, in R336's order. -/
theorem checksComeBeforeEffects : ChecksComeBeforeEffects := by
  intro i s c hi hcur hctx hp ops named guarded unset full free
  have static : named → guarded → staticCheck c.l.desc i.layout ops = none := staticCheck_of_guarded
  have quiet : free → suspendedOn c.b c.ref.warp c.w i.layout ops = none := fun h => suspendedOn_eq_none h _ _ _
  have source : full → ops.find? (emptySource c) = none :=
    fun h => find?_emptySource fun o ho hs _ => h o ho (.inl hs)
  have operands : full → ops.filter (emptyOperand c) = [] :=
    filter_emptyOperands.mpr
  refine ⟨fun h => ?named, fun hn h => ?guarded, ?rep, fun o hn hg h => ?emptySource, fun hn hg hu h hf hc => ?emptyOperands,
    fun hn hg h hf he hm => ?partOfWarp, fun n hn hg h hf hw ha ht hr hq hl => ?acquire, fun hn hg h hf hw ha ht => ?walk,
    fun hn hg h hf hw ht ha hr => ?noRoom⟩
  case named => exact exec_of_gate_trap hi hcur hctx hp (by decide) (gate_of_static hp (staticCheck_of_not_named h))
  case guarded => exact exec_of_gate_trap hi hcur hctx hp (by decide) (gate_of_static hp (staticCheck_of_not_guarded hn h))
  case rep =>
    rintro o hs j u rfl - hne hrep hf hd hj
    rw [exec_rep o hcur hctx hp, beq_eq_false_iff_ne.mpr hne, repEff_of_guard hrep hf hd hj, finish_trap hp (by decide)]
  case emptySource => exact exec_of_gate_trap hi hcur hctx hp (by decide) (gate_of_emptySource hp (static hn hg) h)
  case emptyOperands =>
    cases hops : ops.filter (emptyOperand c) with
    | nil => exact absurd (filter_emptyOperands.mp hops) h
    | cons o r =>
      refine ⟨_, _, ?_, exists_empty_of_filter hops, exec_of_gate hi hcur hctx
        (gate_of_emptyOperands hp (static hn hg) (find?_emptySource hu) (quiet hf) hops) fun hk => ?_⟩
      · split
        · exact .inr rfl
        · exact .inl rfl
      · rw [hc] at hk
        cases hk
  case partOfWarp =>
    exact exec_of_gate_trap hi hcur hctx hp (by decide)
      (gate_of_partOfWarp hp (static hn hg) (source h) (quiet hf) (operands h) he hm)
  case acquire =>
    exact exec_of_gate hi hcur hctx (gate_of_acquire hp (static hn hg) (source h) (quiet hf) (operands h) hw
      (fun x => decide_eq_true (ht x)) (fun x => decide_eq_true (hr x)) ha hq hl) fun _ _ _ => nofun
  case walk =>
    exact exec_of_gate hi hcur hctx (gate_of_walk hp (static hn hg) (source h) (quiet hf) (operands h) hw
      ha (decide_eq_false (Nat.not_le.mpr ht))) fun _ _ _ => nofun
  case noRoom =>
    exact exec_of_gate hi hcur hctx (gate_of_noRoom hp (static hn hg) (source h) (quiet hf) (operands h) hw
      (fun _ => decide_eq_true ht) ha (decide_eq_false (Nat.not_le.mpr hr))) fun _ _ _ => nofun

end Sys2Proof.Machine
end

section
/-! A fragment at halfwords that are no instruction (R86, R112): it takes its trap only once no load of its warp waits to be
issued again (R316), which the statement does not ask for. -/

namespace Sys2Proof.Machine

/-- A fragment whose warp has a load to issue again has nothing to do on its turn (R316). -/
theorem pickStep_of_reissueDue (run : Instr → State → Host.Outcome State Fault Refusal) {s : State} {r : FragRef} {c : Ctx}
    (hc : ({ s with cur := some r } : State).ctx? r = some c) (hd : c.reissueDue = true) :
    pickStep run r s = .next { s with cur := some r } := by
  simp only [pickStep, hc, hd, Bool.or_true, if_true]

theorem State.haltOf_errorRecord (s : State) (lid asid cause : Nat) (xpc xaddr : DWord) (xmask xinfo : Word)
    (core slot die : Nat) (ord : Word) (a : Nat) :
    (s.errorRecord lid asid cause xpc xaddr xmask xinfo core slot die ord).haltOf a = s.haltOf a := by
  unfold State.errorRecord
  split
  · simp only [State.haltOf, State.raise_dev]
  · rfl

theorem State.haltOf_abortKernel (s : State) (lid a : Nat) : (s.abortKernel lid).haltOf a = s.haltOf a := by
  unfold State.abortKernel State.preqCheck
  extract_lets
  split <;> rfl

/-- A trap leaves the debugger's halt as it was. -/
theorem State.haltOf_takeTrap (s : State) (c : Ctx) (t : TrapInfo) (a : Nat) : (s.takeTrap c t).haltOf a = s.haltOf a := by
  unfold State.takeTrap
  split
  · rfl
  · split
    · rw [State.haltOf_abortKernel, State.haltOf_errorRecord]
    · extract_lets w
      obtain ⟨x, hx⟩ := State.packet_eq s c.b.core c.l.asid none
        (syncPacket w.warpSlot (idxOf c.ref.sel).val ((w.frag? c.ref.sel).getD c.f).pc s.time
          ((w.frag? c.ref.sel).getD c.f).mask)
      rw [State.syncFrag, hx]
      rfl

/-- What the statement's second half is meant to say: with no load to issue again, a fragment that is not halted takes the trap of
R112 at its own address, and nothing else. -/
theorem pickStep_of_bad (run : Instr → State → Host.Outcome State Fault Refusal) {s s' : State} {r : FragRef} {c : Ctx}
    {e : DecErr} (hc : ({ s with cur := some r } : State).ctx? r = some c) (hp : isPath r.sel = false)
    (hi : ({ s with cur := some r } : State).issues c = true) (hd : c.reissueDue = false) (hh : c.f.halted = false)
    (ht : ({ s with cur := some r } : State).todo c = (s', .bad e)) (hn : s'.haltOf c.l.asid = false) :
    pickStep run r s = .next (s'.takeTrap c ⟨(decCause e).1, 0, c.f.mask, (decCause e).2, c.f.pc⟩) := by
  obtain ⟨hr, -⟩ := State.ctx?_eq hc
  rw [← hr] at hp
  unfold pickStep
  generalize ({ s with cur := some r } : State) = s1 at *
  have hm : s1.moveOn c = (s1, c) := if_neg (by simp [hh])
  have ha (t : TrapInfo) : (s'.takeTrap c t).afterTurn c = s'.takeTrap c t := by
    rw [State.afterTurn, State.haltOf_takeTrap, hn, if_neg Bool.false_ne_true]
  simp only [hc, hi, hd, hm, ht, State.trapOr, hp, ha, Bool.not_true, Bool.or_false, Bool.false_eq_true, if_false]
  rw [hm]
  rfl

/-! ### The counterexample -/

/-- The fragment that is picked. -/
def owingFrag : FragRef := ⟨1, 0, .entry 0⟩

/-- A load of its lane 0 to v3 that a save has cancelled. -/
def cancelledLoad : Req :=
  { id := 1, grp := 1, kind := .read, block := 1, warp := 0, sel := .entry 0, lane := 0, core := 0, quad := 0, die := 0
    asid := 0, va := 0x10100, pa := 0x10100, attr := {}, bytes := 4, dst := some 3, fmask := 1 }

/-- A restored block whose warp stands at a halfword 0x0000, in a kernel without a handler: v3 is empty, and the load to it is still
to be issued again. -/
def owingState : State :=
  ({ State.reset.withFetchWord 64 0 with picks := [] }.modWarp 1 0 fun w => w.mark false (.v, 3)).modBlock 1 fun b =>
    { b with reissue := [cancelledLoad] }

/-- The trap of a halfword 0x0000 (R112). -/
def zeroHalfTrap (c : Ctx) : TrapInfo := ⟨(decCause .zeroHalf).1, 0, c.f.mask, (decCause .zeroHalf).2, c.f.pc⟩

/-- What a fragment is about to do is to take the trap of a halfword 0x0000. -/
def Todo.isZeroHalf : Todo → Bool
  | .bad .zeroHalf => true
  | _ => false

theorem Todo.eq_of_isZeroHalf {x : Todo} (h : x.isZeroHalf = true) : x = .bad .zeroHalf := by
  unfold Todo.isZeroHalf at h
  split at h
  · rfl
  · cases h

/-- The fragment issues and stands at a halfword 0x0000 while a load is owed, and the trap there would change the state of a
launch. -/
def owesLoadAtZeroHalf (s : State) (c : Ctx) : Bool :=
  s.issues c && c.reissueDue && (s.todo c).2.isZeroHalf && !(s.todo c).1.haltOf c.l.asid &&
    (((s.todo c).1.takeTrap c (zeroHalfTrap c)).launches.map (·.st) != s.launches.map (·.st))

theorem owingFrag_owesLoad : (({ owingState with cur := some owingFrag } : State).ctx? owingFrag).any
    (owesLoadAtZeroHalf { owingState with cur := some owingFrag }) = true := by decide +kernel

/-- Refutes O18: its second half leaves out that the warp has no load to issue again. Of a restored block's warp that has one,
the fragment at a halfword 0x0000 does nothing on its turn (R316 step 4), where the statement has it trap and abort the kernel. -/
theorem not_whatStopsAnInstruction : ¬ Obligations.WhatStopsAnInstruction := by
  unfold Obligations.WhatStopsAnInstruction
  rintro ⟨-, hwords⟩
  obtain ⟨c, hc, howes⟩ := (Option.any_eq_true ..).mp owingFrag_owesLoad
  simp only [owesLoadAtZeroHalf, Bool.and_eq_true, Bool.not_eq_true', bne_iff_ne] at howes
  obtain ⟨⟨⟨⟨hi, hd⟩, ht⟩, hn⟩, hne⟩ := howes
  have htrap := (hwords exec owingState owingFrag c _ .zeroHalf hc rfl hi
    (Prod.ext rfl (Todo.eq_of_isZeroHalf ht)) hn).1
  rw [pickStep_of_reissueDue exec hc hd] at htrap
  exact hne (congrArg (fun t : State => t.launches.map (·.st)) (Host.Outcome.next.inj htrap)).symm

end Sys2Proof.Machine
end

section
/-! What an instruction that executes normally comes to (R86, R112): its end in terms of what its own effect did to the issuing
warp, and the frames of the statements from it. -/

namespace Sys2Proof.Machine

/-! ### The issuing warp -/

theorem isPath_entry {r : FragSel} (h : isPath r = false) : ∃ i, r = .entry i := by
  cases r with
  | entry i => exact ⟨i, rfl⟩
  | path i t => cases h

theorem Issues.warp {i : Instr} {s : State} {c : Ctx} (h : Issues i s c) : s.warp? c.ref.block c.ref.warp = some c.w :=
  (State.ctx?_eq h.ctx).2.2.1

theorem Issues.frag {i : Instr} {s : State} {c : Ctx} (h : Issues i s c) : c.w.frag? c.ref.sel = some c.f :=
  (State.ctx?_eq h.ctx).2.2.2.1

/-- Where the guard must be AL, an instruction executes in every lane of the fragment (R60). -/
theorem Issues.lanes_eq {i : Instr} {s : State} {c : Ctx} (h : Issues i s c) (hal : i.layout.needsAl = true) :
    c.lanes i = c.f.mask := by
  unfold Ctx.lanes Warp.execMask
  split
  · rfl
  · rename_i x hx
    rw [h.guard hal x hx]
    rfl

/-- The warp that `Noted` tells of, as the issuing context's state has it. -/
theorem Noted.warp_eq {c : Ctx} {g : Warp → Warp} {s t : State} (h : Noted c g s t) {w : Warp}
    (hw : s.warp? c.ref.block c.ref.warp = some w) : t.warp? c.ref.block c.ref.warp = some (g w) := by
  rw [h.warp, hw]
  rfl

theorem Noted.warpOf_eq {c : Ctx} {g : Warp → Warp} {s t : State} (h : Noted c g s t) {w : Warp}
    (hw : s.warp? c.ref.block c.ref.warp = some w) : t.warpOf c = g w := by
  rw [State.warpOf, h.warp_eq hw]
  rfl

theorem State.warpOf_eq {s : State} {c : Ctx} {w : Warp} (h : s.warp? c.ref.block c.ref.warp = some w) : s.warpOf c = w := by
  rw [State.warpOf, h]
  rfl

/-- What lies outside the issuing warp is as it was. -/
theorem Noted.frame {i : Instr} {c : Ctx} {g : Warp → Warp} {s t : State} (h : Noted c g s t) (hi : Issues i s c) :
    SameOutside s t ∧ SameOtherWarps c s t ∧ SameBlock c t := by
  obtain ⟨f, hf⟩ := h.block
  rw [(State.ctx?_eq hi.ctx).2.1] at hf
  exact ⟨h.outside, h.others, _, hf, rfl⟩

/-- Packets are no matter of the warps. -/
theorem Noted.packet (s : State) (c : Ctx) (k a : Nat) (h : Option (BitVec 8)) (bs : List Byte) : Noted c id s (s.packet k a h bs) := by
  obtain ⟨x, hx⟩ := State.packet_eq s k a h bs
  rw [hx]
  exact Noted.cores s c x

/-- A BRM packet comes behind the first SYNC of its warp (R362). -/
theorem brm_noted (s : State) (c : Ctx) (t : LaneMask) :
    ∃ st : Warp → Bool, Noted c (fun w => { w with started := st w }) s (s.brm c t) := by
  obtain ⟨st, h⟩ := firstSync_noted s c
  exact ⟨st, h.trans (Noted.packet _ c _ _ _ _)⟩

/-- Steps each of which is no matter of the warps. -/
theorem Noted.foldl {α : Type} {c : Ctx} {f : State → α → State} (hf : ∀ s x, Noted c id s (f s x)) (l : List α) (s : State) :
    Noted c id s (l.foldl f s) := by
  induction l generalizing s with
  | nil => exact Noted.cores s c s.cores
  | cons x r ih => exact (hf s x).trans (ih _)

/-- After `land`, the issuing warp is the one given (R362). -/
theorem land_noted (s : State) (c : Ctx) (w : Warp) (l : List (Fin 32)) :
    Noted c (fun _ => { w with started := true }) s (s.land c w l) := by
  obtain ⟨st, h⟩ := firstSync_noted s c
  refine (h.trans (Noted.foldl (fun s i => ?_) l _)).trans (Noted.modW _ c fun _ => { w with started := true })
  cases w.split[i] with
  | none => exact Noted.cores s c s.cores
  | some f => exact Noted.packet s c _ _ _ _

/-! ### How an issue ends -/

/-- The issuing warp of an instruction that has set its fragment's PC itself is as its effect left it, but for its marks. -/
theorem went_completes {i : Instr} {s s1 : State} {c : Ctx} {body : Ctx → LaneMask → State → Eff} (h : Issues i s c)
    (hb : body c (c.lanes i) s = .went s1) {w : Warp} (hw : s1.warp? c.ref.block c.ref.warp = some w) :
    ∃ t a o, issue i body s = .next t ∧ t.warp? c.ref.block c.ref.warp = some { w with started := a, ordinal := o } ∧
      SameOutside s1 t ∧ SameOtherWarps c s1 t := by
  obtain ⟨st, od, hn⟩ := noteIssue_noted s1 c i.layout
  exact ⟨_, st w, od w, by rw [issue_of_issues body h, hb]; rfl, hn.warp_eq hw, hn.outside, hn.others⟩

/-- The same of an effect that changes the issuing warp alone, with the frame. -/
theorem went_completes_noted {i : Instr} {s s1 : State} {c : Ctx} {body : Ctx → LaneMask → State → Eff} {g : Warp → Warp}
    (h : Issues i s c) (hb : body c (c.lanes i) s = .went s1) (hg : Noted c g s s1) :
    ∃ t a o, issue i body s = .next t ∧ t.warp? c.ref.block c.ref.warp = some { g c.w with started := a, ordinal := o } ∧
      SameOutside s t ∧ SameOtherWarps c s t ∧ SameBlock c t := by
  obtain ⟨st, od, hn⟩ := noteIssue_noted s1 c i.layout
  have hk := hg.trans hn
  exact ⟨_, st (g c.w), od (g c.w), by rw [issue_of_issues body h, hb]; rfl, hk.warp_eq h.warp, hk.frame h⟩

/-- The issuing warp of an instruction that retires: its effect on the warp, its marks, and its fragment's PC. -/
def retiredWarp (i : Instr) (c : Ctx) (w : Warp) (a : Bool) (o : Word) : Warp :=
  ({ w with started := a, ordinal := o } : Warp).modFrag (fun f => f.retire i.len) c.ref.sel

/-- An instruction that retires, having changed the issuing warp alone. -/
theorem ok_completes {i : Instr} {s s1 : State} {c : Ctx} {body : Ctx → LaneMask → State → Eff} {g : Warp → Warp}
    (h : Issues i s c) (hb : body c (c.lanes i) s = .ok s1) (hg : Noted c g s s1) :
    ∃ t a o, issue i body s = .next t ∧ t.warp? c.ref.block c.ref.warp = some (retiredWarp i c (g c.w) a o) ∧
      SameOutside s t ∧ SameOtherWarps c s t ∧ SameBlock c t := by
  obtain ⟨st, od, hn⟩ := finish_ok i s1 h.here
  have hk := hg.trans hn
  exact ⟨_, st (g c.w), od (g c.w), by rw [issue_of_issues body h, hb], hk.warp_eq h.warp, hk.frame h⟩

/-- The issuing fragment, once retired. -/
theorem retiredWarp_frag {i : Instr} {s : State} {c : Ctx} (h : Issues i s c) {w : Warp} {f : Frag}
    (hf : w.frag? c.ref.sel = some f) (a : Bool) (o : Word) :
    (retiredWarp i c w a o).frag? c.ref.sel = some (f.retire i.len) := by
  obtain ⟨k, hk⟩ := isPath_entry h.here
  rw [hk] at hf
  rw [retiredWarp, hk, Warp.frag?_modFrag]
  exact congrArg _ hf

/-- The other fragments of the warp, once an instruction has retired. -/
theorem retiredWarp_frag_ne {i : Instr} {s : State} {c : Ctx} (h : Issues i s c) (w : Warp) (a : Bool) (o : Word)
    {r : FragSel} (hr : r ≠ c.ref.sel) : (retiredWarp i c w a o).frag? r = w.frag? r := by
  obtain ⟨k, hk⟩ := isPath_entry h.here
  rw [hk] at hr
  rw [retiredWarp, hk, Warp.frag?_modFrag_ne _ _ hr]
  rfl

/-- Every other field of the warp is as the effect left it. -/
theorem retiredWarp_fields {i : Instr} {s : State} {c : Ctx} (h : Issues i s c) (w : Warp) (a : Bool) (o : Word) :
    ∃ sp, retiredWarp i c w a o = { w with split := sp, started := a, ordinal := o } := by
  obtain ⟨k, hk⟩ := isPath_entry h.here
  rw [retiredWarp, hk]
  exact ⟨_, rfl⟩

/-- An instruction that retires with its fragments where they were has retired as the statements say. -/
theorem ok_retires {i : Instr} {s s1 : State} {c : Ctx} {body : Ctx → LaneMask → State → Eff} {g : Warp → Warp}
    (h : Issues i s c) (hb : body c (c.lanes i) s = .ok s1) (hg : Noted c g s s1) (hsplit : (g c.w).split = c.w.split)
    (hspecs : (g c.w).specs = c.w.specs) (hresv : (g c.w).resv = c.w.resv) :
    ∃ t w sp a o, issue i body s = .next t ∧ t.warp? c.ref.block c.ref.warp = some w ∧ Retired i s c t w ∧
      w = { g c.w with split := sp, started := a, ordinal := o } := by
  obtain ⟨t, a, o, he, ht, hout⟩ := ok_completes h hb hg
  have hsame (r : FragSel) : (g c.w).frag? r = c.w.frag? r := by
    cases r <;> simp only [Warp.frag?, hsplit, hspecs]
  obtain ⟨sp, hsp⟩ := retiredWarp_fields h (g c.w) a o
  refine ⟨t, _, sp, a, o, he, ht, ⟨⟨_, retiredWarp_frag h ((hsame _).trans h.frag) a o, ⟨rfl, rfl, rfl, rfl, rfl, rfl, rfl⟩⟩,
    fun r hr => (retiredWarp_frag_ne h _ a o hr).trans (hsame r), hout.1, hout.2.1, hout.2.2, ?_⟩, hsp⟩
  rw [hsp]
  exact hresv

/-- An instruction that retires with a lane instruction's effect on its warp keeps the lane frame. -/
theorem ok_laneFrame {i : Instr} {s s1 : State} {c : Ctx} {body : Ctx → LaneMask → State → Eff} {g : Warp → Warp}
    (h : Issues i s c) (hb : body c (c.lanes i) s = .ok s1) (hg : Noted c g s s1) (hk : LaneKeeps i c (g c.w)) :
    ∃ t w, issue i body s = .next t ∧ t.warp? c.ref.block c.ref.warp = some w ∧ LaneFrame i s c t w ∧
      w.v = (g c.w).v ∧ w.s = (g c.w).s ∧ w.cc0 = (g c.w).cc0 ∧ w.cc1 = (g c.w).cc1 := by
  obtain ⟨t, w, sp, a, o, he, ht, hr, rfl⟩ := ok_retires h hb hg hk.split hk.specs hk.resv
  exact ⟨t, _, he, ht, ⟨hr, ⟨hk.regs.v, hk.regs.s, hk.regs.h, hk.regs.cc⟩, ⟨hk.full.v, hk.full.s, hk.full.h⟩,
    ⟨hk.specials.x, hk.specials.part, hk.specials.lfsr, hk.specials.repc, hk.specials.tick, hk.specials.join,
      hk.specials.exited, hk.specials.handler, hk.specials.nopre, hk.specials.hdie, hk.specials.hdev, hk.specials.hpod⟩,
    hk.amax⟩, rfl, rfl, rfl, rfl⟩

/-- An effect on nothing of the warp but its mark keeps a lane instruction's frame. -/
theorem laneKeeps_self (i : Instr) (c : Ctx) (a : Bool) : LaneKeeps i c { c.w with started := a } :=
  ⟨rfl, rfl, rfl, ⟨fun _ _ _ => rfl, fun _ _ => rfl, fun _ _ => rfl, fun _ _ _ => rfl⟩, ⟨rfl, rfl, rfl⟩,
    ⟨rfl, rfl, rfl, rfl, rfl, rfl, rfl, rfl, rfl, rfl, rfl, rfl⟩, fun _ => ⟨rfl, rfl⟩⟩

/-- A trap at the instruction's own address, with no effect before it. -/
theorem trap_completes {i : Instr} {s : State} {c : Ctx} {body : Ctx → LaneMask → State → Eff} {cause : Nat} {info : Word}
    (h : Issues i s c) (hb : body c (c.lanes i) s = .trap (c.trap cause info) s) (hk : cause ≤ 5) :
    issue i body s = .next (s.takeTrap c ⟨cause, 0, c.f.mask, info, c.f.pc⟩) := by
  rw [issue_of_issues body h, hb, finish_trap h.here hk]

end Sys2Proof.Machine
end

section
/-! Instructions in which the lanes of a warp work together (R41, R42, R147-R153). -/

namespace Sys2Proof.Machine

/-- Bits [4:0] of a word. -/
theorem fieldOf_low5 (w : Word) : fieldOf w 0 5 = w.toNat % 32 := by
  simp [fieldOf]

/-- An instruction whose effect, of the lanes that execute, is one `put` gives the word. -/
theorem givesCoop_of {i : Instr} {d : Nat} {c set : Bool} {f : LaneMask → Warp → Lane → Word × CC} (g : LaneMask → Warp → Warp)
    (hx : ∀ s, exec i s = issue i (lane g) s) (hg : ∀ m w, g m w = w.put m d c set (f m w)) (hd : d < 128)
    (hw : (RegClass.v, d) ∈ writesRegs i) (hc : i.layout.ccOut = if c then some set else none) : GivesCoop i d f := by
  intro s x h
  have keeps : LaneKeeps i x (x.w.put (x.lanes i) d c set (f (x.lanes i) x.w)) := by
    refine laneKeeps_of (Warp.put_fields _ _ _ _ _ _) (fun n l hn => ?_) (fun k l hk => ?_)
    · rw [Warp.vl_put, if_neg]
      rintro ⟨rfl, -, hl⟩
      exact hn.elim (· hw) fun hn => by rw [hn] at hl; cases hl
    · rw [Warp.cc_put, if_neg]
      rintro ⟨rfl, rfl, hl⟩
      exact hk.elim (· hc) fun hn => by rw [hn] at hl; cases hl
  obtain ⟨t, w, he, ht, hf, hv, -, h0, h1⟩ := ok_laneFrame h (body := lane g) rfl (Noted.modW s x _) (by rwa [hg])
  refine ⟨t, w, (hx s).trans he, ht, hf, fun l hl => ⟨?_, fun k hk => ?_⟩⟩
  · rw [vl_of_v hv, hg, Warp.vl_put, if_pos ⟨rfl, hd, hl⟩]
  · rw [cc_of_cc h0 h1, hg, Warp.cc_put, if_pos]
    rw [hc] at hk
    cases c
    · cases hk
    · exact ⟨rfl, Option.some.inj hk, hl⟩

/-- A destination's registers are those the instruction writes. -/
theorem mem_writesRegs {i : Instr} {p : Opnd} (hp : p ∈ i.layout.opnds 1) (hd : p.dst = true) {k : Nat} (hk : k < p.cnt) :
    (p.cls, p.n + k) ∈ writesRegs i :=
  List.mem_flatMap.mpr ⟨p, List.mem_filter.mpr ⟨hp, hd⟩, List.mem_map.mpr ⟨k, List.mem_range.mpr hk, rfl⟩⟩

/-! ### RDL -/

/-- The s registers RDL writes: one or a pair (R147). -/
def rdlCount (o : Xr) : Nat := if o.ty.is64 then 2 else 1

theorem rdl_dest (o : Xr) (dims : Nat) : sD o.d (rdlCount o) ∈ (Instr.rdl o).layout.opnds dims := by
  show _ ∈ (Layout.xr 0x143 o).opnds dims
  simp only [Layout.opnds, rdlCount, xrCounts]
  cases o.ty.is64 <;> exact List.mem_cons_self

theorem Warp.sr_setSP (w : Warp) (n k : Nat) (x : DWord) :
    (w.setSP n x).sr k = if n + 1 = k ∧ n + 1 < 64 then hiOf x else if n = k ∧ n ≠ 0 ∧ n < 64 then loOf x else w.sr k := by
  rw [Warp.setSP, Warp.sr_setS, Warp.sr_setS]
  simp

/-- A pair of s registers that was written; s0 reads zero (R50). -/
theorem Warp.sp_setSP (w : Warp) {n : Nat} (x : DWord) (h : n + 1 < 64) :
    (w.setSP n x).sp n = hiOf x ++ (if n = 0 then (0 : Word) else loOf x) := by
  have lo : (w.setSP n x).sr n = if n = 0 then (0 : Word) else loOf x := by
    rw [Warp.sr_setSP, if_neg (by omega)]
    by_cases hn : n = 0
    · subst hn
      rfl
    · rw [if_pos ⟨rfl, hn, by omega⟩, if_neg hn]
  have hi : (w.setSP n x).sr (n + 1) = hiOf x := by rw [Warp.sr_setSP, if_pos ⟨rfl, h⟩]
  rw [Warp.sp, pairOf, lo, hi]

/-- RDL's effect on its warp: the lane's word or pair, or zero where the fragment does not hold the lane (R147). -/
def rdlWarp (o : Xr) (c : Ctx) (l : Lane) (w : Warp) : Warp :=
  let own := c.f.mask.getLsbD l.val
  if o.ty.is64 then w.setSP o.d.toNat (if own then w.vp o.a.toNat l else 0) else w.setS o.d.toNat (if own then w.vl o.a.toNat l else 0)

/-- The lane RDL names (R147). -/
def rdlLane (o : Xr) (c : Ctx) : Lane :=
  match o.src with
  | .imm i => Fin.ofNat 32 i.toNat
  | .regs b _ => Fin.ofNat 32 (fieldOf (c.w.sr b.toNat) 0 5)

theorem rdlWarp_fields (o : Xr) (c : Ctx) (l : Lane) (w : Warp) : ∃ x, rdlWarp o c l w = { w with s := x } := by
  have setS (w : Warp) (n : Nat) (y : Word) : ∃ x, w.setS n y = { w with s := x } := by
    unfold Warp.setS
    split
    · exact ⟨w.s, rfl⟩
    · exact ⟨_, rfl⟩
  unfold rdlWarp
  split
  · obtain ⟨x, hx⟩ := setS w o.d.toNat (loOf (if c.f.mask.getLsbD l.val then w.vp o.a.toNat l else 0))
    rw [Warp.setSP, hx]
    exact setS ..
  · exact setS ..

theorem rdlWarp_sr_other (o : Xr) (c : Ctx) (l : Lane) (w : Warp) {n : Nat} (hn : (RegClass.s, n) ∉ writesRegs (.rdl o)) :
    (rdlWarp o c l w).sr n = w.sr n := by
  have dest {k : Nat} (hk : k < rdlCount o) : n ≠ o.d.toNat + k := fun h =>
    hn (h ▸ mem_writesRegs (rdl_dest o 1) rfl hk)
  unfold rdlWarp rdlCount at *
  cases h : o.ty.is64
  all_goals simp only [h, if_true, if_false, Bool.false_eq_true] at dest ⊢
  · have h0 := dest (k := 0) (by decide)
    rw [Warp.sr_setS, if_neg (by omega)]
  · have h0 := dest (k := 0) (by decide)
    have h1 := dest (k := 1) (by decide)
    rw [Warp.sr_setSP, if_neg (by omega), if_neg (by omega)]

theorem rdlWarp_keeps (o : Xr) (c : Ctx) (l : Lane) : LaneKeeps (.rdl o) c (rdlWarp o c l c.w) := by
  obtain ⟨x, hx⟩ := rdlWarp_fields o c l c.w
  have hs := fun n => rdlWarp_sr_other o c l c.w (n := n)
  rw [hx] at hs ⊢
  exact ⟨rfl, rfl, rfl, ⟨fun _ _ _ => rfl, hs, fun _ _ => rfl, fun _ _ _ => rfl⟩, ⟨rfl, rfl, rfl⟩,
    ⟨rfl, rfl, rfl, rfl, rfl, rfl, rfl, rfl, rfl, rfl, rfl, rfl⟩, fun _ => ⟨rfl, rfl⟩⟩

theorem sr_of_s {w w' : Warp} (h : w.s = w'.s) (n : Nat) : w.sr n = w'.sr n := by simp [Warp.sr, h]

/-- RDL reads one lane of the fragment into an s register or pair, with zero for a lane that it does not hold. -/
theorem rdl_reads (o : Xr) : Completes (.rdl o) fun s c t w => LaneFrame (.rdl o) s c t w ∧
    (o.ty.is64 = false → w.sr o.d.toNat =
      if o.d.toNat = 0 then 0 else if c.f.mask.getLsbD (rdlLane o c).val then c.w.vl o.a.toNat (rdlLane o c) else 0) ∧
    (o.ty.is64 = true → w.sp o.d.toNat =
      (if c.f.mask.getLsbD (rdlLane o c).val then hiOf (c.w.vp o.a.toNat (rdlLane o c)) else 0) ++
      (if o.d.toNat = 0 then (0 : Word)
        else if c.f.mask.getLsbD (rdlLane o c).val then loOf (c.w.vp o.a.toNat (rdlLane o c)) else 0)) := by
  intro s c h
  obtain ⟨t, w, he, ht, hf, -, hs, -, -⟩ := ok_laneFrame h (body := rdlEff o) rfl (Noted.modW s c (rdlWarp o c (rdlLane o c)))
    (rdlWarp_keeps o c _)
  have legal := h.legal _ (rdl_dest o _)
  refine ⟨t, w, he, ht, hf, fun hty => ?_, fun hty => ?_⟩
  · simp only [sD, Opnd.legal, rdlCount, hty, Bool.false_eq_true, if_false, Bool.and_eq_true, decide_eq_true_eq] at legal
    rw [sr_of_s hs, rdlWarp, hty, if_neg Bool.false_ne_true, Warp.sr_setS]
    by_cases hd : o.d.toNat = 0
    · rw [if_neg (by omega), if_pos hd, hd]
      rfl
    · rw [if_pos ⟨rfl, hd, by omega⟩, if_neg hd]
  · simp only [sD, Opnd.legal, rdlCount, hty, if_true, Bool.and_eq_true, decide_eq_true_eq] at legal
    have hsp : w.sp o.d.toNat = (rdlWarp o c (rdlLane o c) c.w).sp o.d.toNat := by rw [Warp.sp, Warp.sp, sr_of_s hs, sr_of_s hs]
    rw [hsp, rdlWarp, hty, if_pos rfl, Warp.sp_setSP _ _ (by omega)]
    split <;> rfl

/-! ### PART -/

/-- PART in a fragment that holds every lane not exited sets the tile size (R42, R153). -/
theorem part_sets (o : PartOp) : CompletesIf (.part o) (fun _ c => c.f.mask = ~~~c.w.exited) fun s c t w =>
    Retired (.part o) s c t w ∧ SameRegs (.part o) c w ∧ SameFull c.w w ∧ SameSpecials { c.w with part := w.part } w ∧
      w.part = o.p.toNat := by
  intro s c h hp
  obtain ⟨t, w, sp, a, od, he, ht, hr, rfl⟩ := ok_retires h (body := partEff o)
    (if_pos (beq_iff_eq.mpr hp)) (Noted.modW s c fun w => { w with part := o.p.toNat }) rfl rfl rfl
  exact ⟨t, _, he, ht, hr, ⟨fun _ _ _ => rfl, fun _ _ => rfl, fun _ _ => rfl, fun _ _ _ => rfl⟩, ⟨rfl, rfl, rfl⟩,
    ⟨rfl, rfl, rfl, rfl, rfl, rfl, rfl, rfl, rfl, rfl, rfl, rfl⟩, rfl⟩

theorem part_traps (o : PartOp) : TrapsWhere (.part o) (fun _ c => c.f.mask ≠ ~~~c.w.exited) 4 0 := fun s c h hp =>
  trap_completes h (body := partEff o) (if_neg fun hq => hp (beq_iff_eq.mp hq)) (by decide)

/-! ### SHFL, VOTE and TRED -/

theorem shfl_gives (o : Shfl) : GivesCoop (.shfl o) o.d.toNat fun m w l =>
    let b := if o.ib then o.b.toNat % 32 else (w.vl o.b.toNat l).toNat % 32
    let mem : LaneMask := if o.ms then w.sr o.c.toNat else 0xFFFF_FFFF
    let r : Word × Bool := match shflSource o.mode (2 ^ w.part) l b with
      | none => (w.vl o.a.toNat l, false)
      | some k => if mem.getLsbD l.val = false then (w.vl o.a.toNat l, false)
        else if m.getLsbD k.val && mem.getLsbD k.val then (w.vl o.a.toNat k, true) else (0, false)
    (r.1, { ccInt r.1 with c := r.2 }) := by
  refine givesCoop_of (c := o.h.c) (set := o.h.ccSet) (shflSem o) (fun _ => rfl) (fun m w => ?_) o.d.isLt
    (mem_writesRegs (p := vD o.d) List.mem_cons_self rfl (k := 0) Nat.one_pos) rfl
  simp only [shflSem, fieldOf_low5]
  congr 1
  funext l
  cases shflSource o.mode (2 ^ w.part) l (if o.ib then o.b.toNat % 32 else (w.vl o.b.toNat l).toNat % 32) with
  | none => rfl
  | some k => simp only [members, BitVec.getLsbD_and, Bool.not_eq_true']

theorem vote_gives (o : Vote) : GivesCoop (.vote o) o.d.toNat fun m w l =>
    let mem : LaneMask := if o.ms then w.sr o.c.toNat else 0xFFFF_FFFF
    resW (voteVal o.mode (((tileLanes w l).filter fun k => m.getLsbD k.val && mem.getLsbD k.val).map
      fun k => (k, w.vl o.a.toNat k))) := by
  refine givesCoop_of (c := o.h.c) (set := o.h.ccSet) (voteSem o) (fun _ => rfl) (fun m w => ?_) o.d.isLt
    (mem_writesRegs (p := vD o.d) List.mem_cons_self rfl (k := 0) Nat.one_pos) rfl
  simp only [voteSem, members, BitVec.getLsbD_and]

theorem tred_gives (o : Tred) : GivesCoop (.tred o) o.d.toNat fun m w l =>
    let mem : LaneMask := if o.ms then w.sr o.c.toNat else 0xFFFF_FFFF
    let xs := (tileLanes w l).map fun k =>
      if m.getLsbD k.val && mem.getLsbD k.val then (w.vl o.a.toNat k).toNat else (tredOp o.op o.ty).2
    let r : Word := BitVec.ofNat 32 ((kogge (tredOp o.op o.ty).1 6 1 xs).getLastD (tredOp o.op o.ty).2)
    (r, if o.ty = .f32 then ccF32 r else ccInt r) := by
  refine givesCoop_of (c := o.h.c) (set := o.h.ccSet) (tredSem o) (fun _ => rfl) (fun m w => ?_) o.d.isLt
    (mem_writesRegs (p := vD o.d) List.mem_cons_self rfl (k := 0) Nat.one_pos) rfl
  simp only [tredSem, members, BitVec.getLsbD_and, beq_iff_eq]
  congr 1
  funext l
  split <;> rfl

/-- Settles O10: each instruction's own lemma, with RDL's lane read off its source. -/
theorem warpsCooperate : Obligations.WarpsCooperate := by
  refine ⟨⟨fun o s c h => ?_, shfl_gives, vote_gives, tred_gives⟩, part_sets, part_traps⟩
  obtain ⟨t, w, he, ht, hf, hw⟩ := rdl_reads o s c h
  refine ⟨t, w, he, ht, hf, ?_⟩
  intro l
  have hl : l = rdlLane o c := by
    simp only [l, rdlLane, fieldOf_low5] <;> rfl
  rwa [hl]

end Sys2Proof.Machine
end

section
/-! Control flow with one target (R29, R30, R159-R163): the whole fragment moves. -/

namespace Sys2Proof.Machine

/-! ### Standing at an address -/

/-- A fragment that was sent to an address stands there, ready. -/
theorem standsAt_settle (f : Frag) (pc : DWord) : StandsAt pc f ({ f with pc := pc } : Frag).settle :=
  ⟨rfl, rfl, rfl, rfl, rfl, rfl, rfl⟩

/-- The fragment of an entry that was written, and the others. -/
theorem Warp.frag?_set (w : Warp) (k : Fin 32) (x : Option Frag) (r : FragSel) :
    ({ w with split := w.split.set k x } : Warp).frag? r = if r = .entry k then x else w.frag? r := by
  cases r with
  | path j t => rfl
  | entry j =>
    by_cases h : j = k
    · subst h
      simp [Warp.frag?]
    · have : k.val ≠ j.val := fun h' => h (Fin.ext h'.symm)
      simp [Warp.frag?, this, h]

/-- An update of the fragment in an entry writes the entry. -/
theorem Warp.modFrag_eq_set {w : Warp} {k : Fin 32} {f : Frag} (h : w.frag? (.entry k) = some f) (g : Frag → Frag) :
    w.modFrag g (.entry k) = { w with split := w.split.set k (some (g f)) } := by
  simp only [Warp.frag?] at h
  simp only [Warp.modFrag, h, Option.map_some]

/-! ### Going to an address -/

/-- What GoesTo says of the issuing warp and of what lies outside it. -/
theorem goesTo_of_set {i : Instr} {s s1 : State} {c : Ctx} {body : Ctx → LaneMask → State → Eff} {g : Warp → Warp} {k : Fin 32}
    {f : Frag} {a : Bool} {pc : DWord} (h : Issues i s c) (hb : body c (c.lanes i) s = .went s1) (hn : Noted c g s s1)
    (hk : c.ref.sel = .entry k) (hg : g c.w = { c.w with split := c.w.split.set k (some f), started := a })
    (hf : StandsAt pc c.f f) :
    ∃ t w, issue i body s = .next t ∧ t.warp? c.ref.block c.ref.warp = some w ∧
      (∃ f, w.frag? c.ref.sel = some f ∧ StandsAt pc c.f f) ∧
      (∀ r, r ≠ c.ref.sel → w.frag? r = c.w.frag? r) ∧ SameData c.w w ∧ w.lfsr = c.w.lfsr ∧ w.join = c.w.join ∧
      w.exited = c.w.exited ∧ w.handler = c.w.handler ∧ SameOutside s t ∧ SameOtherWarps c s t ∧ SameBlock c t := by
  obtain ⟨t, a', o, he, ht, hout⟩ := went_completes_noted h hb hn
  rw [hg] at ht
  have frag (r : FragSel) : ({ c.w with split := c.w.split.set k (some f), started := a', ordinal := o } : Warp).frag? r =
      if r = .entry k then some f else c.w.frag? r := Warp.frag?_set c.w k (some f) r
  exact ⟨t, _, he, ht, ⟨f, by rw [hk]; exact (frag _).trans (if_pos rfl), hf⟩,
    fun r hr => (frag r).trans (if_neg (hk ▸ hr)), ⟨rfl, rfl, rfl, rfl, rfl, rfl, rfl, rfl, rfl, rfl, rfl, rfl, rfl, rfl, rfl⟩,
    rfl, rfl, rfl, rfl, hout⟩

/-- The warp of a fragment that is sent to an address (R86). -/
theorem goto_warp {i : Instr} {s : State} {c : Ctx} (h : Issues i s c) {k : Fin 32} (hk : c.ref.sel = .entry k) (a : Bool)
    (pc : DWord) :
    ({ c.w with started := a } : Warp).modFrag (fun f => ({ f with pc := pc } : Frag).settle) c.ref.sel =
      { c.w with split := c.w.split.set k (some ({ c.f with pc := pc } : Frag).settle), started := a } := by
  have hf : c.w.frag? c.ref.sel = some c.f := h.frag
  rw [hk] at hf ⊢
  exact Warp.modFrag_eq_set (w := { c.w with started := a }) hf _

theorem goto_noted (s : State) (c : Ctx) (pc : DWord) :
    Noted c (fun w => w.modFrag (fun f => ({ f with pc := pc } : Frag).settle) c.ref.sel) s (s.goto c pc) :=
  Noted.modW s c _

/-- An effect that only sends the fragment to an address, behind what leaves the warps alone. -/
theorem goesTo_goto {i : Instr} {s s1 : State} {c : Ctx} {body : Ctx → LaneMask → State → Eff} {st : Warp → Bool} {pc : DWord}
    (h : Issues i s c) (hn : Noted c (fun w => { w with started := st w }) s s1)
    (hb : body c (c.lanes i) s = .went (s1.goto c pc)) :
    ∃ t w, issue i body s = .next t ∧ t.warp? c.ref.block c.ref.warp = some w ∧
      (∃ f, w.frag? c.ref.sel = some f ∧ StandsAt pc c.f f) ∧
      (∀ r, r ≠ c.ref.sel → w.frag? r = c.w.frag? r) ∧ SameData c.w w ∧ w.lfsr = c.w.lfsr ∧ w.join = c.w.join ∧
      w.exited = c.w.exited ∧ w.handler = c.w.handler ∧ SameOutside s t ∧ SameOtherWarps c s t ∧ SameBlock c t := by
  obtain ⟨k, hk⟩ := isPath_entry h.here
  exact goesTo_of_set h hb (hn.trans (goto_noted s1 c pc)) hk (goto_warp h hk _ pc) (standsAt_settle c.f pc)

/-- A state is no matter of the warps to itself. -/
theorem Noted.rfl' (s : State) (c : Ctx) : Noted c (fun w => { w with started := w.started }) s s := Noted.cores s c s.cores

/-! ### BR and BRU -/

/-- A BR's note to its predictor and its BRM packet are no matter of the warps but for the first SYNC (R168, R362). -/
theorem predicted_noted (s : State) (c : Ctx) (pc : DWord) (m t : LaneMask) :
    ∃ st : Warp → Bool, Noted c (fun w => { w with started := st w }) s ((s.predUpdate c pc m t).brm c t) := by
  obtain ⟨st, h⟩ := brm_noted (s.predUpdate c pc m t) c t
  exact ⟨st, Noted.trans (f := id) (Noted.cores s c _) h⟩

/-- A warp's fragment, found by its entry. -/
theorem split_of_frag {w : Warp} {k : Fin 32} {f : Frag} (h : w.frag? (.entry k) = some f) : w.split[k] = some f := h

/-- A BR of one outcome moves its whole fragment (R30). -/
theorem resolveBr_uniform {w : Warp} {k : Fin 32} {f : Frag} {t : LaneMask} (hf : w.split[k] = some f) (target fall : DWord)
    (ja : Option DWord) (ht : t = 0 ∨ f.mask &&& ~~~t = 0) :
    w.resolveBr k t target fall ja =
      ({ w with split := w.split.set k (some { f with pc := if f.mask &&& ~~~t = 0 then target else fall }) }, [k]) := by
  have : (t == 0 || f.mask &&& ~~~t == 0) = true := by simpa using ht
  simp only [Warp.resolveBr, hf, this, if_true, beq_iff_eq]

/-- A BR's fragments, resolved (R30), with a mark of the first SYNC. -/
def resolvedBr (o : Br) (c : Ctx) (t : LaneMask) (a : Bool) : Warp × List (Fin 32) :=
  ({ c.w with started := a } : Warp).resolveBr (idxOf c.ref.sel) t (relTarget c.f.pc o.target) (c.f.pc + 8) (joinAddr c.f.pc o.join)

/-- A BR's effect is on its warp, whose fragments it resolves. -/
theorem brEff_went (o : Br) {s : State} {c : Ctx} (t : LaneMask) (hw : s.warp? c.ref.block c.ref.warp = some c.w) :
    ∃ s1 a, brEff o c t s = .went s1 ∧ Noted c (fun _ => (resolvedBr o c t a).1.settle (resolvedBr o c t a).2) s s1 := by
  obtain ⟨st, hn⟩ := predicted_noted s c c.f.pc c.f.mask t
  refine ⟨_, st c.w, ?_, hn.trans (Noted.modW _ c fun _ => (resolvedBr o c t (st c.w)).1.settle (resolvedBr o c t (st c.w)).2)⟩
  simp only [brEff, hn.warpOf_eq hw, resolvedBr]

/-- The issuing warp of a BR of one outcome. -/
theorem br_moves {o : Br} {s : State} {c : Ctx} (h : Issues (.br o) s c) {pc : DWord}
    (ht : c.lanes (.br o) = 0 ∨ c.f.mask &&& ~~~c.lanes (.br o) = 0)
    (hpc : (if c.f.mask &&& ~~~c.lanes (.br o) = 0 then relTarget c.f.pc o.target else c.f.pc + 8) = pc) :
    ∃ t w, exec (.br o) s = .next t ∧ t.warp? c.ref.block c.ref.warp = some w ∧
      (∃ f, w.frag? c.ref.sel = some f ∧ StandsAt pc c.f f) ∧
      (∀ r, r ≠ c.ref.sel → w.frag? r = c.w.frag? r) ∧ SameData c.w w ∧ w.lfsr = c.w.lfsr ∧ w.join = c.w.join ∧
      w.exited = c.w.exited ∧ w.handler = c.w.handler ∧ SameOutside s t ∧ SameOtherWarps c s t ∧ SameBlock c t := by
  obtain ⟨k, hk⟩ := isPath_entry h.here
  obtain ⟨s1, a, he, hn⟩ := brEff_went o (c.lanes (.br o)) h.warp
  have hf : c.w.frag? c.ref.sel = some c.f := h.frag
  rw [hk] at hf
  refine goesTo_of_set h he hn hk (a := a) ?_ (standsAt_settle c.f pc)
  have hr := resolveBr_uniform (w := { c.w with started := a }) (split_of_frag hf) (relTarget c.f.pc o.target) (c.f.pc + 8)
    (joinAddr c.f.pc o.join) ht
  rw [hpc] at hr
  have hidx : idxOf c.ref.sel = k := by rw [hk]; rfl
  rw [resolvedBr, hidx, hr]
  refine (Warp.modFrag_eq_set (f := { c.f with pc := pc }) ?_ Frag.settle).trans ?_
  · exact (Warp.frag?_set { c.w with started := a } k _ _).trans (if_pos rfl)
  · simp

theorem and_not_self_mask (m : LaneMask) : m &&& ~~~m = 0 := by simp

theorem br_all_taken (o : Br) : GoesTo (.br o) (fun _ c => c.lanes (.br o) = c.f.mask)
    (fun c => c.f.pc + BitVec.ofInt 64 (2 * o.target.toInt)) := by
  intro s c h ht
  have hz : c.f.mask &&& ~~~c.lanes (.br o) = 0 := by rw [ht, and_not_self_mask]
  exact br_moves h (.inr hz) (if_pos hz)

theorem br_none_taken (o : Br) : GoesTo (.br o) (fun _ c => c.lanes (.br o) = 0 ∧ c.f.mask ≠ 0) (fun c => c.f.pc + 8) := by
  rintro s c h ⟨ht, hm⟩
  refine br_moves h (.inl ht) (if_neg ?_)
  rwa [ht, show ~~~(0 : LaneMask) = BitVec.allOnes 32 from rfl, BitVec.and_allOnes]

theorem bru_all (o : Jump) : GoesTo (.bru o) (fun _ c => c.lanes (.bru o) = c.f.mask)
    (fun c => c.f.pc + BitVec.ofInt 64 (2 * o.target.toInt)) := by
  intro s c h ht
  obtain ⟨st, hn⟩ := brm_noted s c (c.lanes (.bru o))
  exact goesTo_goto h (body := bruEff o) hn (if_pos (beq_iff_eq.mpr ht))

theorem bru_none (o : Jump) : GoesTo (.bru o) (fun _ c => c.lanes (.bru o) = 0 ∧ c.f.mask ≠ 0) (fun c => c.f.pc + 8) := by
  rintro s c h ⟨ht, hm⟩
  obtain ⟨st, hn⟩ := brm_noted s c (c.lanes (.bru o))
  refine goesTo_goto h (body := bruEff o) hn ?_
  simp only [bruEff, ht, beq_iff_eq, hm.symm, if_false, if_true]

theorem bru_traps (o : Jump) :
    TrapsWhere (.bru o) (fun _ c => c.lanes (.bru o) ≠ 0 ∧ c.lanes (.bru o) ≠ c.f.mask) 4 1 := by
  rintro s c h ⟨hz, hm⟩
  refine trap_completes h (body := bruEff o) ?_ (by decide)
  simp only [bruEff, beq_iff_eq, hz, hm, if_false]

/-! ### JMP, its 32-bit form, and JMPR -/

theorem jmp_goes (o : Jump) : GoesTo (.jmp o) (fun _ _ => True) (fun c => c.f.pc + BitVec.ofInt 64 (2 * o.target.toInt)) :=
  fun s c h _ => goesTo_goto h (body := fun c _ s => .went (s.goto c (relTarget c.f.pc o.target))) (Noted.rfl' s c) rfl

theorem jmpNJ_goes (o : NJ) : GoesTo (.jmpNJ o) (fun _ _ => True) (fun c => c.f.pc + BitVec.ofInt 64 (2 * o.off.toInt)) :=
  fun s c h _ => goesTo_goto h (body := fun c _ s => .went (s.goto c (relTarget c.f.pc o.off))) (Noted.rfl' s c) rfl

theorem jmpr_goes (o : JumpReg) : GoesTo (.jmpr o) (fun _ _ => True) (fun c => c.w.sp o.a.toNat &&& ~~~1#64) := by
  intro s c h _
  obtain ⟨k, hk⟩ := isPath_entry h.here
  refine goesTo_of_set h (body := jmprEff o) rfl (land_noted s c _ _) hk (a := true) ?_ (standsAt_settle c.f _)
  rw [(goto_noted s c _).warpOf_eq h.warp]
  exact congrArg (fun w : Warp => { w with started := true }) (goto_warp h hk c.w.started _)

/-- Settles O12: one outcome, or one target, sends the whole fragment. -/
theorem uniformBranchesMoveTheFragment : Obligations.UniformBranchesMoveTheFragment :=
  ⟨fun o => ⟨br_all_taken o, br_none_taken o⟩, fun o => ⟨bru_all o, bru_none o, bru_traps o, jmp_goes o⟩, jmpNJ_goes, jmpr_goes⟩

end Sys2Proof.Machine
end

section
/-! The targets of a fragment's lanes (R30, R162, R163), in ascending order and each once. -/

namespace Sys2Proof.Machine

/-! ### Masks and lanes -/

theorem mem_lanesOf {m : LaneMask} {l : Lane} : l ∈ lanesOf m ↔ m.getLsbD l.val = true := by
  simp only [lanesOf, List.mem_filter, List.mem_finRange, true_and]

/-- The mask of one lane. -/
theorem getLsbD_lane (k l : Lane) : (1#32 <<< k.val).getLsbD l.val = decide (l = k) := by
  rw [BitVec.getLsbD_shiftLeft, BitVec.getLsbD_one]
  have hl := l.isLt
  by_cases h : l = k
  · subst h
    simp
  · have : l.val ≠ k.val := fun h' => h (Fin.ext h')
    simp only [h, decide_false]
    by_cases hlt : l.val < k.val
    · simp [hlt]
    · have : l.val - k.val ≠ 0 := by omega
      simp [this]

theorem getLsbD_foldl_lanes (p : Lane → Bool) (ls : List Lane) (m : LaneMask) (l : Lane) :
    (ls.foldl (fun m l => if p l then m ||| (1#32 <<< l.val) else m) m).getLsbD l.val =
      (m.getLsbD l.val || (decide (l ∈ ls) && p l)) := by
  induction ls generalizing m with
  | nil => simp
  | cons k r ih =>
    rw [List.foldl_cons, ih]
    by_cases hk : p k = true
    · rw [if_pos hk, BitVec.getLsbD_or, getLsbD_lane]
      by_cases h : l = k
      · subst h
        simp [hk]
      · simp [h]
    · rw [if_neg hk]
      by_cases h : l = k
      · subst h
        simp [hk]
      · simp [h]

/-- The lanes in which a predicate holds. -/
theorem getLsbD_maskOf (p : Lane → Bool) (l : Lane) : (maskOf p).getLsbD l.val = p l := by
  rw [maskOf, getLsbD_foldl_lanes]
  simp

theorem exists_lane_of_ne_zero {m : LaneMask} (h : m ≠ 0) : ∃ l : Lane, m.getLsbD l.val = true := by
  by_contra hn
  push Not at hn
  refine h (BitVec.eq_of_getLsbD_eq fun i hi => ?_)
  rw [Bool.eq_false_iff.mpr (hn ⟨i, hi⟩)]
  simp

/-! ### Insertion by a key -/

theorem mem_insertBy {α : Type} {k : α → Nat} {x y : α} {l : List α} : y ∈ insertBy k x l ↔ y = x ∨ y ∈ l := by
  induction l with
  | nil => simp [insertBy]
  | cons z r ih =>
    rw [insertBy]
    split
    · simp
    · simp only [List.mem_cons, ih]
      tauto

theorem insertBy_sorted {α : Type} {k : α → Nat} {x : α} {l : List α} (h : l.Pairwise fun a b => k a < k b)
    (hx : ∀ y ∈ l, k y ≠ k x) : (insertBy k x l).Pairwise fun a b => k a < k b := by
  induction l with
  | nil => simp [insertBy]
  | cons z r ih =>
    obtain ⟨hz, hr⟩ := List.pairwise_cons.mp h
    rw [insertBy]
    split
    · rename_i hlt
      refine List.pairwise_cons.mpr ⟨fun y hy => ?_, h⟩
      obtain rfl | hy := List.mem_cons.mp hy
      · exact hlt
      · exact hlt.trans (hz y hy)
    · refine List.pairwise_cons.mpr ⟨fun y hy => ?_, ih hr fun y hy => hx y (List.mem_cons_of_mem _ hy)⟩
      obtain rfl | hy := mem_insertBy.mp hy
      · have := hx z List.mem_cons_self
        omega
      · exact hz y hy

/-! ### The targets -/

/-- The targets met so far, with one more. -/
def addTarget (t : Lane → DWord) (acc : List DWord) (l : Lane) : List DWord :=
  if acc.contains (t l) then acc else insertBy BitVec.toNat (t l) acc

theorem addTargets_spec (t : Lane → DWord) (ls : List Lane) (acc : List DWord) (h : acc.Pairwise fun a b => a.toNat < b.toNat) :
    (ls.foldl (addTarget t) acc).Pairwise (fun a b => a.toNat < b.toNat) ∧
      ∀ a, a ∈ ls.foldl (addTarget t) acc ↔ a ∈ acc ∨ ∃ l ∈ ls, t l = a := by
  induction ls generalizing acc with
  | nil => simpa using h
  | cons l r ih =>
    rw [List.foldl_cons]
    by_cases hc : t l ∈ acc
    · rw [addTarget, if_pos (by simpa using hc)]
      obtain ⟨h1, h2⟩ := ih acc h
      refine ⟨h1, fun a => (h2 a).trans ?_⟩
      simp only [List.mem_cons, exists_eq_or_imp]
      refine ⟨Or.imp_right Or.inr, ?_⟩
      rintro (ha | rfl | ha)
      exacts [.inl ha, .inl hc, .inr ha]
    · rw [addTarget, if_neg (by simpa using hc)]
      obtain ⟨h1, h2⟩ := ih _ (insertBy_sorted h fun y hy he => hc ((BitVec.eq_of_toNat_eq he : y = t l) ▸ hy))
      refine ⟨h1, fun a => (h2 a).trans ?_⟩
      simp only [List.mem_cons, exists_eq_or_imp, mem_insertBy]
      constructor
      · rintro ((rfl | ha) | ha)
        exacts [.inr (.inl rfl), .inl ha, .inr (.inr ha)]
      · rintro (ha | rfl | ha)
        exacts [.inl (.inr ha), .inl (.inl rfl), .inr ha]

/-- Two rising lists of the same addresses are one. -/
theorem eq_of_rising {as bs : List DWord} (ha : as.Pairwise fun a b => a.toNat < b.toNat)
    (hb : bs.Pairwise fun a b => a.toNat < b.toNat) (h : ∀ a, a ∈ as ↔ a ∈ bs) : as = bs := by
  have nodup {l : List DWord} (hl : l.Pairwise fun a b => a.toNat < b.toNat) : l.Nodup :=
    hl.imp fun hlt he => by rw [he] at hlt; exact Nat.lt_irrefl _ hlt
  exact ((List.perm_ext_iff_of_nodup (nodup ha) (nodup hb)).mpr h).eq_of_pairwise
    (fun a b _ _ h1 h2 => absurd h1 (Nat.lt_asymm h2)) ha hb

/-- The children of a multi-way transfer to some targets: the lanes of each, and its address. -/
def childrenAt (m : LaneMask) (t : Lane → DWord) (as : List DWord) : List (LaneMask × DWord) :=
  as.map fun x => (m &&& maskOf fun l => t l == x, x)

/-- The targets of a fragment's lanes are one rising list. -/
theorem groupTargets_spec (m : LaneMask) (t : Lane → DWord) : ∃ as : List DWord, groupTargets m t = childrenAt m t as ∧
    as.Pairwise (fun a b => a.toNat < b.toNat) ∧ ∀ a, a ∈ as ↔ ∃ l : Lane, m.getLsbD l.val = true ∧ t l = a := by
  obtain ⟨h1, h2⟩ := addTargets_spec t (lanesOf m) [] .nil
  refine ⟨_, rfl, h1, fun a => (h2 a).trans ?_⟩
  simp only [List.not_mem_nil, false_or, mem_lanesOf]

theorem groupTargets_eq {m : LaneMask} {t : Lane → DWord} {as : List DWord} (h : as.Pairwise fun a b => a.toNat < b.toNat)
    (hm : ∀ a, a ∈ as ↔ ∃ l : Lane, m.getLsbD l.val = true ∧ t l = a) : groupTargets m t = childrenAt m t as := by
  obtain ⟨bs, he, hb, hbs⟩ := groupTargets_spec m t
  rw [he, eq_of_rising hb h fun a => (hbs a).trans (hm a).symm]

/-- Lanes that all have one target. -/
theorem groupTargets_one {m : LaneMask} {t : Lane → DWord} {a : DWord} (hm : m ≠ 0)
    (h : ∀ l : Lane, m.getLsbD l.val = true → t l = a) : ∃ k, groupTargets m t = [(k, a)] := by
  obtain ⟨l, hl⟩ := exists_lane_of_ne_zero hm
  refine ⟨_, groupTargets_eq (as := [a]) (List.pairwise_singleton _ _) fun b => ?_⟩
  rw [List.mem_singleton]
  exact ⟨fun hb => ⟨l, hl, hb ▸ h l hl⟩, fun ⟨k, hk, hb⟩ => hb ▸ h k hk⟩

end Sys2Proof.Machine
end

section
/-! Splits of a fragment (R30, R36, R361): the children's entries, the ranks, and the join they share. -/

namespace Sys2Proof.Machine

/-! ### Settling -/

theorem Warp.settle_split (w : Warp) (l : List (Fin 32)) (k : Fin 32) :
    (w.settle l).split[k] = if k ∈ l then (w.split[k]).map Frag.settle else w.split[k] := by
  induction l generalizing w with
  | nil => rfl
  | cons i r ih =>
    show ((w.modFrag Frag.settle (.entry i)).settle r).split[k] = _
    rw [ih]
    by_cases h : k = i
    · subst h
      have : (w.modFrag Frag.settle (.entry k)).split[k] = (w.split[k]).map Frag.settle := Warp.frag?_modFrag w _ k
      rw [this, if_pos List.mem_cons_self]
      split
      · rw [Option.map_map]
        rfl
      · rfl
    · have : (w.modFrag Frag.settle (.entry i)).split[k] = w.split[k] :=
        Warp.frag?_modFrag_ne w _ fun hk => h (FragSel.entry.inj hk)
      rw [this]
      simp only [List.mem_cons, h, false_or]

theorem Warp.settle_fields (w : Warp) (l : List (Fin 32)) : ∃ sp, w.settle l = { w with split := sp } := by
  induction l generalizing w with
  | nil => exact ⟨w.split, rfl⟩
  | cons i r ih =>
    obtain ⟨sp, h⟩ := ih (w.modFrag Frag.settle (.entry i))
    exact ⟨sp, h⟩

/-! ### The children of a split -/

/-- Entries written one after another: one that is written once holds what was written to it, the others what they held. -/
theorem foldl_set_getElem {β : Type} (l : List (Fin 32 × β)) (g : β → Option Frag) (sp : Vector (Option Frag) 32)
    (hn : (l.map (·.1)).Nodup) :
    (∀ x ∈ l, (l.foldl (fun sp x => sp.set x.1 (g x.2)) sp)[x.1] = g x.2) ∧
      ∀ k : Fin 32, k ∉ l.map (·.1) → (l.foldl (fun sp x => sp.set x.1 (g x.2)) sp)[k] = sp[k] := by
  induction l generalizing sp with
  | nil => simp
  | cons y r ih =>
    obtain ⟨hy, hr⟩ := List.nodup_cons.mp hn
    obtain ⟨h1, h2⟩ := ih (sp.set y.1 (g y.2)) hr
    refine ⟨fun x hx => ?_, fun k hk => ?_⟩
    · obtain rfl | hx := List.mem_cons.mp hx
      · refine (h2 _ hy).trans ?_
        simp
      · exact h1 x hx
    · have hk' : k ≠ y.1 ∧ k ∉ r.map (·.1) := by simpa using hk
      refine (h2 k hk'.2).trans ?_
      have : y.1.val ≠ k.val := fun h => hk'.1 (Fin.ext h.symm)
      simp [this]

/-- The lowest free indices, each once; an index that is taken is none of them. -/
theorem Warp.freeSplits_nodup (w : Warp) : w.freeSplits.Nodup := (List.nodup_finRange 32).filter _

theorem freeSplits_congr {w w' : Warp} (h : w.split = w'.split) : w.freeSplits = w'.freeSplits := by
  simp only [Warp.freeSplits, h]

theorem Warp.mem_freeSplits {w : Warp} {k : Fin 32} : k ∈ w.freeSplits ↔ w.split[k] = none := by
  simp only [Warp.freeSplits, List.mem_filter, List.mem_finRange, true_and, Option.isNone_iff_eq_none]

/-- The rank of a split's child (R36). -/
def childRank (f : Frag) (pref p : Nat) : BitVec 5 :=
  if p = pref then f.rank else f.rank + BitVec.ofNat 5 (if p < pref then p + 1 else p)

/-- A split's child. -/
def childFrag (f : Frag) (pref : Nat) (j : BitVec 6) (depth : BitVec 8) (p : Nat) (x : LaneMask × DWord) : Frag :=
  { mask := x.1, pc := x.2, join := j, depth := depth, rank := childRank f pref p, handler := f.handler, halted := f.halted
    stepped := f.stepped, acquire := f.acquire }

/-- A fragment that a split's children are ranked before (R36). -/
def raisedFrag (f : Frag) (n : Nat) (g : Frag) : Frag :=
  if g.rank > f.rank then { g with rank := g.rank + BitVec.ofNat 5 (n - 1) } else g

/-- The entries of a split's children: the fragment's own, and the lowest free ones (R361). -/
def splitIndices (w : Warp) (i : Fin 32) (cs : List (LaneMask × DWord)) : List (Fin 32) := i :: w.freeSplits.take (cs.length - 1)

/-- The children of a split with their entries and their places in order. -/
def splitKids (w : Warp) (i : Fin 32) (cs : List (LaneMask × DWord)) : List (Fin 32 × (LaneMask × DWord) × Nat) :=
  ((splitIndices w i cs).zip cs).zipIdx.map fun x => (x.1.1, x.1.2, x.2)

/-- The split table once a split has raised the ranks behind its fragment's and written its children. -/
def splitTable (w : Warp) (i : Fin 32) (f : Frag) (cs : List (LaneMask × DWord)) (pref : Nat) (j : BitVec 6) (depth : BitVec 8) :
    Vector (Option Frag) 32 :=
  (splitKids w i cs).foldl (fun sp x => sp.set x.1 (some (childFrag f pref j depth x.2.2 x.2.1)))
    (w.split.map (Option.map (raisedFrag f cs.length)))

theorem splitInto_eq (w : Warp) (i : Fin 32) (f : Frag) (cs : List (LaneMask × DWord)) (pref : Nat) (j : BitVec 6) (depth : BitVec 8) :
    w.splitInto i f cs pref j depth = ({ w with split := splitTable w i f cs pref j depth }, splitIndices w i cs) := by
  rw [splitTable, splitKids, List.foldl_map]
  rfl

section
variable {w : Warp} {i : Fin 32} {f : Frag} (hf : w.split[i] = some f) (cs : List (LaneMask × DWord)) (pref : Nat) (j : BitVec 6)
  (depth : BitVec 8) (hc : cs.length ≤ w.freeSplits.length + 1)
include hf hc

omit hf in
/-- A split writes one entry for each child. -/
theorem splitInto_indices (hcs : cs ≠ []) : (splitIndices w i cs).length = cs.length := by
  have := List.length_pos_iff.mpr hcs
  rw [splitIndices, List.length_cons, List.length_take]
  omega

omit hc in
theorem splitIndices_nodup : (splitIndices w i cs).Nodup := by
  refine List.nodup_cons.mpr ⟨fun h => ?_, w.freeSplits_nodup.sublist (List.take_sublist _ _)⟩
  have := Warp.mem_freeSplits.mp (List.mem_of_mem_take h)
  rw [hf] at this
  cases this

omit hf in
theorem splitInto_kids (hcs : cs ≠ []) : (splitKids w i cs).map (·.1) = splitIndices w i cs := by
  rw [splitKids, List.map_map]
  have : (fun x => x.1) ∘ (fun x : (Fin 32 × LaneMask × DWord) × Nat => (x.1.1, x.1.2, x.2)) = Prod.fst ∘ Prod.fst := rfl
  rw [this, ← List.map_map, List.zipIdx_map_fst, List.map_fst_zip (Nat.le_of_eq (splitInto_indices cs hc hcs))]

/-- What a split leaves in each entry. -/
theorem splitTable_spec (hcs : cs ≠ []) :
    (∀ x ∈ splitKids w i cs, (splitTable w i f cs pref j depth)[x.1] = some (childFrag f pref j depth x.2.2 x.2.1)) ∧
      ∀ k : Fin 32, k ∉ splitIndices w i cs →
        (splitTable w i f cs pref j depth)[k] = (w.split[k]).map (raisedFrag f cs.length) := by
  have hk := splitInto_kids (i := i) cs hc hcs
  obtain ⟨h1, h2⟩ := foldl_set_getElem (splitKids w i cs) (fun x => some (childFrag f pref j depth x.2 x.1))
    (w.split.map (Option.map (raisedFrag f cs.length))) (hk ▸ splitIndices_nodup hf cs)
  refine ⟨h1, fun k hn => (h2 k (hk ▸ hn)).trans ?_⟩
  simp

/-- Each child of a split stands in its entry. -/
theorem splitInto_child {q : Nat} (hq : q < cs.length) {k : Fin 32} (hk : (i :: w.freeSplits).getD q 0 = k) :
    (w.splitInto i f cs pref j depth).1.split[k] = some (childFrag f pref j depth q (cs.getD q (0, 0))) ∧
      k ∈ (w.splitInto i f cs pref j depth).2 := by
  have hcs : cs ≠ [] := List.ne_nil_of_length_pos (by omega)
  have hlen := splitInto_indices (i := i) cs hc hcs
  have hidx : k = (splitIndices w i cs)[q]'(by omega) := by
    rw [← hk, List.getD_eq_getElem _ _ (by rw [List.length_cons]; omega)]
    simp only [splitIndices]
    cases q with
    | zero => rfl
    | succ q => simp
  have hmem : ((splitIndices w i cs)[q]'(by omega), cs[q], q) ∈ splitKids w i cs := by
    refine List.mem_map.mpr ⟨(((splitIndices w i cs)[q]'(by omega), cs[q]), q), List.mem_of_getElem? (i := q) ?_, rfl⟩
    simp [hlen, hq]
  rw [← hidx] at hmem
  rw [List.getD_eq_getElem _ _ hq, splitInto_eq]
  exact ⟨(splitTable_spec hf cs pref j depth hc hcs).1 _ hmem, hidx ▸ List.getElem_mem _⟩

/-- Every other fragment is where it was, behind the children in rank (R36). -/
theorem splitInto_other (hcs : cs ≠ []) {k : Fin 32} (hk : k ≠ i) {g : Frag} (hg : w.split[k] = some g) :
    (w.splitInto i f cs pref j depth).1.split[k] = some (raisedFrag f cs.length g) ∧
      k ∉ (w.splitInto i f cs pref j depth).2 := by
  have hnot : k ∉ splitIndices w i cs := by
    rintro (_ | ⟨_, h⟩)
    · exact hk rfl
    · have := Warp.mem_freeSplits.mp (List.mem_of_mem_take h)
      rw [hg] at this
      cases this
  rw [splitInto_eq]
  refine ⟨((splitTable_spec hf cs pref j depth hc hcs).2 k hnot).trans ?_, hnot⟩
  rw [hg]
  rfl
end

/-! ### The join of a split -/

theorem joinFor_fields (w : Warp) (f : Frag) (ja : Option DWord) : ∃ jn, (w.joinFor f ja).1 = { w with join := jn } := by
  unfold Warp.joinFor
  split
  · exact ⟨w.join, rfl⟩
  · extract_lets
    split
    · exact ⟨w.join, rfl⟩
    · split
      · exact ⟨w.join, rfl⟩
      · exact ⟨_, rfl⟩

/-- The fragment's own join entry is at an address and at its depth (R31, the loop rule). -/
def inheritsJoin (w : Warp) (f : Frag) (a : DWord) : Bool :=
  match w.joinAt f.join with
  | some (_, e) => e.addr == a && e.depth == f.depth
  | none => false

theorem joinFor_inherits {w : Warp} {f : Frag} {a : DWord} (h : inheritsJoin w f a = true) : w.joinFor f (some a) = (w, f.join) :=
  if_pos h

theorem joinFor_new {w : Warp} {f : Frag} {a : DWord} (h : inheritsJoin w f a = false) {q : Fin 32} (hq : w.join[q] = none)
    (hp : ∀ p : Fin 32, p < q → w.join[p] ≠ none) :
    w.joinFor f (some a) = ({ w with join := w.join.set q (some ⟨a, f.depth, f.mask, 0, f.join⟩) }, BitVec.ofNat 6 q.val) := by
  have hfind : (List.finRange 32).find? (fun k => (w.join[k]).isNone) = some q := by
    rw [List.find?_eq_some_iff_getElem]
    refine ⟨by rw [hq]; rfl, q.val, by simp, by simp, fun j hj => ?_⟩
    have := hp ⟨j, by omega⟩ hj
    simpa [Option.isSome_iff_ne_none] using this
  refine (if_neg (ne_true_of_eq_false h)).trans ?_
  rw [hfind]

/-- The join that a split's children share is the one R30 says. -/
theorem joinsAt_joinFor {c : Ctx} {w0 w : Warp} {j : BitVec 14} (h0 : w0.join = c.w.join)
    (hw : w.join = (w0.joinFor c.f (joinAddr c.f.pc j)).1.join) : JoinsAt c w j (w0.joinFor c.f (joinAddr c.f.pc j)).2 := by
  have hat : w0.joinAt = c.w.joinAt := by
    funext k
    simp only [Warp.joinAt, h0]
  have haddr (hj : j ≠ 0) : joinAddr c.f.pc j = some (c.f.pc + BitVec.ofNat 64 (2 * j.toNat)) := if_neg (by simpa using hj)
  refine ⟨fun hj => ?_, fun e q hj he ha hd => ?_, fun q hj hne hq hp => ?_⟩
  · subst hj
    exact ⟨rfl, hw.trans h0⟩
  · rw [haddr hj, joinFor_inherits (by simp only [inheritsJoin, hat, he, ha, hd, beq_self_eq_true, Bool.and_self])] at hw ⊢
    exact ⟨rfl, hw.trans h0⟩
  · have hi : inheritsJoin w0 c.f (c.f.pc + BitVec.ofNat 64 (2 * j.toNat)) = false := by
      unfold inheritsJoin
      rw [hat]
      split
      · rename_i p e he
        simpa using hne p e he
      · rfl
    rw [haddr hj, joinFor_new hi (by rwa [h0]) (by rwa [h0])] at hw ⊢
    rw [hw, h0]
    refine ⟨rfl, by simp, fun p hpq => ?_⟩
    have : q.val ≠ p.val := fun h => hpq (Fin.ext h.symm)
    simp [this]

/-! ### A split as a whole -/

/-- A fragment's split to some children, ready, under the join of a join address. -/
def splitWarp (w : Warp) (i : Fin 32) (f : Frag) (cs : List (LaneMask × DWord)) (pref : Nat) (ja : Option DWord)
    (depth : BitVec 8) : Warp × List (Fin 32) :=
  ({ (w.joinFor f ja).1 with lfsr := (lfsrStep w.lfsr).2 } : Warp).splitInto i f cs pref (w.joinFor f ja).2 depth

/-- What a fragment's split comes to, in a warp that was `w0` but for its tables and its marks (R30, R36). -/
structure SplitAs (c : Ctx) (w0 : Warp) (cs : List (LaneMask × DWord)) (pref : Nat) (join : BitVec 14) (depth : BitVec 8)
    (w : Warp) : Prop where
  fields : ∃ sp jn a o, w = { w0 with
    split := sp, join := jn, lfsr := (lfsrStep c.w.lfsr).2, started := a, ordinal := o }
  kids : ∃ k, JoinsAt c w join k ∧ ∀ q, q < cs.length →
    w.frag? (.entry ((idxOf c.ref.sel :: c.w.freeSplits).getD q 0)) = some (childFrag c.f pref k depth q (cs.getD q (0, 0))).settle
  others : ∀ (j : Fin 32) h, .entry j ≠ c.ref.sel → c.w.frag? (.entry j) = some h →
    w.frag? (.entry j) = some (raisedFrag c.f cs.length h)

/-- The marks of the end of its instruction are no matter of a split. -/
theorem SplitAs.marked {c : Ctx} {w0 : Warp} {cs : List (LaneMask × DWord)} {pref : Nat} {join : BitVec 14} {depth : BitVec 8}
    {w : Warp} (h : SplitAs c w0 cs pref join depth w) (a : Bool) (o : Word) :
    SplitAs c w0 cs pref join depth { w with started := a, ordinal := o } := by
  obtain ⟨⟨sp, jn, _, _, hw⟩, hk, ho⟩ := h
  exact ⟨⟨sp, jn, a, o, by rw [hw]⟩, hk, ho⟩

/-- A split of the issuing fragment, in a warp whose tables are as it issued. -/
theorem splitWarp_spec {c : Ctx} {w0 : Warp} {k : Fin 32} (hk : c.ref.sel = .entry k) (hf : c.w.frag? c.ref.sel = some c.f)
    (hs : w0.split = c.w.split) (hj : w0.join = c.w.join) (hl : w0.lfsr = c.w.lfsr) {cs : List (LaneMask × DWord)} (pref : Nat)
    (join : BitVec 14) (depth : BitVec 8) (hcs : cs ≠ []) (hc : cs.length ≤ c.w.freeSplits.length + 1) :
    SplitAs c w0 cs pref join depth ((splitWarp w0 k c.f cs pref (joinAddr c.f.pc join) depth).1.settle
      (splitWarp w0 k c.f cs pref (joinAddr c.f.pc join) depth).2) := by
  obtain ⟨jn, hjn⟩ := joinFor_fields w0 c.f (joinAddr c.f.pc join)
  have hidx : idxOf c.ref.sel = k := by rw [hk]; rfl
  rw [hk] at hf
  -- The warp in which the children are written, with the fragment where it was.
  have hw : ({ (w0.joinFor c.f (joinAddr c.f.pc join)).1 with lfsr := (lfsrStep w0.lfsr).2 } : Warp).split = c.w.split := by
    rw [hjn]
    exact hs
  have hfree : ({ (w0.joinFor c.f (joinAddr c.f.pc join)).1 with lfsr := (lfsrStep w0.lfsr).2 } : Warp).freeSplits =
      c.w.freeSplits := by
    exact freeSplits_congr hw
  have hsplit {j : Fin 32} {h : Frag} (hjh : c.w.frag? (.entry j) = some h) :
      ({ (w0.joinFor c.f (joinAddr c.f.pc join)).1 with lfsr := (lfsrStep w0.lfsr).2 } : Warp).split[j] = some h := by
    rw [hw]
    exact hjh
  obtain ⟨sp, hsp⟩ := Warp.settle_fields (splitWarp w0 k c.f cs pref (joinAddr c.f.pc join) depth).1
    (splitWarp w0 k c.f cs pref (joinAddr c.f.pc join) depth).2
  refine ⟨⟨sp, jn, w0.started, w0.ordinal, ?_⟩, ⟨_, joinsAt_joinFor hj ?_, fun q hq => ?_⟩, fun j h hne hjh => ?_⟩
  · rw [hsp, splitWarp, splitInto_eq, hjn, hl]
  · rw [hsp, splitWarp, splitInto_eq]
  · obtain ⟨h1, h2⟩ := splitInto_child (hsplit hf) cs pref (w0.joinFor c.f (joinAddr c.f.pc join)).2 depth
      (by rwa [hfree]) hq (k := (k :: c.w.freeSplits).getD q 0) (by rw [hfree])
    refine (Warp.settle_split _ _ _).trans ?_
    rw [hidx, splitWarp, if_pos h2, h1]
    rfl
  · obtain ⟨h1, h2⟩ := splitInto_other (hsplit hf) cs pref (w0.joinFor c.f (joinAddr c.f.pc join)).2 depth
      (by rwa [hfree]) hcs (fun hjk => hne (by rw [hk, hjk])) (hsplit hjh)
    exact (Warp.settle_split _ _ _).trans ((if_neg h2).trans h1)

/-- A BR of two outcomes splits its fragment (R30). -/
theorem resolveBr_divergent {w : Warp} {k : Fin 32} {f : Frag} {t : LaneMask} (hf : w.split[k] = some f) (target fall : DWord)
    (ja : Option DWord) (ht : t ≠ 0) (hn : f.mask &&& ~~~t ≠ 0) :
    w.resolveBr k t target fall ja = splitWarp w k f [(t, target), (f.mask &&& ~~~t, fall)]
      (if (lfsrStep w.lfsr).1 then 0 else 1) ja f.depth := by
  have : (t == 0 || f.mask &&& ~~~t == 0) = false := by
    rw [Bool.or_eq_false_iff, beq_eq_false_iff_ne, beq_eq_false_iff_ne]
    exact ⟨ht, hn⟩
  obtain ⟨jn, hjn⟩ := joinFor_fields w f ja
  simp only [Warp.resolveBr, hf, this, Bool.false_eq_true, if_false, splitWarp, hjn]

/-- A transfer to several targets splits its fragment (R30). -/
theorem resolveMulti_several {w : Warp} {k : Fin 32} {f : Frag} {t : Lane → DWord} (hf : w.split[k] = some f)
    {cs : List (LaneMask × DWord)} (hcs : groupTargets f.mask t = cs) (h2 : 2 ≤ cs.length) (ja : Option DWord) (depth : BitVec 8) :
    w.resolveMulti k t ja depth = splitWarp w k f cs ((lfsrStep w.lfsr).2.toNat % cs.length) ja depth := by
  obtain ⟨jn, hjn⟩ := joinFor_fields w f ja
  match cs, h2 with
  | x :: y :: r, _ => simp only [Warp.resolveMulti, hf, hcs, splitWarp, hjn]

/-- A transfer of no lanes goes nowhere. -/
theorem resolveMulti_none {w : Warp} {k : Fin 32} {f : Frag} {t : Lane → DWord} (hf : w.split[k] = some f)
    (hcs : groupTargets f.mask t = []) (ja : Option DWord) (depth : BitVec 8) : w.resolveMulti k t ja depth = (w, []) := by
  simp only [Warp.resolveMulti, hf, hcs]

/-- A transfer to one target moves the whole fragment (R30). -/
theorem resolveMulti_one {w : Warp} {k : Fin 32} {f : Frag} {t : Lane → DWord} (hf : w.split[k] = some f) {m : LaneMask}
    {a : DWord} (hcs : groupTargets f.mask t = [(m, a)]) (ja : Option DWord) (depth : BitVec 8) :
    w.resolveMulti k t ja depth = ({ w with split := w.split.set k (some { f with pc := a, depth := depth }) }, [k]) := by
  simp only [Warp.resolveMulti, hf, hcs]

end Sys2Proof.Machine
end

section
/-! Calls, returns and multi-way transfers (R29, R30, R36, R159, R162, R163): with one target and with several. -/

namespace Sys2Proof.Machine

/-! ### Multi-way transfers -/

/-- The warp that a multi-way transfer leaves (R30). -/
def multiWarp (w : Warp) (c : Ctx) (t : Lane → DWord) (ja : Option DWord) (depth : BitVec 8) : Warp :=
  (w.resolveMulti (idxOf c.ref.sel) t ja depth).1.settle (w.resolveMulti (idxOf c.ref.sel) t ja depth).2

theorem multi_noted {s : State} {c : Ctx} {w : Warp} (hw : s.warp? c.ref.block c.ref.warp = some w) (t : Lane → DWord)
    (ja : Option DWord) (depth : BitVec 8) :
    Noted c (fun _ => { multiWarp w c t ja depth with started := true }) s (s.multi c t ja depth) := by
  simp only [State.multi, State.warpOf_eq hw]
  exact land_noted s c _ _

/-- A multi-way transfer ends with the resolved warp, but for its marks. -/
theorem multi_completes {i : Instr} {s s1 : State} {c : Ctx} {body : Ctx → LaneMask → State → Eff} {t : Lane → DWord}
    {ja : Option DWord} {depth : BitVec 8} {g : Warp → Warp} (h : Issues i s c)
    (hb : body c (c.lanes i) s = .went (s1.multi c t ja depth)) (hn : Noted c g s s1) :
    ∃ u a o, issue i body s = .next u ∧ u.warp? c.ref.block c.ref.warp =
      some { multiWarp (g c.w) c t ja depth with started := a, ordinal := o } ∧
      SameOutside s u ∧ SameOtherWarps c s u ∧ SameBlock c u :=
  went_completes_noted h hb (hn.trans (multi_noted (hn.warp_eq h.warp) t ja depth))

theorem settle_set (w : Warp) (k : Fin 32) (f : Frag) :
    ({ w with split := w.split.set k (some f) } : Warp).settle [k] = { w with split := w.split.set k (some f.settle) } := by
  refine (Warp.modFrag_eq_set (f := f) ?_ Frag.settle).trans ?_
  · exact (Warp.frag?_set w k _ _).trans (if_pos rfl)
  · simp

/-- Where every lane has one target, the fragment goes there whole, at the depth given. -/
theorem multiWarp_one {w : Warp} {c : Ctx} {k : Fin 32} (hk : c.ref.sel = .entry k) (hf : w.frag? (.entry k) = some c.f)
    {t : Lane → DWord} {a : DWord} (hm : c.f.mask ≠ 0) (ht : ∀ l : Lane, c.f.mask.getLsbD l.val = true → t l = a)
    (ja : Option DWord) (depth : BitVec 8) :
    multiWarp w c t ja depth = { w with split := w.split.set k (some ({ c.f with pc := a, depth := depth } : Frag).settle) } := by
  obtain ⟨m, hg⟩ := groupTargets_one hm ht
  have hidx : idxOf c.ref.sel = k := by rw [hk]; rfl
  rw [multiWarp, hidx, resolveMulti_one (split_of_frag hf) hg]
  exact settle_set w k _

/-- Where the lanes have several targets, the fragment splits. -/
theorem multiWarp_several {w : Warp} {c : Ctx} {k : Fin 32} (hk : c.ref.sel = .entry k) (hf : c.w.frag? c.ref.sel = some c.f)
    (hs : w.split = c.w.split) (hj : w.join = c.w.join) (hl : w.lfsr = c.w.lfsr) {t : Lane → DWord} {as : List DWord}
    (ht : groupTargets c.f.mask t = childrenAt c.f.mask t as) (h2 : 2 ≤ as.length) (hc : as.length ≤ c.w.freeSplits.length + 1)
    (join : BitVec 14) (depth : BitVec 8) :
    SplitAs c w (childrenAt c.f.mask t as) ((lfsrStep c.w.lfsr).2.toNat % as.length) join depth
      (multiWarp w c t (joinAddr c.f.pc join) depth) := by
  have hlen : (childrenAt c.f.mask t as).length = as.length := List.length_map _
  have hidx : idxOf c.ref.sel = k := by rw [hk]; rfl
  have hfw : w.split[k] = some c.f := by
    rw [hk] at hf
    rw [hs]
    exact hf
  rw [multiWarp, hidx, resolveMulti_several hfw ht (by omega), hlen, hl]
  exact splitWarp_spec hk hf hs hj hl _ join depth (List.ne_nil_of_length_pos (by omega)) (by omega)

/-! ### The link pair -/

/-- The warp once the link pair is written (R163). -/
def linkWarp (c : Ctx) (w : Warp) : Warp := w.setVP 0 c.f.mask fun _ => c.f.pc + 8

theorem linkWarp_vp (c : Ctx) (w : Warp) {l : Lane} (hl : c.f.mask.getLsbD l.val = true) : (linkWarp c w).vp 0 l = c.f.pc + 8 := by
  simp only [linkWarp, Warp.vp, Warp.vl_setVP, hl]
  simp [pairOf_halves]

/-- The link pair is the destination of a call; every other register is as it was. -/
theorem linkWarp_regs {i : Instr} {s : State} {c : Ctx} (h : Issues i s c) (hal : i.layout.needsAl = true)
    (hd : vD 0 2 ∈ i.layout.opnds 1) {w : Warp} (hv : w.v = (linkWarp c c.w).v) (hs : w.s = c.w.s) (hh : w.h = c.w.h)
    (h0 : w.cc0 = c.w.cc0) (h1 : w.cc1 = c.w.cc1) :
    (∀ l : Lane, c.f.mask.getLsbD l.val = true → w.vp 0 l = c.f.pc + 8) ∧ SameRegs i c w := by
  refine ⟨fun l hl => (vp_of_v hv 0 l).trans (linkWarp_vp c c.w hl), fun n l hn => ?_, fun n _ => sr_of_s hs n,
    fun n _ => by simp only [Warp.hr, hh], fun k l _ => cc_of_cc h0 h1 k l⟩
  have hne : (n = 0 ∨ n = 1) → c.f.mask.getLsbD l.val = true → False := fun hn' hl => by
    refine hn.elim (fun hw => hw ?_) fun hw => by rw [h.lanes_eq hal, hl] at hw; cases hw
    obtain rfl | rfl := hn'
    exacts [mem_writesRegs hd rfl (k := 0) Nat.two_pos, mem_writesRegs hd rfl (k := 1) Nat.one_lt_two]
  rw [vl_of_v hv, linkWarp, Warp.vl_setVP, if_neg fun hx => hne (.inr hx.1.symm) hx.2.2,
    if_neg fun hx => hne (.inl hx.1.symm) hx.2.2]

theorem link_noted (s : State) (c : Ctx) : Noted c (linkWarp c) s (s.link c) := Noted.modW s c _

/-! ### One target -/

theorem call_moves (o : Jump) : CompletesIf (.call o) (fun _ _ => True) fun _ c _ w =>
    (∃ f, w.frag? c.ref.sel = some f ∧ f.pc = c.f.pc + BitVec.ofInt 64 (2 * o.target.toInt) ∧ f.depth = c.f.depth + 1 ∧
      f.mask = c.f.mask ∧ f.join = c.f.join ∧ f.st = .ready) ∧
    (∀ l : Lane, c.f.mask.getLsbD l.val = true → w.vp 0 l = c.f.pc + 8) ∧ SameRegs (.call o) c w ∧ SameFull c.w w ∧
    SameSpecials c.w w := by
  intro s c h _
  obtain ⟨k, hk⟩ := isPath_entry h.here
  have hn := ((link_noted s c).trans (Noted.modW _ c fun w => w.modFrag (fun f => { f with depth := f.depth + 1 }) c.ref.sel)).trans
    (goto_noted _ c (relTarget c.f.pc o.target))
  obtain ⟨t, a, od, he, ht, -⟩ := went_completes_noted h (body := callEff o) rfl hn
  have hf : (linkWarp c c.w).frag? (.entry k) = some c.f := by
    have := h.frag
    rwa [hk] at this
  rw [hk, Warp.modFrag_eq_set hf, Warp.modFrag_eq_set ((Warp.frag?_set (linkWarp c c.w) k _ _).trans (if_pos rfl))] at ht
  refine ⟨t, _, he, ht, ⟨({ c.f with depth := c.f.depth + 1, pc := relTarget c.f.pc o.target } : Frag).settle, ?_, rfl, rfl, rfl,
    rfl, rfl⟩, ?_⟩
  · rw [hk]
    exact (Warp.frag?_set { linkWarp c c.w with split := (linkWarp c c.w).split.set k _ } k _ _).trans (if_pos rfl)
  obtain ⟨h1, h2⟩ := linkWarp_regs h rfl (w := { c.w with v := (linkWarp c c.w).v }) List.mem_cons_self rfl rfl rfl rfl rfl
  exact ⟨h1, ⟨h2.v, h2.s, h2.h, h2.cc⟩, ⟨rfl, rfl, rfl⟩, ⟨rfl, rfl, rfl, rfl, rfl, rfl, rfl, rfl, rfl, rfl, rfl, rfl⟩⟩

theorem callr_moves (o : JumpReg) (a : DWord) : CompletesIf (.callr o)
    (fun _ c => c.f.mask ≠ 0 ∧ ∀ l : Lane, c.f.mask.getLsbD l.val = true → c.w.vp o.a.toNat l &&& ~~~1#64 = a) fun _ c _ w =>
    (∃ f, w.frag? c.ref.sel = some f ∧ f.pc = a ∧ f.depth = c.f.depth + 1 ∧ f.mask = c.f.mask ∧ f.join = c.f.join ∧
      f.st = .ready) ∧
    (∀ l : Lane, c.f.mask.getLsbD l.val = true → w.vp 0 l = c.f.pc + 8) ∧ SameRegs (.callr o) c w ∧ SameFull c.w w ∧
    SameSpecials c.w w := by
  rintro s c h ⟨hm, hone⟩
  obtain ⟨k, hk⟩ := isPath_entry h.here
  obtain ⟨t, b, od, he, ht, -⟩ := multi_completes h (body := callrEff o) rfl (link_noted s c)
  have hf : (linkWarp c c.w).frag? (.entry k) = some c.f := by
    have := h.frag
    rwa [hk] at this
  rw [multiWarp_one hk hf hm hone] at ht
  refine ⟨t, _, he, ht, ⟨({ c.f with pc := a, depth := c.f.depth + 1 } : Frag).settle, ?_, rfl, rfl, rfl, rfl, rfl⟩, ?_⟩
  · rw [hk]
    exact (Warp.frag?_set (linkWarp c c.w) k _ _).trans (if_pos rfl)
  obtain ⟨h1, h2⟩ := linkWarp_regs h rfl (w := { c.w with v := (linkWarp c c.w).v }) List.mem_cons_self rfl rfl rfl rfl rfl
  exact ⟨h1, ⟨h2.v, h2.s, h2.h, h2.cc⟩, ⟨rfl, rfl, rfl⟩, ⟨rfl, rfl, rfl, rfl, rfl, rfl, rfl, rfl, rfl, rfl, rfl, rfl⟩⟩

theorem ret_moves (o : JumpReg) (a : DWord) : CompletesIf (.ret o)
    (fun _ c => c.f.mask ≠ 0 ∧ ∀ l : Lane, c.f.mask.getLsbD l.val = true → c.w.vp o.a.toNat l &&& ~~~1#64 = a) fun _ c _ w =>
    (∃ f, w.frag? c.ref.sel = some f ∧ f.pc = a ∧ f.depth = c.f.depth - 1 ∧ f.mask = c.f.mask ∧ f.join = c.f.join ∧
      f.st = .ready) ∧ SameData c.w w ∧ SameSpecials c.w w := by
  rintro s c h ⟨hm, hone⟩
  obtain ⟨k, hk⟩ := isPath_entry h.here
  obtain ⟨t, b, od, he, ht, -⟩ := multi_completes h (body := retEff o) rfl (Noted.cores s c s.cores)
  have hf : c.w.frag? (.entry k) = some c.f := hk ▸ h.frag
  rw [id_eq, multiWarp_one hk hf hm hone] at ht
  refine ⟨t, _, he, ht, ⟨({ c.f with pc := a, depth := c.f.depth - 1 } : Frag).settle, ?_, rfl, rfl, rfl, rfl, rfl⟩,
    ⟨rfl, rfl, rfl, rfl, rfl, rfl, rfl, rfl, rfl, rfl, rfl, rfl, rfl, rfl, rfl⟩, ⟨rfl, rfl, rfl, rfl, rfl, rfl, rfl, rfl, rfl, rfl, rfl, rfl⟩⟩
  rw [hk]
  exact (Warp.frag?_set c.w k _ _).trans (if_pos rfl)

theorem brx_moves (o : Brx) (a : DWord) : GoesTo (.brx o)
    (fun _ c => c.f.mask ≠ 0 ∧ ∀ l : Lane, c.f.mask.getLsbD l.val = true →
      (c.f.pc + (c.w.vl o.a.toNat l).signExtend 64) &&& ~~~1#64 = a) (fun _ => a) := by
  rintro s c h ⟨hm, hone⟩
  obtain ⟨k, hk⟩ := isPath_entry h.here
  have hf : c.w.frag? (.entry k) = some c.f := hk ▸ h.frag
  refine goesTo_of_set h (body := brxEff o) (a := true) rfl (multi_noted h.warp _ _ _) hk ?_ (standsAt_settle c.f a)
  rw [multiWarp_one hk hf hm hone]

/-- Settles O13: with one target, calls, returns and BRX move the whole fragment. -/
theorem callsAndReturnsWithOneTarget : Obligations.CallsAndReturnsWithOneTarget :=
  ⟨call_moves, callr_moves, ret_moves, brx_moves⟩

end Sys2Proof.Machine
end

section
/-! Divergent branches (R29, R30, R36, R159, R162, R163): a BR of two outcomes, and BRX, CALLR and RET with several targets. -/

namespace Sys2Proof.Machine

theorem raisedFrag_eq (f : Frag) (n : Nat) (g : Frag) :
    raisedFrag f n g = { g with rank := if g.rank > f.rank then g.rank + BitVec.ofNat 5 (n - 1) else g.rank } := by
  unfold raisedFrag
  split <;> rfl

/-! ### BR -/

/-- The lanes an instruction executes in are its fragment's. -/
theorem lanes_subset {c : Ctx} {i : Instr} {l : Nat} (h : (c.lanes i).getLsbD l = true) : c.f.mask.getLsbD l = true := by
  unfold Ctx.lanes Warp.execMask at h
  split at h
  · exact h
  · split at h
    · exact h
    · rw [BitVec.getLsbD_and, Bool.and_eq_true] at h
      exact h.1

/-- Some lanes of the fragment stay out of an instruction that does not execute in all. -/
theorem others_ne_zero {c : Ctx} {i : Instr} (h : c.lanes i ≠ c.f.mask) : c.f.mask &&& ~~~c.lanes i ≠ 0 := by
  refine fun hz => h (BitVec.eq_of_getLsbD_eq fun l hl => Bool.eq_iff_iff.mpr ⟨lanes_subset, fun hm => ?_⟩)
  have := congrArg (fun x => x.getLsbD l) hz
  simpa [BitVec.getLsbD_and, BitVec.getLsbD_not, hl, hm] using this

theorem br_splits : ADivergentBranchSplits := by
  rintro o k s c h ⟨hz, hm, hfree⟩
  obtain ⟨i, hi⟩ := isPath_entry h.here
  obtain ⟨s1, a, hb, hn⟩ := brEff_went o (c.lanes (.br o)) h.warp
  obtain ⟨t, a', od, he, ht, -⟩ := went_completes_noted h hb hn
  have hfi : ({ c.w with started := a } : Warp).split[i] = some c.f := split_of_frag (hi ▸ h.frag)
  have hidx : idxOf c.ref.sel = i := by rw [hi]; rfl
  have hlen : 0 < c.w.freeSplits.length := List.length_pos_iff.mpr fun hnil => by rw [hnil] at hfree; cases hfree
  obtain ⟨⟨sp, jn, b, od', hw⟩, ⟨j, hj, hkids⟩, hothers⟩ := (splitWarp_spec (w0 := { c.w with started := a }) hi h.frag rfl rfl rfl
    (cs := [(c.lanes (.br o), relTarget c.f.pc o.target), (c.f.mask &&& ~~~c.lanes (.br o), c.f.pc + 8)])
    (if c.w.lfsr.getLsbD 0 then 0 else 1) o.join c.f.depth nofun (Nat.succ_le_succ hlen)).marked a' od
  have hres : resolvedBr o c (c.lanes (.br o)) a = splitWarp { c.w with started := a } i c.f
      [(c.lanes (.br o), relTarget c.f.pc o.target), (c.f.mask &&& ~~~c.lanes (.br o), c.f.pc + 8)]
      (if c.w.lfsr.getLsbD 0 then 0 else 1) (joinAddr c.f.pc o.join) c.f.depth := by
    rw [resolvedBr, hidx]
    exact resolveBr_divergent hfi _ _ _ hz (others_ne_zero hm)
  rw [hres] at ht
  have hk1 : (idxOf c.ref.sel :: c.w.freeSplits).getD 1 0 = k := by
    rw [List.getD_cons_succ, List.getD_eq_getElem?_getD, ← List.head?_eq_getElem?, hfree]
    rfl
  have h0 := hkids 0 Nat.two_pos
  have h1 := hkids 1 Nat.one_lt_two
  rw [hk1] at h1
  rw [List.getD_cons_zero, hidx, ← hi] at h0
  refine ⟨t, _, he, ht, ?_, ?_, ?_, ⟨_, _, h0, h1, rfl, rfl, rfl, rfl, rfl, rfl, rfl, rfl, rfl, ?_, hj⟩, fun p g hp hg => ?_⟩
  · rw [hw]
    exact ⟨rfl, rfl, rfl, rfl, rfl, rfl, rfl, rfl, rfl, rfl, rfl, rfl, rfl, rfl, rfl⟩
  · rw [hw]
  · rw [hw]
  · show (childRank c.f _ 0, childRank c.f _ 1) = _
    cases c.w.lfsr.getLsbD 0 <;> rfl
  · exact (hothers p g hp hg).trans (congrArg some (raisedFrag_eq _ _ _))

/-! ### Several targets -/

/-- A split to targets is what R30 and R36 say of it. -/
theorem SplitAs.splitsTo {c : Ctx} {w0 w : Warp} {t : Lane → DWord} {as : List DWord} {join : BitVec 14} {depth : BitVec 8}
    (h : SplitAs c w0 (childrenAt c.f.mask t as) ((lfsrStep c.w.lfsr).2.toNat % as.length) join depth w)
    (he : w0.exited = c.w.exited) : SplitsTo c w t as join depth := by
  obtain ⟨⟨sp, jn, a, o, hw⟩, ⟨k, hj, hkids⟩, hothers⟩ := h
  have hlen : (childrenAt c.f.mask t as).length = as.length := List.length_map _
  refine ⟨by rw [hw], by rw [hw]; exact he, ⟨k, hj, fun q hq => ⟨_, hkids q (by omega), ?_, fun l => ?_, rfl, rfl, rfl, rfl⟩⟩,
    fun j g hne hg => ?_⟩
  · rw [List.getD_eq_getElem _ _ hq, List.getD_eq_getElem _ _ (by omega)]
    simp [Frag.settle, childFrag, childrenAt]
  · rw [List.getD_eq_getElem _ _ hq, List.getD_eq_getElem _ _ (by omega)]
    simp only [Frag.settle, childFrag, childrenAt, List.getElem_map, Frag.retire_mask]
    rw [BitVec.getLsbD_and, getLsbD_maskOf]
  · rw [hothers j g hne hg, raisedFrag_eq, hlen]

/-- Where the targets are several and there is room, a multi-way transfer splits to them. -/
theorem splitAs_of_targets {c : Ctx} {w : Warp} {t : Lane → DWord} {as : List DWord} {s : State} {i : Instr} (h : Issues i s c)
    (ht : Targets c t as) (hs : w.split = c.w.split) (hj : w.join = c.w.join) (hl : w.lfsr = c.w.lfsr) (join : BitVec 14)
    (depth : BitVec 8) :
    SplitAs c w (childrenAt c.f.mask t as) ((lfsrStep c.w.lfsr).2.toNat % as.length) join depth
      (multiWarp w c t (joinAddr c.f.pc join) depth) := by
  obtain ⟨k, hk⟩ := isPath_entry h.here
  obtain ⟨hrise, hmem, h2, hroom⟩ := ht
  exact multiWarp_several hk h.frag hs hj hl (groupTargets_eq hrise hmem) h2 hroom join depth

/-- The data of a warp that has split are as they were. -/
theorem SplitAs.sameData {c : Ctx} {cs : List (LaneMask × DWord)} {pref : Nat} {join : BitVec 14} {depth : BitVec 8} {w : Warp}
    (h : SplitAs c c.w cs pref join depth w) : SameData c.w w := by
  obtain ⟨⟨sp, jn, a, o, hw⟩, -⟩ := h
  rw [hw]
  exact ⟨rfl, rfl, rfl, rfl, rfl, rfl, rfl, rfl, rfl, rfl, rfl, rfl, rfl, rfl, rfl⟩

theorem brx_splits (o : Brx) (as : List DWord) : CompletesIf (.brx o) (fun _ c => Targets c (brxTarget o c) as)
    fun _ c _ w => SameData c.w w ∧ SplitsTo c w (brxTarget o c) as o.join c.f.depth := by
  intro s c h ht
  obtain ⟨t, a, od, he, hw, -⟩ := multi_completes h (body := brxEff o) rfl (Noted.cores s c s.cores)
  have hsplit := (splitAs_of_targets h ht (w := c.w) rfl rfl rfl o.join c.f.depth).marked a od
  exact ⟨t, _, he, hw, hsplit.sameData, hsplit.splitsTo rfl⟩

/-- After a BRX every lane stands at its own target, whether the fragment has split or moved. -/
theorem brx_lanes (o : Brx) :
    CompletesIf (.brx o) (fun _ c => (groupTargets c.f.mask (brxTarget o c)).length ≤ c.w.freeSplits.length + 1)
      fun _ c _ w => SameData c.w w ∧ ∀ l : Lane, c.f.mask.getLsbD l.val = true →
        ∃ (j : Fin 32) (f : Frag), w.frag? (.entry j) = some f ∧ f.mask.getLsbD l.val = true ∧ f.st = .ready ∧
          f.pc = brxTarget o c l := by
  intro s c h hroom
  obtain ⟨as, has, hrise, hmem⟩ := groupTargets_spec c.f.mask (brxTarget o c)
  rw [has, childrenAt, List.length_map] at hroom
  obtain ⟨k, hk⟩ := isPath_entry h.here
  have hf : c.w.frag? (.entry k) = some c.f := hk ▸ h.frag
  match as with
  | [] =>
    obtain ⟨t, a, od, he, hw, -⟩ := multi_completes h (body := brxEff o) rfl (Noted.cores s c s.cores)
    have hid : multiWarp c.w c (brxTarget o c) (joinAddr c.f.pc o.join) c.f.depth = c.w := by
      have hidx : idxOf c.ref.sel = k := by rw [hk]; rfl
      rw [multiWarp, hidx, resolveMulti_none (split_of_frag hf) has]
      rfl
    refine ⟨t, _, he, hw, ?_, fun l hl => absurd ((hmem _).mpr ⟨l, hl, rfl⟩) List.not_mem_nil⟩
    show SameData c.w { multiWarp c.w c (brxTarget o c) (joinAddr c.f.pc o.join) c.f.depth with started := a, ordinal := od }
    rw [hid]
    exact ⟨rfl, rfl, rfl, rfl, rfl, rfl, rfl, rfl, rfl, rfl, rfl, rfl, rfl, rfl, rfl⟩
  | [a] =>
    have hone (l : Lane) (hl : c.f.mask.getLsbD l.val = true) : brxTarget o c l = a :=
      List.mem_singleton.mp ((hmem _).mpr ⟨l, hl, rfl⟩)
    obtain ⟨l0, hl0, -⟩ := (hmem a).mp List.mem_cons_self
    have hm : c.f.mask ≠ 0 := fun hz => by
      rw [hz] at hl0
      simp at hl0
    obtain ⟨t, w, he, hw, ⟨f, hf', hst⟩, -, hd, -⟩ := brx_moves o a s c h ⟨hm, hone⟩
    exact ⟨t, w, he, hw, hd, fun l hl => ⟨k, f, hk ▸ hf', hst.mask ▸ hl, hst.st, hst.pc.trans (hone l hl).symm⟩⟩
  | a :: b :: r =>
    obtain ⟨t, w, he, hw, hd, -, -, ⟨k, -, hkids⟩, -⟩ :=
      brx_splits o (a :: b :: r) s c h ⟨hrise, hmem, Nat.le_add_left 2 _, hroom⟩
    refine ⟨t, w, he, hw, hd, fun l hl => ?_⟩
    obtain ⟨q, hq, hql⟩ := List.mem_iff_getElem.mp ((hmem (brxTarget o c l)).mpr ⟨l, hl, rfl⟩)
    obtain ⟨f, hf, hpc, hmask, hst, -⟩ := hkids q hq
    rw [List.getD_eq_getElem _ _ hq, hql] at hpc
    refine ⟨_, f, hf, ?_, hst, hpc⟩
    rw [hmask, hl, List.getD_eq_getElem _ _ hq, hql]
    simp

/-- A warp that has written its link pair and split. -/
theorem SplitAs.linked {i : Instr} {s : State} {c : Ctx} (h : Issues i s c) (hal : i.layout.needsAl = true)
    (hd : vD 0 2 ∈ i.layout.opnds 1) {cs : List (LaneMask × DWord)} {pref : Nat} {join : BitVec 14} {depth : BitVec 8} {w : Warp}
    (hs : SplitAs c (linkWarp c c.w) cs pref join depth w) :
    (∀ l : Lane, c.f.mask.getLsbD l.val = true → w.vp 0 l = c.f.pc + 8) ∧ SameRegs i c w ∧ SameFull c.w w ∧
      SameSpecials { c.w with lfsr := w.lfsr, join := w.join } w := by
  obtain ⟨⟨sp, jn, a, o, hf⟩, -⟩ := hs
  subst hf
  obtain ⟨h1, h2⟩ := linkWarp_regs h hal (w := { c.w with v := (linkWarp c c.w).v }) hd rfl rfl rfl rfl rfl
  exact ⟨h1, ⟨h2.v, h2.s, h2.h, h2.cc⟩, ⟨rfl, rfl, rfl⟩, ⟨rfl, rfl, rfl, rfl, rfl, rfl, rfl, rfl, rfl, rfl, rfl, rfl⟩⟩

theorem callr_splits (o : JumpReg) (as : List DWord) :
    CompletesIf (.callr o) (fun _ c => Targets c (pairTarget o c) as) fun _ c _ w =>
      (∀ l : Lane, c.f.mask.getLsbD l.val = true → w.vp 0 l = c.f.pc + 8) ∧ SameRegs (.callr o) c w ∧ SameFull c.w w ∧
      SameSpecials { c.w with lfsr := w.lfsr, join := w.join } w ∧ SplitsTo c w (pairTarget o c) as 4 (c.f.depth + 1) := by
  intro s c h ht
  obtain ⟨t, a, od, he, hw, -⟩ := multi_completes h (body := callrEff o) rfl (link_noted s c)
  have hsplit := (splitAs_of_targets h ht (w := linkWarp c c.w) rfl rfl rfl 4 (c.f.depth + 1)).marked a od
  obtain ⟨h1, h2, h3, h4⟩ := hsplit.linked h rfl List.mem_cons_self
  exact ⟨t, _, he, hw, h1, h2, h3, h4, hsplit.splitsTo rfl⟩

theorem ret_splits (o : JumpReg) (as : List DWord) : CompletesIf (.ret o) (fun _ c => Targets c (pairTarget o c) as)
    fun _ c _ w => SameData c.w w ∧ SplitsTo c w (pairTarget o c) as 0 (c.f.depth - 1) := by
  intro s c h ht
  obtain ⟨t, a, od, he, hw, -⟩ := multi_completes h (body := retEff o) rfl (Noted.cores s c s.cores)
  have hsplit := (splitAs_of_targets h ht (w := c.w) rfl rfl rfl 0 (c.f.depth - 1)).marked a od
  exact ⟨t, _, he, hw, hsplit.sameData, hsplit.splitsTo rfl⟩

/-- Settles O14: a divergent BR, BRX, CALLR or RET splits its fragment, every lane at its own target. -/
theorem divergentBranchesSplit : Obligations.DivergentBranchesSplit :=
  ⟨br_splits, ⟨brx_splits, brx_lanes⟩, fun o as => ⟨callr_splits o as, ret_splits o as⟩⟩

end Sys2Proof.Machine
end

section
/-! The ranks of a warp's fragments (R33, R39, R165), and the instructions of the program's own scheduling (R165, R166, R248). -/

namespace Sys2Proof.Machine

/-! ### Fragments and ranks -/

theorem Warp.mem_frags {w : Warp} {i : Fin 32} {f : Frag} : (i, f) ∈ w.frags ↔ w.split[i] = some f := by
  simp only [Warp.frags, List.mem_filterMap, List.mem_finRange, true_and, Option.map_eq_some_iff, Prod.mk.injEq]
  exact ⟨fun ⟨_, _, h, rfl, rfl⟩ => h, fun h => ⟨i, f, h, rfl, rfl⟩⟩

/-- A warp's fragments stand in ascending order of their entries. -/
theorem Warp.frags_rising (w : Warp) : w.frags.Pairwise fun x y => x.1 < y.1 := by
  refine List.pairwise_filterMap.mpr ((List.sortedLT_finRange 32).pairwise.imp fun {i j} hij x hx y hy => ?_)
  obtain ⟨_, -, rfl⟩ := Option.map_eq_some_iff.mp hx
  obtain ⟨_, -, rfl⟩ := Option.map_eq_some_iff.mp hy
  exact hij

/-- The rank that the order of a key gives (R33): the number of fragments before. -/
def Warp.place (w : Warp) (key : Fin 32 → Frag → Nat) (n : Nat) : BitVec 5 :=
  BitVec.ofNat 5 ((w.frags.map fun x => key x.1 x.2).filter (· < n)).length

theorem Warp.renumber_split (w : Warp) (key : Fin 32 → Frag → Nat) (i : Fin 32) :
    (w.renumber key).split[i] = (w.split[i]).map fun f => { f with rank := w.place key (key i f) } := by
  simp [Warp.renumber, Warp.place]

theorem Warp.renumber_fields (w : Warp) (key : Fin 32 → Frag → Nat) : ∃ sp, w.renumber key = { w with split := sp } :=
  ⟨_, rfl⟩

/-! ### YIELD -/

/-- The place of a fragment in the order of a YIELD: the yielding one last. -/
def yieldKey (i j : Fin 32) (f : Frag) : Nat := if j = i then 1000 else f.rank.toNat

theorem yieldKey_lt (i j : Fin 32) (f : Frag) : decide (yieldKey i j f < 1000) = (j != i) := by
  have := f.rank.isLt
  rw [Bool.eq_iff_iff, decide_eq_true_iff, bne_iff_ne, yieldKey]
  split
  · rename_i h
    exact iff_of_false (Nat.lt_irrefl _) (not_not_intro h)
  · rename_i h
    exact iff_of_true (by omega) h

/-- The yielding fragment comes behind all the others of its warp. -/
theorem Warp.place_last {w : Warp} {i : Fin 32} {f : Frag} (hf : w.split[i] = some f) :
    w.place (yieldKey i) 1000 = BitVec.ofNat 5 (w.frags.length - 1) := by
  have hnodup : (w.frags.map (·.1)).Nodup := List.pairwise_map.mpr (w.frags_rising.imp ne_of_lt)
  have hmem : i ∈ w.frags.map (·.1) := List.mem_map_of_mem (Warp.mem_frags.mpr hf)
  have hother : (w.frags.filter fun x => x.1 != i).length = w.frags.length - 1 := by
    have := List.length_erase_of_mem hmem
    rw [hnodup.erase_eq_filter, List.filter_map, List.length_map, List.length_map] at this
    exact this
  simp only [Warp.place, List.filter_map, List.length_map, Function.comp_def, yieldKey_lt, hother]

theorem Warp.yieldRank_eq {w : Warp} {i : Fin 32} {f : Frag} (hf : w.split[i] = some f) :
    ∃ sp, w.yieldRank i = { w with split := sp } ∧
      sp[i] = some { f with rank := BitVec.ofNat 5 (w.frags.length - 1), wait := 0 } := by
  have h := Warp.renumber_split w (yieldKey i) i
  rw [hf, Option.map_some, yieldKey, if_pos rfl, Warp.place_last hf] at h
  have hy : w.yieldRank i = { w.renumber (yieldKey i) with
      split := (w.renumber (yieldKey i)).split.set i (((w.renumber (yieldKey i)).split[i]).map fun f => { f with wait := 0 }) } := rfl
  obtain ⟨sp, hsp⟩ := w.renumber_fields (yieldKey i)
  rw [hy, h, hsp]
  exact ⟨_, rfl, by simp⟩

/-! ### Sorting by a key -/

theorem mem_sortBy {α : Type} {k : α → Nat} {x : α} {l : List α} : x ∈ sortBy k l ↔ x ∈ l := by
  suffices h : ∀ acc, x ∈ l.foldl (fun acc x => insertBy k x acc) acc ↔ x ∈ acc ∨ x ∈ l by simpa [sortBy] using h []
  induction l with
  | nil => simp
  | cons y r ih =>
    intro acc
    simp only [List.foldl_cons, ih, mem_insertBy, List.mem_cons]
    tauto

theorem insertBy_rising {α : Type} {k : α → Nat} {x : α} {l : List α} (h : l.Pairwise fun a b => k a ≤ k b) :
    (insertBy k x l).Pairwise fun a b => k a ≤ k b := by
  induction l with
  | nil => exact List.pairwise_singleton _ _
  | cons z r ih =>
    obtain ⟨hz, hr⟩ := List.pairwise_cons.mp h
    rw [insertBy]
    split
    · rename_i hlt
      exact List.pairwise_cons.mpr ⟨fun y hy => (List.mem_cons.mp hy).elim (fun e => e ▸ hlt.le) fun hy => hlt.le.trans (hz y hy), h⟩
    · rename_i hge
      exact List.pairwise_cons.mpr ⟨fun y hy => (mem_insertBy.mp hy).elim (fun e => e ▸ Nat.le_of_not_lt hge) (hz y), ih hr⟩

/-- The first of the sorted list has the least key. -/
theorem sortBy_head {α : Type} {k : α → Nat} {x : α} {l r : List α} (h : sortBy k l = x :: r) :
    x ∈ l ∧ ∀ y ∈ l, k x ≤ k y := by
  have hsort : (sortBy k l).Pairwise fun a b => k a ≤ k b :=
    List.foldlRecOn (motive := List.Pairwise fun a b => k a ≤ k b) l _ .nil fun _ h _ _ => insertBy_rising h
  rw [h] at hsort
  refine ⟨mem_sortBy.mp (h ▸ List.mem_cons_self), fun y hy => ?_⟩
  obtain rfl | hy := List.mem_cons.mp (h ▸ mem_sortBy.mpr hy : y ∈ x :: r)
  · exact le_rfl
  · exact (List.pairwise_cons.mp hsort).1 y hy

/-! ### The program's own scheduling -/

theorem nop_frame (o : Head) : Completes (.nop o) fun s c t w => LaneFrame (.nop o) s c t w := by
  intro s c h
  obtain ⟨t, w, he, ht, hf, -⟩ := ok_laneFrame h (body := fun _ _ s => .ok s) rfl (Noted.rfl' s c) (laneKeeps_self _ c _)
  exact ⟨t, w, he, ht, hf⟩

/-- A fragment that is alone in its warp has nothing to yield to. -/
theorem yield_alone (o : Head) : CompletesIf (.yield o) (fun _ c => c.w.frags.length ≤ 1)
    fun s c t w => LaneFrame (.yield o) s c t w := by
  intro s c h h1
  obtain ⟨t, w, he, ht, hf, -⟩ := ok_laneFrame h (body := yieldEff) (s1 := s) (by rw [yieldEff, if_pos h1]) (Noted.rfl' s c)
    (laneKeeps_self _ c _)
  exact ⟨t, w, he, ht, hf⟩

theorem yield_takes_highest_rank (o : Head) : CompletesIf (.yield o) (fun _ c => 1 < c.w.frags.length) fun _ c _ w =>
    SameData c.w w ∧ SameSpecials c.w w ∧ ∃ f, w.frag? c.ref.sel = some f ∧ f.pc = c.f.pc + 8 ∧ f.mask = c.f.mask ∧
      f.st = .ready ∧ f.wait = 0 ∧ f.rank = BitVec.ofNat 5 (c.w.frags.length - 1) := by
  intro s c h h1
  obtain ⟨i, hi⟩ := isPath_entry h.here
  have hf : c.w.split[i] = some c.f := split_of_frag (hi ▸ h.frag)
  have hidx : idxOf c.ref.sel = i := by rw [hi]; rfl
  obtain ⟨t, a, od, he, ht, -⟩ := ok_completes h (body := yieldEff) (by rw [yieldEff, if_neg (Nat.not_le.mpr h1)]) (Noted.modW s c _)
  obtain ⟨sp, hy, hsp⟩ := Warp.yieldRank_eq hf
  rw [hidx, hy] at ht
  have hfrag : ({ c.w with split := sp } : Warp).frag? c.ref.sel = sp[i] := by rw [hi]; rfl
  rw [hsp] at hfrag
  obtain ⟨sp', hw⟩ := retiredWarp_fields h { c.w with split := sp } a od
  refine ⟨t, _, he, ht, ?_, ?_, _, retiredWarp_frag h hfrag a od, rfl, rfl, rfl, rfl, rfl⟩ <;> rw [hw]
  · exact ⟨rfl, rfl, rfl, rfl, rfl, rfl, rfl, rfl, rfl, rfl, rfl, rfl, rfl, rfl, rfl⟩
  · exact ⟨rfl, rfl, rfl, rfl, rfl, rfl, rfl, rfl, rfl, rfl, rfl, rfl⟩

theorem sleep_stops (o : Xi) : Completes (.sleep o) fun s c _ w => SameData c.w w ∧ SameSpecials c.w w ∧
    ∃ f, w.frag? c.ref.sel = some f ∧ f.pc = c.f.pc + 8 ∧ f.mask = c.f.mask ∧ f.st = .sleeping ∧
      f.deadline = some (s.time + o.imm.toNat) := by
  intro s c h
  obtain ⟨i, hi⟩ := isPath_entry h.here
  have hf : c.w.frag? (.entry i) = some c.f := hi ▸ h.frag
  obtain ⟨t, a, od, he, ht, -⟩ := went_completes_noted h (body := sleepEff o) rfl (Noted.modW s c _)
  rw [hi, Warp.modFrag_eq_set hf] at ht
  refine ⟨t, _, he, ht, ⟨rfl, rfl, rfl, rfl, rfl, rfl, rfl, rfl, rfl, rfl, rfl, rfl, rfl, rfl, rfl⟩,
    ⟨rfl, rfl, rfl, rfl, rfl, rfl, rfl, rfl, rfl, rfl, rfl, rfl⟩,
    { c.f.retire 8 with st := .sleeping, cond := .deadline (s.time + o.imm.toNat), deadline := some (s.time + o.imm.toNat) }, ?_,
    rfl, rfl, rfl, rfl⟩
  rw [hi]
  exact (Warp.frag?_set c.w i _ _).trans (if_pos rfl)

theorem sleepWake_wakes (s : State) (c : Ctx) (n : Nat) (h : s.ctx? c.ref = some c) (hst : c.f.st = .sleeping)
    (hc : c.f.cond = .deadline n) (hn : n ≤ s.time) : exec (.sleepWake c.ref) s =
      .next (s.modFrag c.ref fun f => { f with st := .ready, cond := .never, deadline := none }) := by
  show execSleepWake c.ref s = _
  simp only [execSleepWake, h, hst, hc, State.condMet, hn, decide_true, beq_self_eq_true, Bool.and_self, if_true]

/-- The NOPRE flag, set or cleared, is all that changes of a warp (R248). -/
theorem flag_retires {i : Instr} {s : State} {c : Ctx} {b : Bool} (h : Issues i s c) :
    ∃ t w, issue i (fun c _ s => .ok (s.modW c fun w => { w with nopre := b })) s = .next t ∧
      t.warp? c.ref.block c.ref.warp = some w ∧ Retired i s c t w ∧ SameRegs i c w ∧ SameFull c.w w ∧
      SameSpecials { c.w with nopre := b } w ∧ w.nopre = b := by
  obtain ⟨t, w, sp, a, od, he, ht, hr, rfl⟩ := ok_retires h (body := fun c _ s => .ok (s.modW c fun w => { w with nopre := b })) rfl
    (Noted.modW s c _) rfl rfl rfl
  exact ⟨t, _, he, ht, hr, ⟨fun _ _ _ => rfl, fun _ _ => rfl, fun _ _ => rfl, fun _ _ _ => rfl⟩, ⟨rfl, rfl, rfl⟩,
    ⟨rfl, rfl, rfl, rfl, rfl, rfl, rfl, rfl, rfl, rfl, rfl, rfl⟩, rfl⟩

theorem nopYieldSleepAndPreemptionFlags : NopYieldSleepAndPreemptionFlags :=
  ⟨nop_frame, yield_alone, yield_takes_highest_rank, sleep_stops, sleepWake_wakes, fun _ _ _ h => flag_retires h,
    fun _ _ _ h => flag_retires h⟩

/-! ### Fairness rotation -/

/-- The fragment that a rotation prefers (R39): the ready one that has waited longest, on a tie that of the lowest lane. -/
def fairKey (x : Fin 32 × Frag) : Nat := (8191 - x.2.wait.toNat) * 64 + (((lanesOf x.2.mask).head?).map (·.val)).getD 32

theorem fairKey_lt {x y : Fin 32 × Frag} (h : y.2.wait < x.2.wait) : fairKey x < fairKey y := by
  have low : (((lanesOf x.2.mask).head?).map (·.val)).getD 32 ≤ 32 := by
    cases (lanesOf x.2.mask).head? with
    | none => exact le_rfl
    | some l => exact l.isLt.le
  have hx := x.2.wait.isLt
  have hw : y.2.wait.toNat < x.2.wait.toNat := h
  unfold fairKey
  omega

/-- The place of a fragment in the order of a rotation: the one preferred first. -/
def rotateKey (i j : Fin 32) (f : Frag) : Nat := if j = i then 0 else f.rank.toNat + 1

theorem Warp.rotate_split (w : Warp) (i j : Fin 32) : (w.rotate i).split[j] =
    (w.split[j]).map fun f => { f with rank := w.place (rotateKey i) (rotateKey i j f), wait := 0 } := by
  have h := Warp.renumber_split w (rotateKey i) j
  simp only [Fin.getElem_fin] at h
  have hr : w.rotate i = { w.renumber (rotateKey i) with
      split := (w.renumber (rotateKey i)).split.map (Option.map fun f => { f with wait := 0 }) } := rfl
  simp [hr, h, Function.comp_def]

theorem Warp.rotate_fields (w : Warp) (i : Fin 32) : ∃ sp, w.rotate i = { w with split := sp } := by
  obtain ⟨sp, h⟩ := w.renumber_fields (rotateKey i)
  have hr : w.rotate i = { w.renumber (rotateKey i) with
      split := (w.renumber (rotateKey i)).split.map (Option.map fun f => { f with wait := 0 }) } := rfl
  rw [hr, h]
  exact ⟨_, rfl⟩

theorem Warp.place_zero (w : Warp) (key : Fin 32 → Frag → Nat) : w.place key 0 = 0 := by
  simp [Warp.place]

theorem fairnessRotatesTheRanks : FairnessRotatesTheRanks := by
  intro s r w hw ⟨x, hx, hx4⟩
  have hany : (w.frags.any fun x => decide (4096 ≤ x.2.wait.toNat)) = true := List.any_eq_true.mpr ⟨x, hx, decide_eq_true hx4⟩
  have hwarp (g : Warp → Warp) : (s.modWarp r.block r.warp g).warp? r.block r.warp = some (g w) := by
    rw [State.warp?_modWarp, hw]
    rfl
  have hrun : exec (.fairnessRotation r) s = match sortBy fairKey (w.frags.filter fun x => x.2.st == .ready) with
      | [] => .next (s.modWarp r.block r.warp fun w =>
          { w with split := w.split.map (Option.map fun f => { f with wait := 0 }) })
      | (i, _) :: _ => .next (s.modWarp r.block r.warp fun w => w.rotate i) := by
    show execFairnessRotation r s = _
    simp only [execFairnessRotation, hw, hany, Bool.not_true, Bool.false_eq_true, if_false] <;> rfl
  rw [hrun]
  have hready {i : Fin 32} {f : Frag} (hf : w.frag? (.entry i) = some f) (hst : f.st = .ready) :
      (i, f) ∈ w.frags.filter fun x => x.2.st == .ready :=
    List.mem_filter.mpr ⟨Warp.mem_frags.mpr hf, by simp [hst]⟩
  match hs : sortBy fairKey (w.frags.filter fun x => x.2.st == .ready) with
  | [] =>
    refine ⟨_, _, rfl, hwarp _, ⟨rfl, rfl, rfl, rfl, rfl, rfl, rfl, rfl, rfl, rfl, rfl, rfl, rfl, rfl, rfl⟩, fun i f hf => ?_,
      fun i f hf hst _ => ?_⟩
    · simp only [Warp.frag?, Fin.getElem_fin, Vector.getElem_map, Option.map_eq_some_iff] at hf
      obtain ⟨g, -, rfl⟩ := hf
      rfl
    · have := mem_sortBy (k := fairKey).mpr (hready hf hst)
      rw [hs] at this
      cases this
  | (i, f) :: l =>
    obtain ⟨hmem, hleast⟩ := sortBy_head hs
    have hdata : SameData w (w.rotate i) := by
      obtain ⟨sp, hsp⟩ := w.rotate_fields i
      rw [hsp]
      exact ⟨rfl, rfl, rfl, rfl, rfl, rfl, rfl, rfl, rfl, rfl, rfl, rfl, rfl, rfl, rfl⟩
    refine ⟨_, _, rfl, hwarp _, hdata, fun j g hg => ?_,
      fun j g hg hst hlong => ?_⟩
    · obtain ⟨g', -, rfl⟩ := Option.map_eq_some_iff.mp ((w.rotate_split i j).symm.trans hg)
      rfl
    · obtain ⟨hif, hri⟩ := List.mem_filter.mp hmem
      have hij : i = j := by
        by_contra hne
        have := fairKey_lt (x := (j, g)) (y := (i, f)) (hlong i f hne (Warp.mem_frags.mp hif) (by simpa using hri))
        exact absurd (hleast (j, g) (hready hg hst)) (Nat.not_le.mpr this)
      subst hij
      refine ⟨_, (w.rotate_split i i).trans (congrArg _ hg), ?_, rfl, rfl⟩
      exact (congrArg (w.place _) (if_pos rfl : rotateKey i i g = 0)).trans (w.place_zero _)

/-- Settles O16: the ranks, the sleep and the flag follow the program, and the wait counts. -/
theorem schedulingFollowsTheProgramAndTheWaitCounts : Obligations.SchedulingFollowsTheProgramAndTheWaitCounts :=
  ⟨nopYieldSleepAndPreemptionFlags, fairnessRotatesTheRanks⟩

end Sys2Proof.Machine
end

section
/-! Fusion at the join entries (R32, R33): which entries are free or fused once all their lanes have come, and what a fused fragment is. -/

namespace Sys2Proof.Machine

/-! ### The entry that is ready next -/

/-- The entries whose lanes have all arrived. -/
def Warp.readyJoins (w : Warp) : List (Fin 32 × Join) :=
  (List.finRange 32).filterMap fun k => (w.join[k]).bind fun e => if e.arrived == e.expected then some (k, e) else none

theorem Warp.mem_readyJoins {w : Warp} {k : Fin 32} {e : Join} :
    (k, e) ∈ w.readyJoins ↔ w.join[k] = some e ∧ e.arrived = e.expected := by
  simp only [Warp.readyJoins, List.mem_filterMap, List.mem_finRange, true_and, Option.bind_eq_some_iff, Option.ite_none_right_eq_some,
    beq_iff_eq, Option.some.injEq, Prod.mk.injEq]
  constructor
  · rintro ⟨_, _, h, he, rfl, rfl⟩
    exact ⟨h, he⟩
  · exact fun ⟨h, he⟩ => ⟨k, e, h, he, rfl, rfl⟩

/-- The entry kept of two: the inner one, the first where they are alike. -/
def inner (acc : Option (Fin 32 × Join)) (x : Fin 32 × Join) : Option (Fin 32 × Join) :=
  match acc with
  | none => some x
  | some y => if popcount x.2.expected < popcount y.2.expected then some x else some y

theorem foldl_inner (l : List (Fin 32 × Join)) (y : Fin 32 × Join) : ∃ x, l.foldl inner (some y) = some x ∧ x ∈ y :: l ∧
    ∀ z ∈ y :: l, popcount x.2.expected ≤ popcount z.2.expected := by
  induction l generalizing y with
  | nil => exact ⟨y, rfl, List.mem_cons_self, fun z hz => by rw [List.mem_singleton.mp hz]⟩
  | cons v r ih =>
    obtain ⟨x, hx, hm, hle⟩ := ih (if popcount v.2.expected < popcount y.2.expected then v else y)
    refine ⟨x, ?_, ?_⟩
    · rw [List.foldl_cons, ← hx, inner]
      split <;> rfl
    · by_cases hlt : popcount v.2.expected < popcount y.2.expected
      · rw [if_pos hlt] at hm hle
        refine ⟨List.mem_cons_of_mem _ hm, fun z hz => ?_⟩
        obtain rfl | hz := List.mem_cons.mp hz
        · exact (hle v List.mem_cons_self).trans hlt.le
        · exact hle z hz
      · rw [if_neg hlt] at hm hle
        simp only [List.mem_cons] at hm hle ⊢
        refine ⟨hm.imp_right Or.inr, ?_⟩
        rintro z (rfl | rfl | hz)
        · exact hle _ (.inl rfl)
        · exact (hle y (.inl rfl)).trans (Nat.le_of_not_lt hlt)
        · exact hle _ (.inr hz)

/-- The entry ready next is the innermost of those whose lanes have all arrived (R33). -/
theorem Warp.readyJoin_cases (w : Warp) : (w.readyJoin = none ∧ ∀ (k : Fin 32) (e : Join), w.join[k] = some e → e.arrived ≠ e.expected) ∨
    ∃ k e, w.readyJoin = some (k, e) ∧ w.join[k] = some e ∧ e.arrived = e.expected ∧
      ∀ (q : Fin 32) y, w.join[q] = some y → y.arrived = y.expected → popcount e.expected ≤ popcount y.expected := by
  have hfold : w.readyJoin = w.readyJoins.foldl inner none := rfl
  rw [hfold]
  match hl : w.readyJoins with
  | [] =>
    refine .inl ⟨rfl, fun k e he heq => ?_⟩
    have := Warp.mem_readyJoins.mpr ⟨he, heq⟩
    rw [hl] at this
    cases this
  | y :: r =>
    obtain ⟨⟨k, e⟩, hx, hm, hle⟩ := foldl_inner r y
    obtain ⟨h1, h2⟩ := Warp.mem_readyJoins.mp (hl ▸ hm)
    exact .inr ⟨k, e, hx, h1, h2, fun q y hq hy => hle (q, y) (hl ▸ Warp.mem_readyJoins.mpr ⟨hq, hy⟩)⟩

theorem popcount_eq_zero {m : LaneMask} : popcount m = 0 ↔ m = 0 := by
  rw [popcount, List.length_eq_zero_iff, List.eq_nil_iff_forall_not_mem]
  constructor
  · intro h
    by_contra hm
    obtain ⟨l, hl⟩ := exists_lane_of_ne_zero hm
    exact h l (mem_lanesOf.mpr hl)
  · rintro rfl l hl
    simp [mem_lanesOf] at hl

/-! ### All ready entries -/

theorem Warp.fuseAll_of_none {w : Warp} (h : ∀ (k : Fin 32) (e : Join), w.join[k] = some e → e.arrived ≠ e.expected) (n : Nat) : w.fuseAll n = (w, []) := by
  cases n with
  | zero => rfl
  | succ n =>
    obtain ⟨hr, -⟩ | ⟨k, e, -, hk, he, -⟩ := w.readyJoin_cases
    · rw [Warp.fuseAll, hr]
    · exact absurd he (h k e hk)

theorem Warp.fuseAll_succ {w : Warp} {k : Fin 32} {e : Join} (h : w.readyJoin = some (k, e)) (n : Nat) :
    w.fuseAll (n + 1) = (((w.fuseOne k e).1.fuseAll n).1, (w.fuseOne k e).2.toList ++ ((w.fuseOne k e).1.fuseAll n).2) := by
  rw [Warp.fuseAll, h]

/-- An entry that no lanes are left of is freed, and nothing else (R33). -/
theorem Warp.fuseAll_free {w : Warp} {k : Fin 32} {e : Join} (h : w.readyJoin = some (k, e)) (he : e.expected = 0) (n : Nat) :
    w.fuseAll (n + 1) = ({ w with join := w.join.set k none } : Warp).fuseAll n := by
  have : w.fuseOne k e = ({ w with join := w.join.set k none }, none) := if_pos (by simp [he])
  rw [Warp.fuseAll_succ h, this]
  rfl

theorem leftOf_of_open {x : Option Join} (h : ∀ e ∈ x, e.arrived ≠ e.expected) : leftOf x = x := by
  cases x with
  | none => rfl
  | some e => exact if_neg (h e rfl)

theorem leftOf_of_full {x : Option Join} {e : Join} (h : x = some e) (he : e.arrived = e.expected) : leftOf x = none := by
  rw [h]
  exact if_pos he

theorem getElem_setFin {α : Type} (v : Vector α 32) (i j : Fin 32) (x : α) : (v.set i x)[j] = if j = i then x else v[j] := by
  by_cases h : j = i
  · subst h
    simp
  · have : i.val ≠ j.val := fun h' => h (Fin.ext h'.symm)
    simp [h, this]

/-- Where nothing fuses, the entries that no lanes are left of are freed, and nothing else changes. -/
theorem Warp.fuseAll_frees {n : Nat} {w : Warp} {S : Finset (Fin 32)} (hS : ∀ k e, w.join[k] = some e → e.arrived = e.expected → k ∈ S)
    (hn : S.card ≤ n) (h : NoneFuses fun k => w.join[k]) :
    ∃ jn, w.fuseAll n = ({ w with join := jn }, []) ∧ ∀ k : Fin 32, jn[k] = leftOf w.join[k] := by
  induction n generalizing w S with
  | zero =>
    have hopen (k : Fin 32) (e : Join) (hk : e ∈ w.join[k]) : e.arrived ≠ e.expected := fun he => by
      have := hS k e hk he
      rw [Finset.card_eq_zero.mp (Nat.le_zero.mp hn)] at this
      cases this
    exact ⟨w.join, rfl, fun k => (leftOf_of_open (hopen k)).symm⟩
  | succ n ih =>
    obtain ⟨-, hopen⟩ | ⟨k, e, hr, hk, he, -⟩ := w.readyJoin_cases
    · exact ⟨w.join, Warp.fuseAll_of_none hopen _, fun k => (leftOf_of_open (hopen k)).symm⟩
    · have hset (q : Fin 32) : ({ w with join := w.join.set k none } : Warp).join[q] = if q = k then none else w.join[q] :=
        getElem_setFin w.join k q none
      have hother {q : Fin 32} {y : Join} (hq : ({ w with join := w.join.set k none } : Warp).join[q] = some y) :
          q ≠ k ∧ w.join[q] = some y := by
        rw [hset] at hq
        exact (ite_eq_iff.mp hq).elim (fun h => nomatch h.2) id
      obtain ⟨jn, hf, hjn⟩ := ih (w := { w with join := w.join.set k none }) (S := S.erase k)
        (fun q y hq hy => Finset.mem_erase.mpr ⟨(hother hq).1, hS q y (hother hq).2 hy⟩)
        (Nat.le_of_lt_succ ((Finset.card_erase_lt_of_mem (hS k e hk he)).trans_le hn)) fun q y hq hy => h q y (hother hq).2 hy
      refine ⟨jn, (Warp.fuseAll_free hr (h k e hk he) n).trans hf, fun q => ?_⟩
      rw [hjn, hset]
      by_cases hqk : q = k
      · rw [if_pos hqk, hqk, leftOf_of_full hk he]
        rfl
      · rw [if_neg hqk]

/-- Where one entry fuses, it does so behind the freeing of those that no lanes are left of. -/
theorem Warp.fuseAll_arrived {n : Nat} {w : Warp} {k : Fin 32} {x : Join} {S : Finset (Fin 32)}
    (hS : ∀ q e, w.join[q] = some e → e.arrived = e.expected → q ∈ S) (hn : S.card ≤ n) (h : AllArrived w k x)
    (hjoin : ∀ jn : Vector (Option Join) 32, (({ w with join := jn } : Warp).fuseOne k x).1.join = jn.set k none) :
    ∃ jn, (w.fuseAll n).1 = (({ w with join := jn } : Warp).fuseOne k x).1 ∧ jn[k] = some x ∧
      ∀ q : Fin 32, q ≠ k → jn[q] = leftOf w.join[q] := by
  obtain ⟨hk, hx, hx0, hp, hothers⟩ := h
  induction n generalizing w S with
  | zero =>
    have := hS k x hk hx
    rw [Finset.card_eq_zero.mp (Nat.le_zero.mp hn)] at this
    cases this
  | succ n ih =>
    obtain ⟨-, hopen⟩ | ⟨q, e, hr, hq, he, hleast⟩ := w.readyJoin_cases
    · exact absurd hx (hopen k x hk)
    by_cases hqk : q = k
    · subst hqk
      obtain rfl : e = x := Option.some.inj (hq.symm.trans hk)
      -- The entry is the innermost ready one, so none of the others is ready.
      have hopen (p : Fin 32) (hp : p ≠ q) (y : Join) (hy : y ∈ w.join[p]) : y.arrived ≠ y.expected := fun heq => by
        have := hleast p y hy heq
        rw [hothers p y hp hy heq, popcount_eq_zero.mpr rfl, Nat.le_zero, popcount_eq_zero] at this
        exact hx0 this
      refine ⟨w.join, ?_, hk, fun p hp => (leftOf_of_open (hopen p hp)).symm⟩
      have hjn := hjoin w.join
      rw [Warp.fuseAll_succ hr, Warp.fuseAll_of_none fun p y hy => ?_]
      have hy' : y ∈ (w.join.set q none)[p] := hjn ▸ hy
      rw [getElem_setFin] at hy'
      split at hy'
      · cases hy'
      · rename_i hpq
        exact hopen p hpq y hy'
    · have hset (p : Fin 32) : ({ w with join := w.join.set q none } : Warp).join[p] = if p = q then none else w.join[p] :=
        getElem_setFin w.join q p none
      have hkq : k ≠ q := fun h => hqk h.symm
      have hother {p : Fin 32} {y : Join} (hp : ({ w with join := w.join.set q none } : Warp).join[p] = some y) :
          p ≠ q ∧ w.join[p] = some y := by
        rw [hset] at hp
        exact (ite_eq_iff.mp hp).elim (fun h => nomatch h.2) id
      obtain ⟨jn, hf, hjk, hjn⟩ := ih (w := { w with join := w.join.set q none }) (S := S.erase q)
        (fun p y hpy hy => Finset.mem_erase.mpr ⟨(hother hpy).1, hS p y (hother hpy).2 hy⟩)
        (Nat.le_of_lt_succ ((Finset.card_erase_lt_of_mem (hS q e hq he)).trans_le hn)) hjoin
        (by rw [hset, if_neg hkq, hk]) hp fun p y hpk hpy hy => hothers p y hpk (hother hpy).2 hy
      refine ⟨jn, (congrArg Prod.fst (Warp.fuseAll_free hr (hothers q e hqk hq he) n)).trans hf, hjk, fun p hpk => ?_⟩
      rw [hjn p hpk, hset]
      by_cases hpq : p = q
      · rw [if_pos hpq, hpq, leftOf_of_full hq he]
        rfl
      · rw [if_neg hpq]

end Sys2Proof.Machine
end

section
/-! What a fusion makes of the fragments parked at an entry (R33). -/

namespace Sys2Proof.Machine

/-- A fragment is parked at an entry. -/
def parkedThere (k : Fin 32) (f : Frag) : Bool := f.st == .parkedJoin && f.join == BitVec.ofNat 6 k.val

/-- The fragments of a warp parked at an entry, in order. -/
def Warp.parkedAt (w : Warp) (k : Fin 32) : List (Fin 32 × Frag) := w.frags.filter fun x => parkedThere k x.2

theorem Warp.mem_parkedAt {w : Warp} {k j : Fin 32} {f : Frag} :
    (j, f) ∈ w.parkedAt k ↔ w.split[j] = some f ∧ parkedThere k f = true := by
  rw [Warp.parkedAt, List.mem_filter, Warp.mem_frags]

/-- The lowest of some fragments' ranks. -/
def lowRank (l : List (Fin 32 × Frag)) (r : BitVec 5) : BitVec 5 := l.foldl (fun r x => if x.2.rank < r then x.2.rank else r) r

theorem lowRank_spec (l : List (Fin 32 × Frag)) (r : BitVec 5) :
    lowRank l r ≤ r ∧ (∀ x ∈ l, lowRank l r ≤ x.2.rank) ∧ (lowRank l r = r ∨ ∃ x ∈ l, lowRank l r = x.2.rank) := by
  induction l generalizing r with
  | nil => simp [lowRank]
  | cons y t ih =>
    obtain ⟨h1, h2, h3⟩ := ih (if y.2.rank < r then y.2.rank else r)
    have hc : lowRank (y :: t) r = lowRank t (if y.2.rank < r then y.2.rank else r) := rfl
    rw [hc]
    by_cases hlt : y.2.rank < r
    · rw [if_pos hlt] at h1 h2 h3 ⊢
      refine ⟨BitVec.le_trans h1 (BitVec.le_of_lt hlt), fun x hx => ?_, .inr ?_⟩
      · obtain rfl | hx := List.mem_cons.mp hx
        exacts [h1, h2 x hx]
      · obtain h3 | ⟨x, hx, h3⟩ := h3
        exacts [⟨y, List.mem_cons_self, h3⟩, ⟨x, List.mem_cons_of_mem _ hx, h3⟩]
    · rw [if_neg hlt] at h1 h2 h3 ⊢
      refine ⟨h1, fun x hx => ?_, ?_⟩
      · obtain rfl | hx := List.mem_cons.mp hx
        exacts [BitVec.le_trans h1 (BitVec.not_lt.mp hlt), h2 x hx]
      · obtain h3 | ⟨x, hx, h3⟩ := h3
        exacts [.inl h3, .inr ⟨x, List.mem_cons_of_mem _ hx, h3⟩]

/-- The split table after the fusion at an entry of the fragments parked there into `g`, at index `i`. -/
def fusedSplit (w : Warp) (k i : Fin 32) (g : Frag) : Vector (Option Frag) 32 :=
  Vector.ofFn fun j => if j = i then some g else if (w.parkedAt k).any (·.1 == j) then none else w.split[j]

theorem fusedSplit_self (w : Warp) (k i : Fin 32) (g : Frag) : (fusedSplit w k i g)[i] = some g := by
  simp [fusedSplit]

theorem fusedSplit_ne (w : Warp) {k i j : Fin 32} (g : Frag) (h : j ≠ i) :
    (fusedSplit w k i g)[j] = (w.split[j]).bind fun f => if parkedThere k f then none else some f := by
  have hj : (fusedSplit w k i g)[j] = if (w.parkedAt k).any (·.1 == j) then none else w.split[j] := by
    simp [fusedSplit, h]
  rw [hj]
  cases hf : w.split[j] with
  | none => simp
  | some f =>
    have hany : (w.parkedAt k).any (·.1 == j) = parkedThere k f := by
      rw [Bool.eq_iff_iff, List.any_eq_true]
      constructor
      · rintro ⟨⟨q, f'⟩, hm, hq⟩
        obtain rfl : q = j := by simpa using hq
        obtain ⟨h1, h2⟩ := Warp.mem_parkedAt.mp hm
        exact Option.some.inj (h1.symm.trans hf) ▸ h2
      · exact fun h => ⟨(j, f), Warp.mem_parkedAt.mpr ⟨hf, h⟩, by simp⟩
    rw [hany]
    rfl

/-- A fusion of the fragments parked at an entry (R33). -/
theorem Warp.fuseOne_eq {w : Warp} {k : Fin 32} {e : Join} {i : Fin 32} {f : Frag} {r : List (Fin 32 × Frag)} (he : e.expected ≠ 0)
    (hp : w.parkedAt k = (i, f) :: r) :
    ∃ g rep, (w.fuseOne k e).1 = ({ w with join := w.join.set k none, split := fusedSplit w k i g, rep := rep } : Warp).closeRanks ∧
      g.mask = e.arrived ∧ g.pc = e.addr ∧ g.join = e.parent ∧ g.depth = e.depth ∧ g.st = .ready ∧
      g.rank = lowRank ((i, f) :: r) f.rank := by
  have h0 : (e.expected == 0) = false := beq_eq_false_iff_ne.mpr he
  have hp' : w.frags.filter (fun x => x.2.st == .parkedJoin && x.2.join == BitVec.ofNat 6 k.val) = (i, f) :: r := hp
  simp only [Warp.fuseOne, h0, Bool.false_eq_true, if_false, hp', fusedSplit, hp]
  exact ⟨_, _, rfl, rfl, rfl, rfl, rfl, rfl, rfl⟩

/-! ### The ranks after a fusion -/

/-- How many of a warp's fragments satisfy a test, counted over its entries. -/
theorem Warp.length_filter_frags (w : Warp) (p : Fin 32 × Frag → Bool) :
    (w.frags.filter p).length = (List.finRange 32).countP fun j => (w.split[j]).any fun f => p (j, f) := by
  rw [← List.countP_eq_length_filter, Warp.frags, List.countP_filterMap]
  refine List.countP_congr fun j _ => ?_
  cases w.split[j] <;> simp

/-- The fragments that are not parked at an entry and come before a rank. -/
def Warp.below (w : Warp) (k : Fin 32) (r : BitVec 5) : Nat :=
  (w.frags.filter fun g => !parkedThere k g.2 && decide (g.2.rank < r)).length

theorem countP_finRange (i : Fin 32) (p : Fin 32 → Bool) :
    (List.finRange 32).countP p = ((List.finRange 32).erase i).countP p + if p i then 1 else 0 := by
  rw [(List.perm_cons_erase (List.mem_finRange i)).countP_eq, List.countP_cons]

/-- Before a rank come the fragments not parked at the entry, and the fused one where its rank is lower. -/
theorem place_fused {w w' : Warp} {k i : Fin 32} {f g : Frag} (hs : w'.split = fusedSplit w k i g)
    (hf : w.split[i] = some f) (hp : parkedThere k f = true) (r : BitVec 5) :
    w'.place (fun _ f => f.rank.toNat) r.toNat = BitVec.ofNat 5 (w.below k r + if g.rank < r then 1 else 0) := by
  have hcount : (w'.frags.filter fun x => decide (x.2.rank.toNat < r.toNat)).length = w.below k r + if g.rank < r then 1 else 0 := by
    rw [Warp.below, Warp.length_filter_frags, Warp.length_filter_frags, countP_finRange i, countP_finRange i]
    have hrest : ((List.finRange 32).erase i).countP (fun j => (w'.split[j]).any fun f => decide (f.rank.toNat < r.toNat)) =
        ((List.finRange 32).erase i).countP fun j => (w.split[j]).any fun f => !parkedThere k f && decide (f.rank < r) := by
      refine List.countP_congr fun j hj => ?_
      have hji : j ≠ i := fun h => (List.Nodup.not_mem_erase (List.nodup_finRange 32)) (h ▸ hj)
      rw [hs, fusedSplit_ne w g hji]
      cases w.split[j] with
      | none => simp
      | some f =>
        cases hpf : parkedThere k f <;> simp [hpf, BitVec.lt_def]
    rw [hrest, hs, fusedSplit_self, hf]
    simp [hp, BitVec.lt_def]
  rw [Warp.place, List.filter_map, List.length_map]
  exact congrArg _ hcount

/-- The fragments after a fusion (R33). -/
theorem closeRanks_fused {w w' : Warp} {k i : Fin 32} {f g : Frag} (hs : w'.split = fusedSplit w k i g)
    (hf : w.split[i] = some f) (hp : parkedThere k f = true) :
    w'.closeRanks.split[i] = some { g with rank := BitVec.ofNat 5 (w.below k g.rank) } ∧
    ∀ j : Fin 32, j ≠ i → w'.closeRanks.split[j] = (w.split[j]).bind fun f =>
      if parkedThere k f then none else some { f with rank := BitVec.ofNat 5 (w.below k f.rank + if g.rank < f.rank then 1 else 0) } := by
  have hspl (j : Fin 32) := Warp.renumber_split w' (fun _ f => f.rank.toNat) j
  simp only [place_fused hs hf hp] at hspl
  refine ⟨(hspl i).trans ?_, fun j hj => (hspl j).trans ?_⟩
  · rw [hs, fusedSplit_self]
    simp
  · rw [hs, fusedSplit_ne w g hj]
    cases w.split[j] with
    | none => rfl
    | some f => cases hpf : parkedThere k f <;> simp [hpf]

theorem Warp.closeRanks_fields (w : Warp) : ∃ sp, w.closeRanks = { w with split := sp } := w.renumber_fields _

/-- The first of the fragments parked at an entry is the lowest. -/
theorem Warp.parkedAt_first {w : Warp} {k i : Fin 32} {f : Frag} {r : List (Fin 32 × Frag)} (h : w.parkedAt k = (i, f) :: r)
    {j : Fin 32} {g : Frag} (hg : w.split[j] = some g) (hp : parkedThere k g = true) : i ≤ j := by
  have hrise : (w.parkedAt k).Pairwise fun x y => x.1 < y.1 := w.frags_rising.filter _
  have hm := Warp.mem_parkedAt.mpr ⟨hg, hp⟩
  rw [h] at hrise hm
  obtain hj | hm := List.mem_cons.mp hm
  · exact (congrArg Prod.fst hj).ge
  · exact (List.rel_of_pairwise_cons hrise hm).le

/-- All that has come of an entry whose last lanes have arrived (R33). -/
theorem fuseAll_fuses {p : Warp} {k : Fin 32} {x : Join} (h : AllArrived p k x) : FusesAt p (p.fuseAll 33).1 k x := by
  obtain ⟨hk, hx, hx0, ⟨j0, f0, hj0, hst0, hjn0⟩, -⟩ := id h
  have hthere : parkedThere k f0 = true := by simp [parkedThere, hst0, hjn0]
  match hps : p.parkedAt k with
  | [] =>
    have := Warp.mem_parkedAt.mpr ⟨hj0, hthere⟩
    rw [hps] at this
    cases this
  | (i, f) :: r =>
    obtain ⟨hif, hpf⟩ := Warp.mem_parkedAt.mp (hps ▸ List.mem_cons_self : (i, f) ∈ p.parkedAt k)
    obtain ⟨hlow0, hlow, hlowin⟩ := lowRank_spec ((i, f) :: r) f.rank
    have hone (jn : Vector (Option Join) 32) := Warp.fuseOne_eq (w := { p with join := jn }) hx0 (by exact hps)
    obtain ⟨jn, hf, hjk, hjn⟩ := Warp.fuseAll_arrived (S := Finset.univ) (n := 33) (fun _ _ _ _ => Finset.mem_univ _) (by simp) h
      fun jn => by
        obtain ⟨g, rep, he, -⟩ := hone jn
        rw [he]
        rfl
    obtain ⟨g, rep, he, hmask, hpc, hj, hd, hst, hrank⟩ := hone jn
    rw [hf, he]
    obtain ⟨hself, hne⟩ := closeRanks_fused (w := { p with join := jn }) (w' := { p with
      join := jn.set k none, split := fusedSplit { p with join := jn } k i g, rep := rep }) rfl hif hpf
    obtain ⟨sp, hsp⟩ := Warp.closeRanks_fields { p with
      join := jn.set k none, split := fusedSplit { p with join := jn } k i g, rep := rep }
    rw [hsp] at hself hne ⊢
    refine ⟨⟨rfl, rfl, rfl, rfl, rfl, rfl, rfl, rfl, rfl, rfl, rfl, rfl, rfl, rfl, rfl⟩, rfl, ?_, fun q hq => ?_, i, g.rank, _, ?_, ⟨f, hif, hpf⟩, ?_, hself,
      hmask, hpc, hj, hd, hst, rfl, hne⟩
    · exact (getElem_setFin jn k k none).trans (if_pos rfl)
    · exact (getElem_setFin jn k q none).trans ((if_neg hq).trans (hjn q hq))
    · intro j g' hg' hp'
      exact ⟨Warp.parkedAt_first hps hg' hp', hrank ▸ hlow _ (hps ▸ Warp.mem_parkedAt.mpr ⟨hg', hp'⟩)⟩
    · rw [hrank]
      obtain hl | ⟨y, hy, hl⟩ := hlowin
      · exact ⟨i, f, hif, hpf, hl.symm⟩
      · obtain ⟨h1, h2⟩ := Warp.mem_parkedAt.mp (hps ▸ hy)
        exact ⟨y.1, y.2, h1, h2, hl.symm⟩

end Sys2Proof.Machine
end

section
/-! EXIT and JOIN (R32, R34, R164, R165): what they do to the fragments and the join entries, before and behind the fusion. -/

namespace Sys2Proof.Machine

/-! ### What fusion leaves alone -/

theorem Warp.fuseOne_fields (w : Warp) (k : Fin 32) (e : Join) :
    ∃ sp jn rp, (w.fuseOne k e).1 = { w with split := sp, join := jn, rep := rp } := by
  by_cases he : e.expected = 0
  · exact ⟨w.split, w.join.set k none, w.rep, congrArg Prod.fst (if_pos (beq_iff_eq.mpr he))⟩
  · match hp : w.parkedAt k with
    | [] =>
      have hp' : w.frags.filter (fun x => x.2.st == .parkedJoin && x.2.join == BitVec.ofNat 6 k.val) = [] := hp
      have h0 : (e.expected == 0) = false := beq_eq_false_iff_ne.mpr he
      exact ⟨w.split, w.join.set k none, w.rep, by simp only [Warp.fuseOne, h0, Bool.false_eq_true, if_false, hp']⟩
    | (i, f) :: r =>
      obtain ⟨g, rep, h, -⟩ := Warp.fuseOne_eq he hp
      obtain ⟨sp, hsp⟩ := Warp.closeRanks_fields { w with join := w.join.set k none, split := fusedSplit w k i g, rep := rep }
      exact ⟨sp, _, rep, h.trans hsp⟩

theorem Warp.fuseAll_fields (n : Nat) (w : Warp) : ∃ sp jn rp, (w.fuseAll n).1 = { w with split := sp, join := jn, rep := rp } := by
  induction n generalizing w with
  | zero => exact ⟨w.split, w.join, w.rep, rfl⟩
  | succ n ih =>
    obtain ⟨-, h⟩ | ⟨k, e, hr, -⟩ := w.readyJoin_cases
    · exact ⟨w.split, w.join, w.rep, by rw [Warp.fuseAll_of_none h]⟩
    · obtain ⟨sp, jn, rp, h1⟩ := w.fuseOne_fields k e
      obtain ⟨sp', jn', rp', h2⟩ := ih (w.fuseOne k e).1
      refine ⟨sp', jn', rp', ?_⟩
      rw [Warp.fuseAll_succ hr]
      refine h2.trans ?_
      rw [h1]

/-! ### The issuing warp behind a fusion -/

/-- The issuing warp behind `afterMasks`: fused, and with its handler left where its lanes have gone. -/
theorem afterMasks_warp {s : State} {c : Ctx} {w0 : Warp} (h : s.warp? c.ref.block c.ref.warp = some w0) (w : Warp) :
    ∃ hd, (s.afterMasks c w).warp? c.ref.block c.ref.warp =
      some { (Warp.fuseAll 33 { w with started := true }).1 with handler := hd } := by
  obtain ⟨st, hn⟩ := firstSync_noted s c
  have hcheck (t : State) : (t.modBlock c.ref.block Block.checkBars).warp? c.ref.block c.ref.warp =
      t.warp? c.ref.block c.ref.warp := by
    rw [State.warp?, State.block?_modBlock t c.ref.block Block.checkBars fun _ => rfl, State.warp?]
    cases t.block? c.ref.block <;> rfl
  have hpackets := (hn.trans (Noted.foldl (fun s i => Noted.packet s c c.b.core c.l.asid (some 0x30)
    [BitVec.ofNat 8 c.w.warpSlot, BitVec.ofNat 8 i.val]) (Warp.fuseAll 33 { w with started := true }).2 _))
  simp only [State.afterMasks, hcheck]
  split
  · exact ⟨_, ((hpackets.trans (Noted.packet _ c _ _ _ _)).trans (Noted.modW _ c _)).warp_eq h⟩
  · exact ⟨_, (hpackets.trans (Noted.modW _ c _)).warp_eq h⟩

/-- The marks of a warp are no matter of a fusion. -/
theorem fusesAt_of_marks {p p' w w' : Warp} {k : Fin 32} {x : Join} (h : FusesAt p w k x) {a b : Bool} {hd : Option Handler} {od : Word}
    (hp : p = { p' with started := a }) (hw : w' = { w with handler := hd, started := b, ordinal := od }) : FusesAt p' w' k x := by
  subst hp hw
  obtain ⟨hd, hrest⟩ := h
  exact ⟨⟨hd.v, hd.s, hd.h, hd.cc0, hd.cc1, hd.vFull, hd.sFull, hd.hFull, hd.x, hd.part, hd.amax, hd.nanSeen, hd.tick, hd.repc,
    hd.nopre⟩, hrest⟩

/-- Behind masks that make nothing fuse, the entries that no lanes are left of are free. -/
theorem afterMasks_frees {s : State} {c : Ctx} {w0 p : Warp} (h : s.warp? c.ref.block c.ref.warp = some w0)
    (hn : NoneFuses fun k => p.join[k]) : ∃ hd jn, (s.afterMasks c p).warp? c.ref.block c.ref.warp =
      some { p with started := true, join := jn, handler := hd } ∧ ∀ k : Fin 32, jn[k] = leftOf p.join[k] := by
  obtain ⟨hd, hw⟩ := afterMasks_warp h p
  obtain ⟨jn, hf, hjn⟩ := Warp.fuseAll_frees (n := 33) (w := { p with started := true }) (S := Finset.univ)
    (fun _ _ _ _ => Finset.mem_univ _) (by simp) hn
  rw [hf] at hw
  exact ⟨hd, jn, hw, hjn⟩

/-- Behind masks with which an entry's last lanes arrive, its fragments are one. -/
theorem afterMasks_fuses {s : State} {c : Ctx} {w0 p : Warp} {k : Fin 32} {x : Join}
    (h : s.warp? c.ref.block c.ref.warp = some w0) (ha : AllArrived p k x) :
    ∃ w, (s.afterMasks c p).warp? c.ref.block c.ref.warp = some w ∧ ∀ a o, FusesAt p { w with started := a, ordinal := o } k x := by
  obtain ⟨hd, hw⟩ := afterMasks_warp h p
  exact ⟨_, hw, fun a o => fusesAt_of_marks (fuseAll_fuses (p := { p with started := true }) ha) rfl rfl⟩

/-! ### JOIN -/

/-- A fragment, parked at an entry (R32). -/
def parkedFrag (f : Frag) (e : Fin 32) : Frag := { f with st := .parkedJoin, join := BitVec.ofNat 6 e.val, cond := .never }

theorem Warp.parkAt_eq {w : Warp} {i : Fin 32} {f : Frag} (hf : w.split[i] = some f) (e : Fin 32) :
    ∃ jn, w.parkAt i e = { w with
      join := jn, split := w.split.set i (some (parkedFrag f e)) } := by
  rw [Warp.parkAt, hf]
  exact ⟨_, rfl⟩

theorem parkAt_join {c : Ctx} {i : Fin 32} (e k : Fin 32) (hf : c.w.split[i] = some c.f) :
    (c.w.parkAt i e).join[k] = parkJoin c e k := by
  have hmem : (((c.w.joinChain 32 c.f.join).map (·.1)).takeWhile (· != e)).contains k =
      ((c.w.joinChain 32 c.f.join).takeWhile (·.1 != e)).any (·.1 == k) := by
    rw [List.takeWhile_map, List.contains_eq_any_beq, List.any_map]
    refine congrArg (List.any _) (funext fun x => ?_)
    exact Bool.beq_comm
  simp only [Warp.parkAt, hf, parkJoin, ← hmem]
  simp

theorem join_without_entry (o : Head) : CompletesIf (.join o) (fun _ c => c.w.joinAt c.f.join = none)
    fun s c t w => LaneFrame (.join o) s c t w := by
  intro s c h hj
  obtain ⟨t, w, he, ht, hf, -⟩ := ok_laneFrame h (body := joinEff) (s1 := s) (by rw [joinEff, hj]) (Noted.rfl' s c)
    (laneKeeps_self _ c _)
  exact ⟨t, w, he, ht, hf⟩

/-- The parked fragment, where nothing fuses. -/
theorem parked_frees {s : State} {c : Ctx} {i e : Fin 32} (hw : s.warp? c.ref.block c.ref.warp = some c.w)
    (hi : c.ref.sel = .entry i) (hf : c.w.frag? c.ref.sel = some c.f) (hn : NoneFuses (parkJoin c e)) :
    ∃ w, (s.afterMasks c (c.w.parkAt i e)).warp? c.ref.block c.ref.warp = some w ∧ SameData c.w w ∧ w.exited = c.w.exited ∧
      (∀ k : Fin 32, w.join[k] = leftOf (parkJoin c e k)) ∧
      w.split[i] = some (parkedFrag c.f e) := by
  have hs : c.w.split[i] = some c.f := split_of_frag (hi ▸ hf)
  obtain ⟨hd, jn, hw', hjn⟩ := afterMasks_frees hw (p := c.w.parkAt i e) (by simpa only [parkAt_join e _ hs] using hn)
  obtain ⟨jn', hp⟩ := Warp.parkAt_eq hs e
  refine ⟨_, hw', ?_, ?_, fun k => (hjn k).trans (by rw [parkAt_join e k hs]), ?_⟩ <;> rw [hp]
  · exact ⟨rfl, rfl, rfl, rfl, rfl, rfl, rfl, rfl, rfl, rfl, rfl, rfl, rfl, rfl, rfl⟩
  · simp

theorem join_parks (o : Head) (e : Fin 32) (j : Join) : CompletesIf (.join o)
    (fun _ c => c.w.joinAt c.f.join = some (e, j) ∧ NoneFuses (parkJoin c e)) fun _ c _ w =>
      SameData c.w w ∧ w.exited = c.w.exited ∧ (∀ k : Fin 32, w.join[k] = leftOf (parkJoin c e k)) ∧
      ∃ f, w.frag? c.ref.sel = some f ∧ f.st = .parkedJoin ∧ f.join = BitVec.ofNat 6 e.val ∧ f.mask = c.f.mask := by
  rintro s c h ⟨hj, hn⟩
  obtain ⟨i, hi⟩ := isPath_entry h.here
  have hidx : idxOf c.ref.sel = i := by rw [hi]; rfl
  obtain ⟨w, hw, hd, hx, hjn, hs⟩ := parked_frees h.warp hi h.frag hn
  obtain ⟨t, a, od, he, ht, -⟩ := went_completes h (body := joinEff) (by rw [joinEff, hj, State.warpOf_eq h.warp, hidx]) hw
  refine ⟨t, _, he, ht, ⟨hd.v, hd.s, hd.h, hd.cc0, hd.cc1, hd.vFull, hd.sFull, hd.hFull, hd.x, hd.part, hd.amax, hd.nanSeen,
    hd.tick, hd.repc, hd.nopre⟩, hx, hjn, parkedFrag c.f e, ?_, rfl, rfl, rfl⟩
  rw [hi]
  exact hs

theorem join_fuses (o : Head) (e k : Fin 32) (j x : Join) : CompletesIf (.join o)
    (fun _ c => c.w.joinAt c.f.join = some (e, j) ∧ AllArrived (c.w.parkAt (idxOf c.ref.sel) e) k x) fun _ c _ w =>
      FusesAt (c.w.parkAt (idxOf c.ref.sel) e) w k x := by
  rintro s c h ⟨hj, ha⟩
  obtain ⟨w, hw, hfuse⟩ := afterMasks_fuses h.warp ha
  obtain ⟨t, a, od, he, ht, -⟩ := went_completes h (body := joinEff) (by rw [joinEff, hj, State.warpOf_eq h.warp]) hw
  exact ⟨t, _, he, ht, hfuse a od⟩

/-! ### Join addresses -/

theorem exec_joinPark {s : State} {c : Ctx} {i e : Fin 32} (h : s.ctx? c.ref = some c) (hi : c.ref.sel = .entry i)
    (hst : c.f.st = .ready) (he : c.w.parkEntry c.f = some e) :
    exec (.joinPark c.ref) s = .next (s.afterMasks c (c.w.parkAt i e)) := by
  show execJoinPark c.ref s = _
  have hw := State.warpOf_eq (State.ctx?_eq h).2.2.1
  simp only [execJoinPark, h, hi, hst, he, hw]
  rfl

theorem joinPark_parks (s : State) (c : Ctx) (i e : Fin 32) (h : s.ctx? c.ref = some c) (hi : c.ref.sel = .entry i)
    (hst : c.f.st = .ready) (he : c.w.parkEntry c.f = some e) (hn : NoneFuses (parkJoin c e)) :
    ∃ t w f, exec (.joinPark c.ref) s = .next t ∧ t.warp? c.ref.block c.ref.warp = some w ∧ w.frag? c.ref.sel = some f ∧
      f.st = .parkedJoin ∧ f.join = BitVec.ofNat 6 e.val ∧ f.mask = c.f.mask ∧ SameData c.w w ∧
      ∀ k : Fin 32, w.join[k] = leftOf (parkJoin c e k) := by
  obtain ⟨-, -, hw, hf, -⟩ := State.ctx?_eq h
  obtain ⟨w, hw', hd, -, hjn, hs⟩ := parked_frees hw hi hf hn
  refine ⟨_, w, parkedFrag c.f e, exec_joinPark h hi hst he, hw', ?_, rfl, rfl, rfl, hd, hjn⟩
  rw [hi]
  exact hs

theorem joinPark_fuses (s : State) (c : Ctx) (i e k : Fin 32) (x : Join) (h : s.ctx? c.ref = some c) (hi : c.ref.sel = .entry i)
    (hst : c.f.st = .ready) (he : c.w.parkEntry c.f = some e) (ha : AllArrived (c.w.parkAt i e) k x) :
    ∃ t w, exec (.joinPark c.ref) s = .next t ∧ t.warp? c.ref.block c.ref.warp = some w ∧ FusesAt (c.w.parkAt i e) w k x := by
  obtain ⟨w, hw, hfuse⟩ := afterMasks_fuses (State.ctx?_eq h).2.2.1 ha
  exact ⟨_, w, exec_joinPark h hi hst he, hw, hfuse w.started w.ordinal⟩

end Sys2Proof.Machine
end

section
/-! EXIT (R34, R164): the lanes that leave, the loads they leave behind, and the entries that expect them no more. -/

namespace Sys2Proof.Machine

/-! ### Discarded loads -/

/-- A warp with other full bits and another mark of its first SYNC. -/
def Warp.refilled (w : Warp) (v : BitVec 128) (s : BitVec 64) (h : BitVec 16) (st : Bool) : Warp :=
  { w with vFull := v, sFull := s, hFull := h, started := st }

theorem Warp.markAll_refills (w : Warp) (full : Bool) (l : List (RegClass × Nat)) :
    ∃ a b d, w.markAll full l = w.refilled a b d w.started := by
  suffices h : ∀ a b d, ∃ a' b' d', (w.refilled a b d w.started).markAll full l = w.refilled a' b' d' w.started from h w.vFull w.sFull w.hFull
  induction l with
  | nil => exact fun a b d => ⟨a, b, d, rfl⟩
  | cons r t ih =>
    obtain ⟨cls, n⟩ := r
    intro a b d
    cases cls with
    | v => exact ih _ b d
    | s => exact ih a _ d
    | h => exact ih a b _
    | tile => exact ih a b d

theorem fill_refills {s : State} {u i : Nat} {w : Warp} (h : s.warp? u i = some w) (q : Req) :
    ∃ a b d, (s.fill q).warp? u i = some (w.refilled a b d w.started) := by
  unfold State.fill
  split
  · exact ⟨w.vFull, w.sFull, w.hFull, h⟩
  · by_cases hq : (u, i) = (q.block, q.warp)
    · obtain ⟨rfl, rfl⟩ := Prod.mk.inj hq
      obtain ⟨a, b, d, hm⟩ := w.markAll_refills true q.dests
      exact ⟨a, b, d, by rw [State.warp?_modWarp, h, Option.map_some, hm]⟩
    · exact ⟨w.vFull, w.sFull, w.hFull, (State.warp?_modWarp_ne s _ hq).trans h⟩

/-- The values of discarded loads do not come; their registers' full bits are all that changes of a warp (R164). -/
theorem discard_refills {s : State} {u i : Nat} {w : Warp} (h : s.warp? u i = some w) (p : Req → Bool) :
    ∃ a b d, (s.discard p).warp? u i = some (w.refilled a b d w.started) := by
  suffices hfold : ∀ (l : List Req) (t : State), (∃ a b d, t.warp? u i = some (w.refilled a b d w.started)) →
      ∃ a b d, (l.foldl State.fill t).warp? u i = some (w.refilled a b d w.started) from
    hfold _ _ ⟨w.vFull, w.sFull, w.hFull, h⟩
  intro l
  induction l with
  | nil => exact fun _ => id
  | cons q r ih =>
    rintro t ⟨a, b, d, ht⟩
    obtain ⟨a', b', d', hf⟩ := fill_refills ht q
    exact ih _ ⟨a', b', d', hf⟩

/-! ### The lanes that exit -/

theorem Warp.heir_fields (w : Warp) : ∃ rp rc, w.heir = { w with rep := rp, repc := rc } := by
  unfold Warp.heir
  split
  · split
    · exact ⟨w.rep, w.repc, rfl⟩
    · split
      · exact ⟨w.rep, w.repc, rfl⟩
      · split
        · exact ⟨_, w.repc, rfl⟩
        · exact ⟨_, _, rfl⟩
  · exact ⟨w.rep, w.repc, rfl⟩

theorem Warp.heir_refilled (w : Warp) (v : BitVec 128) (s : BitVec 64) (h : BitVec 16) (st : Bool) :
    (w.refilled v s h st).heir = w.heir.refilled v s h st := by
  have hfrags : (w.refilled v s h st).frags = w.frags := rfl
  have hrep : (w.refilled v s h st).rep = w.rep := rfl
  have hsplit : (w.refilled v s h st).split = w.split := rfl
  simp only [Warp.heir, hfrags, hrep, hsplit]
  cases w.rep with
  | none => rfl
  | some r =>
    obtain ⟨owner, _⟩ := r
    cases owner with
    | path _ _ => rfl
    | entry i =>
      simp only
      split
      · rfl
      · cases w.frags.find? fun x => x.2.handler <;> rfl

/-- The warp without the lanes that exit, before its ranks close and its REP finds an owner (R34). -/
def Warp.vacated (w : Warp) (i : Fin 32) (f : Frag) (m : LaneMask) : Warp :=
  { w with
    join := Vector.ofFn fun k => (w.join[k]).map fun j =>
      if ((w.joinChain 32 f.join).map (·.1)).contains k then { j with expected := j.expected &&& ~~~m } else j
    exited := w.exited ||| m
    split := w.split.set i (if f.mask &&& ~~~m == 0 then none else some { f with mask := f.mask &&& ~~~m })
    resv := Vector.ofFn fun l => if m.getLsbD l.val then none else w.resv[l] }

theorem Warp.exitLanes_eq {w : Warp} {i : Fin 32} {f : Frag} (hf : w.split[i] = some f) (m : LaneMask) :
    w.exitLanes i m = (if f.mask &&& ~~~m == 0 then (w.vacated i f m).closeRanks else w.vacated i f m).heir := by
  rw [Warp.exitLanes, hf]
  rfl

theorem joinChain_congr {w w' : Warp} (h : w'.join = w.join) (n : Nat) (j : BitVec 6) : w'.joinChain n j = w.joinChain n j := by
  have hat : w'.joinAt = w.joinAt := by
    funext k
    simp only [Warp.joinAt, h]
  induction n generalizing j with
  | zero => rfl
  | succ n ih =>
    rw [Warp.joinChain, Warp.joinChain, hat]
    cases w.joinAt j with
    | none => rfl
    | some x => exact congrArg (List.cons _) (ih _)

theorem Warp.exitLanes_refilled {w : Warp} {i : Fin 32} {f : Frag} (hf : w.split[i] = some f) (m : LaneMask) (v : BitVec 128)
    (s : BitVec 64) (h : BitVec 16) (st : Bool) :
    (w.refilled v s h st).exitLanes i m = (w.exitLanes i m).refilled v s h st := by
  have hchain : (w.refilled v s h st).joinChain 32 f.join = w.joinChain 32 f.join :=
    joinChain_congr rfl 32 f.join
  have hv : (w.refilled v s h st).vacated i f m = (w.vacated i f m).refilled v s h st := by
    simp only [Warp.vacated, hchain]
    rfl
  rw [Warp.exitLanes_eq hf, Warp.exitLanes_eq (w := w.refilled v s h st) hf, ← Warp.heir_refilled, hv]
  split <;> rfl

theorem exitLanes_spec {w : Warp} {i : Fin 32} {f : Frag} (hf : w.split[i] = some f) (m : LaneMask) :
    ∃ sp rp rc, w.exitLanes i m = { w.vacated i f m with split := sp, rep := rp, repc := rc } ∧
      (f.mask &&& ~~~m = 0 → sp[i] = none) ∧ (f.mask &&& ~~~m ≠ 0 → sp[i] = some { f with mask := f.mask &&& ~~~m }) ∧
      ∀ j : Fin 32, j ≠ i → (sp[j]).map (fun g => { g with rank := 0 }) = (w.split[j]).map fun g => { g with rank := 0 } := by
  have hv (j : Fin 32) : (w.vacated i f m).split[j] = if j = i then
      (if f.mask &&& ~~~m == 0 then none else some { f with mask := f.mask &&& ~~~m }) else w.split[j] :=
    getElem_setFin w.split i j _
  by_cases hz : f.mask &&& ~~~m = 0
  · have hz' : (f.mask &&& ~~~m == 0) = true := beq_iff_eq.mpr hz
    obtain ⟨rp, rc, hh⟩ := (w.vacated i f m).closeRanks.heir_fields
    have hspl (j : Fin 32) := Warp.renumber_split (w.vacated i f m) (fun _ f => f.rank.toNat) j
    obtain ⟨sp, hsp⟩ := (w.vacated i f m).closeRanks_fields
    have hsp' : (w.vacated i f m).renumber (fun _ f => f.rank.toNat) = _ := hsp
    simp only [hsp', hv, hz', if_true] at hspl
    refine ⟨sp, rp, rc, by rw [Warp.exitLanes_eq hf, if_pos hz', hh, hsp], fun _ => ?_, fun h => absurd hz h, fun j hj => ?_⟩
    · rw [hspl i, if_pos rfl]
      rfl
    · rw [hspl j, if_neg hj]
      cases w.split[j] <;> rfl
  · have hz' : (f.mask &&& ~~~m == 0) = false := beq_eq_false_iff_ne.mpr hz
    obtain ⟨rp, rc, hh⟩ := (w.vacated i f m).heir_fields
    simp only [hz', Bool.false_eq_true, if_false] at hv
    refine ⟨_, rp, rc, by rw [Warp.exitLanes_eq hf, hz', if_neg Bool.false_ne_true, hh], fun h => absurd h hz, fun _ => ?_,
      fun j hj => ?_⟩
    · rw [hv i, if_pos rfl]
    · rw [hv j, if_neg hj]

/-- The entries of a fragment's chain expect the lanes that exit no more. -/
theorem vacated_join {c : Ctx} {w : Warp} {i : Fin 32} {f : Frag} (hj : w.join = c.w.join) (hf : f.join = c.f.join) (m : LaneMask)
    (k : Fin 32) : (w.vacated i f m).join[k] = exitJoin c m k := by
  have hmem : ((w.joinChain 32 f.join).map (·.1)).contains k = (c.w.joinChain 32 c.f.join).any (·.1 == k) := by
    rw [joinChain_congr hj, hf, List.contains_eq_any_beq, List.any_map]
    exact congrArg (List.any _) (funext fun x => Bool.beq_comm)
  simp only [Warp.vacated, hj, exitJoin, ← hmem]
  simp

/-! ### EXIT -/

/-- The BRM packet of an EXIT with a guard is no matter of the warps but for the first SYNC. -/
theorem exitBrm_noted (o : Head) (s : State) (c : Ctx) (m : LaneMask) : ∃ st : Warp → Bool,
    Noted c (fun w => { w with started := st w }) s (if o.guard == .al then s else s.brm c m) := by
  split
  · exact ⟨Warp.started, Noted.rfl' s c⟩
  · exact brm_noted s c m

theorem exit_no_lanes (o : Head) : CompletesIf (.exit o) (fun _ c => c.lanes (.exit o) = 0)
    fun s c t w => LaneFrame (.exit o) s c t w := by
  intro s c h hz
  obtain ⟨st, hn⟩ := exitBrm_noted o s c (c.lanes (.exit o))
  obtain ⟨t, w, he, ht, hf, -⟩ := ok_laneFrame h (body := exitEff o) (by rw [exitEff, if_pos (beq_iff_eq.mpr hz)]) hn
    (laneKeeps_self _ c _)
  exact ⟨t, w, he, ht, hf⟩

/-- The issuing warp of an EXIT, before fusion is checked and with its loads discarded. -/
def leavingWarp (o : Head) (c : Ctx) : Warp :=
  (c.w.modFrag (fun f => f.retire 8) c.ref.sel).exitLanes (idxOf c.ref.sel) (c.lanes (.exit o))

/-- What an EXIT of some lanes has done before fusion is checked. -/
theorem leavingWarp_spec {o : Head} {s : State} {c : Ctx} {i : Fin 32} (h : Issues (.exit o) s c) (hi : c.ref.sel = .entry i) :
    ∃ sp jn rp rc, leavingWarp o c = { c.w with
        split := sp, join := jn, rep := rp, repc := rc, exited := c.w.exited ||| c.lanes (.exit o),
        resv := Vector.ofFn fun l => if (c.lanes (.exit o)).getLsbD l.val then none else c.w.resv[l] } ∧
      (∀ k : Fin 32, jn[k] = exitJoin c (c.lanes (.exit o)) k) ∧
      (c.f.mask &&& ~~~c.lanes (.exit o) = 0 → sp[i] = none) ∧
      (c.f.mask &&& ~~~c.lanes (.exit o) ≠ 0 → sp[i] = some { c.f.retire 8 with mask := c.f.mask &&& ~~~c.lanes (.exit o) }) ∧
      ∀ j : Fin 32, .entry j ≠ c.ref.sel → (sp[j]).map (fun g => { g with rank := 0 }) = (c.w.split[j]).map fun g => { g with rank := 0 } := by
  have hidx : idxOf c.ref.sel = i := by rw [hi]; rfl
  have hf : c.w.frag? (.entry i) = some c.f := hi ▸ h.frag
  rw [leavingWarp, hidx, hi, Warp.modFrag_eq_set hf]
  obtain ⟨sp, rp, rc, he, h0, h1, hne⟩ := exitLanes_spec (w := { c.w with split := c.w.split.set i (some (c.f.retire 8)) })
    ((getElem_setFin c.w.split i i _).trans (if_pos rfl)) (c.lanes (.exit o))
  refine ⟨sp, _, rp, rc, he, fun k => vacated_join (w := { c.w with split := c.w.split.set i (some (c.f.retire 8)) })
    (i := i) (f := c.f.retire 8) rfl rfl _ k, h0, h1, fun j hj => ?_⟩
  have hji : j ≠ i := fun hji => hj (hji ▸ rfl)
  exact (hne j hji).trans (congrArg _ ((getElem_setFin c.w.split i j _).trans (if_neg hji)))

/-- An EXIT of some lanes ends behind the fusion of the warp they have left. -/
theorem exit_completes {o : Head} {s : State} {c : Ctx} (h : Issues (.exit o) s c) (hm : c.lanes (.exit o) ≠ 0) :
    ∃ (s1 : State) (w0 : Warp) (a : BitVec 128) (b : BitVec 64) (d : BitVec 16) (e : Bool), s1.warp? c.ref.block c.ref.warp = some w0 ∧
      ∀ w1 : Warp, (s1.afterMasks c ((leavingWarp o c).refilled a b d e)).warp? c.ref.block c.ref.warp = some w1 →
        ∃ t x od, issue (.exit o) (exitEff o) s = .next t ∧
          t.warp? c.ref.block c.ref.warp = some { w1 with started := x, ordinal := od } := by
  obtain ⟨st, hn⟩ := exitBrm_noted o s c (c.lanes (.exit o))
  obtain ⟨a, b, d, hd⟩ := discard_refills (hn.warp_eq h.warp) fun q =>
    q.block == c.ref.block && q.warp == c.ref.warp && (c.lanes (.exit o)).getLsbD q.lane
  refine ⟨_, _, a, b, d, st c.w, hd, fun w1 hw1 => ?_⟩
  obtain ⟨i, hi⟩ := isPath_entry h.here
  have hidx : idxOf c.ref.sel = i := by rw [hi]; rfl
  have hf : c.w.frag? (.entry i) = some c.f := hi ▸ h.frag
  have hleave : (leavingWarp o c).refilled a b d (st c.w) =
      ((({ c.w with started := st c.w } : Warp).refilled a b d (st c.w)).modFrag (fun f => f.retire 8) c.ref.sel).exitLanes
        (idxOf c.ref.sel) (c.lanes (.exit o)) := by
    rw [leavingWarp, ← Warp.exitLanes_refilled (f := c.f.retire 8), hi]
    · rfl
    · rw [hidx, hi, Warp.modFrag_eq_set hf]
      exact (getElem_setFin c.w.split i i _).trans (if_pos rfl)
  rw [hleave] at hw1
  obtain ⟨t, x, od, he, ht, -⟩ := went_completes h (body := exitEff o)
    (by
      rw [exitEff, if_neg (by simpa using hm)]
      simp only [State.warpOf_eq hd]) hw1
  exact ⟨t, x, od, he, ht⟩

/-- The warp an EXIT leaves before fusion is checked, its full bits as the warp that the EXIT ends with has them. -/
theorem exitedWarp_eq {o : Head} {c : Ctx} {w : Warp} {a : BitVec 128} {b : BitVec 64} {d : BitVec 16} {e : Bool}
    (h : SameFull ((leavingWarp o c).refilled a b d e) w) :
    exitedWarp o c w = { (leavingWarp o c).refilled a b d e with started := (leavingWarp o c).started } := by
  rw [exitedWarp, h.v, h.s, h.h]
  rfl

theorem exit_some_lanes (o : Head) : CompletesIf (.exit o) (fun _ c => c.lanes (.exit o) ≠ 0) fun _ c _ w =>
    w.exited = c.w.exited ||| c.lanes (.exit o) ∧ w.v = c.w.v ∧ w.s = c.w.s ∧ w.h = c.w.h ∧ w.cc0 = c.w.cc0 ∧ w.cc1 = c.w.cc1 ∧
    (∀ l : Lane, (c.lanes (.exit o)).getLsbD l.val = true → w.resv[l] = none) ∧
    (NoneFuses (exitJoin c (c.lanes (.exit o))) →
      (∀ k : Fin 32, w.join[k] = leftOf (exitJoin c (c.lanes (.exit o)) k)) ∧
      (c.f.mask &&& ~~~c.lanes (.exit o) = 0 → w.frag? c.ref.sel = none) ∧
      (c.f.mask &&& ~~~c.lanes (.exit o) ≠ 0 → ∃ f, w.frag? c.ref.sel = some f ∧ f.pc = c.f.pc + 8 ∧ f.st = .ready ∧
        f.mask = c.f.mask &&& ~~~c.lanes (.exit o) ∧ f.join = c.f.join ∧ f.depth = c.f.depth)) ∧
    (∀ k x, AllArrived (exitedWarp o c w) k x → FusesAt (exitedWarp o c w) w k x) ∧
    (∀ k : Fin 32, (exitedWarp o c w).join[k] = exitJoin c (c.lanes (.exit o)) k) ∧
    ∀ j : Fin 32, .entry j ≠ c.ref.sel → ((exitedWarp o c w).split[j]).map (fun f => { f with rank := 0 }) =
      (c.w.split[j]).map fun f => { f with rank := 0 } := by
  intro s c h hm
  obtain ⟨i, hi⟩ := isPath_entry h.here
  obtain ⟨s1, w0, a, b, d, e, hw0, hend⟩ := exit_completes h hm
  obtain ⟨sp, jn, rp, rc, hleave, hjoin, hgone, hleft, hothers⟩ := leavingWarp_spec h hi
  obtain ⟨hd, hafter⟩ := afterMasks_warp hw0 ((leavingWarp o c).refilled a b d e)
  obtain ⟨t, x, od, he, ht⟩ := hend _ hafter
  obtain ⟨sp', jn', rp', hfields⟩ := Warp.fuseAll_fields 33 { (leavingWarp o c).refilled a b d e with started := true }
  have hexited := exitedWarp_eq (o := o) (c := c) (a := a) (b := b) (d := d) (e := e) (w := { (Warp.fuseAll 33
    { (leavingWarp o c).refilled a b d e with started := true }).1 with handler := hd, started := x, ordinal := od })
    (by rw [hfields]; exact ⟨rfl, rfl, rfl⟩)
  refine ⟨t, _, he, ht, ?_, ?_, ?_, ?_, ?_, ?_, fun l hl => ?_, fun hn => ?_, fun k y ha => ?_, fun k => ?_, fun j hj => ?_⟩
  · rw [hfields, hleave]
    rfl
  · rw [hfields, hleave]
    rfl
  · rw [hfields, hleave]
    rfl
  · rw [hfields, hleave]
    rfl
  · rw [hfields, hleave]
    rfl
  · rw [hfields, hleave]
    rfl
  · rw [hfields, hleave]
    simp [Warp.refilled, hl]
  · obtain ⟨jn', hf, hjn'⟩ := Warp.fuseAll_frees (n := 33) (w := { (leavingWarp o c).refilled a b d e with started := true })
      (S := Finset.univ) (fun _ _ _ _ => Finset.mem_univ _) (by simp) (by
        rw [hleave]
        simpa only [Warp.refilled, hjoin] using hn)
    rw [hf, hi]
    rw [hleave] at hjn' ⊢
    exact ⟨fun k => (hjn' k).trans (congrArg leftOf (hjoin k)), hgone, fun hne => ⟨_, hleft hne, rfl, rfl, rfl, rfl, rfl⟩⟩
  · rw [hexited] at ha ⊢
    exact fusesAt_of_marks (fuseAll_fuses (p := { (leavingWarp o c).refilled a b d e with started := true }) ha)
      (a := true) rfl rfl
  · rw [hexited, hleave]
    exact hjoin k
  · rw [hexited, hleave]
    exact hothers j hj

/-- Settles O15: EXIT and JOIN, and the fusions they bring. -/
theorem exitAndJoinChangeTheFragments : Obligations.ExitAndJoinChangeTheFragments :=
  ⟨exit_no_lanes, exit_some_lanes, join_without_entry, join_parks, joinPark_parks, fun _ _ e k hf => parkAt_join e k hf, join_fuses,
    joinPark_fuses⟩

end Sys2Proof.Machine
end

section
/-! Waits, wakes and fences (R28, R179, R186, R187, R242, R283, R380). -/

namespace Sys2Proof.Machine

/-! ### Waking -/

/-- The fragment that was updated, in a split-table entry or on a path. -/
theorem Warp.frag?_modFrag_self (w : Warp) (f : Frag → Frag) (r : FragSel) : (w.modFrag f r).frag? r = (w.frag? r).map f := by
  cases r with
  | entry i => exact Warp.frag?_modFrag w f i
  | path i t =>
    simp only [Warp.modFrag, Warp.frag?]
    rw [find?_updFirst_self fun p hp => by cases t <;> exact hp]
    cases hp : w.specs.find? (·.entry == i) with
    | none => rfl
    | some p => cases t <;> simp [Spec.modPath, Function.comp_def]

theorem Warp.modFrag_sameData (w : Warp) (f : Frag → Frag) (r : FragSel) : SameData w (w.modFrag f r) := by
  cases r <;> exact ⟨rfl, rfl, rfl, rfl, rfl, rfl, rfl, rfl, rfl, rfl, rfl, rfl, rfl, rfl, rfl⟩

/-- A fragment is ready again, where it stood and with its lanes, and nothing else has changed. -/
def WokenAs (s : State) (c : Ctx) (t : State) : Prop :=
  ∃ w f, t.warp? c.ref.block c.ref.warp = some w ∧ w.frag? c.ref.sel = some f ∧ f.st = .ready ∧ f.pc = c.f.pc ∧ f.mask = c.f.mask ∧
    SameData c.w w ∧ SameOutside s t

/-- The fragment of an update. -/
theorem modFrag_frag {s : State} {c : Ctx} (h : s.ctx? c.ref = some c) (g : Frag → Frag) :
    ∃ w, (s.modFrag c.ref g).warp? c.ref.block c.ref.warp = some w ∧ w.frag? c.ref.sel = some (g c.f) ∧ SameData c.w w ∧
      SameOutside s (s.modFrag c.ref g) := by
  obtain ⟨-, -, hw, hf, -⟩ := State.ctx?_eq h
  have hn : Noted c (fun w => w.modFrag g c.ref.sel) s (s.modFrag c.ref g) := Noted.modW s c _
  exact ⟨_, hn.warp_eq hw, by rw [Warp.frag?_modFrag_self, hf]; rfl, Warp.modFrag_sameData _ _ _, hn.outside⟩

theorem wakeIf_wakes {s : State} {c : Ctx} (h : s.ctx? c.ref = some c) {ok : Ctx → Bool} {g : Frag → Frag} (hok : ok c = true)
    (hst : (g c.f).st = .ready) (hpc : (g c.f).pc = c.f.pc) (hm : (g c.f).mask = c.f.mask) :
    ∃ t, wakeIf c.ref ok g s = .next t ∧ WokenAs s c t ∧ ∃ w, t.warp? c.ref.block c.ref.warp = some w ∧ w.frag? c.ref.sel = some (g c.f) := by
  obtain ⟨w, hw, hf, hd, ho⟩ := modFrag_frag h g
  refine ⟨_, ?_, ⟨w, _, hw, hf, hst, hpc, hm, hd, ho⟩, w, hw, hf⟩
  rw [wakeIf, h]
  exact if_pos hok

theorem onAddress_of {c : Ctx} (hst : c.f.st = .waitAddress)
    (hc : (∃ n, c.f.cond = .deadline n) ∨ (∃ ws n, c.f.cond = .monitor ws n) ∨ ∃ ws n, c.f.cond = .scratch ws n) :
    c.onAddress = true := by
  rw [Ctx.onAddress, hst]
  obtain ⟨n, hc⟩ | ⟨ws, n, hc⟩ | ⟨ws, n, hc⟩ := hc <;> rw [hc] <;> rfl

theorem waitingFragmentsWake : WaitingFragmentsWake := by
  intro s c h
  refine ⟨fun hr hcf hp hm => ?_, fun sc hst hc hm => ?_, fun hst hc => ⟨?_, fun m hd hm => ?_, fun hm => ?_, fun n hn => ?_⟩,
    fun hst hc hm => ?_⟩
  · obtain ⟨t, he, hw, -⟩ := wakeIf_wakes h (g := Frag.wakeWait)
      (ok := fun c => c.f.st != .ready && c.f.st != .waitConfirm && c.f.cond.plain && s.condMet c c.f.cond)
      (by simp [hr, hcf, hp, hm]) rfl rfl rfl
    exact ⟨t, he, hw⟩
  · obtain ⟨t, he, hw, w, hw', hf⟩ := wakeIf_wakes h (g := fun f => { f.wake with released := true })
      (ok := fun c => c.f.st == .waitFence && (match c.f.cond with | .release sc => s.condMet c (.release sc) | _ => false))
      (by simp [hst, hc, hm]) rfl rfl rfl
    exact ⟨t, w, _, he, hw, hw', hf, rfl⟩
  · obtain ⟨t, he, hw, -⟩ := wakeIf_wakes h (g := Frag.wake) (onAddress_of hst hc) rfl rfl rfl
    exact ⟨t, he, hw⟩
  · obtain ⟨t, he, hw, -⟩ := wakeIf_wakes h (g := Frag.wake)
      (ok := fun c => c.onAddress && (match c.f.deadline with | some t => decide (t ≤ s.time) | none => false))
      (by simp [onAddress_of hst hc, hd, hm]) rfl rfl rfl
    exact ⟨t, he, hw⟩
  · obtain ⟨t, he, hw, -⟩ := wakeIf_wakes h (g := Frag.wake) (ok := fun c => c.onAddress && s.condMet c c.f.cond)
      (by simp [onAddress_of hst hc, hm]) rfl rfl rfl
    exact ⟨t, he, hw⟩
  · rw [hn]
    exact decide_eq_true_iff
  · obtain ⟨t, he, hw, -⟩ := wakeIf_wakes h (g := Frag.wake)
      (ok := fun c => c.f.st == .waitResource && c.f.cond == .sumpRoom && s.condMet c .sumpRoom)
      (by simp [hst, hc, hm]) rfl rfl rfl
    exact ⟨t, he, hw⟩

/-! ### Release and acquire -/

/-- Nothing is left to report of remote writes. -/
theorem reportFailed_none {c : Ctx} (h : c.failed = []) (s : State) (k : State → Eff) : reportFailed c s k = k s := by
  rw [reportFailed, h]
  rfl

theorem withRelease_done {s : State} {c : Ctx} {ord : Ord} {sc : Scope} (h : Released s c ord sc) (k : State → Eff) :
    withRelease c ord sc s k = k s := by
  rw [withRelease]
  split
  · rename_i hord
    obtain ⟨hdone, hpod⟩ := h (by simpa using hord)
    have hgo : (!c.f.released && !s.condMet c (.release sc)) = false := by
      obtain hd | hd := hdone <;> simp [hd]
    rw [hgo, if_neg Bool.false_ne_true]
    split
    · rename_i hsc
      exact reportFailed_none (hpod (by simpa using hsc)) s k
    · rfl
  · rfl

theorem withRelease_waits {s : State} {c : Ctx} {ord : Ord} {sc : Scope} (hord : ord = .rel ∨ ord = .acqrel)
    (hr : c.f.released = false) (hm : s.condMet c (.release sc) = false) (k : State → Eff) :
    withRelease c ord sc s k = .wait .waitFence (.release sc) s := by
  have h : (ord == .rel || ord == .acqrel) = true := by obtain rfl | rfl := hord <;> rfl
  rw [withRelease, if_pos h, hr, hm]
  rfl

/-- A warp whose fragments and marks alone have changed. -/
def SameButFrags (w w' : Warp) : Prop := ∃ sp a o, w' = { w with split := sp, started := a, ordinal := o }

theorem SameButFrags.refl (w : Warp) : SameButFrags w w := ⟨w.split, w.started, w.ordinal, rfl⟩

theorem SameButFrags.trans {w x y : Warp} (h : SameButFrags w x) (k : SameButFrags x y) : SameButFrags w y := by
  obtain ⟨_, _, _, rfl⟩ := h
  obtain ⟨sp, a, o, rfl⟩ := k
  exact ⟨sp, a, o, rfl⟩

theorem SameButFrags.sameData {w w' : Warp} (h : SameButFrags w w') : SameData w w' := by
  obtain ⟨_, _, _, rfl⟩ := h
  exact ⟨rfl, rfl, rfl, rfl, rfl, rfl, rfl, rfl, rfl, rfl, rfl, rfl, rfl, rfl, rfl⟩

theorem SameButFrags.sameSpecials {w w' : Warp} (h : SameButFrags w w') : SameSpecials w w' := by
  obtain ⟨_, _, _, rfl⟩ := h
  exact ⟨rfl, rfl, rfl, rfl, rfl, rfl, rfl, rfl, rfl, rfl, rfl, rfl⟩

theorem SameButFrags.sameRegs {i : Instr} {c : Ctx} {w w' : Warp} (h : SameButFrags w w') (hr : SameRegs i c w) : SameRegs i c w' := by
  obtain ⟨_, _, _, rfl⟩ := h
  exact ⟨hr.v, hr.s, hr.h, hr.cc⟩

/-- An instruction that retires, from the state and the warp that its effect left. -/
theorem ok_ends {i : Instr} {s s1 : State} {c : Ctx} {body : Ctx → LaneMask → State → Eff} (h : Issues i s c)
    (hb : body c (c.lanes i) s = .ok s1) {w : Warp} (hw : s1.warp? c.ref.block c.ref.warp = some w) {f : Frag}
    (hf : w.frag? c.ref.sel = some f) :
    ∃ t x, issue i body s = .next t ∧ t.warp? c.ref.block c.ref.warp = some x ∧ x.frag? c.ref.sel = some (f.retire i.len) ∧
      SameButFrags w x ∧ SameOutside s1 t := by
  obtain ⟨st, od, hn⟩ := finish_ok i s1 h.here
  obtain ⟨sp, hsp⟩ := retiredWarp_fields h w (st w) (od w)
  exact ⟨_, retiredWarp i c w (st w) (od w), by rw [issue_of_issues body h, hb], hn.warp_eq hw, retiredWarp_frag h hf _ _,
    ⟨sp, _, _, hsp⟩, hn.outside⟩

/-- The fragment once the acquire action of an access is left to it. -/
def acquireFrag (ord : Ord) (sc : Scope) (n : Nat) (f : Frag) : Frag := { f with acquire := acquired ord sc n f.acquire }

/-- The acquire action is left to the fragment, and nothing else changes (R186). -/
theorem acquire_leaves {s : State} {c : Ctx} (hc : isPath c.ref.sel = false) {w : Warp}
    (hw : s.warp? c.ref.block c.ref.warp = some w) {f : Frag} (hf : w.frag? c.ref.sel = some f) (ord : Ord) (sc : Scope) :
    ∃ x, (s.acquire c ord sc).warp? c.ref.block c.ref.warp = some x ∧
      x.frag? c.ref.sel = some (acquireFrag ord sc s.nextReq f) ∧ SameButFrags w x ∧ SameOutside s (s.acquire c ord sc) := by
  obtain ⟨i, hi⟩ := isPath_entry hc
  by_cases h : (ord = .acq ∨ ord = .acqrel) ∧ sc ≠ .core
  · have hb : ((ord == .acq || ord == .acqrel) && sc != .core) = true := by simpa using h
    rw [State.acquire, hb, if_pos rfl, acquireFrag, acquired, if_pos h]
    have hn : Noted c (fun w => w.modFrag (fun f => { f with acquire := some s.nextReq }) c.ref.sel) s
      (s.modFrag c.ref fun f => { f with acquire := some s.nextReq }) := Noted.modW s c _
    refine ⟨_, hn.warp_eq hw, ?_, ?_, hn.outside⟩
    · rw [Warp.frag?_modFrag_self, hf]
      rfl
    · rw [hi]
      exact ⟨_, _, _, rfl⟩
  · have hb : ((ord == .acq || ord == .acqrel) && sc != .core) = false := by simpa using h
    rw [State.acquire, hb, if_neg Bool.false_ne_true, acquireFrag, acquired, if_neg h]
    exact ⟨w, hw, hf, .refl w, SameOutside.refl s⟩

/-! ### FENCE -/

theorem fence_done (o : Xm) : CompletesIf (.fence o)
    (fun s c => Released s c o.ord o.scope ∧ (o.scope = .pod → o.ord = .acq → c.failed = []))
    fun s c t w => SameData c.w w ∧ SameSpecials c.w w ∧ t.reqs = s.reqs ∧
      ∃ f, w.frag? c.ref.sel = some f ∧ Fallen (.fence o) c.f f ∧ f.acquire = acquired o.ord o.scope s.nextReq c.f.acquire := by
  rintro s c h ⟨hr, hf⟩
  have heff : fenceEff o c (c.lanes (.fence o)) s = .ok (s.acquire c o.ord o.scope) := by
    rw [fenceEff]
    split
    · rename_i hpod
      obtain ⟨h1, h2⟩ := (Bool.and_eq_true _ _).mp hpod
      exact reportFailed_none (hf (by simpa using h1) (by simpa using h2)) s _
    · exact withRelease_done hr _
  obtain ⟨x, hx, hfx, hkeep, hout⟩ := acquire_leaves h.here h.warp h.frag o.ord o.scope
  obtain ⟨t, w, he, ht, hfw, hkeep', hout'⟩ := ok_ends h heff hx hfx
  exact ⟨t, w, he, ht, (hkeep.trans hkeep').sameData, (hkeep.trans hkeep').sameSpecials, hout'.reqs.trans hout.reqs, _, hfw,
    ⟨rfl, rfl, rfl, rfl, rfl, rfl, rfl⟩, rfl⟩

theorem fence_waits (o : Xm) (s : State) (c : Ctx) (h : Issues (.fence o) s c) (hord : o.ord = .rel ∨ o.ord = .acqrel)
    (hr : c.f.released = false) (hm : s.condMet c (.release o.scope) = false) :
    exec (.fence o) s = .next (s.modFrag c.ref fun f => { f with st := .waitFence, cond := .release o.scope }) := by
  have heff : fenceEff o c (c.lanes (.fence o)) s = .wait .waitFence (.release o.scope) s := by
    have hacq : (o.ord == .acq) = false := by obtain ho | ho := hord <;> rw [ho] <;> rfl
    rw [fenceEff, hacq, Bool.and_false, if_neg Bool.false_ne_true]
    exact withRelease_waits hord hr hm _
  show issue (.fence o) (fenceEff o) s = _
  rw [issue_of_issues _ h, heff]
  rfl

theorem fenceOrdersTheFragment : FenceOrdersTheFragment := ⟨fence_done, fence_waits⟩

end Sys2Proof.Machine
end

section
/-! WAITA (R187): its comparisons, its reads at the slices, and its waits. -/

namespace Sys2Proof.Machine

/-! ### Checked lanes -/

theorem misaligned_none {c : Ctx} {m : LaneMask} {n : Nat} {addr : Lane → Nat}
    (h : ∀ l : Lane, m.getLsbD l.val = true → addr l % n = 0) : misaligned c m n addr = none := by
  have hnil : (lanesOf m).filter (fun l => addr l % n != 0) = [] :=
    List.filter_eq_nil_iff.mpr fun l hl => by simpa using h l (mem_lanesOf.mp hl)
  rw [misaligned, hnil]

theorem outOfBounds_none {c : Ctx} {m : LaneMask} {n : Nat} {p : Priv} {addr : Lane → Nat}
    (h : ∀ l : Lane, m.getLsbD l.val = true → addr l + n ≤ (p.bound c).1) : outOfBounds c m n p addr = none := by
  have hnil : (lanesOf m).filter (fun l => decide ((p.bound c).1 < addr l + n)) = [] :=
    List.filter_eq_nil_iff.mpr fun l hl => by simpa using h l (mem_lanesOf.mp hl)
  unfold outOfBounds
  simp only [hnil]

/-! ### How WAITA ends -/

/-- An instruction that waits: its fragment alone changes, behind what its effect did. -/
theorem wait_ends {i : Instr} {s s1 : State} {c : Ctx} {body : Ctx → LaneMask → State → Eff} {st : FragState} {cond : WaitCond}
    (h : Issues i s c) (hb : body c (c.lanes i) s = .wait st cond s1) {w : Warp} (hw : s1.warp? c.ref.block c.ref.warp = some w) :
    ∃ t, issue i body s = .next t ∧
      t.warp? c.ref.block c.ref.warp = some (w.modFrag (fun f => { f with st := st, cond := cond }) c.ref.sel) := by
  have hn : Noted c (fun w => w.modFrag (fun f => { f with st := st, cond := cond }) c.ref.sel) s1
      (s1.modFrag c.ref fun f => { f with st := st, cond := cond }) := Noted.modW s1 c _
  exact ⟨_, by rw [issue_of_issues body h, hb]; rfl, hn.warp_eq hw⟩

/-- A well-formed WAITA writes its flags (R187). -/
theorem waita_ccOut {o : Waita} (h : (Instr.waita o).wellFormed = true) : (Instr.waita o).layout.ccOut = some o.h.ccSet := by
  have hw : Waita.wf o = true := h
  simp only [Waita.wf, Head.wf, implies, Bool.and_eq_true] at hw
  have hc : o.h.c = true := by simpa using hw.1.1.2
  show (if o.h.c then some o.h.ccSet else none) = _
  rw [hc, if_pos rfl]

/-- The flags of a WAITA that goes on. -/
def waitaFlags (o : Waita) (m held : LaneMask) (timed : Bool) (w : Warp) : Warp :=
  w.setCC o.h.ccSet m fun l => { n := false, z := held.getLsbD l.val, c := false, v := timed }

theorem waitaFlags_fields (o : Waita) (m held : LaneMask) (timed : Bool) (w : Warp) :
    ∃ c0 c1, waitaFlags o m held timed w = { w with cc0 := c0, cc1 := c1 } := by
  unfold waitaFlags Warp.setCC
  split <;> exact ⟨_, _, rfl⟩

theorem waitaFlags_cc {o : Waita} {m held : LaneMask} {timed : Bool} {w : Warp} {l : Lane} (hl : m.getLsbD l.val = true) :
    (waitaFlags o m held timed w).cc o.h.ccSet l = { n := false, z := held.getLsbD l.val, c := false, v := timed } := by
  rw [waitaFlags, Warp.cc_setCC, if_pos ⟨rfl, hl⟩]

/-- The flags are all that a WAITA writes of the registers and flags. -/
theorem waitaFlags_regs {o : Waita} (hwf : (Instr.waita o).wellFormed = true) (c : Ctx) (held : LaneMask) (timed : Bool) {w : Warp} (hv : w.v = c.w.v) (hs : w.s = c.w.s)
    (hh : w.h = c.w.h) (h0 : w.cc0 = c.w.cc0) (h1 : w.cc1 = c.w.cc1) :
    SameRegs (.waita o) c (waitaFlags o (c.lanes (.waita o)) held timed w) := by
  obtain ⟨c0, c1, hw⟩ := waitaFlags_fields o (c.lanes (.waita o)) held timed w
  refine ⟨fun n l _ => ?_, fun n _ => ?_, fun n _ => ?_, fun k l hk => ?_⟩
  · exact vl_of_v ((congrArg Warp.v hw).trans hv) n l
  · exact sr_of_s ((congrArg Warp.s hw).trans hs) n
  · rw [hw]
    simp only [Warp.hr, hh]
  · rw [waitaFlags, Warp.cc_setCC, if_neg]
    · exact cc_of_cc h0 h1 k l
    · rintro ⟨rfl, hl⟩
      obtain hk | hk := hk
      · exact hk (waita_ccOut hwf)
      · rw [hk] at hl
        cases hl

/-- The last read of a WAITA all of whose comparisons hold, or whose deadline has come. -/
theorem waitaEnd_goes {o : Waita} {c : Ctx} {m : LaneMask} {sc : Scope} {held : LaneMask} {cond : Nat → WaitCond} {s : State}
    (h : held = m ∨ c.waitDeadline s.time (c.w.sr o.d.toNat) ≤ s.time) :
    waitaEnd o c m sc held cond s = .ok ((s.modW c (waitaFlags o m held (!decide (held = m)))).acquire c o.ord sc) := by
  unfold waitaEnd
  by_cases hm : held = m
  · simp only [hm, beq_self_eq_true, if_true, decide_true, Bool.not_true]
    rfl
  · have hb : (held == m) = false := beq_eq_false_iff_ne.mpr hm
    simp only [hb, Bool.false_eq_true, if_false, if_pos (h.resolve_left hm), hm, decide_false, Bool.not_false]
    rfl

theorem waitaEnd_waits {o : Waita} {c : Ctx} {m : LaneMask} {sc : Scope} {held : LaneMask} {cond : Nat → WaitCond} {s : State}
    (hm : held ≠ m) (hd : s.time < c.waitDeadline s.time (c.w.sr o.d.toNat)) :
    waitaEnd o c m sc held cond s = .wait .waitAddress (cond (c.waitDeadline s.time (c.w.sr o.d.toNat)))
      (s.modFrag c.ref fun f => { f with deadline := some (c.waitDeadline s.time (c.w.sr o.d.toNat)) }) := by
  have hb : (held == m) = false := beq_eq_false_iff_ne.mpr hm
  unfold waitaEnd
  simp only [hb, Bool.false_eq_true, if_false, if_neg (Nat.not_le.mpr hd)]

theorem SameData.refl (w : Warp) : SameData w w := ⟨rfl, rfl, rfl, rfl, rfl, rfl, rfl, rfl, rfl, rfl, rfl, rfl, rfl, rfl, rfl⟩

theorem SameData.trans {w x y : Warp} (h : SameData w x) (k : SameData x y) : SameData w y :=
  ⟨k.v.trans h.v, k.s.trans h.s, k.h.trans h.h, k.cc0.trans h.cc0, k.cc1.trans h.cc1, k.vFull.trans h.vFull, k.sFull.trans h.sFull,
    k.hFull.trans h.hFull, k.x.trans h.x, k.part.trans h.part, k.amax.trans h.amax, k.nanSeen.trans h.nanSeen, k.tick.trans h.tick,
    k.repc.trans h.repc, k.nopre.trans h.nopre⟩

/-- The fragment of a WAITA that waits for a write or its deadline. -/
theorem waita_suspends {o : Waita} {s t : State} {c : Ctx} {sc : Scope} {held : LaneMask} {cond : Nat → WaitCond} {w : Warp} {f : Frag}
    (h : Issues (.waita o) s c)
    (he : waitaEff o c (c.lanes (.waita o)) s = waitaEnd o c (c.lanes (.waita o)) sc held cond t)
    (hw : t.warp? c.ref.block c.ref.warp = some w) (hf : w.frag? c.ref.sel = some f) (hpc : f.pc = c.f.pc) (hdata : SameData c.w w)
    (ht : t.time = s.time) (hm : held ≠ c.lanes (.waita o)) (hd : s.time < c.waitDeadline s.time (c.w.sr o.d.toNat)) :
    ∃ u x g, exec (.waita o) s = .next u ∧ u.warp? c.ref.block c.ref.warp = some x ∧ x.frag? c.ref.sel = some g ∧
      g.st = .waitAddress ∧ g.deadline = some (c.waitDeadline s.time (c.w.sr o.d.toNat)) ∧ g.pc = c.f.pc ∧ SameData c.w x := by
  rw [waitaEnd_waits hm (by rwa [ht]), ht] at he
  have hn : Noted c (fun w => w.modFrag (fun f => { f with deadline := some (c.waitDeadline s.time (c.w.sr o.d.toNat)) }) c.ref.sel) t
      (t.modFrag c.ref fun f => { f with deadline := some (c.waitDeadline s.time (c.w.sr o.d.toNat)) }) := Noted.modW t c _
  obtain ⟨u, hex, hu⟩ := wait_ends h he (hn.warp_eq hw)
  have hfrag := (w.modFrag (fun f => { f with deadline := some (c.waitDeadline s.time (c.w.sr o.d.toNat)) }) c.ref.sel).frag?_modFrag_self
    (fun f => { f with st := .waitAddress, cond := cond (c.waitDeadline s.time (c.w.sr o.d.toNat)) }) c.ref.sel
  rw [Warp.frag?_modFrag_self w, hf] at hfrag
  exact ⟨u, _, _, hex, hu, hfrag, rfl, rfl, hpc,
    (hdata.trans (Warp.modFrag_sameData _ _ _)).trans (Warp.modFrag_sameData _ _ _)⟩

theorem waitDeadline_eq (c : Ctx) (now : Nat) (t : Word) : c.waitDeadline now t = match c.f.deadline with
    | some d => d
    | none => if t = 0xFFFF_FFFF then 2 ^ 64 - 1 else now + t.toNat := by
  unfold Ctx.waitDeadline
  cases c.f.deadline with
  | some d => rfl
  | none => simp

/-! ### Words in the scratchpad -/

/-- The lanes of a WAITA whose comparison with a word of the scratchpad holds. -/
def scratchHeld (o : Waita) (k : Bool) (c : Ctx) : LaneMask :=
  c.lanes (.waita o) &&& maskOf fun l => WaitCmp.holds o.cmp o.width.bytes
    (c.b.read (pAddr c.w o.a k o.off.toInt o.width.bytes l) o.width.bytes) (c.w.data o.b.toNat o.width.bytes l)

/-- Lanes within a mask are all of it where a test holds in each. -/
theorem eq_mask_iff {m held : LaneMask} {p : Lane → Bool} (h : ∀ l : Lane, held.getLsbD l.val = (m.getLsbD l.val && p l)) :
    held = m ↔ ∀ l : Lane, m.getLsbD l.val = true → p l = true := by
  constructor
  · rintro rfl l hl
    simpa [hl] using h l
  · refine fun hp => BitVec.eq_of_getLsbD_eq fun l hl => (h ⟨l, hl⟩).trans ?_
    cases hm : m.getLsbD l with
    | false => rfl
    | true => exact hp ⟨l, hl⟩ hm

theorem scratchHeld_getLsbD (o : Waita) (k : Bool) (c : Ctx) (l : Lane) : (scratchHeld o k c).getLsbD l.val =
    ((c.lanes (.waita o)).getLsbD l.val && WaitCmp.holds o.cmp o.width.bytes
      (c.b.read (pAddr c.w o.a k o.off.toInt o.width.bytes l) o.width.bytes) (c.w.data o.b.toNat o.width.bytes l)) := by
  rw [scratchHeld, BitVec.getLsbD_and, getLsbD_maskOf]

theorem waitaScratch_eq {o : Waita} {k : Bool} {c : Ctx} (ho : o.space = .scratch k)
    (ha : Aligned c (.waita o) o.width.bytes (pAddr c.w o.a k o.off.toInt o.width.bytes))
    (hw : Within c (.waita o) c.b.scrSize o.width.bytes (pAddr c.w o.a k o.off.toInt o.width.bytes)) (s : State) :
    ∃ cond, waitaEff o c (c.lanes (.waita o)) s = waitaEnd o c (c.lanes (.waita o)) .core (scratchHeld o k c) cond s := by
  refine ⟨fun dl => .scratch ((lanesOf (c.lanes (.waita o))).map fun l => (pAddr c.w o.a k o.off.toInt o.width.bytes l, o.width.bytes,
    c.b.read (pAddr c.w o.a k o.off.toInt o.width.bytes l) o.width.bytes)) dl, ?_⟩
  rw [waitaEff, ho]
  simp only [waitaScratch, misaligned_none ha, outOfBounds_none (p := .scratch) hw]
  rfl

/-- No acquire action is left at core scope. -/
theorem acquire_core (s : State) (c : Ctx) (ord : Ord) : s.acquire c ord .core = s := by
  rw [State.acquire]
  simp

theorem waitaScratch_goes (o : Waita) (k : Bool) (ho : o.space = .scratch k) : CompletesIf (.waita o)
    (fun s c => (Aligned c (.waita o) o.width.bytes (pAddr c.w o.a k o.off.toInt o.width.bytes) ∧
        Within c (.waita o) c.b.scrSize o.width.bytes (pAddr c.w o.a k o.off.toInt o.width.bytes)) ∧
      (scratchHeld o k c = c.lanes (.waita o) ∨ c.waitDeadline s.time (c.w.sr o.d.toNat) ≤ s.time))
    fun s c t w => LaneFrame (.waita o) s c t w ∧ ∀ l : Lane, (c.lanes (.waita o)).getLsbD l.val = true →
      w.cc o.h.ccSet l = { n := false, z := (scratchHeld o k c).getLsbD l.val, c := false
                           v := !decide (scratchHeld o k c = c.lanes (.waita o)) } := by
  rintro s c h ⟨⟨ha, hw⟩, hgo⟩
  obtain ⟨cond, he⟩ := waitaScratch_eq ho ha hw s
  rw [waitaEnd_goes hgo, acquire_core] at he
  obtain ⟨c0, c1, hf⟩ := waitaFlags_fields o (c.lanes (.waita o)) (scratchHeld o k c)
    (!decide (scratchHeld o k c = c.lanes (.waita o))) c.w
  have hkeep : LaneKeeps (.waita o) c (waitaFlags o (c.lanes (.waita o)) (scratchHeld o k c)
      (!decide (scratchHeld o k c = c.lanes (.waita o))) c.w) := by
    have hregs := waitaFlags_regs h.wf c (scratchHeld o k c) (!decide (scratchHeld o k c = c.lanes (.waita o))) (w := c.w) rfl rfl rfl rfl rfl
    exact laneKeeps_of ⟨_, _, _, hf⟩ hregs.v hregs.cc
  obtain ⟨t, w, hex, ht, hframe, -, -, h0, h1⟩ := ok_laneFrame h he (Noted.modW s c _) hkeep
  exact ⟨t, w, hex, ht, hframe, fun l hl => (cc_of_cc h0 h1 _ _).trans (waitaFlags_cc hl)⟩

theorem waitaScratch_waits {o : Waita} {k : Bool} (ho : o.space = .scratch k) {s : State} {c : Ctx} (h : Issues (.waita o) s c)
    (ha : Aligned c (.waita o) o.width.bytes (pAddr c.w o.a k o.off.toInt o.width.bytes))
    (hw : Within c (.waita o) c.b.scrSize o.width.bytes (pAddr c.w o.a k o.off.toInt o.width.bytes))
    (hm : scratchHeld o k c ≠ c.lanes (.waita o)) (hd : s.time < c.waitDeadline s.time (c.w.sr o.d.toNat)) :
    ∃ t w f, exec (.waita o) s = .next t ∧ t.warp? c.ref.block c.ref.warp = some w ∧ w.frag? c.ref.sel = some f ∧
      f.st = .waitAddress ∧ f.deadline = some (c.waitDeadline s.time (c.w.sr o.d.toNat)) ∧ f.pc = c.f.pc ∧ SameData c.w w := by
  obtain ⟨cond, he⟩ := waitaScratch_eq ho ha hw s
  exact waita_suspends h he h.warp h.frag rfl (SameData.refl _) rfl hm hd

/-- A WAITA on scratchpad words, in the terms of its statement. -/
theorem waitaScratch_waits_for_its_words (o : Waita) (k : Bool) (ho : o.space = .scratch k) :
    let n := o.width.bytes
    let addr (c : Ctx) := pAddr c.w o.a k o.off.toInt n
    let holds (c : Ctx) (l : Lane) : Bool := WaitCmp.holds o.cmp n (c.b.read (addr c l) n) (c.w.data o.b.toNat n l)
    let deadline (s : State) (c : Ctx) : Nat :=
      match c.f.deadline with
      | some t => t
      | none => if c.w.sr o.d.toNat = 0xFFFF_FFFF then 2 ^ 64 - 1 else s.time + (c.w.sr o.d.toNat).toNat
    let ok (c : Ctx) : Prop := Aligned c (.waita o) n (addr c) ∧ Within c (.waita o) c.b.scrSize n (addr c)
    CompletesIf (.waita o)
      (fun s c => ok c ∧ ((∀ l : Lane, (c.lanes (.waita o)).getLsbD l.val = true → holds c l = true) ∨ deadline s c ≤ s.time))
      (fun s c t w => LaneFrame (.waita o) s c t w ∧ ∀ l : Lane, (c.lanes (.waita o)).getLsbD l.val = true →
        w.cc o.h.ccSet l = { n := false, z := holds c l, c := false
                             v := !decide (∀ l : Lane, (c.lanes (.waita o)).getLsbD l.val = true → holds c l = true) }) ∧
    ∀ s c, Issues (.waita o) s c → ok c → (∃ l : Lane, (c.lanes (.waita o)).getLsbD l.val = true ∧ holds c l = false) →
      s.time < deadline s c →
      ∃ t w f, exec (.waita o) s = .next t ∧ t.warp? c.ref.block c.ref.warp = some w ∧ w.frag? c.ref.sel = some f ∧
        f.st = .waitAddress ∧ f.deadline = some (deadline s c) ∧ f.pc = c.f.pc ∧ SameData c.w w := by
  intro n addr holds deadline ok
  have hdl (s : State) (c : Ctx) : deadline s c = c.waitDeadline s.time (c.w.sr o.d.toNat) := (waitDeadline_eq c _ _).symm
  have hall (c : Ctx) := eq_mask_iff (scratchHeld_getLsbD o k c)
  refine ⟨?_, ?_⟩
  · rintro s c h ⟨hok, hgo⟩
    obtain ⟨t, w, he, ht, hf, hcc⟩ := waitaScratch_goes o k ho s c h ⟨hok, hgo.imp (hall c).mpr fun hd => hdl s c ▸ hd⟩
    refine ⟨t, w, he, ht, hf, fun l hl => ?_⟩
    rw [hcc l hl, scratchHeld_getLsbD, hl, Bool.true_and]
    simp only [hall c]
    rfl
  · rintro s c h ⟨ha, hw⟩ ⟨l, hl, hno⟩ hd
    rw [hdl] at hd ⊢
    refine waitaScratch_waits ho h ha hw (fun heq => ?_) hd
    have := (hall c).mp heq l hl
    exact Bool.false_ne_true (hno.symm.trans this)

end Sys2Proof.Machine
end

section
/-! WAITA on global words (R187, R283): every lane is translated, and each word is read at its slice. -/

namespace Sys2Proof.Machine

/-! ### Translations that are at hand -/

/-- An entry that a TLB holds serves a translation whatever the warps do. -/
theorem xlate_blocks {s : State} {quad asid va : Nat} {acc : Acc} (h : (s.tlbFind quad asid va).isSome = true) (bs : List Block) :
    ({ s with blocks := bs } : State).xlate quad asid va acc =
      ({ (s.xlate quad asid va acc).1 with blocks := bs }, (s.xlate quad asid va acc).2) := by
  have hfind : ({ s with blocks := bs } : State).tlbFind quad asid va = s.tlbFind quad asid va := rfl
  obtain ⟨e, he⟩ := Option.isSome_iff_exists.mp h
  rw [State.xlate, State.xlate, hfind, he]
  show State.noteXlate _ _ _ _ _ = ({ (State.noteXlate _ _ _ _ _).1 with blocks := bs }, (State.noteXlate _ _ _ _ _).2)
  cases pteResult e.pte va acc with
  | fault c m => rfl
  | ok pa a =>
    simp only [State.noteXlate, State.notePage]
    cases s.maps.filter (·.holds asid va) with
    | nil => rfl
    | cons _ _ => rfl

/-- A lane whose address a TLB holds is translated, whatever the warps do. -/
theorem laneXlate_maps {s : State} {c : Ctx} {l : Lane} {va pa : Nat} {a : Attr} (bs : List Block) (h : Maps s c va .rd pa a)
    (hbad : s.badAt a.target a.tier pa = none) :
    ({ s with blocks := bs } : State).laneXlate c l va .rd true = ({ s with blocks := bs }, .ok (pa, a)) := by
  obtain ⟨hfind, hx⟩ := h
  have hx' := xlate_blocks (acc := .rd) hfind bs
  rw [hx] at hx'
  have hfind' : (({ s with blocks := bs } : State).tlbFind (({ s with blocks := bs } : State).quadOf c.b.core) c.l.asid va).isSome = true :=
    hfind
  have hq : ({ s with blocks := bs } : State).quadOf c.b.core = s.quadOf c.b.core := rfl
  have hbad' : ({ s with blocks := bs } : State).badAt a.target a.tier pa = none := hbad
  unfold State.laneXlate
  rw [hq] at hfind' ⊢
  simp only [hx', hfind', State.noteWalk, if_true, hbad']

theorem lockLanes_maps {s : State} {c : Ctx} {m : LaneMask} {addr pa : Lane → Nat} {a : Lane → Attr}
    (h : ∀ l : Lane, m.getLsbD l.val = true → s.laneXlate c l (addr l) .rd true = (s, .ok (pa l, a l))) :
    lockLanes addr c m s = (s, [], (lanesOf m).map fun l => (l, pa l, a l)) := by
  unfold lockLanes
  suffices hl : ∀ (ls : List Lane) (acc : List (Lane × Nat × Attr)), (∀ l ∈ ls, m.getLsbD l.val = true) →
      ls.foldl (fun (st : State × List LaneErr × List (Lane × Nat × Attr)) l =>
        match st.1.laneXlate c l (addr l) .rd true with
        | (s, .error e) => (s, st.2.1 ++ [e], st.2.2)
        | (s, .ok (pa, a)) => (s, st.2.1, st.2.2 ++ [(l, pa, a)])) (s, [], acc) =
      (s, [], acc ++ ls.map fun l => (l, pa l, a l)) from (hl _ [] fun l hl => mem_lanesOf.mp hl).trans (by simp)
  intro ls
  induction ls with
  | nil => simp
  | cons l r ih =>
    intro acc hm
    rw [List.foldl_cons]
    simp only [h l (hm l List.mem_cons_self)]
    rw [ih _ fun k hk => hm k (List.mem_cons_of_mem _ hk)]
    simp

/-! ### Reads at the slices -/

/-- Reads at the slices leave memory and the time alone, and of the warp all but its horizons. -/
structure ReadsLeave (c : Ctx) (w : Warp) (s t : State) : Prop where
  mem : t.mem = s.mem
  stale : t.hostStale = s.hostStale
  time : t.time = s.time
  nextReq : t.nextReq = s.nextReq
  warp : ∃ x y z, t.warp? c.ref.block c.ref.warp = some { w with hdie := x, hdev := y, hpod := z }

theorem cached_l2 (s : State) (a : Attr) (pa n : Nat) : ∃ x, s.cached a pa n = { s with l2 := x } := by
  unfold State.cached
  split
  · exact ⟨s.l2, rfl⟩
  · split
    · exact ⟨s.l2, rfl⟩
    · exact ⟨_, rfl⟩

theorem refresh_cores (s : State) (core line : Nat) : ∃ x, s.refresh core .device line = { s with cores := x } := by
  unfold State.refresh
  split
  · exact ⟨s.cores, rfl⟩
  · exact ⟨_, rfl⟩

/-- A word of this device's memory, read at its slice. -/
theorem readWord_leaves {c : Ctx} {w : Warp} {s t : State} {a : Attr} {pa n : Nat} (h : ReadsLeave c w s t)
    (ha : a.target = .device) (hu : s.undefAt a pa n = false) :
    ReadsLeave c w s (t.readWord c a pa n).1 ∧ (t.readWord c a pa n).2 = s.mem.read pa n := by
  obtain ⟨x, y, z, hw⟩ := h.warp
  have hu' : t.undefAt a pa n = false := by
    rw [State.undefAt, h.stale]
    exact hu
  obtain ⟨l2, hl2⟩ := cached_l2 t a pa n
  have hw2 : ({ t with l2 := l2 } : State).warp? c.ref.block c.ref.warp = some { w with hdie := x, hdev := y, hpod := z } := hw
  have hread : t.attrRead a pa n = ({ t with l2 := l2 }, t.physRead a.target pa n) := by
    rw [State.attrRead, hu', ← hl2]
    rfl
  unfold State.readWord
  simp only [hread, ha]
  obtain ⟨cs, hcs⟩ := refresh_cores (({ t with l2 := l2 } : State).modW c fun w =>
    w.foldRead a (if a.stable = true then 0 else ({ t with l2 := l2 } : State).wctAt .device pa)) c.b.core (lineKey .device pa)
  rw [hcs]
  refine ⟨⟨h.mem, h.stale, h.time, h.nextReq, ?_⟩, ?_⟩
  · have hn := Noted.modW { t with l2 := l2 } c fun w =>
      w.foldRead a (if a.stable = true then 0 else ({ t with l2 := l2 } : State).wctAt .device pa)
    have hwarp := hn.warp_eq hw2
    exact ⟨_, _, _, hwarp⟩
  · rw [← h.mem]
    rfl

/-- The words of some lanes, read at their slices: the lanes whose comparison holds are marked. -/
theorem reads_leave {c : Ctx} {w : Warp} {s t : State} {α : Type} (holds : Lane → Bool) (l : List (Lane × Nat × Attr))
    (f : State × LaneMask × α → Lane × Nat × Attr → State × LaneMask × α)
    (hf : ∀ st x, x ∈ l → ReadsLeave c w s st.1 → ReadsLeave c w s (f st x).1 ∧
      (f st x).2.1 = if holds x.1 then st.2.1 ||| (1#32 <<< x.1.val) else st.2.1) (ws : α) (h : ReadsLeave c w s t) :
    ReadsLeave c w s (l.foldl f (t, 0, ws)).1 ∧
      ∀ k : Lane, (l.foldl f (t, 0, ws)).2.1.getLsbD k.val = (l.any (·.1 == k) && holds k) := by
  suffices hgen : ∀ (m : LaneMask) (t : State) (ws : α), ReadsLeave c w s t → ReadsLeave c w s (l.foldl f (t, m, ws)).1 ∧
      ∀ k : Lane, (l.foldl f (t, m, ws)).2.1.getLsbD k.val = (m.getLsbD k.val || l.any (·.1 == k) && holds k) by
    obtain ⟨h1, h2⟩ := hgen 0 t ws h
    exact ⟨h1, fun k => (h2 k).trans (by simp)⟩
  induction l with
  | nil => exact fun m t ws h => ⟨h, fun k => by simp⟩
  | cons x r ih =>
    intro m t ws h
    obtain ⟨h1, h2⟩ := hf (t, m, ws) x List.mem_cons_self h
    obtain ⟨k1, k2⟩ := ih (fun st y hy => hf st y (List.mem_cons_of_mem _ hy)) (f (t, m, ws) x).2.1 (f (t, m, ws) x).1
      (f (t, m, ws) x).2.2 h1
    refine ⟨k1, fun k => (k2 k).trans ?_⟩
    rw [h2, List.any_cons]
    have hor : (m ||| 1#32 <<< x.1.val).getLsbD k.val = (m.getLsbD k.val || decide (k = x.1)) := by
      rw [BitVec.getLsbD_or, getLsbD_lane]
    by_cases hk : k = x.1
    · subst hk
      cases hx : holds x.1
      · simp
      · rw [if_pos rfl, hor]
        simp
    · have hb : (x.1 == k) = false := beq_eq_false_iff_ne.mpr fun h => hk h.symm
      cases holds x.1
      · simp [hb]
      · rw [if_pos rfl, hor]
        simp [hb, hk]

end Sys2Proof.Machine
end

section
/-! WAITA on global words, in the terms of its statement (R187). -/

namespace Sys2Proof.Machine

/-- The fragment of a WAITA, its deadline kept. -/
def timedWarp (o : Waita) (s : State) (c : Ctx) : Warp :=
  c.w.modFrag (fun f => { f with deadline := some (c.waitDeadline s.time (c.w.sr o.d.toNat)) }) c.ref.sel

/-- The deadline and the horizons are no data, and the fragment stands where it did. -/
theorem timedWarp_data (o : Waita) (s : State) (c : Ctx) (x y z : Nat) (h : Issues (.waita o) s c) :
    SameData c.w { timedWarp o s c with hdie := x, hdev := y, hpod := z } ∧
      ({ timedWarp o s c with hdie := x, hdev := y, hpod := z } : Warp).frag? c.ref.sel =
        some { c.f with deadline := some (c.waitDeadline s.time (c.w.sr o.d.toNat)) } := by
  have hd := c.w.modFrag_sameData (fun f => { f with deadline := some (c.waitDeadline s.time (c.w.sr o.d.toNat)) }) c.ref.sel
  refine ⟨⟨hd.v, hd.s, hd.h, hd.cc0, hd.cc1, hd.vFull, hd.sFull, hd.hFull, hd.x, hd.part, hd.amax, hd.nanSeen, hd.tick, hd.repc,
    hd.nopre⟩, ?_⟩
  have hf := c.w.frag?_modFrag_self (fun f => { f with deadline := some (c.waitDeadline s.time (c.w.sr o.d.toNat)) }) c.ref.sel
  rw [h.frag] at hf
  obtain ⟨i, hi⟩ := isPath_entry h.here
  rw [hi] at hf ⊢
  rw [timedWarp, hi]
  exact hf

theorem waitaFlags_frag {o : Waita} {m held : LaneMask} {timed : Bool} {w : Warp} {r : FragSel} :
    (waitaFlags o m held timed w).frag? r = w.frag? r := by
  obtain ⟨c0, c1, h⟩ := waitaFlags_fields o m held timed w
  rw [h]
  cases r <;> rfl

/-- Global words of this device's memory, whose addresses are translated and which no request of the quad's port precedes, are read
at once. -/
theorem waitaGlobal_reads {o : Waita} {sc : Scope} {s : State} {c : Ctx} {pa : Lane → Nat} {a : Lane → Attr} (h : Issues (.waita o) s c)
    (ho : o.space = .global sc) (ha : Aligned c (.waita o) o.width.bytes (gAddr c.w o.a o.off.toInt o.width.bytes))
    (hmap : LanesMap s c (.waita o) (gAddr c.w o.a o.off.toInt o.width.bytes) .rd true pa a) (hp : s.probes c = [])
    (hdev : ∀ l : Lane, (c.lanes (.waita o)).getLsbD l.val = true → (a l).target = .device ∧
      s.portQueue (s.quadOf c.b.core) (lineKey .device (pa l)) = [] ∧ s.undefAt (a l) (pa l) o.width.bytes = false) :
    ∃ t held cond, waitaEff o c (c.lanes (.waita o)) s = waitaEnd o c (c.lanes (.waita o)) sc held cond t ∧
      ReadsLeave c (timedWarp o s c) s t ∧
      ∀ l : Lane, held.getLsbD l.val = ((c.lanes (.waita o)).getLsbD l.val && WaitCmp.holds o.cmp o.width.bytes
        (s.mem.read (pa l) o.width.bytes) (c.w.data o.b.toNat o.width.bytes l)) := by
  have hblocks : ∃ bs, (s.modFrag c.ref fun f => { f with deadline := some (c.waitDeadline s.time (c.w.sr o.d.toNat)) }) =
      { s with blocks := bs } := ⟨_, rfl⟩
  have hwarp : (s.modFrag c.ref fun f => { f with deadline := some (c.waitDeadline s.time (c.w.sr o.d.toNat)) }).warp?
      c.ref.block c.ref.warp = some (timedWarp o s c) := (Noted.modW s c _).warp_eq h.warp
  rw [waitaEff, ho]
  unfold waitaGlobal
  simp only [misaligned_none ha]
  generalize (s.modFrag c.ref fun f => { f with deadline := some (c.waitDeadline s.time (c.w.sr o.d.toNat)) }) = s' at hblocks hwarp ⊢
  obtain ⟨bs, rfl⟩ := hblocks
  have hlock : lockLanes (gAddr c.w o.a o.off.toInt o.width.bytes) c (c.lanes (.waita o)) { s with blocks := bs } =
      ({ s with blocks := bs }, [], (lanesOf (c.lanes (.waita o))).map fun l => (l, pa l, a l)) :=
    lockLanes_maps fun l hl => laneXlate_maps bs (hmap l hl).1 ((hmap l hl).2.2 rfl)
  have hp' : ({ s with blocks := bs } : State).probes c = [] := hp
  have hlane {x : Lane × Nat × Attr} (hx : x ∈ (lanesOf (c.lanes (.waita o))).map fun l => (l, pa l, a l)) :
      ∃ l, (c.lanes (.waita o)).getLsbD l.val = true ∧ x = (l, pa l, a l) := by
    obtain ⟨l, hl, rfl⟩ := List.mem_map.mp hx
    exact ⟨l, mem_lanesOf.mp hl, rfl⟩
  simp only [hlock, hp', List.any_nil, Bool.false_eq_true, if_false, List.isEmpty_nil, Bool.true_and]
  rw [if_neg (c := List.any ((lanesOf (c.lanes (.waita o))).map fun l => (l, pa l, a l)) _ = true), List.filter_eq_nil_iff (l := (lanesOf (c.lanes (.waita o))).map fun l => (l, pa l, a l)) |>.mpr]
  · simp only [List.isEmpty_nil, Bool.not_true, Bool.false_eq_true, if_false]
    refine ⟨_, _, _, rfl, And.imp_right (fun hheld l => (hheld l).trans ?held) (reads_leave (fun l => WaitCmp.holds o.cmp o.width.bytes
      (s.mem.read (pa l) o.width.bytes) (c.w.data o.b.toNat o.width.bytes l)) _ _ (fun st x hx hst => ?step) _ ?start)⟩
    case held =>
      congr 1
      rw [Bool.eq_iff_iff, List.any_eq_true]
      refine ⟨fun ⟨x, hx, hxl⟩ => ?_, fun hl => ⟨_, List.mem_map_of_mem (mem_lanesOf.mpr hl), by simp⟩⟩
      obtain ⟨k, hk, rfl⟩ := hlane hx
      exact (beq_iff_eq.mp hxl : k = l) ▸ hk
    case step =>
      obtain ⟨l, hl, rfl⟩ := hlane hx
      obtain ⟨h1, h2⟩ := readWord_leaves (n := o.width.bytes) hst (hdev l hl).1 (hdev l hl).2.2
      simp only [(hdev l hl).1, List.find?_nil, h2, and_true]
      exact h1
    case start => exact ⟨rfl, rfl, rfl, rfl, _, _, _, hwarp⟩
  · intro x hx
    obtain ⟨l, hl, rfl⟩ := hlane hx
    simp only [(hdev l hl).1, Bool.false_eq_true, not_false_iff]
  · rw [List.any_eq_true]
    rintro ⟨x, hx, hq⟩
    obtain ⟨l, hl, rfl⟩ := hlane hx
    have hport : ({ s with blocks := bs } : State).portQueue (({ s with blocks := bs } : State).quadOf c.b.core)
        (lineKey .device (pa l)) = [] := (hdev l hl).2.1
    simp [(hdev l hl).1, hport] at hq

/-- The hypotheses of a WAITA whose words are at hand: their addresses aligned and translated, in this device's memory, with no request
before them. -/
structure WordsAtHand (o : Waita) (sc : Scope) (s : State) (c : Ctx) (pa : Lane → Nat) (a : Lane → Attr) : Prop where
  space : o.space = .global sc
  aligned : Aligned c (.waita o) o.width.bytes (gAddr c.w o.a o.off.toInt o.width.bytes)
  mapped : LanesMap s c (.waita o) (gAddr c.w o.a o.off.toInt o.width.bytes) .rd true pa a
  probes : s.probes c = []
  device : ∀ l : Lane, (c.lanes (.waita o)).getLsbD l.val = true → (a l).target = .device ∧
    s.portQueue (s.quadOf c.b.core) (lineKey .device (pa l)) = [] ∧ s.undefAt (a l) (pa l) o.width.bytes = false

/-- The comparison of a lane's word in memory. -/
def wordHolds (o : Waita) (s : State) (c : Ctx) (pa : Lane → Nat) (l : Lane) : Bool :=
  WaitCmp.holds o.cmp o.width.bytes (s.mem.read (pa l) o.width.bytes) (c.w.data o.b.toNat o.width.bytes l)

/-- A WAITA whose comparison holds in every lane, or whose deadline has come, retires with its flags. -/
theorem waitaGlobal_goes {o : Waita} {sc : Scope} {s : State} {c : Ctx} {pa : Lane → Nat} {a : Lane → Attr} (h : Issues (.waita o) s c)
    (hand : WordsAtHand o sc s c pa a) {all : Bool}
    (hall : all = true ↔ ∀ l : Lane, (c.lanes (.waita o)).getLsbD l.val = true → wordHolds o s c pa l = true)
    (hgo : all = true ∨ c.waitDeadline s.time (c.w.sr o.d.toNat) ≤ s.time) :
    ∃ t w, exec (.waita o) s = .next t ∧ t.warp? c.ref.block c.ref.warp = some w ∧
      (∃ f, w.frag? c.ref.sel = some f ∧ Fallen (.waita o) c.f f ∧ f.acquire = acquired o.ord sc s.nextReq c.f.acquire) ∧
      SameRegs (.waita o) c w ∧ SameFull c.w w ∧ t.mem = s.mem ∧ ∀ l : Lane, (c.lanes (.waita o)).getLsbD l.val = true →
        w.cc o.h.ccSet l = { n := false, z := wordHolds o s c pa l, c := false, v := !all } := by
  obtain ⟨t, held, cond, he, ⟨hmem, -, htime, hreq, x, y, z, hw⟩, hheld⟩ := waitaGlobal_reads h hand.space hand.aligned hand.mapped
    hand.probes hand.device
  have hiff : held = c.lanes (.waita o) ↔ all = true := (eq_mask_iff hheld).trans hall.symm
  have hdec : (!decide (held = c.lanes (.waita o))) = !all := by
    rw [decide_eq_decide.mpr hiff, Bool.decide_coe]
  rw [waitaEnd_goes (hgo.imp hiff.mpr fun hd => by rwa [htime]), hdec] at he
  have hread := timedWarp_data o s c x y z
  generalize ({ timedWarp o s c with hdie := x, hdev := y, hpod := z } : Warp) = w0 at hw hread
  obtain ⟨hdata, hfrag⟩ := hread h
  have hflags := (Noted.modW t c (waitaFlags o (c.lanes (.waita o)) held (!all))).warp_eq hw
  obtain ⟨x1, hx1, hf1, hkeep1, hout1⟩ := acquire_leaves h.here hflags (waitaFlags_frag.trans hfrag) o.ord sc
  obtain ⟨u, x2, hex, hu, hf2, hkeep2, hout2⟩ := ok_ends h he hx1 hf1
  have hkeep := hkeep1.trans hkeep2
  refine ⟨u, x2, hex, hu, ⟨_, hf2, ⟨rfl, rfl, rfl, rfl, rfl, rfl, rfl⟩, congrArg (fun n => acquired o.ord sc n c.f.acquire) hreq⟩,
    hkeep.sameRegs (waitaFlags_regs h.wf c held (!all) hdata.v hdata.s hdata.h hdata.cc0 hdata.cc1), ?_,
    (hout2.mem.trans hout1.mem).trans hmem, fun l hl => ?_⟩
  · obtain ⟨c0, c1, hfl⟩ := waitaFlags_fields o (c.lanes (.waita o)) held (!all) w0
    rw [hfl] at hkeep
    have hd := hkeep.sameData
    exact ⟨hd.vFull.trans hdata.vFull, hd.sFull.trans hdata.sFull, hd.hFull.trans hdata.hFull⟩
  · have hd := hkeep.sameData
    rw [cc_of_cc hd.cc0 hd.cc1, waitaFlags_cc hl, hheld, hl, Bool.true_and]
    rfl

/-- A WAITA on global words, one of which has no such value yet, waits. -/
theorem waitaGlobal_waits {o : Waita} {sc : Scope} {s : State} {c : Ctx} {pa : Lane → Nat} {a : Lane → Attr} (h : Issues (.waita o) s c)
    (hand : WordsAtHand o sc s c pa a)
    (hno : ∃ l : Lane, (c.lanes (.waita o)).getLsbD l.val = true ∧ wordHolds o s c pa l = false)
    (hd : s.time < c.waitDeadline s.time (c.w.sr o.d.toNat)) :
    ∃ t w f, exec (.waita o) s = .next t ∧ t.warp? c.ref.block c.ref.warp = some w ∧ w.frag? c.ref.sel = some f ∧
      f.st = .waitAddress ∧ f.deadline = some (c.waitDeadline s.time (c.w.sr o.d.toNat)) ∧ f.pc = c.f.pc ∧ SameData c.w w := by
  obtain ⟨t, held, cond, he, ⟨-, -, htime, -, x, y, z, hw⟩, hheld⟩ := waitaGlobal_reads h hand.space hand.aligned hand.mapped
    hand.probes hand.device
  obtain ⟨hdata, hfrag⟩ := timedWarp_data o s c x y z h
  refine waita_suspends h he hw hfrag rfl hdata htime (fun heq => ?_) hd
  obtain ⟨l, hl, hf⟩ := hno
  exact Bool.false_ne_true (hf.symm.trans ((eq_mask_iff hheld).mp heq l hl))

theorem waitaWaitsForItsWords : WaitaWaitsForItsWords := by
  refine ⟨waitaScratch_waits_for_its_words, fun o sc pa a ho s c h ⟨ha, hmap, hp, hl⟩ => ?_,
    fun o sc pa a ho s c h ⟨ha, hmap, hp, hdev, hno, hdl⟩ => ?_, fun o sc pa a s c ho h ha hmap hp hdev hno hdl hsr htime => ?_⟩
  · have hand : WordsAtHand o sc s c pa a := ⟨ho, ha, hmap, hp, fun l hm => ⟨(hl l hm).1, (hl l hm).2.1, (hl l hm).2.2.1⟩⟩
    obtain ⟨t, w, he, ht, hf, hr, hfull, -, hcc⟩ := waitaGlobal_goes (all := true) h hand
      (iff_of_true rfl fun l hm => (hl l hm).2.2.2) (.inl rfl)
    refine ⟨t, w, he, ht, hf, hr, hfull, fun l hm => (hcc l hm).trans ?_⟩
    rw [show wordHolds o s c pa l = true from (hl l hm).2.2.2]
    rfl
  · have hand : WordsAtHand o sc s c pa a := ⟨ho, ha, hmap, hp, hdev⟩
    obtain ⟨l, hm, hf⟩ := hno
    have hdue : c.waitDeadline s.time (c.w.sr o.d.toNat) ≤ s.time := by
      rw [waitDeadline_eq]
      obtain ⟨m, hm, hle⟩ | ⟨hnone, hz⟩ := hdl
      · rw [hm]
        exact hle
      · rw [hnone, hz]
        exact le_rfl
    exact waitaGlobal_goes (all := false) h hand
      (iff_of_false Bool.false_ne_true fun hall => Bool.false_ne_true (hf.symm.trans (hall l hm))) (.inr hdue)
  · have hand : WordsAtHand o sc s c pa a := ⟨ho, ha, hmap, hp, hdev⟩
    have hd : c.waitDeadline s.time (c.w.sr o.d.toNat) =
        if c.w.sr o.d.toNat = 0xFFFF_FFFF then 2 ^ 64 - 1 else s.time + (c.w.sr o.d.toNat).toNat := by
      rw [waitDeadline_eq, hdl]
    have hlt : s.time < c.waitDeadline s.time (c.w.sr o.d.toNat) := by
      have hpos : 0 < (c.w.sr o.d.toNat).toNat := Nat.pos_of_ne_zero fun hz => hsr (BitVec.eq_of_toNat_eq hz)
      rw [hd]
      split
      · exact htime
      · omega
    obtain ⟨t, w, f, he, ht, hf, hst, hfd, hpc, hdata⟩ := waitaGlobal_waits h hand hno hlt
    exact ⟨t, w, f, he, ht, hf, hst, hpc, hdata, hfd.trans (congrArg some hd)⟩

/-- Settles O31: the wakes of waiting fragments, FENCE, and WAITA. -/
theorem fragmentsWaitAndWake : Obligations.FragmentsWaitAndWake :=
  ⟨waitingFragmentsWake, fenceOrdersTheFragment, waitaWaitsForItsWords⟩

end Sys2Proof.Machine
end

section
/-! OBLIGATION O50, boot: what a degradation and stages 3 to 5 of boot leave as it was. -/

namespace Sys2Proof.Machine

/-! ### What a cause in DEVCAUSE changes (R367) -/

/-- From s to t only DEVCAUSE, with the flags that follow from it, the interrupts, SLMAP and the free choices change, and no cause that
was set is cleared. -/
structure Degraded (s t : State) : Prop where
  rest : ∃ m sl n, t = { s with dev := t.dev, msix := m, slmap := sl, fresh := n }
  dev : t.dev = { s.dev with cause := t.dev.cause, degraded := t.dev.degraded, replace := t.dev.replace }
  cause : t.dev.cause &&& s.dev.cause = s.dev.cause

theorem Degraded.refl (s : State) : Degraded s s := ⟨⟨s.msix, s.slmap, s.fresh, rfl⟩, rfl, BitVec.and_self⟩

theorem Degraded.trans {s t u : State} (h : Degraded s t) (k : Degraded t u) : Degraded s u := by
  obtain ⟨⟨m, sl, n, ht⟩, hd, hc⟩ := h
  obtain ⟨⟨m', sl', n', hu⟩, kd, kc⟩ := k
  refine ⟨⟨m', sl', n', ?_⟩, ?_, ?_⟩
  · rw [hu, ht]
  · rw [kd, hd]
  · rw [← hc, ← BitVec.and_assoc, kc]

theorem State.degrade_eq (s : State) (bit : Nat) : ∃ m, s.degrade bit = { s with msix := m, dev := { s.dev with
    cause := s.dev.cause ||| (1#6 <<< bit), degraded := true, replace := s.dev.replace || bit != 4 } } := by
  unfold State.degrade State.raise
  split
  · exact ⟨_, rfl⟩
  · exact ⟨s.msix, rfl⟩

theorem State.degrade_degraded (s : State) (bit : Nat) : Degraded s (s.degrade bit) := by
  obtain ⟨m, h⟩ := s.degrade_eq bit
  rw [h]
  refine ⟨⟨m, s.slmap, s.fresh, rfl⟩, rfl, BitVec.eq_of_getLsbD_eq fun i _ => ?_⟩
  simp only [BitVec.getLsbD_and, BitVec.getLsbD_or]
  cases s.dev.cause.getLsbD i <;> simp

/-- A cause is set, or the device is as it was. -/
theorem State.unless_degraded (s : State) (ok : Bool) (bit : Nat) : Degraded s (if ok then s else s.degrade bit) := by
  split
  · exact .refl s
  · exact s.degrade_degraded bit

theorem State.remapSlices_degraded (s : State) (bad : List Nat) : Degraded s (s.remapSlices bad) := by
  refine List.foldlRecOn (motive := Degraded s) bad _ (.refl s) fun t h i _ => h.trans ?_
  dsimp only
  split
  · exact ⟨⟨t.msix, _, _, rfl⟩, rfl, BitVec.and_self⟩
  · exact ⟨⟨t.msix, t.slmap, _, rfl⟩, rfl, BitVec.and_self⟩

/-! ### Boot (R370-R373) -/

/-- What a bring-up leaves as it was, for each part of the state that the obligation speaks of. -/
structure BroughtUp (tr : Training) (s t : State) : Prop where
  ready : t.dev.ready = true
  stage : t.dev.stage = 5
  recovery : t.dev.recovery = false
  dies : t.dev.dies = tr.dies
  imgGo : t.dev.imgGo = s.dev.imgGo
  imgFail : t.dev.imgFail = s.dev.imgFail
  cause : t.dev.cause &&& s.dev.cause = s.dev.cause
  fuse : t.env.minVersion = s.env.minVersion
  mem : t.mem = s.mem
  vault : t.vault = s.vault
  blocks : t.blocks = s.blocks
  launches : t.launches = s.launches
  reqs : t.reqs = s.reqs
  host : t.host = s.host
  time : t.time = s.time

/-- Causes that are set afterwards change nothing of it. -/
theorem BroughtUp.degraded {tr : Training} {s u t : State} (h : BroughtUp tr s u) (k : Degraded u t) : BroughtUp tr s t := by
  obtain ⟨⟨m, sl, n, ht⟩, hd, hc⟩ := k
  constructor
  case ready => exact (congrArg DevRegs.ready hd).trans h.ready
  case stage => exact (congrArg DevRegs.stage hd).trans h.stage
  case recovery => exact (congrArg DevRegs.recovery hd).trans h.recovery
  case dies => exact (congrArg DevRegs.dies hd).trans h.dies
  case imgGo => exact (congrArg DevRegs.imgGo hd).trans h.imgGo
  case imgFail => exact (congrArg DevRegs.imgFail hd).trans h.imgFail
  case cause => rw [← h.cause, ← BitVec.and_assoc, hc]
  case fuse => exact (congrArg (·.env.minVersion) ht).trans h.fuse
  case mem => exact (congrArg State.mem ht).trans h.mem
  case vault => exact (congrArg State.vault ht).trans h.vault
  case blocks => exact (congrArg State.blocks ht).trans h.blocks
  case launches => exact (congrArg State.launches ht).trans h.launches
  case reqs => exact (congrArg State.reqs ht).trans h.reqs
  case host => exact (congrArg State.host ht).trans h.host
  case time => exact (congrArg State.time ht).trans h.time

/-- Stages 3 to 5 of boot end in READY with the dies that training found (R370). -/
theorem State.bringUp_broughtUp (s : State) (tr : Training) : BroughtUp tr s (s.bringUp tr) := by
  unfold State.bringUp
  refine BroughtUp.degraded ?found
    ((((State.remapSlices_degraded _ _).trans (State.unless_degraded _ _ 0)).trans (State.unless_degraded _ _ 1)).trans
      ((State.unless_degraded _ _ 2).trans (State.unless_degraded _ _ 3)))
  case found => exact ⟨rfl, rfl, rfl, rfl, rfl, rfl, BitVec.and_self, rfl, rfl, rfl, rfl, rfl, rfl, rfl, rfl⟩

theorem State.runImage_broughtUp (s : State) (img : FirmwareImage) (tr : Training) :
    ∃ e, e.minVersion = (if s.env.minVersion < img.version then img.version else s.env.minVersion) ∧
      BroughtUp tr { s with env := e } (s.runImage img tr) := ⟨_, rfl, State.bringUp_broughtUp _ tr⟩

/-- Power good with an image that is accepted, and with one that is not (R370, R372). -/
theorem powerGood_boots (s : State) (img : FirmwareImage) (tr : Training) :
    (s.imageOk img = true → exec (.powerGood img tr) s = .next (s.cleared.runImage img tr)) ∧
    (s.imageOk img = false → exec (.powerGood img tr) s =
      .next { s.cleared with dev := { s.cleared.dev with recovery := true, stage := 15 } }) := by
  constructor <;> intro h <;> show execPowerGood img tr s = _ <;> simp only [execPowerGood, h] <;> rfl

/-- The image that the host names is fetched and verified (R373). -/
theorem recoveryImageLoad_loads {s : State} (img : FirmwareImage) (tr : Training) (hr : s.dev.recovery = true)
    (hg : s.dev.imgGo = true) (hb : img.bytes = s.imageBytes) :
    (s.imageOk img = true → exec (.recoveryImageLoad img tr) s =
      .next (({ s with dev := { s.dev with imgGo := false, imgFail := false } } : State).runImage img tr)) ∧
    (s.imageOk img = false → exec (.recoveryImageLoad img tr) s =
      .next { s with dev := { s.dev with imgGo := false, imgFail := true } }) := by
  constructor <;> intro h <;> show execRecoveryImageLoad img tr s = _ <;>
    simp [execRecoveryImageLoad, hr, hg, hb, h]

/-- What a function-level reset clears before it repeats the bring-up (R371). -/
def State.reborn (s : State) : State := { s.cleared with
  dev := { s.cleared.dev with cause := s.dev.cause, degraded := s.dev.degraded, replace := s.dev.replace }
  env := { s.cleared.env with
    config := s.env.config, firmware := s.env.firmware, configBytes := s.env.configBytes, droop := s.env.droop, hot := s.env.hot
    power := s.env.power, hotSince := s.env.hotSince, ratePasses := s.env.ratePasses } }

/-- A function-level reset of a device that is on brings it up again. -/
theorem functionLevelReset_brings_up {s : State} (tr : Training) (h : s.dev.ready = true) :
    exec (.functionLevelReset tr) s = .next (s.reborn.bringUp tr) := by
  show execFunctionLevelReset tr s = _
  simp only [execFunctionLevelReset, h, Bool.not_true, Bool.false_eq_true, if_false]
  rfl

/-- R370-R373: boot ends in READY or in recovery, a reset repeats the bring-up, and recovery runs an accepted image. -/
theorem bootEndsReadyOrInRecovery : BootEndsReadyOrInRecovery := by
  refine ⟨fun s img tr => ⟨fun ok => ?accepted, fun bad => ?refused, fun hr hg hb => ?recovery⟩,
    fun s tr => ⟨fun hoff => ?off, fun hon => ?again⟩⟩
  case accepted =>
    obtain ⟨e, he, h⟩ := s.cleared.runImage_broughtUp img tr
    exact ⟨_, (powerGood_boots s img tr).1 ok, h.ready, h.stage, h.recovery, h.dies, h.mem, h.vault, h.blocks, h.launches, h.reqs,
      h.host, h.time, h.fuse.trans he⟩
  case refused => exact ⟨_, (powerGood_boots s img tr).2 bad, rfl, rfl, rfl, rfl, rfl, rfl⟩
  case recovery =>
    obtain ⟨hok, hbad⟩ := recoveryImageLoad_loads img tr hr hg hb
    cases ok : s.imageOk img with
    | true =>
      obtain ⟨e, -, h⟩ := State.runImage_broughtUp { s with dev := { s.dev with imgGo := false, imgFail := false } } img tr
      refine ⟨_, hok ok, h.imgGo, ?_, fun _ => ⟨h.recovery, h.stage, h.imgFail⟩, fun hn => ?_⟩
      · exact h.ready.trans (congrArg (· || s.dev.ready) ok).symm
      · exact absurd (ok.symm.trans hn) (by decide)
    | false =>
      refine ⟨_, hbad ok, rfl, ?_, fun hn => ?_, fun _ => ⟨hr, rfl⟩⟩
      · exact (congrArg (· || s.dev.ready) ok).symm
      · exact absurd (ok.symm.trans hn) (by decide)
  case off =>
    show execFunctionLevelReset tr s = _
    simp [execFunctionLevelReset, hoff]
  case again =>
    have h := s.reborn.bringUp_broughtUp tr
    exact ⟨_, functionLevelReset_brings_up tr hon, h.ready, h.stage, h.dies, h.mem, h.blocks, h.launches, h.host, h.fuse, h.cause⟩

end Sys2Proof.Machine
end

section
/-! What writes to memory, the trace streams and the upkeep of the L1s can change of a state, for every operation that ends in them. -/

namespace Sys2Proof.Machine

/-! ### Tables and the records of cores and launches -/

theorem tget_tput_self {α : Type} (d : α) (t : Table α) (i : Nat) (x : α) : tget d (tput t i x) i = x := by
  induction t with
  | nil => simp [tput, tget]
  | cons e r ih =>
    simp only [tput]
    split
    · simp [tget]
    · split <;> simp_all [tget]

theorem tget_tput_ne {α : Type} (d : α) (t : Table α) {i j : Nat} (x : α) (h : j ≠ i) : tget d (tput t i x) j = tget d t j := by
  induction t with
  | nil => simp [tput, tget, h]
  | cons e r ih =>
    simp only [tput]
    split
    · simp [tget, h]
    · split
      · subst ‹i = e.1›
        simp [tget, h]
      · simp [tget, ih]

theorem State.core_modCore (s : State) (c : Nat) (f : Core → Core) : (s.modCore c f).core c = f (s.core c) :=
  tget_tput_self _ _ _ _

theorem State.core_modCore_ne (s : State) {c k : Nat} (f : Core → Core) (h : k ≠ c) : (s.modCore c f).core k = s.core k :=
  tget_tput_ne _ _ _ h

theorem State.launch?_id {s : State} {u : Nat} {l : Machine.Launch} (h : s.launch? u = some l) : l.id = u := by
  simpa using List.find?_some h

theorem State.launch?_modLaunch (s : State) (u : Nat) (f : Machine.Launch → Machine.Launch) (hf : ∀ l, (f l).id = l.id) :
    (s.modLaunch u f).launch? u = (s.launch? u).map f :=
  find?_updFirst_self fun l hl => by simpa [hf l] using hl

theorem State.launch?_modLaunch_some {s : State} {u : Nat} {l : Machine.Launch} {f : Machine.Launch → Machine.Launch}
    (h : s.launch? u = some l) (hf : ∀ l, (f l).id = l.id) : (s.modLaunch u f).launch? u = some (f l) := by
  rw [State.launch?_modLaunch s u f hf, h]
  rfl

/-! ### Memory traffic -/

/-- The reservations of every warp of a block, changed. -/
def Block.shed (g : Lanes (Option (Target × Nat)) → Lanes (Option (Target × Nat))) (b : Block) : Block :=
  { b with warps := b.warps.map fun w => { w with resv := g w.resv } }

/-- No reservation is made. -/
def MakesNone (g : Lanes (Option (Target × Nat)) → Lanes (Option (Target × Nat))) : Prop :=
  ∀ (r : Lanes (Option (Target × Nat))) (l : Lane), r[l] = none → (g r)[l] = none

/-- A state without what memory traffic changes. -/
def State.apart (s : State) : State :=
  { s with mem := [], host := [], vault := [], bad := [], l2 := [], past := [], linkOut := [], cores := [], blocks := [], fresh := 0 }

/-- From s to t there have been writes to memory and lines dropped: of a block only reservations change, and none is made; of an L1 only
lines leave; and what lies apart from memory stays. -/
structure Traffic (s t : State) : Prop where
  apart : t.apart = s.apart
  blocks : ∃ g, MakesNone g ∧ t.blocks = s.blocks.map (Block.shed g)
  lines : ∀ k x, x ∈ (t.core k).lines → x ∈ (s.core k).lines

theorem Block.shed_id (b : Block) : b.shed id = b := by simp [Block.shed]

theorem Traffic.of_blocks {s t : State} (ha : t.apart = s.apart) (hb : t.blocks = s.blocks) (hc : t.cores = s.cores) :
    Traffic s t := by
  refine ⟨ha, ⟨id, fun _ _ h => h, ?_⟩, fun k x h => ?_⟩
  · rw [hb, show Block.shed id = id from funext Block.shed_id, List.map_id]
  · rwa [State.core, hc] at h

theorem Traffic.refl (s : State) : Traffic s s := .of_blocks rfl rfl rfl

theorem Traffic.trans {s t u : State} (h : Traffic s t) (k : Traffic t u) : Traffic s u := by
  obtain ⟨g, hg, hb⟩ := h.blocks
  obtain ⟨g', hg', hb'⟩ := k.blocks
  refine ⟨k.apart.trans h.apart, ⟨fun r => g' (g r), fun r l hn => hg' _ l (hg r l hn), ?_⟩, fun c x hx => h.lines c x (k.lines c x hx)⟩
  rw [hb', hb, List.map_map]
  exact List.map_congr_left fun b _ => by simp [Block.shed]

theorem Traffic.foldl {α : Type} (f : State → α → State) (hf : ∀ s x, Traffic s (f s x)) (l : List α) (s : State) :
    Traffic s (l.foldl f s) :=
  List.foldlRecOn (motive := Traffic s) l f (.refl s) fun t h x _ => h.trans (hf t x)

theorem Traffic.modCore (s : State) (c : Nat) (f : Core → Core) (hf : ∀ k x, x ∈ (f k).lines → x ∈ k.lines) :
    Traffic s (s.modCore c f) := by
  refine ⟨rfl, (Traffic.refl s).blocks, fun k x hx => ?_⟩
  by_cases hk : k = c
  · subst hk
    rw [State.core_modCore] at hx
    exact hf _ x hx
  · rwa [State.core_modCore_ne _ _ hk] at hx

/-! Each operation that writes is memory traffic. -/

theorem Traffic.draw (s : State) : Traffic s s.draw.2 := .of_blocks rfl rfl rfl

theorem Traffic.clearResv (s : State) (t : Target) (pa n : Nat) : Traffic s (s.clearResv t pa n) :=
  ⟨rfl, ⟨fun v => v.map fun r => if resvHit t pa n r then none else r, fun r l h => by simp_all, rfl⟩, fun _ _ h => h⟩

theorem Traffic.physWrite (s : State) (t : Target) (pa : Nat) (bs : List Byte) : Traffic s (s.physWrite t pa bs) := by
  unfold State.physWrite
  split <;> cases t <;> exact .of_blocks rfl rfl rfl

theorem Traffic.lineWrite (s : State) (t : Target) (pa : Nat) (bs : List Byte) (d : Option Nat) :
    Traffic s (s.lineWrite t pa bs d).1 :=
  ((Traffic.physWrite s t pa bs).trans (Traffic.clearResv _ t pa _)).trans (.of_blocks rfl rfl rfl)

theorem Traffic.sliceWrite (s : State) (t : Target) (pa : Nat) (bs : List Byte) (d : Option Nat) :
    Traffic s (s.sliceWrite t pa bs d).1 := by
  unfold State.sliceWrite
  split
  · exact Traffic.lineWrite ..
  · exact List.foldlRecOn (motive := fun x : State × Nat × Nat => Traffic s x.1) _ _ (.refl s)
      fun x h p _ => h.trans (Traffic.lineWrite _ _ _ _ d)

theorem Traffic.goodSector (s : State) (t : Target) (pa n : Nat) : Traffic s (s.goodSector t pa n) := .of_blocks rfl rfl rfl

theorem Traffic.writeBack (s : State) (l : L1Line) : Traffic s (s.writeBack l) := by
  refine (Traffic.foldl _ (fun s k => ?_) _ s).trans (Traffic.foldl _ (fun s k => ?_) _ _)
  · split
    · exact Traffic.sliceWrite ..
    · exact .refl s
  · split
    · exact Traffic.goodSector ..
    · exact .refl s

theorem Traffic.dropLines (s : State) (c : Nat) (p : L1Line → Bool) : Traffic s (s.dropLines c p) := by
  unfold State.dropLines
  exact (Traffic.foldl _ Traffic.writeBack _ s).trans (.modCore _ c _ fun _ _ hx => List.mem_of_mem_filter hx)

theorem Traffic.traceBytes (s : State) (c : Nat) (bs : List Byte) : Traffic s (s.traceBytes c bs) := by
  unfold State.traceBytes
  exact (Traffic.foldl _ (fun _ _ => Traffic.sliceWrite ..) _ s).trans (.modCore _ c _ fun _ _ hx => hx)

theorem Traffic.putPacket (s : State) (c : Nat) (set : List (List Byte)) (p : TracePkt) : Traffic s (s.putPacket c set p) := by
  unfold State.putPacket
  extract_lets
  split
  · exact (Traffic.traceBytes s c _).trans (.modCore _ c _ fun _ _ hx => hx)
  · exact .modCore _ c _ fun _ _ hx => hx

theorem Traffic.flushTrace (s : State) (c : Nat) : Traffic s (s.flushTrace c) := by
  unfold State.flushTrace
  extract_lets
  split
  · exact .refl s
  · exact (Traffic.foldl _ (fun s p => Traffic.putPacket s c _ p) _ s).trans (.modCore _ c _ fun _ _ hx => hx)

/-- An access that another device takes has drawn a free choice at most (R290). -/
theorem Traffic.sendOut {s u : State} {t : Target} {acc : Acc} (h : s.sendOut t acc = (u, none)) : Traffic s u := by
  unfold State.sendOut at h
  split at h
  · split at h
    · cases h
    · have hd : Traffic s s.draw.2 := .draw s
      generalize s.draw = x at h hd
      obtain ⟨n, v⟩ := x
      dsimp only at h
      split at h
      · cases h
      · cases h
      · obtain rfl : v = u := congrArg Prod.fst h
        exact hd
  · obtain rfl : s = u := congrArg Prod.fst h
    exact .refl s

/-- A write of the floor die is memory traffic too, at home or over a link (R290, R294). -/
theorem Traffic.floorWrite {s u : State} {asid va : Nat} {bs : List Byte} (h : s.floorWrite asid va bs = some u) : Traffic s u := by
  unfold State.floorWrite at h
  split at h
  · split at h
    · split at h
      · rename_i hs
        cases h
        exact (Traffic.sendOut hs).trans (.of_blocks rfl rfl rfl)
      · cases h
    · split at h
      · cases h
      · cases h
        exact (Traffic.sliceWrite ..).trans (.goodSector ..)
  · cases h

theorem Traffic.statusWrite (s : State) (asid addr : Nat) (bs : List Byte) : Traffic s (s.statusWrite asid addr bs) := by
  unfold State.statusWrite
  split
  · exact .refl s
  · cases hf : s.floorWrite asid addr bs with
    | none => exact .refl s
    | some u => exact .floorWrite hf

/-! ### What stays when no line is dirty -/

/-- A line with no dirty word has nothing to write back. -/
theorem State.writeBack_clean (s : State) {l : L1Line} (h : l.dirty = 0) : s.writeBack l = s := by
  simp [State.writeBack, h, List.range_succ]

theorem Traffic.noDirty {s t : State} (h : Traffic s t) (hn : NoDirty s) : NoDirty t := fun k x hx => hn k x (h.lines k x hx)

/-- Where no line is dirty, dropping lines of a core changes nothing but its L1. -/
theorem State.dropLines_clean {s : State} (h : NoDirty s) (c : Nat) (p : L1Line → Bool) :
    s.dropLines c p = s.modCore c fun k => { k with lines := k.lines.filter fun l => !p l } := by
  have hfold : ((s.core c).lines.filter p).foldl State.writeBack s = s :=
    List.foldlRecOn (motive := (· = s)) _ _ rfl fun t ht x hx => by
      rw [ht, s.writeBack_clean (h c x (List.mem_of_mem_filter hx))]
  rw [State.dropLines, hfold]

/-! ### What traffic leaves of blocks -/

@[simp] theorem Block.shed_uid (g) (b : Block) : (b.shed g).uid = b.uid := rfl

theorem Traffic.block? {s t : State} (h : Traffic s t) (u : Nat) :
    ∃ g, MakesNone g ∧ t.block? u = (s.block? u).map (Block.shed g) := by
  obtain ⟨g, hg, hb⟩ := h.blocks
  refine ⟨g, hg, ?_⟩
  rw [State.block?, hb, List.find?_map]
  rfl

theorem Traffic.launches {s t : State} (h : Traffic s t) : t.launches = s.launches := (congrArg State.launches h.apart :)
theorem Traffic.reqs {s t : State} (h : Traffic s t) : t.reqs = s.reqs := (congrArg State.reqs h.apart :)
theorem Traffic.dev {s t : State} (h : Traffic s t) : t.dev = s.dev := (congrArg State.dev h.apart :)
theorem Traffic.drops {s t : State} (h : Traffic s t) : t.drops = s.drops := (congrArg State.drops h.apart :)
theorem Traffic.queues {s t : State} (h : Traffic s t) : t.queues = s.queues := (congrArg State.queues h.apart :)
theorem Traffic.msix {s t : State} (h : Traffic s t) : t.msix = s.msix := (congrArg State.msix h.apart :)
theorem Traffic.time {s t : State} (h : Traffic s t) : t.time = s.time := (congrArg State.time h.apart :)
theorem Traffic.nextUid {s t : State} (h : Traffic s t) : t.nextUid = s.nextUid := (congrArg State.nextUid h.apart :)
theorem Traffic.launch? {s t : State} (h : Traffic s t) (u : Nat) : t.launch? u = s.launch? u := by
  rw [State.launch?, h.launches, State.launch?]

end Sys2Proof.Machine
end

section
/-! What the records of errors and of blocks, and the abort of a kernel, can change of a state (R304, R357, R385). -/

namespace Sys2Proof.Machine

theorem State.errorRecord_eq (s : State) (lid asid cause : Nat) (pc addr : DWord) (mask info : Word) (core slot die : Nat)
    (ordinal : Word) : ∃ m e i, s.errorRecord lid asid cause pc addr mask info core slot die ordinal =
      { s with host := m, el := e, msix := i } := by
  unfold State.errorRecord State.raise
  extract_lets
  split
  · split
    · exact ⟨_, _, _, rfl⟩
    · exact ⟨_, _, s.msix, rfl⟩
  · exact ⟨s.host, _, s.msix, rfl⟩

theorem State.preqCheck_eq (s : State) : ∃ p, s.preqCheck = { s with dev := { s.dev with preqGo := p } } := by
  unfold State.preqCheck
  extract_lets
  split
  · exact ⟨s.dev.preqGo, rfl⟩
  · exact ⟨false, rfl⟩

/-- A launch without its standing: whether it runs, and since when it stands at the head of the order. -/
def Launch.offer (l : Machine.Launch) : Machine.Launch := { l with st := .waiting, headSince := none }

/-- Launches change in their standing alone. -/
def KeepsOffer (f : Machine.Launch → Machine.Launch) : Prop := ∀ l, (f l).offer = l.offer

theorem KeepsOffer.id_eq {f : Machine.Launch → Machine.Launch} (h : KeepsOffer f) (l : Machine.Launch) : (f l).id = l.id :=
  (congrArg Launch.id (h l) :)

theorem KeepsOffer.asid_eq {f : Machine.Launch → Machine.Launch} (h : KeepsOffer f) (l : Machine.Launch) : (f l).asid = l.asid :=
  (congrArg Launch.asid (h l) :)

theorem KeepsOffer.comp {f g : Machine.Launch → Machine.Launch} (hg : KeepsOffer g) (hf : KeepsOffer f) : KeepsOffer (g ∘ f) :=
  fun l => (hg (f l)).trans (hf l)

/-- A launch is found under its number after a change of all that keeps the numbers. -/
theorem find?_launch_map {f : Machine.Launch → Machine.Launch} (hf : ∀ l, (f l).id = l.id) (ls : List Machine.Launch) (u : Nat) :
    (ls.map f).find? (·.id == u) = (ls.find? (·.id == u)).map f := by
  rw [List.find?_map]
  congr 2
  funext l
  simp [hf l]

theorem State.noteHead_eq (s : State) : ∃ f, KeepsOffer f ∧ (∀ l, (f l).st = l.st) ∧
    s.noteHead = { s with launches := s.launches.map f } := by
  refine ⟨_, fun l => ?_, fun l => ?_, rfl⟩ <;> split <;> rfl

/-- What an abort makes of a launch: the kernel aborted, and those of its children that were to start after it. -/
def Launch.aborting (lid : Nat) (l : Machine.Launch) : Machine.Launch :=
  if l.id == lid && l.st != .completed then { l with st := .aborted }
  else if l.parent == some lid && l.after && l.st == .sump then { l with st := .aborted } else l

theorem Launch.aborting_offer (lid : Nat) : KeepsOffer (Launch.aborting lid) := by
  intro l
  unfold Launch.aborting
  split
  · rfl
  · split <;> rfl

theorem Launch.aborting_st {lid : Nat} {l : Machine.Launch} (hl : l.id = lid) (hs : l.st ≠ .completed) :
    (l.aborting lid).st = .aborted := by simp [Launch.aborting, hl, hs]

/-- What the abort of a kernel does (R304). -/
theorem State.abortKernel_eq (s : State) (lid : Nat) : ∃ f p, KeepsOffer f ∧
    (∀ l, l.id = lid → l.st ≠ .completed → (f l).st = .aborted) ∧
    s.abortKernel lid = { s with
      launches := s.launches.map f
      blocks := s.blocks.map fun b => if b.lid == lid then b.kill else b
      reqs := s.reqs.map fun (q : Req) =>
        if ((s.blocks.filter (·.lid == lid)).map (·.uid)).contains q.block then { q with drop := true } else q
      dev := { s.dev with preqGo := p } } := by
  unfold State.abortKernel
  extract_lets dead ls bs rs
  obtain ⟨f, hf, hst, hn⟩ := State.noteHead_eq { s with launches := ls, blocks := bs, reqs := rs }
  obtain ⟨p, hp⟩ := State.preqCheck_eq (State.noteHead { s with launches := ls, blocks := bs, reqs := rs })
  refine ⟨f ∘ Launch.aborting lid, p, hf.comp (Launch.aborting_offer lid),
    fun l hl hs => (hst _).trans (Launch.aborting_st hl hs), ?_⟩
  rw [hp, hn, ← List.map_map]
  rfl

/-- What the loss of a die does to a launch that cannot go on (R345, R385). -/
theorem State.dieLost_eq (s : State) (l : Machine.Launch) (info : Word) (die : Nat) : ∃ f g r p m e i, KeepsOffer f ∧
    s.dieLost l info die = { s with
      launches := s.launches.map f, blocks := s.blocks.map g, reqs := s.reqs.map r, host := m, el := e, msix := i
      dev := { s.dev with preqGo := p } } := by
  obtain ⟨m, e, i, hm⟩ := s.errorRecord_eq l.id l.asid 0x12 0 0 0 info 0xFFFF 0xFF die 0xFFFF_FFFF
  obtain ⟨f, p, hf, -, hk⟩ := State.abortKernel_eq { s with host := m, el := e, msix := i } l.id
  exact ⟨f, _, _, p, m, e, i, hf, by rw [State.dieLost, hm, hk]⟩

/-- Slots written to the profiling ring, one after the other. -/
theorem profSlots_eq (l : List (List Byte × Nat)) (s : State) : ∃ m r, l.foldl (fun (s : State) x =>
    { s with host := s.host.writeBytes (s.pr.base.toNat + 64 * (s.pr.wptr.toNat % 2 ^ s.pr.size)) x.1,
             pr := { s.pr with wptr := s.pr.wptr + 1 } }) s = { s with host := m, pr := r } ∧
    r.wptr = s.pr.wptr + BitVec.ofNat 32 l.length := by
  induction l generalizing s with
  | nil => exact ⟨s.host, s.pr, rfl, by simp⟩
  | cons x r ih =>
    obtain ⟨m, p, h, hw⟩ := ih { s with
      host := s.host.writeBytes (s.pr.base.toNat + 64 * (s.pr.wptr.toNat % 2 ^ s.pr.size)) x.1
      pr := { s.pr with wptr := s.pr.wptr + 1 } }
    refine ⟨m, p, by rw [List.foldl_cons, h], ?_⟩
    rw [hw, List.length_cons, BitVec.add_assoc, Nat.add_comm, BitVec.ofNat_add]
    rfl

/-- A record in the profiling ring (R358): of n slots, where the ring has room for them. -/
theorem State.profRecord_eq (s : State) (slots : List (List Byte)) : ∃ m r, s.profRecord slots = { s with host := m, pr := r } ∧
    (s.pr.en = true → slots.length ≤ s.pr.room → r.wptr = s.pr.wptr + BitVec.ofNat 32 slots.length) := by
  unfold State.profRecord
  split
  · exact ⟨s.host, s.pr, rfl, fun he => by simp_all⟩
  · split
    · have h := profSlots_eq (slots.zipIdx) s
      obtain ⟨m, r, h, hw⟩ := h
      exact ⟨m, r, h, fun _ _ => by simpa using hw⟩
    · exact ⟨s.host, _, rfl, fun _ hr => absurd hr ‹_›⟩

theorem State.blockRecord_eq (s : State) (b : Block) (asid kind : Nat) :
    ∃ m r, s.blockRecord b asid kind = { s with host := m, pr := r } ∧
      (asid = s.dev.trAsid → s.pr.en = true → b.warps.length < s.pr.room →
        r.wptr = s.pr.wptr + BitVec.ofNat 32 (b.warps.length + 1)) := by
  unfold State.blockRecord
  split
  · exact ⟨s.host, s.pr, rfl, fun h => by simp_all⟩
  · extract_lets n head
    obtain ⟨m, r, h, hw⟩ := s.profRecord_eq (head :: b.warps.map fun w => w.stalls.toList.flatMap fun x => leBytes 4 x.toNat)
    exact ⟨m, r, h, fun _ he hr => by simpa using hw he (by simpa using hr)⟩

end Sys2Proof.Machine
end

section
/-! OBLIGATION O50, the rest: service goes on with less than the whole device (R17, R345, R367, R374, R377, R378, R381-R383). -/

namespace Sys2Proof.Machine

/-! ### The fence of a die that is lost (R345, step 1) -/

/-- From s to t the device's registers, the launches and the dies to drop stay, and where no block was, none is. -/
structure Idle (s t : State) : Prop where
  dev : t.dev = s.dev
  launches : t.launches = s.launches
  drops : t.drops = s.drops
  blocks : s.blocks = [] → t.blocks = []

theorem Idle.refl (s : State) : Idle s s := ⟨rfl, rfl, rfl, fun h => h⟩

theorem Idle.trans {s t u : State} (h : Idle s t) (k : Idle t u) : Idle s u :=
  ⟨k.dev.trans h.dev, k.launches.trans h.launches, k.drops.trans h.drops, fun hb => k.blocks (h.blocks hb)⟩

theorem Traffic.idle {s t : State} (h : Traffic s t) : Idle s t := by
  obtain ⟨g, -, hb⟩ := h.blocks
  exact ⟨h.dev, h.launches, h.drops, fun hn => by simp [hb, hn]⟩

theorem Idle.modCore (s : State) (c : Nat) (f : Core → Core) : Idle s (s.modCore c f) := ⟨rfl, rfl, rfl, fun h => h⟩
theorem Idle.modReq (s : State) (id : Nat) (f : Req → Req) : Idle s (s.modReq id f) := ⟨rfl, rfl, rfl, fun h => h⟩

theorem Idle.modWarp (s : State) (u i : Nat) (f : Warp → Warp) : Idle s (s.modWarp u i f) :=
  ⟨rfl, rfl, rfl, fun h => by simp [State.modWarp, State.modBlock, h, updFirst]⟩

theorem Idle.dropReq {s t : State} (h : Idle s t) (id : Nat) : Idle s (t.dropReq id) := h.trans ⟨rfl, rfl, rfl, fun h => h⟩

theorem Idle.attrRead (s : State) (a : Attr) (pa n : Nat) : Idle s (s.attrRead a pa n).1 := by
  unfold State.attrRead
  split
  · exact (Traffic.draw s).idle
  · unfold State.cached
    split
    · exact .refl s
    · split <;> exact ⟨rfl, rfl, rfl, fun h => h⟩

theorem Idle.refresh (s : State) (core : Nat) (t : Target) (line : Nat) : Idle s (s.refresh core t line) := by
  unfold State.refresh
  split
  · exact .refl s
  · cases t with
    | remote _ => exact (Traffic.dropLines s core _).idle
    | device | host =>
      rw [if_neg Bool.false_ne_true]
      exact .modCore s core _

theorem Idle.writeEff (s : State) (q : Req) : Idle s (sliceWriteEff s q) := by
  have h : Idle s (s.sliceWrite q.attr.target q.pa (leBytes q.bytes q.data.toNat) (some q.die)).1 := (Traffic.sliceWrite ..).idle
  refine (h.trans ?_).trans ((Idle.modCore _ _ _).trans (.modReq _ _ _))
  unfold State.healed
  split
  · exact (Traffic.goodSector ..).idle
  · exact .refl _

theorem Idle.atomicEff (s : State) (q : Req) : Idle s (sliceAtomicEff s q) := by
  unfold sliceAtomicEff
  extract_lets t
  split
  · exact (((Idle.attrRead s q.attr q.pa q.bytes).trans (Traffic.sliceWrite ..).idle).trans (.modReq _ _ _)).trans (.refresh ..)
  · have h : Idle s (s.reserve q none) := .modWarp ..
    split
    · exact ((h.trans (Traffic.sliceWrite ..).idle).trans (.modReq _ _ _)).trans (.refresh ..)
    · exact h.trans (.modReq _ _ _)

/-- The fence performs writes or drops them, and does nothing else. -/
theorem Idle.fence (s : State) (die : Nat) : Idle s (s.fence die) := by
  unfold State.fence
  refine List.foldlRecOn (motive := Idle s) _ _ (.refl s) fun t h q _ => h.trans ?_
  have hd : Idle t t.draw.2 := (Traffic.draw t).idle
  generalize t.draw = x at hd ⊢
  obtain ⟨n, u⟩ := x
  refine hd.trans (Idle.dropReq ?_ q.id)
  split
  · split
    · exact .writeEff ..
    · split
      · exact .refl _
      · exact .atomicEff ..
    · split
      · exact .refl _
      · exact .atomicEff ..
    · exact .refl _
  · exact .refl _

end Sys2Proof.Machine
end

section
/-! OBLIGATION O50, the rest, in the terms of its statement. -/

namespace Sys2Proof.Machine

/-! ### A die lost where nothing runs (R345) -/

/-- The report of a die's loss where no block is: DIE is set in DEVCAUSE. -/
theorem State.reportDrop_of_no_block {s : State} {us : List Nat} (hr : s.report = some us) (hb : s.blocks = []) :
    s.reportDrop = ({ s with report := none } : State).degrade 0 := by
  simp [State.reportDrop, hr, hb]

/-- The launches that cannot go on are aborted, which keeps the dies in service and the die named. -/
theorem foldl_dieLost_keeps (info : Word) (die : Nat) (ls : List Machine.Launch) (s : State) :
    let t := ls.foldl (fun (t : State) l => t.dieLost l info die) s
    t.dev.dies = s.dev.dies ∧ t.dev.dropDie = s.dev.dropDie ∧ (s.blocks = [] → t.blocks = []) := by
  refine List.foldlRecOn (motive := fun t : State => t.dev.dies = s.dev.dies ∧ t.dev.dropDie = s.dev.dropDie ∧
    (s.blocks = [] → t.blocks = [])) ls _ ⟨rfl, rfl, id⟩ fun t ⟨h1, h2, h3⟩ l _ => ?_
  obtain ⟨f, g, r, p, m, e, i, -, h⟩ := t.dieLost_eq l info die
  rw [h]
  exact ⟨h1, h2, fun hb => by simp [h3 hb]⟩

/-- Once no block is on a core, the dies to drop leave service and the loss is reported. -/
theorem State.finishDrops_drops {s : State} {d : Nat} (hd : s.drops = [d]) (hb : s.blocks = []) :
    ∃ u : State, s.finishDrops = u.degrade 0 ∧ u.dev.dies = s.dev.dies &&& ~~~(1#8 <<< d) ∧ u.dev.dropDie = s.dev.dropDie := by
  unfold State.finishDrops
  rw [hd]
  dsimp only
  rw [if_neg (by simp [hb])]
  obtain ⟨h1, h2, h3⟩ := foldl_dieLost_keeps (BitVec.ofNat 32 d) d _ _
  exact ⟨_, State.reportDrop_of_no_block rfl (h3 hb), h1, h2⟩

/-- R345 with no block and no running launch: the die leaves service, and DIE is set. -/
theorem State.loseDie_loses {s : State} {die : Nat} (hr : s.dev.ready = true) (hdie : s.dev.dies.getLsbD die = true)
    (hd : s.drops = []) (hb : s.blocks = []) (hl : ∀ l ∈ s.launches, l.st ≠ .running) :
    ∃ u : State, s.loseDie die = u.degrade 0 ∧ u.dev.dies = s.dev.dies &&& ~~~(1#8 <<< die) ∧ u.dev.dropDie = s.dev.dropDie := by
  have hf := Idle.fence s die
  have hnone : ((s.fence die).launches.filter fun l => (s.contextsOn die).contains l.asid && l.st == .running) = [] := by
    rw [hf.launches, List.filter_eq_nil_iff]
    intro l hm
    simp [hl l hm]
  obtain ⟨u, hu, h1, h2⟩ := State.finishDrops_drops (s := { s.fence die with drops := (s.fence die).drops ++ [die] }) (d := die)
    (by simp [hf.drops, hd]) (hf.blocks hb)
  refine ⟨u, ?_, h1.trans (by rw [hf.dev]), h2.trans (by rw [hf.dev])⟩
  unfold State.loseDie
  rw [if_neg (by simp [hr, hdie, hd])]
  dsimp only
  rw [hnone, List.foldl_nil, hf.blocks hb, List.filter_nil, List.foldl_nil]
  exact hu

theorem State.degrade_dev (s : State) (bit : Nat) : (s.degrade bit).dev = { s.dev with
    cause := s.dev.cause ||| (1#6 <<< bit), degraded := true, replace := s.dev.replace || bit != 4 } := by
  obtain ⟨m, h⟩ := s.degrade_eq bit
  rw [h]

theorem State.degrade_rest (s : State) (bit : Nat) : (s.degrade bit).mem = s.mem ∧ (s.degrade bit).env = s.env := by
  obtain ⟨m, h⟩ := s.degrade_eq bit
  rw [h]
  exact ⟨rfl, rfl⟩

/-- A degradation sets its cause. -/
theorem State.degrade_cause (s : State) {bit : Nat} (h : bit < 6) : (s.degrade bit).dev.cause.getLsbD bit = true := by
  rw [s.degrade_dev]
  simp [h]

/-- A write of DEVCTL that drops a die takes effect at once where no other host write waits (R367, R368). -/
theorem dieDrop_loses {s : State} (die : Fin 8) (hr : s.dev.ready = true) (hd : s.deferred = []) (hw : s.hostWdev ≤ s.time) :
    exec (.dieDrop die) s = .next (({ s with dev := { s.dev with dropDie := die.val } } : State).loseDie die.val) := by
  have hv : ∀ d : Fin 8, fieldOf (BitVec.ofNat 32 (2 ^ 31 + d.val)) 0 3 = d.val ∧
      (BitVec.ofNat 32 (2 ^ 31 + d.val)).getLsbD 31 = true := by decide
  obtain ⟨hf, hbit⟩ := hv die
  show execDieDrop die s = _
  unfold execDieDrop State.hostStarts
  rw [if_neg (by simp [hr]), if_pos (by simp [hd, hw])]
  show Host.Outcome.next (State.devctl s _) = _
  unfold State.devctl
  dsimp only
  rw [hf, if_pos hbit]

/-- R345: DIE_FAILURE and DIE_DROP where no block is on a core and no launch runs. -/
theorem dieLoss_degrades (s : State) (die : Fin 8) (hdie : s.dev.dies.getLsbD die.val = true) (hd : s.drops = [])
    (hb : s.blocks = []) (hl : ∀ l ∈ s.launches, l.st ≠ .running) (hr : s.dev.ready = true) :
    (∃ t, exec (.dieFailure die) s = .next t ∧ t.dev.dies = s.dev.dies &&& ~~~(1#8 <<< die.val) ∧ t.dev.degraded = true ∧
      t.dev.cause.getLsbD 0 = true) ∧
    (HostFree s → ∃ t, exec (.dieDrop die) s = .next t ∧ t.dev.dies = s.dev.dies &&& ~~~(1#8 <<< die.val) ∧
      t.dev.dropDie = die.val ∧ t.dev.degraded = true) := by
  constructor
  · obtain ⟨u, hu, h1, -⟩ := State.loseDie_loses hr hdie hd hb hl
    refine ⟨_, rfl, ?_, ?_, ?_⟩ <;> rw [hu]
    · rw [State.degrade_dev]; exact h1
    · rw [State.degrade_dev]
    · exact u.degrade_cause (by decide)
  · rintro ⟨-, hdef, hw⟩
    obtain ⟨u, hu, h1, h2⟩ := State.loseDie_loses (s := { s with dev := { s.dev with dropDie := die.val } }) hr hdie hd hb hl
    refine ⟨u.degrade 0, ?_, ?_, ?_, ?_⟩
    · rw [dieDrop_loses die hr hdef hw, hu]
    · rw [State.degrade_dev]; exact h1
    · rw [State.degrade_dev]; exact h2
    · rw [State.degrade_dev]

/-! ### Ports, time and error rates (R377, R378, R381, R382) -/

theorem linkDegrade_degrades (s : State) (port : Fin 18) (lanes : Nat) (h : lanes < s.env.linkLanes[port]) (h2 : lanes ≤ 2) :
    ∃ t, exec (.linkDegrade port lanes) s = .next t ∧ t.env.linkLanes[port] = lanes ∧ t.dev.cause.getLsbD 2 = true ∧
      t.dev.degraded = true ∧ t.mem = s.mem := by
  refine ⟨_, if_pos (by simpa using ⟨h, h2⟩), ?_, State.degrade_cause _ (by decide), ?_, (State.degrade_rest _ 2).1⟩
  · rw [(State.degrade_rest _ 2).2]
    simp
  · rw [State.degrade_dev]

theorem cxlPortDown_degrades (s : State) (port : Fin 4) : ∃ t, exec (.cxlPortDown port) s = .next t ∧ t.env.cxlUp[port] = false ∧
    t.dev.cause.getLsbD 3 = true ∧ t.mem = s.mem := by
  refine ⟨_, rfl, ?_, State.degrade_cause _ (by decide), (State.degrade_rest _ 3).1⟩
  rw [(State.degrade_rest _ 3).2]
  simp

theorem podSyncLoss_degrades (s : State) : ∃ t, exec .podSyncLoss s = .next t ∧ t.env.syncLost = true ∧
    t.dev.cause.getLsbD 5 = true ∧ t.dev.cause.getLsbD 2 = true ∧ t.mem = s.mem := by
  refine ⟨_, rfl, ?_, State.degrade_cause _ (by decide), ?_, (State.degrade_rest _ 5).1⟩
  · rw [(State.degrade_rest _ 5).2]
  · rw [State.degrade_dev]
    simp

theorem correctedErrorRateLimit_degrades (s : State) : ∃ t, exec .correctedErrorRateLimit s = .next t ∧
    t.dev.cause.getLsbD 4 = true ∧ t.dev.degraded = true ∧
    t.dev.replace = (s.dev.replace || s.env.ratePasses.any fun x => decide (s.time ≤ x + 86400000000000)) ∧ t.mem = s.mem := by
  refine ⟨_, rfl, State.degrade_cause _ (by decide), ?_, ?_, (State.degrade_rest _ 4).1⟩
  · rw [State.degrade_dev]
  · rw [State.degrade_dev]
    simp

/-! ### Clocks and temperatures (R17, R383) -/

/-- What a stopped column's cores note leaves all else as it was. -/
theorem State.noteStopped_keeps (s : State) : s.noteStopped.env = s.env ∧ s.noteStopped.blocks = s.blocks := by
  unfold State.noteStopped
  exact List.foldlRecOn (motive := fun t : State => t.env = s.env ∧ t.blocks = s.blocks) _ _ ⟨rfl, rfl⟩ fun _ h _ _ => h

theorem Env.stretchOf_eq (e : Env) (k : Fin 40) :
    e.stretchOf k.val = max e.droop[k] (max e.power (if e.hot[k] then 750 else 0)) := by
  simp [Env.stretchOf, vget]

theorem droopStretch_stretches (s : State) (column : Fin 40) (ratio : Nat) :
    ∃ t, exec (.droopStretch column ratio) s = .next t ∧ t.env.droop[column] = ratio ∧
      (∀ k : Fin 40, k ≠ column → t.env.stretchOf k.val = s.env.stretchOf k.val) ∧ t.env.hot = s.env.hot ∧
      t.env.power = s.env.power ∧ t.blocks = s.blocks := by
  obtain ⟨he, hb⟩ := State.noteStopped_keeps { s with env := { s.env with droop := s.env.droop.set column ratio } }
  refine ⟨_, rfl, ?_, fun k hk => ?_, by rw [he], by rw [he], hb⟩ <;> rw [he]
  · simp
  · rw [Env.stretchOf_eq, Env.stretchOf_eq]
    simp [show column.val ≠ k.val from fun hc => hk (Fin.ext hc.symm)]

theorem powerLimitStretch_stretches (s : State) (ratio : Nat) :
    ∃ t, exec (.powerLimitStretch ratio) s = .next t ∧ t.env.power = ratio ∧ t.env.droop = s.env.droop ∧ t.env.hot = s.env.hot ∧
      t.blocks = s.blocks := by
  obtain ⟨he, hb⟩ := State.noteStopped_keeps { s with env := { s.env with power := ratio } }
  exact ⟨_, rfl, by rw [he], by rw [he], by rw [he], hb⟩

theorem columnOvertemp_stretches (s : State) (column : Fin 40) :
    ∃ t, exec (.columnOvertemp column) s = .next t ∧ t.env.hot[column] = true ∧ 750 ≤ t.env.stretchOf column.val ∧
      (∀ k : Fin 40, k ≠ column → t.env.stretchOf k.val = s.env.stretchOf k.val) ∧ t.blocks = s.blocks := by
  refine ⟨_, rfl, by simp, ?_, fun k hk => ?_, rfl⟩
  · rw [Env.stretchOf_eq]
    simp
  · rw [Env.stretchOf_eq, Env.stretchOf_eq]
    simp [show column.val ≠ k.val from fun hc => hk (Fin.ext hc.symm)]

/-! ### The shutdown for temperature (R357, R383) -/

/-- What the error records and the aborts of the shutdown leave: memory, the ring of block records, which context is traced, and of each
launch all but its standing. -/
theorem foldl_dieLost_records (info : Word) (die : Nat) (ls : List Machine.Launch) (s : State) :
    let t := ls.foldl (fun (t : State) l => t.dieLost l info die) s
    t.mem = s.mem ∧ t.pr = s.pr ∧ t.dev.trAsid = s.dev.trAsid ∧ ∃ f, KeepsOffer f ∧ t.launches = s.launches.map f := by
  refine List.foldlRecOn (motive := fun t : State => t.mem = s.mem ∧ t.pr = s.pr ∧ t.dev.trAsid = s.dev.trAsid ∧
    ∃ f, KeepsOffer f ∧ t.launches = s.launches.map f) ls _ ⟨rfl, rfl, rfl, id, fun _ => rfl, (List.map_id _).symm⟩ ?_
  rintro t ⟨h1, h2, h3, f, hf, h4⟩ l -
  obtain ⟨f', g, r, p, m, e, i, hf', h⟩ := t.dieLost_eq l info die
  rw [h]
  exact ⟨h1, h2, h3, f' ∘ f, hf'.comp hf, by rw [h4, List.map_map]⟩

/-- The block record of each block whose launch is known. -/
def State.shutdownRecord (t : State) (b : Block) : State :=
  match t.launch? b.lid with
  | some l => t.blockRecord b l.asid 2
  | none => t

theorem State.shutdownRecord_eq (s : State) (b : Block) : ∃ m r, s.shutdownRecord b = { s with host := m, pr := r } := by
  unfold State.shutdownRecord
  split
  · obtain ⟨m, r, h, -⟩ := s.blockRecord_eq b _ 2
    exact ⟨m, r, h⟩
  · exact ⟨s.host, s.pr, rfl⟩

theorem foldl_shutdownRecord_eq (bs : List Block) (s : State) : ∃ m r, bs.foldl State.shutdownRecord s = { s with host := m, pr := r } := by
  refine List.foldlRecOn (motive := fun t : State => ∃ m r, t = { s with host := m, pr := r }) bs _ ⟨s.host, s.pr, rfl⟩ ?_
  rintro t ⟨m, r, rfl⟩ b -
  exact State.shutdownRecord_eq _ b

theorem moduleOvertempShutdown_stops (s : State) : ∃ t, exec .moduleOvertempShutdown s = .next t ∧ t.dev.ready = false ∧
    t.dev.dies = 0 ∧ t.blocks = [] ∧ t.reqs = [] ∧ (∀ l ∈ t.launches, l.st = .completed ∨ l.st = .aborted) ∧ t.mem = s.mem ∧
    ∀ b l, s.blocks = [b] → s.launch? b.lid = some l → l.asid = s.dev.trAsid → s.pr.en = true →
      b.warps.length < s.pr.room → t.pr.wptr = s.pr.wptr + BitVec.ofNat 32 (b.warps.length + 1) := by
  obtain ⟨hmem, hpr, htr, f, hf, hl⟩ := foldl_dieLost_records 0xFF 0xFF (s.launches.filter fun l => l.st == .running) s
  set u := (s.launches.filter fun l => l.st == .running).foldl (fun (s : State) l => s.dieLost l 0xFF 0xFF) s
  obtain ⟨m, r, hr⟩ := foldl_shutdownRecord_eq s.blocks u
  refine ⟨_, rfl, rfl, rfl, rfl, rfl, ?_, ?_, ?_⟩
  · intro x hx
    obtain ⟨y, -, rfl⟩ := List.mem_map.1 hx
    split
    · exact .inl (by simpa using ‹(y.st == .completed) = true›)
    · exact .inr rfl
  · show (s.blocks.foldl State.shutdownRecord u).mem = _
    rw [hr]
    exact hmem
  · intro b l hb hlb hasid hen hroom
    show (s.blocks.foldl State.shutdownRecord u).pr.wptr = _
    have hlu : u.launch? b.lid = some (f l) := by
      rw [State.launch?, hl, find?_launch_map hf.id_eq]
      exact congrArg (Option.map f) hlb
    obtain ⟨m', r', h', hw⟩ := u.blockRecord_eq b (f l).asid 2
    rw [hb, List.foldl_cons, List.foldl_nil, State.shutdownRecord, hlu]
    show (u.blockRecord b (f l).asid 2).pr.wptr = _
    rw [h']
    exact (hw ((hf.asid_eq l).trans (hasid.trans htr.symm)) (hpr ▸ hen) (hpr ▸ hroom)).trans (by rw [hpr])

/-! ### The management interface (R374) -/

theorem step_manage {s : State} {t0 : Nat} {r : MgmtRead} {rest : List (Nat × Outside)} (hp : s.picks = []) (ha : s.agenda = [])
    (ho : s.outside = (t0, .manage r) :: rest) (ht : t0 ≤ s.time) :
    step s = .next { s with outside := rest, hostRead := { data := s.monitored r } } := by
  have hi : s.inputDue = some { s with outside := rest, hostRead := { data := s.monitored r } } := by
    simp only [State.inputDue, ho, if_pos ht]
    cases r <;> rfl
  have hon : s.onward = { s with outside := rest, hostRead := { data := s.monitored r } } := by
    simp [State.onward, hi]
  simp [step, hp, ha, hon, State.settled, State.tablesMoved]

/-- R17, R345, R357, R367, R374, R377, R378, R381-R383: service with less than the whole device. -/
theorem serviceGoesOnWithLess : ServiceGoesOnWithLess := by
  refine ⟨dieLoss_degrades, linkDegrade_degrades, cxlPortDown_degrades, podSyncLoss_degrades, correctedErrorRateLimit_degrades,
    fun s column ratio => ⟨fun e k => e.stretchOf_eq k, droopStretch_stretches s column ratio, powerLimitStretch_stretches s ratio,
      columnOvertemp_stretches s column⟩, moduleOvertempShutdown_stops, fun s => ⟨_, rfl, rfl, rfl⟩, ?_⟩
  intro s t0 r rest hp ha ho ht
  refine ⟨_, step_manage hp ha ho ht, rfl, rfl, ?_⟩
  cases r <;> rfl

/-- Settles O50: boot, and each cause of degradation, from what a degradation leaves as it was. -/
theorem theDeviceBootsAndDegrades : Obligations.TheDeviceBootsAndDegrades := ⟨bootEndsReadyOrInRecovery, serviceGoesOnWithLess⟩

end Sys2Proof.Machine
end

section
/-! OBLIGATION O45, the end of a tree: what a record written by the floor die reads back as, and the completion of the KLAUNCH packet
(R294, R303, R305). -/

namespace Sys2Proof.Machine

/-! ### Little-endian values in memory -/

/-- A value of n bytes reads back at its low n bytes. -/
theorem leRead_leBytes {g : Nat → Byte} {a n v : Nat} (h : ∀ k, k < n → g (a + k) = (leBytes n v).getD k 0) :
    leRead g a n = v % 2 ^ (8 * n) := by
  induction n generalizing a v with
  | zero => simp [leRead, Nat.mod_one]
  | succ n ih =>
    have h0 : g a = BitVec.ofNat 8 v := by simpa [leBytes] using h 0 (by omega)
    have hr : leRead g (a + 1) n = v / 256 % 2 ^ (8 * n) := ih fun k hk => by
      have := h (k + 1) (by omega)
      rw [show a + (k + 1) = a + 1 + k by omega] at this
      simpa [leBytes] using this
    rw [leRead, h0, hr, BitVec.toNat_ofNat, show 2 ^ (8 * (n + 1)) = 2 ^ 8 * 2 ^ (8 * n) by rw [← Nat.pow_add]; congr 1; omega,
      Nat.mod_mul]
    rfl

/-- A value among the bytes of a record. -/
theorem leRead_of_bytes {g : Nat → Byte} {a : Nat} {pre post : List Byte} {n v : Nat} (bs : List Byte)
    (hg : ∀ k, k < bs.length → g (a + k) = bs.getD k 0) (hb : bs = pre ++ (leBytes n v ++ post)) :
    leRead g (a + pre.length) n = v % 2 ^ (8 * n) := by
  refine leRead_leBytes fun k hk => ?_
  rw [Nat.add_assoc, hg _ (by simp [hb]; omega), hb]
  rw [List.getD_append_right _ _ _ _ (by omega), Nat.add_sub_cancel_left, List.getD_append _ _ _ _ (by simpa using hk)]

/-! ### Writes at the slices (R29) -/

theorem Memory.writeBytes_append (m : Memory) (a : Nat) (xs ys : List Byte) :
    m.writeBytes a (xs ++ ys) = (m.writeBytes a xs).writeBytes (a + xs.length) ys := by
  induction xs generalizing m a with
  | nil => rfl
  | cons x r ih =>
    rw [List.cons_append, Memory.writeBytes, ih, Memory.writeBytes, List.length_cons]
    congr 1
    omega

/-- A memory after bytes are written in pieces of lines. -/
theorem foldl_linePieces (f a : Nat) (bs : List Byte) (m : Memory) (h : a % 128 + bs.length ≤ 128 * (f + 1)) :
    (linePieces (f + 1) a bs).foldl (fun m p => m.writeBytes p.1 p.2) m = m.writeBytes a bs := by
  induction f generalizing a bs m with
  | zero =>
    rw [linePieces]
    rw [if_pos (by omega)]
    rfl
  | succ f ih =>
    rw [linePieces]
    split
    · rfl
    · have hk : (bs.take (128 - a % 128)).length = 128 - a % 128 := by simp; omega
      rw [List.foldl_cons, ih _ _ _ (by rw [List.length_drop]; omega)]
      conv_rhs => rw [← List.take_append_drop (128 - a % 128) bs, Memory.writeBytes_append, hk]

/-- A memory of the device or of the host, after a write to a target. -/
def Target.put (t : Target) (mine : Target) (m : Memory) (a : Nat) (bs : List Byte) : Memory := if t = mine then m.writeBytes a bs else m

theorem State.lineWrite_memories (s : State) (t : Target) (pa : Nat) (bs : List Byte) (d : Option Nat) :
    (s.lineWrite t pa bs d).1.mem = t.put .device s.mem pa bs ∧ (s.lineWrite t pa bs d).1.host = t.put .host s.host pa bs := by
  show ((s.physWrite t pa bs).clearResv t pa bs.length).mem = _ ∧ ((s.physWrite t pa bs).clearResv t pa bs.length).host = _
  unfold State.physWrite State.clearResv
  split <;> cases t <;> exact ⟨rfl, rfl⟩

/-- A write at the slices puts its bytes in the memory it names, and in no other. -/
theorem State.sliceWrite_memories (s : State) (t : Target) (pa : Nat) (bs : List Byte) (d : Option Nat) :
    (s.sliceWrite t pa bs d).1.mem = t.put .device s.mem pa bs ∧ (s.sliceWrite t pa bs d).1.host = t.put .host s.host pa bs := by
  unfold State.sliceWrite
  split
  · exact s.lineWrite_memories t pa bs d
  · have hfold : ∀ (l : List (Nat × List Byte)) (x : State × Nat × Nat), ∀ y, y = (l.foldl (fun x p =>
        let y := x.1.lineWrite t p.1 p.2 d
        (y.1, max x.2.1 y.2.1, max x.2.2 y.2.2)) x) →
        y.1.mem = l.foldl (fun m p => t.put .device m p.1 p.2) x.1.mem ∧
        y.1.host = l.foldl (fun m p => t.put .host m p.1 p.2) x.1.host := by
      intro l
      induction l with
      | nil => rintro x y rfl; exact ⟨rfl, rfl⟩
      | cons p r ih =>
        intro x y hy
        obtain ⟨h1, h2⟩ := ih _ y hy
        obtain ⟨k1, k2⟩ := x.1.lineWrite_memories t p.1 p.2 d
        exact ⟨by rw [h1, k1]; rfl, by rw [h2, k2]; rfl⟩
    obtain ⟨h1, h2⟩ := hfold _ _ _ rfl
    have hput : ∀ (mine : Target) (m : Memory), (linePieces (bs.length / 128 + 2) pa bs).foldl (fun m p => t.put mine m p.1 p.2) m =
        t.put mine m pa bs := by
      intro mine m
      by_cases ht : t = mine
      · simp only [Target.put, ht, if_true]
        exact foldl_linePieces _ _ _ _ (by omega)
      · simp [Target.put, ht]
    exact ⟨h1.trans (hput _ _), h2.trans (hput _ _)⟩

/-- What is written to the memory of the device or of the host reads back, and every other byte is as before. -/
theorem State.sliceWrite_reads {s : State} {t : Target} {pa : Nat} {bs : List Byte} (d : Option Nat) (hm : s.memOk)
    (ht : t = .device ∨ t = .host) :
    (∀ k, k < bs.length → (s.sliceWrite t pa bs d).1.physGet t (pa + k) = bs.getD k 0) ∧
    ∀ y, (t ≠ .device ∨ y < pa ∨ pa + bs.length ≤ y → (s.sliceWrite t pa bs d).1.mem.get y = s.mem.get y) ∧
      (t ≠ .host ∨ y < pa ∨ pa + bs.length ≤ y → (s.sliceWrite t pa bs d).1.host.get y = s.host.get y) := by
  obtain ⟨h1, h2⟩ := s.sliceWrite_memories t pa bs d
  obtain ⟨hmem, hhost, -⟩ := hm
  have hget : ∀ {m : Memory}, m.wf → ∀ k, k < bs.length → (m.writeBytes pa bs).get (pa + k) = bs.getD k 0 := fun hw k hk => by
    rw [Memory.get_writeBytes hw, if_pos (by omega), Nat.add_sub_cancel_left]
  have hoff : ∀ {m : Memory}, m.wf → ∀ y, (y < pa ∨ pa + bs.length ≤ y) → (m.writeBytes pa bs).get y = m.get y := fun hw y hy => by
    rw [Memory.get_writeBytes hw, if_neg (by omega)]
  rw [h1, h2]
  rcases ht with rfl | rfl
  · refine ⟨fun k hk => ?_, fun y => ⟨fun hy => hoff hmem y (hy.resolve_left (by simp)), fun _ => rfl⟩⟩
    rw [State.physGet, h1]
    exact hget hmem k hk
  · refine ⟨fun k hk => ?_, fun y => ⟨fun _ => rfl, fun hy => hoff hhost y (hy.resolve_left (by simp))⟩⟩
    rw [State.physGet, h2]
    exact hget hhost k hk

/-! ### The completion of a packet (R294, R295) -/

theorem State.packetDone_completes (s : State) (q : Nat) (p : Pending) (vec : Option Nat) :
    ((s.packetDone q p vec).queue q).pending = (s.queue q).pending.erase p ∧ (s.packetDone q p vec).msix = s.msix ++ irqs vec ∧
      (s.packetDone q p vec).mem = s.mem ∧ (s.packetDone q p vec).host = s.host ∧ (s.packetDone q p vec).launches = s.launches := by
  have hq : ((s.modQueue q fun k => { k with pending := k.pending.erase p }).queue q).pending = (s.queue q).pending.erase p := by
    rw [State.queue, State.modQueue, vget_vset]
    split
    · rfl
    · have hout : 64 ≤ q := by omega
      simp [State.queue, vget, hout]
  unfold State.packetDone
  cases vec with
  | none => exact ⟨hq, by simp [irqs], rfl, rfl, rfl⟩
  | some v =>
    refine ⟨by simpa [State.queue] using hq, ?_, by simp, by simp, by simp⟩
    simp only [State.raise, irqs]
    split <;> simp

end Sys2Proof.Machine
end

section
/-! OBLIGATION O45, kernels and trees: the boundary that empties the L1s (R243, R284), and the record of a tree that has ended (R303, R305). -/

namespace Sys2Proof.Machine

/-! ### The boundary of a kernel (R284) -/

theorem tget_of_not_mem {α : Type} (d : α) {t : Table α} {k : Nat} (h : k ∉ t.map (·.1)) : tget d t k = d := by
  induction t with
  | nil => rfl
  | cons e r ih =>
    simp only [List.map_cons, List.mem_cons, not_or] at h
    rw [tget, if_neg h.1, ih h.2]

theorem Traffic.empty {s t : State} (h : Traffic s t) {k : Nat} (he : (s.core k).lines = []) : (t.core k).lines = [] :=
  List.eq_nil_iff_forall_not_mem.2 fun x hx => by simpa [he] using h.lines k x hx

/-- A state after the L1s of some cores are emptied. -/
def State.emptyL1s (s : State) (ks : List Nat) : State := ks.foldl (fun s c => s.dropLines c fun _ => true) s

theorem State.emptyL1s_traffic (s : State) (ks : List Nat) : Traffic s (s.emptyL1s ks) := .foldl _ (fun s c => .dropLines s c _) ks s

/-- The L1 of each core named is empty. -/
theorem State.emptyL1s_empties (s : State) {ks : List Nat} {k : Nat} (h : k ∈ ks) : ((s.emptyL1s ks).core k).lines = [] := by
  induction ks generalizing s with
  | nil => cases h
  | cons c r ih =>
    rcases List.mem_cons.1 h with rfl | hr
    · refine ((s.dropLines k fun _ => true).emptyL1s_traffic r).empty ?_
      rw [State.dropLines, State.core_modCore]
      simp
    · exact ih _ hr

/-- A core that no entry speaks of has an empty L1 as well. -/
theorem State.emptyL1s_all (s : State) (k : Nat) : ((s.emptyL1s (s.cores.map (·.1))).core k).lines = [] := by
  by_cases h : k ∈ s.cores.map (·.1)
  · exact s.emptyL1s_empties h
  · exact (s.emptyL1s_traffic _).empty (by rw [State.core, tget_of_not_mem _ h])

/-- Where no line is dirty, emptying the L1s writes nothing. -/
theorem State.emptyL1s_clean {s : State} (h : NoDirty s) (ks : List Nat) : (s.emptyL1s ks).mem = s.mem := by
  refine (List.foldlRecOn (motive := fun t : State => NoDirty t ∧ t.mem = s.mem) ks _ ⟨h, rfl⟩ fun t ⟨ht, hm⟩ c _ => ?_).2
  exact ⟨(Traffic.dropLines t c _).noDirty ht, by rw [State.dropLines_clean ht]; exact hm⟩

theorem kernelBoundary_empties {s : State} {lid : Nat} {l : Machine.Launch} (hl : s.launch? lid = some l) (hb : s.atBoundary l = true) :
    ∃ t x, exec (.kernelBoundary lid) s = .next t ∧ t.launch? lid = some x ∧ x.boundary = true ∧
      (l.st = .ended → x.st = .completed) ∧ (∀ k, (t.core k).lines = []) ∧ (NoDirty s → t.mem = s.mem) := by
  refine ⟨(s.emptyL1s (s.cores.map (·.1))).modLaunch lid fun l =>
    { l with boundary := true, st := if l.st == .ended then .completed else l.st, image := [] },
    { l with boundary := true, st := if l.st == .ended then .completed else l.st, image := [] }, ?_, ?_, rfl, fun h => ?_, ?_, ?_⟩
  · show execKernelBoundary lid s = _
    rw [execKernelBoundary, hl]
    exact if_pos hb
  · exact State.launch?_modLaunch_some (((s.emptyL1s_traffic _).launch? lid).trans hl) fun _ => rfl
  · simp [h]
  · exact s.emptyL1s_all
  · exact fun hn => State.emptyL1s_clean hn _

/-! ### The end of a tree (R303, R305) -/

/-- What the final record of a tree says of its kernels: 3 where one was aborted, else 2. -/
def State.treeStatus (s : State) (lid : Nat) : Nat := if (s.treeOf lid).any (·.st == .aborted) then 3 else 2

theorem State.treeStatus_eq (s : State) (lid : Nat) :
    ((∃ x ∈ s.launches, x.root = lid ∧ x.st = .aborted) → s.treeStatus lid = 3) ∧
    ((∀ x ∈ s.launches, x.root = lid → x.st ≠ .aborted) → s.treeStatus lid = 2) := by
  constructor
  · rintro ⟨x, hx, hr, ha⟩
    have : (s.treeOf lid).any (·.st == .aborted) = true :=
      List.any_eq_true.2 ⟨x, List.mem_filter.2 ⟨hx, by simpa using hr⟩, by simp [ha]⟩
    rw [State.treeStatus, if_pos this]
  · intro h
    refine if_neg fun ha => ?_
    obtain ⟨x, hx, hst⟩ := List.any_eq_true.1 ha
    obtain ⟨hm, hr⟩ := List.mem_filter.1 hx
    exact h x hm (by simpa using hr) (by simpa using hst)

/-- The final record of a tree. -/
def State.treeRecord (s : State) (l : Machine.Launch) : List Byte :=
  statusBytes (s.treeStatus l.id) l.id l.chainBase 0 (l.start.getD 0) s.time

/-- A tree whose members are over ends: the final record is written, and the KLAUNCH completes. -/
theorem kernelTreeEnd_ends {s : State} {lid : Nat} {l : Machine.Launch} (hl : s.launch? lid = some l) (hr : l.root = lid)
    (hd : l.treeDone = false) (ho : ∀ x ∈ s.launches, x.root = lid → x.over = true) (v : State)
    (hv : s.statusWrite l.asid l.status (s.treeRecord l) = v) (htr : Traffic s v) :
    ∃ t x, exec (.kernelTreeEnd lid) s = .next t ∧ t.launch? lid = some x ∧ x.treeDone = true ∧
      (t.queue l.queue).pending = (s.queue l.queue).pending.erase (.klaunch lid) ∧ t.msix = s.msix ++ irqs l.vec ∧ t.mem = v.mem ∧
      t.host = v.host := by
  have hid := State.launch?_id hl
  have hall : (s.treeOf lid).all Launch.over = true := by
    rw [List.all_eq_true]
    intro x hx
    obtain ⟨hm, hroot⟩ := List.mem_filter.1 hx
    exact ho x hm (by simpa using hroot)
  obtain ⟨hq, hi, hm, hh, hls⟩ := (v.modLaunch lid fun l => { l with treeDone := true }).packetDone_completes l.queue (.klaunch lid) l.vec
  refine ⟨_, { l with treeDone := true }, ?_, ?_, rfl, hq.trans ?_, hi.trans ?_, hm, hh⟩
  · show execKernelTreeEnd lid s = _
    rw [execKernelTreeEnd, hl]
    dsimp only
    rw [if_pos (by simp [hr, hd, hall]), ← hv, State.treeRecord, State.treeStatus, hid]
  · rw [State.launch?, hls]
    exact State.launch?_modLaunch_some ((htr.launch? lid).trans hl) fun _ => rfl
  · show (State.queue v l.queue).pending.erase _ = _
    rw [State.queue, htr.queues, State.queue]
  · show v.msix ++ _ = _
    rw [htr.msix]

/-- A record of no address is not written. -/
theorem State.statusWrite_zero (s : State) (asid : Nat) (bs : List Byte) : s.statusWrite asid 0 bs = s := if_pos rfl

/-- Where the address of a record translates to memory that is there, the record is written at the slices. -/
theorem State.statusWrite_writes {s : State} {asid addr pa : Nat} {a : Attr} (bs : List Byte) (h0 : addr ≠ 0)
    (hx : (s.walk asid (addr % 2 ^ 56)).map (pteResult · (addr % 2 ^ 56) .wr) = some (.ok pa a))
    (ht : a.target = .device ∨ a.target = .host) (hlost : s.lostAt a.tier pa = none) :
    s.statusWrite asid addr bs = ((s.sliceWrite a.target pa bs none).1).goodSector a.target pa bs.length := by
  have hcxl : s.cxlLost a.tier pa = false := by
    cases h : s.cxlLost a.tier pa with
    | false => rfl
    | true => simp [State.lostAt, h] at hlost
  rw [State.statusWrite, if_neg h0, State.floorWrite, hx]
  dsimp only
  rcases ht with ht | ht <;> simp [ht, hcxl]

theorem launchIdent_lt (n : Nat) : launchIdent n < 2 ^ 32 := by
  unfold launchIdent
  split
  · decide
  · omega

/-- The fields of a status record, read from memory that holds it (R305). -/
theorem leRead_statusBytes {g : Nat → Byte} {pa st lid t0 t1 : Nat} {base : Option Nat}
    (hg : ∀ k, k < 32 → g (pa + k) = (statusBytes st lid base 0 t0 t1).getD k 0) :
    leRead g pa 4 = st % 2 ^ 32 ∧ leRead g (pa + 4) 4 = launchIdent lid ∧
    leRead g (pa + 8) 4 = base.elim 0xFFFF_FFFF (· % 2 ^ 32) ∧ leRead g (pa + 12) 4 = 0 ∧
    leRead g (pa + 16) 8 = t0 % 2 ^ 64 ∧ leRead g (pa + 24) 8 = t1 % 2 ^ 64 := by
  have hlen : (statusBytes st lid base 0 t0 t1).length = 32 := by simp [statusBytes]
  have field (pre : List Byte) {post : List Byte} {n v : Nat} (hb : statusBytes st lid base 0 t0 t1 = pre ++ (leBytes n v ++ post)) :
      leRead g (pa + pre.length) n = v % 2 ^ (8 * n) := leRead_of_bytes _ (fun k hk => hg k (hlen ▸ hk)) hb
  have h0 := field [] (n := 4) (v := st) (by simp only [statusBytes, List.append_assoc, List.nil_append]; rfl)
  have h4 := field (leBytes 4 st) (n := 4) (v := launchIdent lid) (by simp only [statusBytes, List.append_assoc]; rfl)
  have h8 := field (leBytes 4 st ++ leBytes 4 (launchIdent lid)) (n := 4) (v := base.getD 0xFFFF_FFFF)
    (by simp only [statusBytes, List.append_assoc]; rfl)
  have h12 := field (leBytes 4 st ++ leBytes 4 (launchIdent lid) ++ leBytes 4 (base.getD 0xFFFF_FFFF)) (n := 4) (v := 0)
    (by simp only [statusBytes, List.append_assoc]; rfl)
  have h16 := field (leBytes 4 st ++ leBytes 4 (launchIdent lid) ++ leBytes 4 (base.getD 0xFFFF_FFFF) ++ leBytes 4 0) (n := 8) (v := t0)
    (by simp only [statusBytes, List.append_assoc]; rfl)
  have h24 := field (leBytes 4 st ++ leBytes 4 (launchIdent lid) ++ leBytes 4 (base.getD 0xFFFF_FFFF) ++ leBytes 4 0 ++ leBytes 8 t0)
    (n := 8) (v := t1) (post := []) (by simp only [statusBytes, List.append_assoc, List.append_nil])
  simp only [List.length_append, leBytes_length, List.length_nil, Nat.add_zero, Nat.reduceAdd, Nat.reduceMul] at h0 h4 h8 h12 h16 h24
  refine ⟨h0, h4.trans (Nat.mod_eq_of_lt (launchIdent_lt lid)), h8.trans ?_, h12, h16, h24⟩
  cases base <;> rfl

/-- The final record of a tree whose address translates to memory that is there: what it reads back as, and that nothing else changes. -/
theorem treeRecord_reads {s : State} {l : Machine.Launch} {pa : Nat} {a : Attr} (hm : s.memOk) (h0 : l.status ≠ 0)
    (hx : (s.walk l.asid (l.status % 2 ^ 56)).map (pteResult · (l.status % 2 ^ 56) .wr) = some (.ok pa a))
    (ht : a.target = .device ∨ a.target = .host) (hlost : s.lostAt a.tier pa = none) (v : State)
    (hv : s.statusWrite l.asid l.status (s.treeRecord l) = v) : Traffic s v ∧
    (∀ k, k < 32 → v.physGet a.target (pa + k) = (s.treeRecord l).getD k 0) ∧
    ∀ y, (a.target ≠ .device ∨ y < pa ∨ pa + 32 ≤ y → v.mem.get y = s.mem.get y) ∧
      (a.target ≠ .host ∨ y < pa ∨ pa + 32 ≤ y → v.host.get y = s.host.get y) := by
  have hlen : (s.treeRecord l).length = 32 := by simp [State.treeRecord, statusBytes]
  rw [State.statusWrite_writes _ h0 hx ht hlost] at hv
  obtain ⟨h1, h2⟩ := State.sliceWrite_reads (pa := pa) (bs := s.treeRecord l) none hm ht
  have htr := Traffic.sliceWrite s a.target pa (s.treeRecord l) none
  rw [hlen] at h1 h2 hv
  generalize (s.sliceWrite a.target pa (s.treeRecord l) none).1 = w at h1 h2 htr hv
  subst hv
  refine ⟨htr.trans (Traffic.goodSector ..), fun k hk => ?_, h2⟩
  rw [← h1 k hk]
  cases a.target <;> rfl

theorem kernelTreeEnd_records {s : State} {lid pa : Nat} {l : Machine.Launch} {a : Attr} (hl : s.launch? lid = some l)
    (hr : l.root = lid) (hd : l.treeDone = false) (ho : ∀ x ∈ s.launches, x.root = lid → x.over = true) (h0 : l.status ≠ 0)
    (hm : s.memOk) (hx : (s.walk l.asid (l.status % 2 ^ 56)).map (pteResult · (l.status % 2 ^ 56) .wr) = some (.ok pa a))
    (ht : a.target = .device ∨ a.target = .host) (hlost : s.lostAt a.tier pa = none) :
    ∃ t x, exec (.kernelTreeEnd lid) s = .next t ∧ t.launch? lid = some x ∧ x.treeDone = true ∧
      (t.queue l.queue).pending = (s.queue l.queue).pending.erase (.klaunch lid) ∧ t.msix = s.msix ++ irqs l.vec ∧
      ((∃ x ∈ s.launches, x.root = lid ∧ x.st = .aborted) → t.physRead a.target pa 4 = 3) ∧
      ((∀ x ∈ s.launches, x.root = lid → x.st ≠ .aborted) → t.physRead a.target pa 4 = 2) ∧
      t.physRead a.target (pa + 4) 4 = launchIdent lid ∧
      t.physRead a.target (pa + 8) 4 = (match l.chainBase with | some k => k % 2 ^ 32 | none => 0xFFFF_FFFF) ∧
      t.physRead a.target (pa + 12) 4 = 0 ∧ t.physRead a.target (pa + 16) 8 = l.start.getD 0 % 2 ^ 64 ∧
      t.physRead a.target (pa + 24) 8 = s.time % 2 ^ 64 ∧
      ∀ y, (a.target ≠ .device ∨ y < pa ∨ pa + 32 ≤ y → t.mem.get y = s.mem.get y) ∧
        (a.target ≠ .host ∨ y < pa ∨ pa + 32 ≤ y → t.host.get y = s.host.get y) := by
  obtain ⟨htr, hrec, hrest⟩ := treeRecord_reads hm h0 hx ht hlost _ rfl
  obtain ⟨t, x, he, hx', htd, hq, hi, hmem, hhost⟩ := kernelTreeEnd_ends hl hr hd ho _ rfl htr
  have hget (y : Nat) : t.physGet a.target y = (s.statusWrite l.asid l.status (s.treeRecord l)).physGet a.target y := by
    rcases ht with ht | ht <;> rw [ht, State.physGet, State.physGet] <;> simp only [hmem, hhost]
  obtain ⟨r0, r4, r8, r12, r16, r24⟩ := leRead_statusBytes fun k hk => (hget (pa + k)).trans (hrec k hk)
  obtain ⟨h3, h2⟩ := s.treeStatus_eq l.id
  rw [State.launch?_id hl] at h3 h2 r0 r4
  refine ⟨t, x, he, hx', htd, hq, hi, fun ha => r0.trans ?_, fun hn => r0.trans ?_, r4, r8.trans ?_, r12, r16, r24, fun y => ?_⟩
  · exact congrArg (· % 2 ^ 32) (h3 ha)
  · exact congrArg (· % 2 ^ 32) (h2 hn)
  · cases l.chainBase <;> rfl
  · rw [hmem, hhost]
    exact hrest y

end Sys2Proof.Machine
end

section
/-! OBLIGATION O45, blocks: what a block leaves behind as it leaves the device (R20, R164, R207, R253), and the whole statement. -/

namespace Sys2Proof.Machine

/-! ### The report of a lost die that waits -/

theorem State.reportDrop_eq (s : State) : ∃ d m r, s.reportDrop = { s with dev := d, msix := m, report := r } := by
  unfold State.reportDrop
  split
  · exact ⟨s.dev, s.msix, s.report, rfl⟩
  · extract_lets waits
    split
    · exact ⟨s.dev, s.msix, s.report, rfl⟩
    · obtain ⟨m, h⟩ := State.degrade_eq { s with report := none } 0
      exact ⟨_, m, none, h⟩

/-! ### The lines of local memory (R253, R300) -/

/-- A line with no dirty word has none of another block's. -/
theorem othersDirty_clean (l : Machine.Launch) (b : Block) {x : L1Line} (h : x.dirty = 0) : othersDirty l b x = 0 := by
  unfold othersDirty
  extract_lets n base
  refine List.foldlRecOn (motive := fun d : BitVec 32 => d = 0) _ _ rfl fun d hd k _ => ?_
  subst hd
  simp [h, setBit]

theorem State.dropLocal_traffic (s : State) (l : Machine.Launch) (b : Block) : Traffic s (s.dropLocal l b) := by
  unfold State.dropLocal
  exact (Traffic.foldl _ (fun s _ => Traffic.writeBack s _) _ s).trans (.modCore _ _ _ fun _ _ hx => List.mem_of_mem_filter hx)

theorem State.dropLocal_drops (s : State) (l : Machine.Launch) (b : Block) :
    ∀ y ∈ ((s.dropLocal l b).core b.core).lines, localLineOf l b y = false := by
  intro y hy
  rw [State.dropLocal, State.core_modCore] at hy
  simpa using (List.mem_filter.1 hy).2

/-- Where no line is dirty, dropping a block's local lines changes nothing but the L1 of its core. -/
theorem State.dropLocal_clean {s : State} (h : NoDirty s) (l : Machine.Launch) (b : Block) :
    s.dropLocal l b = s.modCore b.core fun k => { k with lines := k.lines.filter fun x => !localLineOf l b x } := by
  have hfold : ((s.core b.core).lines.filter (localLineOf l b)).foldl
      (fun s x => s.writeBack { x with dirty := othersDirty l b x }) s = s :=
    List.foldlRecOn (motive := (· = s)) _ _ rfl fun t ht x hx => by
      rw [ht]
      exact s.writeBack_clean (othersDirty_clean l b (h _ x (List.mem_of_mem_filter hx)))
  rw [State.dropLocal, hfold]

/-! ### The last packets of a core's trace (R362, R364) -/

theorem State.lastLoss_traffic (s : State) (c : Nat) : Traffic s (s.lastLoss c) := by
  unfold State.lastLoss
  extract_lets s' k traced body
  have h : Traffic s s' := .flushTrace s c
  split
  · exact (h.trans (.traceBytes s' c body)).trans (.modCore _ c _ fun _ _ hx => hx)
  · exact h

/-- A core with no packet and no tracing writes nothing. -/
theorem State.lastLoss_silent {s : State} {c : Nat} (ht : s.dev.trEn = false) (hp : (s.core c).pkts = []) : s.lastLoss c = s := by
  have hf : s.flushTrace c = s := by
    unfold State.flushTrace
    extract_lets k
    exact if_pos (by simp [k, hp])
  have hon : s.traceOn c = false := by simp [State.traceOn, ht]
  unfold State.lastLoss
  rw [hf]
  exact if_neg (by simp [hon])

/-! ### A block leaves the device -/

/-- From s to t, a block has left: its requests and the lines of its local memory too, and its kernel has ended if it was the last. -/
structure BlockGone (b : Block) (l : Machine.Launch) (s t : State) : Prop where
  block : t.block? b.uid = none
  reqs : ∀ q ∈ t.reqs, q.block ≠ b.uid
  lines : ∀ y ∈ (t.core b.core).lines, localLineOf l b y = false
  launch : ∀ x, s.launch? l.id = some x → ∃ y, t.launch? l.id = some y ∧ (x.st = .aborted → y.st = .aborted) ∧
    (x.st = .running → x.next = x.desc.total → (∀ z ∈ s.blocks, z.lid = l.id → z.uid = b.uid) → y.st = .ended)
  mem : s.dev.trEn = false → (s.core b.core).pkts = [] → NoDirty s → t.mem = s.mem
  drops : t.drops = s.drops

/-- The state of a block's core, its block and its requests taken from the device. -/
def State.without (s : State) (b : Block) (l : Machine.Launch) : State :=
  let u := (s.leaveGroups b).dropLocal l b
  { u with blocks := u.blocks.filter (·.uid != b.uid), reqs := u.reqs.filter (·.block != b.uid) }

/-- Where nothing is dirty and nothing traced, a block leaves no trace in memory. -/
theorem State.without_mem {s : State} (b : Block) (l : Machine.Launch) (ht : s.dev.trEn = false) (hp : (s.core b.core).pkts = [])
    (hn : NoDirty s) : ((s.without b l).lastLoss b.core).mem = s.mem := by
  have hu := State.dropLocal_clean (s := s.leaveGroups b) hn l b
  have hcore : ((s.without b l).core b.core).pkts = [] := by
    show (((s.leaveGroups b).dropLocal l b).core b.core).pkts = []
    rw [hu, State.core_modCore]
    exact hp
  have hdev : (s.without b l).dev.trEn = false := by
    show ((s.leaveGroups b).dropLocal l b).dev.trEn = false
    rw [hu]
    exact ht
  rw [State.lastLoss_silent hdev hcore]
  show ((s.leaveGroups b).dropLocal l b).mem = _
  rw [hu]
  rfl

/-- What stands once a block's last packets are written, before its kernel may end. -/
structure Withdrawn (b : Block) (l : Machine.Launch) (s v : State) : Prop where
  blocks : ∀ y ∈ v.blocks, y.uid ≠ b.uid ∧ ∃ z ∈ s.blocks, z.uid = y.uid ∧ z.lid = y.lid
  reqs : ∀ q ∈ v.reqs, q.block ≠ b.uid
  lines : ∀ y ∈ (v.core b.core).lines, localLineOf l b y = false
  launch : ∀ id, v.launch? id = s.launch? id
  mem : s.dev.trEn = false → (s.core b.core).pkts = [] → NoDirty s → v.mem = s.mem
  drops : v.drops = s.drops

theorem State.lastLoss_withdrawn (s : State) (b : Block) (l : Machine.Launch) : Withdrawn b l s ((s.without b l).lastLoss b.core) := by
  have h1 : Traffic (s.leaveGroups b) ((s.leaveGroups b).dropLocal l b) := State.dropLocal_traffic ..
  have h2 : Traffic (s.without b l) ((s.without b l).lastLoss b.core) := State.lastLoss_traffic ..
  obtain ⟨g, -, hg⟩ := h2.blocks
  obtain ⟨g', -, hg'⟩ := h1.blocks
  constructor
  case blocks =>
    intro y hy
    rw [hg] at hy
    obtain ⟨z, hz, rfl⟩ := List.mem_map.1 hy
    obtain ⟨hz, hne⟩ := List.mem_filter.1 hz
    rw [hg'] at hz
    obtain ⟨w, hw, rfl⟩ := List.mem_map.1 hz
    exact ⟨by simpa using hne, w, hw, rfl, rfl⟩
  case reqs =>
    intro q hq
    rw [h2.reqs] at hq
    simpa using (List.mem_filter.1 hq).2
  case lines => exact fun y hy => State.dropLocal_drops _ l b y (h2.lines _ y hy)
  case launch => exact fun id => (h2.launch? id).trans (h1.launch? id)
  case mem => exact s.without_mem b l
  case drops => exact h2.drops.trans h1.drops

/-- A launch whose kernel may have ended: its last block is placed, and none is on the device. -/
def Launch.endIf (none : Bool) (l : Machine.Launch) : Machine.Launch :=
  if l.st == .running && l.next == l.desc.total && none then { l with st := .ended } else l

theorem Launch.endIf_id (none : Bool) (l : Machine.Launch) : (l.endIf none).id = l.id := by
  unfold Launch.endIf
  split <;> rfl

theorem Launch.endIf_aborted {none : Bool} {l : Machine.Launch} (h : l.st = .aborted) : (l.endIf none).st = .aborted := by
  simp [Launch.endIf, h]

theorem Launch.endIf_ended {l : Machine.Launch} (h : l.st = .running) (hn : l.next = l.desc.total) : (l.endIf true).st = .ended := by
  simp [Launch.endIf, h, hn]

theorem State.kernelEnd_eq (s : State) (lid : Nat) : s.kernelEnd lid = s.modLaunch lid (Launch.endIf !s.blocks.any (·.lid == lid)) := rfl

theorem Withdrawn.gone {b : Block} {l : Machine.Launch} {s v : State} (h : Withdrawn b l s v) :
    BlockGone b l s (v.kernelEnd l.id).preqCheck := by
  obtain ⟨p, hp⟩ := (v.kernelEnd l.id).preqCheck_eq
  rw [hp, State.kernelEnd_eq]
  constructor
  case block => exact List.find?_eq_none.2 fun y hy => by simpa using (h.blocks y hy).1
  case reqs => exact h.reqs
  case lines => exact h.lines
  case launch =>
    intro x hx
    refine ⟨x.endIf _, State.launch?_modLaunch_some ((h.launch l.id).trans hx) (Launch.endIf_id _), Launch.endIf_aborted,
      fun hr hn hl => ?_⟩
    have hno : v.blocks.any (·.lid == l.id) = false := by
      rw [List.any_eq_false]
      intro y hy hlid
      obtain ⟨hne, z, hz, hu, hzl⟩ := h.blocks y hy
      exact hne (hu.symm.trans (hl z hz (hzl.trans (by simpa using hlid))))
    rw [hno]
    exact Launch.endIf_ended hr hn
  case mem => exact h.mem
  case drops => exact h.drops

theorem State.removeBlock_gone (s : State) (b : Block) (l : Machine.Launch) : BlockGone b l s (s.removeBlock b l) :=
  (s.lastLoss_withdrawn b l).gone

/-! ### Faults that nothing has taken (R207) -/

/-- A fault of an operation that nothing has taken aborts the kernel. -/
theorem State.unreported_aborts {s : State} {b : Block} {l : Machine.Launch} (hl : s.launch? l.id = some l) (hst : l.st = .running)
    (h : ∃ o ∈ b.ops, ∃ g, o.fault = some g ∧ g.taken = false) :
    ∃ x, (s.unreported b l).launch? l.id = some x ∧ x.st = .aborted := by
  unfold State.unreported
  rw [if_neg (by simp [hst])]
  split
  · rename_i o f hf
    obtain ⟨m, e, i, hm⟩ := s.errorRecord_eq l.id l.asid f.cause.toNat o.pc f.addr 0xFFFF_FFFF f.point b.core
      ((b.warps[o.warp]?).getD {}).warpSlot (s.dieOf b.core) ((b.warps[o.warp]?).getD {}).ordinal
    obtain ⟨k, p, hk, hab, ha⟩ := State.abortKernel_eq { s with host := m, el := e, msix := i } l.id
    refine ⟨k l, ?_, hab l rfl (by simp [hst])⟩
    rw [State.warpRecord, hm, ha, State.launch?]
    dsimp only
    rw [find?_launch_map hk.id_eq]
    exact congrArg (Option.map k) hl
  · rename_i hnone
    obtain ⟨o, ho, g, hg, htaken⟩ := h
    have := List.findSome?_eq_none_iff.1 hnone o ho
    simp [hg, htaken] at this

/-- Where every fault has been taken and every write was performed, nothing is reported. -/
theorem State.unreported_none {s : State} {b : Block} {l : Machine.Launch} (hw : b.failedWrite = [])
    (h : ∀ o ∈ b.ops, ∀ g, o.fault = some g → g.taken = true) : s.unreported b l = s := by
  unfold State.unreported
  split
  · rfl
  · split
    · rename_i o f hf
      obtain ⟨o', ho, he⟩ := List.exists_of_findSome?_eq_some hf
      cases hg : o'.fault with
      | none => simp [hg] at he
      | some g => simp [hg, h o' ho g hg] at he
    · rw [hw]

theorem State.unreported_drops (s : State) (b : Block) (l : Machine.Launch) : (s.unreported b l).drops = s.drops := by
  have hrec (wi cause : Nat) (pc addr : DWord) (mask info : Word) :
      ((s.warpRecord b l wi cause pc addr mask info).abortKernel l.id).drops = s.drops := by
    unfold State.warpRecord
    extract_lets w
    obtain ⟨m, e, i, hm⟩ := s.errorRecord_eq l.id l.asid cause pc addr mask info b.core w.warpSlot (s.dieOf b.core) w.ordinal
    obtain ⟨k, p, -, -, ha⟩ := State.abortKernel_eq { s with host := m, el := e, msix := i } l.id
    rw [hm, ha]
  unfold State.unreported
  split
  · rfl
  · split
    · exact hrec ..
    · split
      · exact hrec ..
      · rfl

/-! ### BLOCK_END (R20, R164) -/

theorem State.finishDrops_none {s : State} (h : s.drops = []) : s.finishDrops = s.reportDrop := by
  rw [State.finishDrops, h]

/-- A block of a running kernel ends: its record is written, its faults are reported, and it leaves. -/
theorem blockEnd_ends {s : State} {u : Nat} {b : Block} {l : Machine.Launch} (hb : s.block? u = some b)
    (hl : s.launch? b.lid = some l) (he : s.blockEnds b l = true) (hst : l.st = .running) :
    exec (.blockEnd u) s = .next ((((s.blockRecord b l.asid 0).unreported b l).removeBlock b l).finishDrops) := by
  have hops : (b.ops.filter (·.status == .pending)) = [] := by
    simp only [State.blockEnds, hst, Bool.and_eq_true, Bool.or_eq_true, List.all_eq_true] at he
    obtain ⟨-, h | ⟨-, h⟩⟩ := he
    · simp at h
    · exact List.filter_eq_nil_iff.2 fun o ho => by simpa using h o ho
  have hcancel (v : State) : v.cancelAll b = v := by rw [State.cancelAll, hops, List.foldl_nil]
  show execBlockEnd u s = _
  rw [execBlockEnd, hb]
  dsimp only
  rw [hl]
  dsimp only
  rw [if_pos he, hcancel]
  simp [hst]

theorem blockEnd_leaves {s : State} {u : Nat} {b : Block} {l : Machine.Launch} (hb : s.block? u = some b)
    (hl : s.launch? b.lid = some l) (he : s.blockEnds b l = true) (hst : l.st = .running) (hd : s.drops = [])
    (hw : b.failedWrite = []) :
    ∃ t x, exec (.blockEnd u) s = .next t ∧ t.block? u = none ∧ (∀ q ∈ t.reqs, q.block ≠ u) ∧ t.launch? b.lid = some x ∧
      (∀ y ∈ (t.core b.core).lines, localLineOf l b y = false) ∧
      ((∃ o ∈ b.ops, ∃ g, o.fault = some g ∧ g.taken = false) → x.st = .aborted) ∧
      ((∀ o ∈ b.ops, ∀ g, o.fault = some g → g.taken = true) →
        (s.dev.trEn = false → (s.core b.core).pkts = [] → NoDirty s → t.mem = s.mem) ∧
        (l.next = l.desc.total → (∀ y ∈ s.blocks, y.lid = l.id → y.uid = u) → x.st = .ended)) := by
  have hid := State.launch?_id hl
  have hu := State.block?_uid hb
  have hend := blockEnd_ends hb hl he hst
  obtain ⟨m, r, hrec, -⟩ := s.blockRecord_eq b l.asid 0
  have hl' : (s.blockRecord b l.asid 0).launch? l.id = some l := by rw [hrec, hid]; exact hl
  have hdrops : ((s.blockRecord b l.asid 0).unreported b l).drops = [] := by rw [State.unreported_drops, hrec]; exact hd
  have hgone := ((s.blockRecord b l.asid 0).unreported b l).removeBlock_gone b l
  rw [State.finishDrops_none (hgone.drops.trans hdrops)] at hend
  generalize ((s.blockRecord b l.asid 0).unreported b l).removeBlock b l = v at hend hgone
  obtain ⟨d, i, us, hrep⟩ := v.reportDrop_eq
  rw [hrep] at hend
  obtain ⟨hblock, hreqs, hlines, hlaunch, hmem, -⟩ := hgone
  rw [hu] at hblock hreqs
  rw [hid] at hlaunch
  by_cases hf : ∃ o ∈ b.ops, ∃ g, o.fault = some g ∧ g.taken = false
  · obtain ⟨x, hx, hab⟩ := State.unreported_aborts hl' hst hf
    obtain ⟨y, hy, hya, -⟩ := hlaunch x (hid ▸ hx)
    refine ⟨_, y, hend, hblock, hreqs, hy, hlines, fun _ => hya hab, fun hn => ?_⟩
    obtain ⟨o, ho, g, hg, ht⟩ := hf
    simp [hn o ho g hg] at ht
  · rw [State.unreported_none hw fun o ho g hg => by
      cases ht : g.taken with
      | true => rfl
      | false => exact absurd ⟨o, ho, g, hg, ht⟩ hf, hrec] at hlaunch hmem
    obtain ⟨y, hy, -, hye⟩ := hlaunch l hl
    exact ⟨_, y, hend, hblock, hreqs, hy, hlines, fun h => absurd h hf,
      fun _ => ⟨hmem, fun hn hz => hye hst hn fun z hm hl => (hz z hm (hl.trans hid.symm)).trans hu.symm⟩⟩

/-- Settles O45: each end from what memory traffic, an abort and a degradation leave as it was. -/
theorem blocksAndKernelsEnd : Obligations.BlocksAndKernelsEnd := by
  refine ⟨fun s u b l hb hl he hst hd hw => blockEnd_leaves hb hl he hst hd hw, fun s lid l hl hb => kernelBoundary_empties hl hb,
    fun s lid l hl hr hd ho h0 => ?_, fun s lid pa l a hl hr hd ho h0 hm hx ht hlost => kernelTreeEnd_records hl hr hd ho h0 hm hx ht hlost⟩
  obtain ⟨t, x, he, hx, htd, hq, hi, hmem, -⟩ :=
    kernelTreeEnd_ends hl hr hd ho s (by rw [h0, State.statusWrite_zero]) (.refl s)
  exact ⟨t, x, he, hx, htd, hq, hi, hmem⟩

end Sys2Proof.Machine
end

section
/-! OBLIGATION O44, one block: what its admission to a core makes, and how a block stands after the memory traffic that follows
(R25-R29, R37, R48, R257, R310). -/

namespace Sys2Proof.Machine

/-! ### The places of a block's warps (R26, R307) -/

theorem placeWarps_length {r n : Nat} {t : List (Nat × Nat × Nat)} {ps : List (Nat × Nat)} (h : placeWarps r n t = some ps) :
    ps.length = n := by
  induction n generalizing t ps with
  | zero =>
    cases h
    rfl
  | succ n ih =>
    rw [placeWarps] at h
    split at h
    · cases h
    · split at h
      · cases h
      · obtain ⟨qs, hq, rfl⟩ := Option.map_eq_some_iff.1 h
        simp [ih hq]

theorem State.admits_length {s : State} {k : KDesc} {c : Nat} {ps : List (Nat × Nat)} (h : s.admits k c = some ps) :
    ps.length = k.warps := by
  unfold State.admits at h
  extract_lets bs ds at h
  split at h
  · cases h
  · exact placeWarps_length h

/-- The core that is chosen admits the block (R301, R307). -/
theorem State.chooseCore_admits {s : State} {l : Machine.Launch} {c : Nat} {ps : List (Nat × Nat)}
    (h : s.chooseCore l = some (c, ps)) : s.admits l.desc c = some ps := by
  have hfit (d : Nat) (h : ((s.admits l.desc d).map (d, ·)) = some (c, ps)) : s.admits l.desc c = some ps := by
    obtain ⟨qs, hq, he⟩ := Option.map_eq_some_iff.1 h
    cases he
    exact hq
  unfold State.chooseCore at h
  extract_lets fit ok cool pool at h
  split at h
  · obtain ⟨d, -, hd⟩ := Option.bind_eq_some_iff.1 h
    exact hfit d hd
  · have hpool : ∀ x ∈ pool, x ∈ ok := by
      intro x hx
      dsimp only [pool] at hx
      split at hx
      · exact hx
      · exact List.mem_of_mem_filter hx
    have hmem : ∀ y, (pool.foldl (fun b x => match b with
        | none => some x
        | some y => if s.coreKey l.desc x.1 < s.coreKey l.desc y.1 then some x else some y) none) = some y → y ∈ pool :=
      List.foldlRecOn (motive := fun b : Option (Nat × List (Nat × Nat)) => ∀ y, b = some y → y ∈ pool) pool _
        (fun y hy => by cases hy) fun b hb x hx y hy => by
          split at hy
          · cases hy
            exact hx
          · split at hy
            · cases hy
              exact hx
            · exact hb y hy
    obtain ⟨d, -, hd⟩ := List.mem_filterMap.1 (hpool _ (hmem _ h))
    exact hfit d hd

/-! ### A block as it is admitted -/

/-- The block that a launch's next place on a core makes. -/
def State.newBlock (s : State) (l : Machine.Launch) (c : Nat) (places : List (Nat × Nat)) : Block :=
  { uid := s.nextUid, lid := l.id, index := l.next, core := c, since := s.time, banks := List.replicate l.desc.banks {},
    lockQuota := l.desc.lockQuota,
    warps := (places.zipIdx).map fun (p, i) => startWarp l.desc l.next i p ((s.core c).ageCtr + i) (s.haltOf l.asid) }

theorem startWarp_begins {s : State} {l : Machine.Launch} (i j : Nat) (p : Nat × Nat) (age : Nat) :
    WarpBegins s l i j (startWarp l.desc i j p age (s.haltOf l.asid)) := by
  refine ⟨rfl, rfl, rfl, rfl, rfl, ?_, ?_, ?_, ?_, rfl, rfl, rfl, rfl, rfl, rfl, rfl, rfl, rfl, rfl, rfl, rfl, rfl, ?_, ?_, ?_, ?_⟩
  · intro n l'
    by_cases hn : n < 128 <;> simp [startWarp, Warp.vl, Warp.vr, vget, hn]
  · intro n
    by_cases hn : n < 64 <;> simp [startWarp, Warp.sr, vget, hn]
  · intro n
    by_cases hn : n < 16 <;> simp [startWarp, Warp.hr, vget, hn]
  · intro q l'
    cases q <;> simp [startWarp, Warp.cc]
  · intro l'
    simp [startWarp]
  · intro e
    simp [startWarp]
  · simp [startWarp, Warp.frag?]
  · intro e he
    have : ¬ 0 = e.val := fun h => he (Fin.ext h.symm)
    simp [startWarp, Warp.frag?, this]

theorem State.newBlock_begins {s t : State} {l y : Machine.Launch} {c : Nat} {ps : List (Nat × Nat)}
    (ht : t.time = s.time) (hd : t.dev = s.dev) (hi : y.id = l.id) (hk : y.desc = l.desc) (ha : y.asid = l.asid)
    (hp : ps.length = l.desc.warps) : BlockBegins s l y.next c ps (t.newBlock y c ps) := by
  have hh : t.haltOf y.asid = s.haltOf l.asid := by rw [State.haltOf, State.haltOf, hd, ha]
  refine ⟨hi, rfl, rfl, rfl, ht, by rw [State.newBlock, hk], rfl, rfl, rfl, rfl, by rw [State.newBlock, hk], rfl, rfl, rfl, rfl, ?_, ?_, ?_⟩
  · simp [State.newBlock, hp]
  · rw [State.newBlock, List.map_map]
    exact List.zipIdx_map_fst 0 ps
  · intro j w hw
    simp only [State.newBlock, List.getElem?_map, hk, hh] at hw
    rw [List.getElem?_zipIdx, Option.map_map] at hw
    obtain ⟨p, -, rfl⟩ := Option.map_eq_some_iff.1 hw
    rw [Nat.zero_add]
    exact startWarp_begins ..

/-- What begins has no reservation, and keeps none. -/
theorem WarpBegins.shed {s : State} {l : Machine.Launch} {i j : Nat} {w : Warp} (h : WarpBegins s l i j w)
    {g : Lanes (Option (Target × Nat)) → Lanes (Option (Target × Nat))} (hg : MakesNone g) :
    WarpBegins s l i j { w with resv := g w.resv } := by
  obtain ⟨h1, h2, h3, h4, h5, h6, h7, h8, h9, h10, h11, h12, h13, h14, h15, h16, h17, h18, h19, h20, h21, h22, hresv, h24, h25, h26⟩ := h
  exact ⟨h1, h2, h3, h4, h5, h6, h7, h8, h9, h10, h11, h12, h13, h14, h15, h16, h17, h18, h19, h20, h21, h22,
    fun n => hg w.resv n (hresv n), h24, h25, h26⟩

theorem BlockBegins.shed {s : State} {l : Machine.Launch} {i c : Nat} {ps : List (Nat × Nat)} {b : Block}
    (h : BlockBegins s l i c ps b) {g : Lanes (Option (Target × Nat)) → Lanes (Option (Target × Nat))} (hg : MakesNone g) :
    BlockBegins s l i c ps (b.shed g) := by
  obtain ⟨h1, h2, h3, h4, h5, h6, h7, h8, h9, h10, h11, h12, h13, h14, h15, hlen, hpl, hw⟩ := h
  refine ⟨h1, h2, h3, h4, h5, h6, h7, h8, h9, h10, h11, h12, h13, h14, h15, ?_, ?_, fun j w hj => ?_⟩
  · simpa [Block.shed] using hlen
  · rw [← hpl, Block.shed, List.map_map]
    rfl
  · simp only [Block.shed, List.getElem?_map] at hj
    obtain ⟨v, hv, rfl⟩ := Option.map_eq_some_iff.1 hj
    exact WarpBegins.shed (hw j v hv) hg

end Sys2Proof.Machine
end

section
/-! OBLIGATION O44, several blocks: what stands after n blocks of a launch have been admitted one after the other (R306-R310). -/

namespace Sys2Proof.Machine

/-! ### One admission -/

theorem State.shrinkL1_traffic (s : State) (c n : Nat) : Traffic s (s.shrinkL1 c n) := by
  induction n generalizing s with
  | zero => exact .refl s
  | succ n ih =>
    unfold State.shrinkL1
    split
    · exact .refl s
    · split
      · exact .refl s
      · dsimp only
        split
        · exact .draw s
        · exact ((Traffic.draw s).trans (.dropLines ..)).trans (ih _)

theorem State.shrinkL1_clean {s : State} (h : NoDirty s) (c n : Nat) : (s.shrinkL1 c n).mem = s.mem := by
  induction n generalizing s with
  | zero => rfl
  | succ n ih =>
    unfold State.shrinkL1
    split
    · rfl
    · split
      · rfl
      · dsimp only
        split
        · rfl
        · have hd : NoDirty s.draw.2 := h
          rw [ih ((Traffic.dropLines ..).noDirty hd), State.dropLines_clean hd]
          rfl

/-- A launch after n of its blocks have been placed, the last at a time. -/
def Launch.placed (l : Machine.Launch) (n now : Nat) : Machine.Launch := { l with next := l.next + n, waitSince := now }

/-- A state with one more block, and the next number taken. -/
def State.withBlock (s : State) (b : Block) : State := { s with blocks := s.blocks ++ [b], nextUid := s.nextUid + 1 }

/-- An admission adds the block and counts it in its launch; the rest is memory traffic. -/
theorem State.enrol_eq (s : State) (l : Machine.Launch) (c : Nat) (places : List (Nat × Nat)) :
    ∃ v, Traffic (s.withBlock (s.newBlock l c places)) v ∧ s.enrol l c places = v.modLaunch l.id (·.placed 1 s.time) ∧
      (NoDirty s → v.mem = s.mem) := by
  unfold State.enrol
  extract_lets k a b s1 s2 s3
  have h2 : Traffic s1 s2 := .modCore _ c _ fun _ _ h => h
  have h3 : Traffic s1 s3 := h2.trans (State.shrinkL1_traffic ..)
  refine ⟨s3, h3, ?_, fun hn => State.shrinkL1_clean (h2.noDirty hn) c _⟩
  rw [h3.time]
  rfl

/-! ### Several admissions -/

/-- From s to t, n blocks of a launch have been placed, the i-th of which has a property; of the others only reservations have changed. -/
structure Placed (s : State) (l : Machine.Launch) (P : Nat → Block → Prop) (n : Nat) (t : State) : Prop where
  time : t.time = s.time
  dev : t.dev = s.dev
  nextUid : t.nextUid = s.nextUid + n
  launch : ∃ now, t.launch? l.id = some (l.placed n now)
  descs : ∀ id, (t.launch? id).map (·.desc) = (s.launch? id).map (·.desc)
  blocks : ∃ g news, MakesNone g ∧ t.blocks = s.blocks.map (Block.shed g) ++ news ∧ news.length = n ∧
    ∀ i b, news[i]? = some b → b.uid = s.nextUid + i ∧ P i b

theorem Placed.refl {s : State} {l : Machine.Launch} (P : Nat → Block → Prop) (h : s.launch? l.id = some l) : Placed s l P 0 s := by
  refine ⟨rfl, rfl, rfl, ⟨l.waitSince, h⟩, fun _ => rfl, ⟨id, [], fun _ _ h => h, ?_, rfl, fun i b h => by simp at h⟩⟩
  rw [show Block.shed id = id from funext Block.shed_id, List.map_id, List.append_nil]

/-- A change of a launch that keeps its number and descriptor keeps every descriptor. -/
theorem State.desc_modLaunch (s : State) (u id : Nat) {f : Machine.Launch → Machine.Launch} (hf : ∀ l, (f l).id = l.id)
    (hd : ∀ l, (f l).desc = l.desc) : ((s.modLaunch u f).launch? id).map (·.desc) = (s.launch? id).map (·.desc) := by
  by_cases h : id = u
  · subst h
    rw [State.launch?_modLaunch _ _ _ hf, Option.map_map]
    congr 1
    exact funext hd
  · congr 1
    exact find?_updFirst_other (fun l hl => by simp at hl ⊢; omega) (fun l hl => by simp [hf] at hl ⊢; omega)

/-- One block more. -/
theorem Placed.succ {s t : State} {l y : Machine.Launch} {P : Nat → Block → Prop} {n c : Nat} {ps : List (Nat × Nat)}
    (h : Placed s l P n t) (hy : t.launch? l.id = some y) (hP : ∀ i b g, MakesNone g → P i b → P i (b.shed g))
    (hb : P n (t.newBlock y c ps)) : Placed s l P (n + 1) (t.enrol y c ps) := by
  obtain ⟨v, hv, he, -⟩ := t.enrol_eq y c ps
  have hid : y.id = l.id := State.launch?_id hy
  obtain ⟨now, hnow⟩ := h.launch
  obtain ⟨g, news, hg, hbl, hlen, hnews⟩ := h.blocks
  obtain ⟨g', hg', hvb⟩ := hv.blocks
  rw [he, hid]
  have hlaunch : v.launch? l.id = some (l.placed n now) := (hv.launch? _).trans hnow
  refine ⟨hv.time.trans h.time, hv.dev.trans h.dev, ?_, ⟨t.time, State.launch?_modLaunch_some hlaunch fun _ => rfl⟩, fun id => ?_,
    fun r => g' (g r), (news ++ [t.newBlock y c ps]).map (Block.shed g'), fun r m hr => hg' _ m (hg r m hr), ?_, by simp [hlen], ?_⟩
  · show v.nextUid = _
    rw [hv.nextUid]
    show t.nextUid + 1 = _
    rw [h.nextUid, Nat.add_assoc]
  · refine (State.desc_modLaunch v l.id id (f := (·.placed 1 t.time)) (fun _ => rfl) fun _ => rfl).trans ?_
    rw [hv.launch?]
    exact h.descs id
  · show v.blocks = _
    rw [hvb]
    show ((t.blocks ++ [t.newBlock y c ps]).map (Block.shed g')) = _
    rw [hbl, List.append_assoc, List.map_append, List.map_map]
    congr 1
    exact List.map_congr_left fun b _ => by simp [Block.shed]
  · intro i b hi
    rw [List.getElem?_map] at hi
    obtain ⟨b', hi', rfl⟩ := Option.map_eq_some_iff.1 hi
    rcases Nat.lt_or_ge i n with hlt | hge
    · rw [List.getElem?_append_left (by omega)] at hi'
      obtain ⟨hu, hp⟩ := hnews i b' hi'
      exact ⟨hu, hP i b' g' hg' hp⟩
    · rw [List.getElem?_append_right (by omega), List.getElem?_singleton] at hi'
      split at hi'
      · obtain rfl := Option.some.inj hi'
        obtain rfl : i = n := by omega
        exact ⟨h.nextUid, hP i _ g' hg' hb⟩
      · cases hi'

/-- Each block placed is found under its number. -/
theorem Placed.block? {s t : State} {l : Machine.Launch} {P : Nat → Block → Prop} {n : Nat} (h : Placed s l P n t)
    (hu : ∀ b ∈ s.blocks, b.uid < s.nextUid) {i : Nat} (hi : i < n) : ∃ b, t.block? (s.nextUid + i) = some b ∧ P i b := by
  obtain ⟨g, news, -, hbl, hlen, hnews⟩ := h.blocks
  have hsome : news[i]? = some news[i] := List.getElem?_eq_getElem (by omega)
  refine ⟨news[i], ?_, (hnews i _ hsome).2⟩
  have hold : (s.blocks.map (Block.shed g)).find? (·.uid == s.nextUid + i) = none := by
    refine List.find?_eq_none.2 fun b hb => ?_
    obtain ⟨z, hz, rfl⟩ := List.mem_map.1 hb
    have := hu z hz
    simp
    omega
  rw [State.block?, hbl, List.find?_append, hold, Option.none_or]
  refine List.find?_eq_some_iff_getElem.2 ⟨by simpa using (hnews i _ hsome).1, i, by omega, rfl, fun j hj => ?_⟩
  have := (hnews j _ (List.getElem?_eq_getElem (by omega))).1
  simp
  omega

end Sys2Proof.Machine
end

section
/-! OBLIGATION O44, in the terms of its statement: launches start, and their blocks are placed (R302, R306-R310). -/

namespace Sys2Proof.Machine

/-! ### After a placement (R305, R308) -/

/-- The first block's start is noted, and the RUNNING record is written: of the launches, only starts change. -/
theorem State.started_eq (s : State) (lid : Nat) : ∃ f : Machine.Launch → Machine.Launch,
    (∀ l, f l = { l with start := (f l).start }) ∧ Traffic (s.modLaunch lid f) (s.started lid) ∧
    ∀ l, s.launch? lid = some l → l.status = 0 → (s.started lid).mem = s.mem := by
  have hsame : s.modLaunch lid id = s := by
    have (p : Machine.Launch → Bool) (ls : List Machine.Launch) : updFirst p id ls = ls := by
      induction ls with
      | nil => rfl
      | cons x r ih => simp [updFirst, ih]
    rw [State.modLaunch, this]
  have hid : Traffic (s.modLaunch lid id) s := by rw [hsame]; exact .refl s
  unfold State.started
  split
  · exact ⟨id, fun _ => rfl, hid, fun _ _ _ => rfl⟩
  · rename_i l hl
    split
    · exact ⟨id, fun _ => rfl, hid, fun _ _ _ => rfl⟩
    · refine ⟨fun l => { l with start := some s.time }, fun _ => rfl, .statusWrite .., fun l' hl' h0 => ?_⟩
      obtain rfl : l = l' := Option.some.inj (hl.symm.trans hl')
      rw [h0, State.statusWrite_zero]
      rfl

/-- The state after the global scheduler has placed what a launch had to place. -/
def State.afterPlace (u : State) (lid : Nat) : State :=
  ((u.modLaunch lid fun l => { l with starved := false }).started lid).noteHead

/-- What follows a placement leaves the blocks, but for reservations, and the launch's count and base. -/
theorem State.afterPlace_keeps {u : State} {lid : Nat} {y : Machine.Launch} (hy : u.launch? lid = some y) :
    (∃ g, MakesNone g ∧ (u.afterPlace lid).blocks = u.blocks.map (Block.shed g)) ∧
    (∃ x, (u.afterPlace lid).launch? lid = some x ∧ x.next = y.next ∧ x.chainBase = y.chainBase) ∧
    (y.status = 0 → (u.afterPlace lid).mem = u.mem) := by
  have hz := State.launch?_modLaunch_some (f := fun l => { l with starved := false }) hy fun _ => rfl
  obtain ⟨f, hf, htr, hmem⟩ := (u.modLaunch lid fun l => { l with starved := false }).started_eq lid
  obtain ⟨k, hk, -, hn⟩ := ((u.modLaunch lid fun l => { l with starved := false }).started lid).noteHead_eq
  have hfid (l : Machine.Launch) : (f l).id = l.id := (congrArg Launch.id (hf l) :)
  have hx := (htr.launch? lid).trans (State.launch?_modLaunch_some hz hfid)
  obtain ⟨g, hg, hb⟩ := htr.blocks
  refine ⟨⟨g, hg, ?_⟩, ⟨k (f { y with starved := false }), ?_, ?_, ?_⟩, fun h0 => ?_⟩
  · rw [State.afterPlace, hn]
    exact hb
  · rw [State.afterPlace, hn, State.launch?]
    exact (find?_launch_map hk.id_eq _ lid).trans (congrArg (Option.map k) hx)
  · exact (congrArg Launch.next (hk _) :).trans (congrArg Launch.next (hf _) :)
  · exact (congrArg Launch.chainBase (hk _) :).trans (congrArg Launch.chainBase (hf _) :)
  · rw [State.afterPlace, hn]
    exact hmem _ hz h0

/-- Blocks that have been placed are found after the scheduler's step, with what stays under memory traffic. -/
theorem Placed.found {s u : State} {l : Machine.Launch} {P : Nat → Block → Prop} {n : Nat} (h : Placed s l P n u)
    (hu : ∀ b ∈ s.blocks, b.uid < s.nextUid) (hP : ∀ i b g, MakesNone g → P i b → P i (b.shed g)) :
    ∃ x, (u.afterPlace l.id).launch? l.id = some x ∧ x.next = l.next + n ∧ x.chainBase = l.chainBase ∧
      (l.status = 0 → (u.afterPlace l.id).mem = u.mem) ∧
      ∀ i, i < n → ∃ b, (u.afterPlace l.id).block? (s.nextUid + i) = some b ∧ P i b := by
  obtain ⟨now, hnow⟩ := h.launch
  obtain ⟨⟨g, hg, hb⟩, ⟨x, hx, hnext, hbase⟩, hmem⟩ := State.afterPlace_keeps hnow
  refine ⟨x, hx, hnext, hbase, hmem, fun i hi => ?_⟩
  obtain ⟨b, hfb, hp⟩ := h.block? hu hi
  refine ⟨b.shed g, ?_, hP i b g hg hp⟩
  rw [State.block?, hb, List.find?_map]
  exact congrArg (Option.map (Block.shed g)) hfb

/-- The launch that the global scheduler serves next has something to place, and that is what is placed (R306). -/
theorem State.nextPlace_placeLaunch {s u : State} {l : Machine.Launch} (h : s.nextPlace = some (l, u)) : s.placeLaunch l = some u := by
  obtain ⟨x, -, hx⟩ := List.exists_of_findSome?_eq_some h
  obtain ⟨v, hv, he⟩ := Option.map_eq_some_iff.1 hx
  cases he
  exact hv

theorem placeStep_places {s u : State} {l : Machine.Launch} {ok : Machine.Launch → Bool} (h : s.nextPlace = some (l, u))
    (hok : ok l = true) : placeStep ok s = .next (u.afterPlace l.id) := by
  rw [placeStep, h]
  exact if_pos hok

/-! ### One block of an ordinary launch (R306, R307) -/

theorem blockPlace_places {s u : State} {l : Machine.Launch} {core : Nat} {places : List (Nat × Nat)} (h : s.nextPlace = some (l, u))
    (hl : s.launch? l.id = some l) (hu : ∀ b ∈ s.blocks, b.uid < s.nextUid) (hw : l.desc.whole = false)
    (hc : s.chooseCore l = some (core, places)) :
    ∃ t b x, exec .blockPlace s = .next t ∧ t.block? s.nextUid = some b ∧ BlockBegins s l l.next core places b ∧
      t.launch? l.id = some x ∧ x.next = l.next + 1 ∧ (l.status = 0 → NoDirty s → t.mem = s.mem) := by
  obtain ⟨hchain, hcoop⟩ := Bool.or_eq_false_iff.1 hw
  have hone : s.enrol l core places = u := by
    have := State.nextPlace_placeLaunch h
    rw [State.placeLaunch, hchain, hcoop] at this
    simpa [State.placeOne, hl, hc] using this
  have hbegin : BlockBegins s l l.next core places (s.newBlock l core places) :=
    State.newBlock_begins rfl rfl rfl rfl rfl (State.admits_length (State.chooseCore_admits hc))
  have hp : Placed s l (fun _ => BlockBegins s l l.next core places) 1 u :=
    hone ▸ (Placed.refl _ hl).succ hl (fun _ _ _ hg hb => BlockBegins.shed hb hg) hbegin
  obtain ⟨x, hx, hn, -, hmem, hblock⟩ := hp.found hu fun _ _ _ hg hb => BlockBegins.shed hb hg
  obtain ⟨b, hb, hbb⟩ := hblock 0 (by omega)
  refine ⟨_, b, x, placeStep_places h (by simp [hw]), hb, hbb, hx, hn, fun h0 hd => (hmem h0).trans ?_⟩
  obtain ⟨v, -, he, hm⟩ := s.enrol_eq l core places
  rw [← hone, he]
  exact hm hd

/-! ### A cooperative launch (R308) -/

theorem State.placeAll_succ (s : State) (lid n : Nat) :
    s.placeAll lid (n + 1) = (s.placeAll lid n).bind fun v => v.placeOne lid := by
  induction n generalizing s with
  | zero =>
    rw [State.placeAll]
    cases h : s.placeOne lid with
    | none => simp [State.placeAll, h]
    | some v => simp [State.placeAll, h]
  | succ n ih =>
    rw [State.placeAll, State.placeAll, Option.bind_assoc]
    exact congrArg _ (funext fun v => ih v)

/-- Block i of a cooperative launch as it begins: on the core chosen once those before it stand. -/
def CoopPlaced (s : State) (l : Machine.Launch) (i : Nat) (b : Block) : Prop :=
  ∃ v y core places, s.placeAll l.id i = some v ∧ v.launch? l.id = some y ∧ v.chooseCore y = some (core, places) ∧
    BlockBegins s l i core places b

theorem CoopPlaced.shed {s : State} {l : Machine.Launch} {i : Nat} {b : Block} {g : Lanes (Option (Target × Nat)) → Lanes (Option (Target × Nat))}
    (hg : MakesNone g) (h : CoopPlaced s l i b) : CoopPlaced s l i (b.shed g) := by
  obtain ⟨v, y, core, places, h1, h2, h3, h4⟩ := h
  exact ⟨v, y, core, places, h1, h2, h3, BlockBegins.shed h4 hg⟩

theorem State.placeAll_placed {s u : State} {l : Machine.Launch} {n : Nat} (hl : s.launch? l.id = some l) (h0 : l.next = 0)
    (h : s.placeAll l.id n = some u) : Placed s l (CoopPlaced s l) n u := by
  induction n generalizing u with
  | zero =>
    cases h
    exact .refl _ hl
  | succ n ih =>
    rw [State.placeAll_succ] at h
    obtain ⟨v, hv, hone⟩ := Option.bind_eq_some_iff.1 h
    obtain ⟨y, hy, hone⟩ := Option.bind_eq_some_iff.1 hone
    obtain ⟨⟨core, places⟩, hc, rfl⟩ := Option.map_eq_some_iff.1 hone
    have hp := ih hv
    obtain ⟨now, hnow⟩ := hp.launch
    obtain rfl : l.placed n now = y := Option.some.inj (hnow.symm.trans hy)
    refine hp.succ hy (fun _ _ _ hg hb => hb.shed hg) ⟨v, _, core, places, hv, hy, hc, ?_⟩
    have hlen : places.length = l.desc.warps := State.admits_length (State.chooseCore_admits (l := l.placed n now) hc)
    have hb := State.newBlock_begins (y := l.placed n now) (c := core) hp.time hp.dev rfl rfl rfl hlen
    rwa [show (l.placed n now).next = n by rw [Launch.placed, h0, Nat.zero_add]] at hb

theorem coopLaunchPlace_places {s u : State} {l : Machine.Launch} (h : s.nextPlace = some (l, u)) (hl : s.launch? l.id = some l)
    (hu : ∀ b ∈ s.blocks, b.uid < s.nextUid) (hcoop : l.desc.coop = true) (hchain : l.desc.chain = false) (h0 : l.next = 0) :
    ∃ t x, exec (.coopLaunchPlace l.id) s = .next t ∧ t.launch? l.id = some x ∧ x.next = l.desc.total ∧
      ∀ i, i < l.desc.total → ∃ b v y core places, t.block? (s.nextUid + i) = some b ∧ s.placeAll l.id i = some v ∧
        v.launch? l.id = some y ∧ v.chooseCore y = some (core, places) ∧ BlockBegins s l i core places b := by
  have hall : s.placeAll l.id l.desc.total = some u := by
    have := State.nextPlace_placeLaunch h
    rwa [State.placeLaunch, hchain, hcoop] at this
  obtain ⟨x, hx, hn, -, -, hblock⟩ := (State.placeAll_placed hl h0 hall).found hu fun _ _ _ hg hb => hb.shed hg
  refine ⟨_, x, placeStep_places h (by simp [hcoop, hchain]), hx, by rw [hn, h0, Nat.zero_add], fun i hi => ?_⟩
  obtain ⟨b, hb, v, y, core, places, h1, h2, h3, h4⟩ := hblock i hi
  exact ⟨b, v, y, core, places, hb, h1, h2, h3, h4⟩

/-! ### A chain launch (R309) -/

/-- What a core admits follows from its residents, but for reservations, and from the descriptors of the launches. -/
theorem State.admits_congr {s t : State} {c : Nat} {g : Lanes (Option (Target × Nat)) → Lanes (Option (Target × Nat))}
    (hr : t.residents c = (s.residents c).map (Block.shed g))
    (hd : ∀ id, (t.launch? id).map (·.desc) = (s.launch? id).map (·.desc)) (k : KDesc) : t.admits k c = s.admits k c := by
  have hsum (f : Block → Nat) (hf : ∀ b, f (b.shed g) = f b) : ((t.residents c).map f).sum = ((s.residents c).map f).sum := by
    rw [hr, List.map_map]
    exact congrArg List.sum (List.map_congr_left fun b _ => hf b)
  have hlocked : (t.residents c).flatMap (·.locked) = (s.residents c).flatMap (·.locked) := by
    rw [hr, List.flatMap_map]
    rfl
  have hcache : t.cacheBanks c = s.cacheBanks c := congrArg (Config.numBanks - ·) (hsum (·.banks.length) fun _ => rfl)
  have hunlocked : t.unlockedBanks c = s.unlockedBanks c := by rw [State.unlockedBanks, hlocked, hcache, State.unlockedBanks]
  have hdescs : ((t.residents c).filterMap fun b => (t.launch? b.lid).map (·.desc)) =
      (s.residents c).filterMap fun b => (s.launch? b.lid).map (·.desc) := by
    rw [hr, List.filterMap_map]
    exact List.filterMap_congr fun b _ => hd b.lid
  have htaken : t.taken c = s.taken c := by
    rw [State.taken, State.taken, hr, List.flatMap_map]
    refine List.flatMap_congr fun b _ => ?_
    have hb := hd b.lid
    cases ht : t.launch? b.lid <;> cases hs : s.launch? b.lid <;> rw [ht, hs] at hb <;> simp_all [Block.shed, Function.comp_def]
  rw [State.admits, State.admits]
  simp only [hsum (·.banks.length) fun _ => rfl, hsum (·.lockQuota) fun _ => rfl, hunlocked, hdescs, htaken]

/-- The places of a core that none of the blocks placed is on are as they were. -/
theorem Placed.residents {s t : State} {l : Machine.Launch} {P : Nat → Block → Prop} {n c : Nat} (h : Placed s l P n t)
    (hc : ∀ i b, i < n → P i b → b.core ≠ c) : ∃ g, t.residents c = (s.residents c).map (Block.shed g) := by
  obtain ⟨g, news, -, hbl, hlen, hnews⟩ := h.blocks
  refine ⟨g, ?_⟩
  have hnone : (news.filter fun b => b.core == c && b.present) = [] := by
    refine List.filter_eq_nil_iff.2 fun b hb => ?_
    obtain ⟨i, hi, rfl⟩ := List.mem_iff_getElem.1 hb
    simp [hc i _ (hlen ▸ hi) (hnews i _ (List.getElem?_eq_getElem hi)).2]
  rw [State.residents, hbl, List.filter_append, hnone, List.append_nil, List.filter_map]
  rfl

/-- One block of a chain launch: on its core, where that admits it. -/
def State.chainStep (l : Machine.Launch) (base : Nat) (s : State) (i : Nat) : Option State :=
  match s.launch? l.id, s.admits l.desc (base + i) with
  | some l, some p => some (s.enrol l (base + i) p)
  | _, _ => none

/-- The first n blocks of a chain launch, one after the other. -/
def State.chainSteps (s : State) (l : Machine.Launch) (base n : Nat) : Option State :=
  (List.range n).foldl (fun acc i => acc.bind fun s => s.chainStep l base i)
    (some (s.modLaunch l.id fun l => { l with chainBase := some base }))

theorem State.chainSteps_succ (s : State) (l : Machine.Launch) (base n : Nat) :
    s.chainSteps l base (n + 1) = (s.chainSteps l base n).bind fun v => v.chainStep l base n := by
  rw [State.chainSteps, List.range_succ, List.foldl_append]
  rfl

theorem State.chainStep_enrols {s u : State} {l : Machine.Launch} {base i : Nat} (h : s.chainStep l base i = some u) :
    ∃ y p, s.launch? l.id = some y ∧ s.admits l.desc (base + i) = some p ∧ s.enrol y (base + i) p = u := by
  unfold State.chainStep at h
  split at h
  · rename_i y p hy hp
    exact ⟨y, p, hy, hp, Option.some.inj h⟩
  · cases h

/-- Every one of n cores in a row meets a condition, as the list of all cores tells it. -/
theorem window_all {f : Nat → Bool} {N c n : Nat} (h : c + n ≤ N) :
    ((((List.range N).map f).drop c).take n).all id = true ↔ ∀ i, i < n → f (c + i) = true := by
  have hlen : ((((List.range N).map f).drop c).take n).length = n := by simp; omega
  have hget (i : Nat) (hi : i < ((((List.range N).map f).drop c).take n).length) :
      ((((List.range N).map f).drop c).take n)[i] = f (c + i) := by simp
  rw [List.all_eq_true]
  constructor
  · intro ha i hi
    rw [← hget i (by omega)]
    exact ha _ (List.getElem_mem _)
  · intro ha x hx
    obtain ⟨i, hi, rfl⟩ := List.mem_iff_getElem.1 hx
    rw [hget i hi]
    exact ha i (by omega)

/-- A chain launch is placed from the lowest base from which every core admits its block. -/
theorem State.placeChain_base {s u : State} {l : Machine.Launch} (h : s.placeChain l = some u) :
    ∃ base, s.chainSteps l base l.desc.total = some u ∧ base + l.desc.total ≤ s.numCores ∧
      ∀ c, c < base → ∃ i, i < l.desc.total ∧ s.admits l.desc (c + i) = none := by
  unfold State.placeChain at h
  extract_lets n ok at h
  split at h
  · cases h
  · rename_i base hfind
    obtain ⟨-, i, hi, hbase, hlow⟩ := List.find?_eq_some_iff_getElem.1 hfind
    rw [List.getElem_range] at hbase
    subst hbase
    rw [List.length_range] at hi
    refine ⟨i, h, by omega, fun c hc => ?_⟩
    have hno := hlow c hc
    rw [List.getElem_range, Bool.not_eq_true', ← Bool.not_eq_true, window_all (by omega)] at hno
    simpa [Option.isSome_iff_ne_none] using hno

/-- Block i of a chain launch as it begins: on the core of its place in the chain, which admitted it before any was placed. -/
def ChainPlaced (s : State) (l : Machine.Launch) (base i : Nat) (b : Block) : Prop :=
  ∃ places, s.admits l.desc (base + i) = some places ∧ BlockBegins s l i (base + i) places b

theorem ChainPlaced.shed {s : State} {l : Machine.Launch} {base i : Nat} {b : Block}
    {g : Lanes (Option (Target × Nat)) → Lanes (Option (Target × Nat))} (hg : MakesNone g) (h : ChainPlaced s l base i b) :
    ChainPlaced s l base i (b.shed g) := by
  obtain ⟨places, hp, hb⟩ := h
  exact ⟨places, hp, BlockBegins.shed hb hg⟩

theorem ChainPlaced.core {s : State} {l : Machine.Launch} {base i : Nat} {b : Block} (h : ChainPlaced s l base i b) :
    b.core = base + i := by
  obtain ⟨places, -, -, -, hcore, -⟩ := h
  exact hcore

theorem State.chainSteps_placed {s u : State} {l : Machine.Launch} {base n : Nat} (hl : s.launch? l.id = some l) (h0 : l.next = 0)
    (h : s.chainSteps l base n = some u) : Placed (s.modLaunch l.id fun l => { l with chainBase := some base })
      { l with chainBase := some base } (ChainPlaced s l base) n u := by
  induction n generalizing u with
  | zero =>
    cases h
    exact .refl _ (State.launch?_modLaunch_some hl fun _ => rfl)
  | succ n ih =>
    rw [State.chainSteps_succ] at h
    obtain ⟨v, hv, hstep⟩ := Option.bind_eq_some_iff.1 h
    obtain ⟨y, places, hy, hadm, rfl⟩ := State.chainStep_enrols hstep
    have hp := ih hv
    obtain ⟨now, hnow⟩ := hp.launch
    obtain rfl := Option.some.inj (hnow.symm.trans hy)
    obtain ⟨g, hres⟩ := hp.residents (c := base + n) fun i b hi hb => by rw [hb.core]; omega
    have hadm' : s.admits l.desc (base + n) = some places := by
      rw [← hadm]
      exact (State.admits_congr (s := s) (t := v) hres (fun id => (hp.descs id).trans
        (State.desc_modLaunch s l.id id (f := fun l => { l with chainBase := some base }) (fun _ => rfl) fun _ => rfl)) _).symm
    refine hp.succ hy (fun _ _ _ hg hb => hb.shed hg) ⟨places, hadm', ?_⟩
    have hb := State.newBlock_begins (s := s) (l := l) (c := base + n) (t := v)
      (y := Launch.placed { l with chainBase := some base } n now) hp.time hp.dev rfl rfl rfl (State.admits_length hadm')
    rwa [show (Launch.placed { l with chainBase := some base } n now).next = n by rw [Launch.placed, h0, Nat.zero_add]] at hb

theorem chainLaunchPlace_places {s u : State} {l : Machine.Launch} (h : s.nextPlace = some (l, u)) (hl : s.launch? l.id = some l)
    (hu : ∀ b ∈ s.blocks, b.uid < s.nextUid) (hchain : l.desc.chain = true) (h0 : l.next = 0) :
    ∃ t x base, exec (.chainLaunchPlace l.id) s = .next t ∧ t.launch? l.id = some x ∧ x.next = l.desc.total ∧
      x.chainBase = some base ∧ base + l.desc.total ≤ s.numCores ∧
      (∀ i, i < l.desc.total → ∃ b places, t.block? (s.nextUid + i) = some b ∧ s.admits l.desc (base + i) = some places ∧
        BlockBegins s l i (base + i) places b) ∧
      ∀ c, c < base → ∃ i, i < l.desc.total ∧ s.admits l.desc (c + i) = none := by
  have hplace : s.placeChain l = some u := by
    have := State.nextPlace_placeLaunch h
    rwa [State.placeLaunch, hchain] at this
  obtain ⟨base, hsteps, hfit, hlow⟩ := State.placeChain_base hplace
  obtain ⟨x, hx, hn, hbase, -, hblock⟩ := (State.chainSteps_placed hl h0 hsteps).found hu fun _ _ _ hg hb => hb.shed hg
  refine ⟨_, x, base, placeStep_places h (by simp [hchain]), hx, hn.trans (by rw [h0, Nat.zero_add]), hbase, hfit, fun i hi => ?_, hlow⟩
  obtain ⟨b, hb, places, hadm, hbegin⟩ := hblock i hi
  exact ⟨b, places, hb, hadm, hbegin⟩

/-! ### The start of a launch, and the wait at the head of the order (R302, R308) -/

/-- A launch as it starts: its code and constant bank are memory as it stands. -/
def State.starting (s : State) (l : Machine.Launch) : Machine.Launch :=
  { l with st := .running, image := s.mem, hostImage := s.host, begun := s.time, waitSince := s.time }

/-- The state with a launch started. -/
def State.withStart (s : State) (lid : Nat) : State :=
  ({ s with past := if s.fetching then s.past else [] } : State).modLaunch lid s.starting

theorem launchStart_starts {s : State} {lid : Nat} {l : Machine.Launch} (hl : s.launch? lid = some l) (hs : s.startable l = true) :
    ∃ t x, exec (.launchStart lid) s = .next t ∧ t.launch? lid = some x ∧ x.st = .running ∧ x.image = s.mem ∧ x.hostImage = s.host ∧
      x.desc = l.desc ∧ t.mem = s.mem ∧ t.blocks = s.blocks := by
  have hx : (s.withStart lid).launch? lid = some (s.starting l) :=
    State.launch?_modLaunch_some (s := { s with past := if s.fetching then s.past else [] }) hl fun _ => rfl
  obtain ⟨f, hf, hst, hn⟩ := (s.withStart lid).noteHead_eq
  have hexec : exec (.launchStart lid) s = .next (s.withStart lid).noteHead := by
    show execLaunchStart lid s = _
    rw [execLaunchStart, hl]
    exact if_pos hs
  refine ⟨_, f (s.starting l), hexec, ?_, hst _, (congrArg Launch.image (hf (s.starting l)) :),
    (congrArg Launch.hostImage (hf (s.starting l)) :), (congrArg Launch.desc (hf (s.starting l)) :), ?_, ?_⟩ <;> rw [hn]
  · exact (find?_launch_map hf.id_eq _ lid).trans (congrArg (Option.map f) hx)
  · rfl
  · rfl

theorem coopHeadWaitExpiry_starves {s : State} {l : Machine.Launch} {t0 : Nat} (hl : s.launch? l.id = some l) (hst : l.st = .running)
    (hw : l.desc.whole = true) (hs : l.starved = false) (hh : l.headSince = some t0) (ht : t0 + 1000000 ≤ s.time) :
    ∃ t x, exec (.coopHeadWaitExpiry l.id) s = .next t ∧ t.launch? l.id = some x ∧ x.starved = true ∧ t.blocks = s.blocks := by
  have hback : l.holdsBack s.time = true := by simp [Launch.holdsBack, hw, hh, ht]
  refine ⟨_, _, ?_, State.launch?_modLaunch_some (f := fun l => { l with starved := true }) hl fun _ => rfl, rfl, rfl⟩
  show execCoopHeadWaitExpiry l.id s = _
  rw [execCoopHeadWaitExpiry, hl]
  exact if_pos (by simp [hst, hback, hs])

/-- Settles O44, by induction on the blocks placed. -/
theorem launchesStartAndPlaceTheirBlocks : Obligations.LaunchesStartAndPlaceTheirBlocks :=
  ⟨fun _ _ _ hl hs => launchStart_starts hl hs,
    fun _ _ _ h hl hu => ⟨fun _ _ hw hc => blockPlace_places h hl hu hw hc,
      fun hcoop hchain h0 => coopLaunchPlace_places h hl hu hcoop hchain h0,
      fun hchain h0 => chainLaunchPlace_places h hl hu hchain h0⟩,
    fun _ _ _ hl hst hw hs hh ht => coopHeadWaitExpiry_starves hl hst hw hs hh ht⟩

end Sys2Proof.Machine
end

section
/-! The scalar register that is zero (R50), the guards after a compare (R60, R134), and the registers at reset (R315, R357, R367). -/

namespace Sys2Proof.Machine

/-! ### s0 -/

/-- Settles O6: s0 is no register, so the pair s0:s1 is s1 above zero. -/
theorem theFirstScalarRegisterIsZero : Obligations.TheFirstScalarRegisterIsZero := by
  intro b w x y
  refine ⟨rfl, rfl, rfl, ?_, fun n hn => ?_, rfl⟩
  · rw [Warp.sr_setSP, if_pos (by decide)]
    rfl
  · rw [Warp.sr_setSP, if_neg (by omega), if_neg (by omega)]

/-! ### The flags of a subtraction -/

theorem ccSub_z (a b : Word) : (ccSub a b 0).z = decide (a = b) := by
  simp only [ccSub, BitVec.ofNat_eq_ofNat, BitVec.sub_zero, beq_eq_decide, decide_eq_decide]
  exact sub_eq_zero

theorem ccSub_c (a b : Word) : (ccSub a b 0).c = decide (b.toNat ≤ a.toNat) := rfl

/-- N differs from V exactly where the first operand is the lesser of the two as signed words. -/
theorem ccSub_n_ne_v (a b : Word) : ((ccSub a b 0).n != (ccSub a b 0).v) = decide (a.toInt < b.toInt) := by
  have ha := BitVec.toInt_lt (x := a)
  have hb := BitVec.toInt_lt (x := b)
  have ha' := BitVec.le_toInt (x := a)
  have hb' := BitVec.le_toInt (x := b)
  have hr : (a - b - BitVec.ofNat 32 0).toInt = (a.toInt - b.toInt).bmod (2 ^ 32) := by
    simp [BitVec.toInt_sub]
  have hn : (ccSub a b 0).n = true ↔ (a.toInt - b.toInt).bmod (2 ^ 32) < 0 := by
    rw [← hr]
    simp [ccSub, BitVec.msb_eq_toInt]
  have hv : (ccSub a b 0).v = true ↔ a.toInt - b.toInt < -2 ^ 31 ∨ 2 ^ 31 ≤ a.toInt - b.toInt := by
    simp [ccSub]
  rw [Bool.eq_iff_iff, bne_iff_ne, ne_eq, Bool.eq_iff_iff, hn, hv, decide_eq_true_iff, Int.bmod_def]
  split <;> omega

/-! ### The orders -/

/-- Settles O7: C, Z and the comparison of N with V carry the two orders and equality. -/
theorem guardsAfterACompareReadTheOrder : Obligations.GuardsAfterACompareReadTheOrder := by
  intro a b
  have hz := ccSub_z a b
  have hc := ccSub_c a b
  have hnv := ccSub_n_ne_v a b
  have hu : a = b ↔ a.toNat = b.toNat := BitVec.toNat_inj.symm
  have hs : a = b ↔ a.toInt = b.toInt := BitVec.toInt_inj.symm
  have hge : ((ccSub a b 0).n == (ccSub a b 0).v) = !decide (a.toInt < b.toInt) := by rw [← hnv, bne, Bool.not_not]
  simp only [holds, hz, hc, hnv, hge, ← decide_not, ← Bool.decide_and, ← Bool.decide_or, decide_eq_decide]
  refine ⟨trivial, trivial, trivial, Nat.not_le, ?_, ?_, Int.not_lt, trivial, ?_, ?_⟩
  · rw [hu]
    omega
  · rw [hu]
    omega
  · rw [hs]
    omega
  · rw [hs]
    omega

/-! ### Reset -/

/-- Power has come on and, as the Reset columns are read, the device were ready. -/
def State.resetReady : State := { State.reset with dev := { State.reset.dev with ready := true } }

theorem vget_replicate {α : Type} (d : α) (n i : Nat) : vget d (Vector.replicate n d) i = d := by
  rw [vget, Vector.getElem?_replicate]
  split <;> rfl

theorem halfGet_zero (high : Bool) : halfGet 0 high = 0 := by cases high <;> rfl

theorem reset_queue (q : Nat) : State.resetReady.queue q = {} := vget_replicate ..

theorem queue_read_default (r : Nat) : ({} : Queue).read r = 0 := by
  unfold Queue.read
  split_ifs <;> rfl

theorem pktBp_read_default (r : Nat) : ({} : PktBp).read r = 0 := by
  unfold PktBp.read
  split_ifs <;> rfl

theorem trigger_read_default (r : Nat) : ({} : Trigger).read r = 0 := by
  unfold Trigger.read
  split_ifs <;> rfl

theorem ite_eq_of {α : Type} {c : Prop} [Decidable c] {a b x : α} (ha : a = x) (hb : ¬c → b = x) : (if c then a else b) = x := by
  split
  · exact ha
  · exact hb ‹_›

/-- The low registers but for the automatic pre-emption's delay and the sampling period read zero. -/
theorem resetReady_readLow {off : Nat} (h1 : off ≠ 0x104) (h2 : off ≠ 0x348) : State.resetReady.readLow off = 0 := by
  unfold State.readLow
  dsimp only
  split
  case h_5 => exact absurd rfl h1
  case h_22 => exact absurd rfl h2
  all_goals decide

theorem reset_regRead (off : Nat) : State.reset.regRead off = 0 := by
  unfold State.regRead
  extract_lets d w k
  iterate 4 refine ite_eq_of rfl fun _ => ?_
  exact ite_eq_of (halfGet_zero true) fun _ => ite_eq_of rfl fun _ => if_pos rfl

theorem resetReady_regRead_rest {off : Nat} (h0 : off ≠ 0) (h1 : off ≠ 0x104) (h2 : off ≠ 0x348) : State.resetReady.regRead off = 0 := by
  unfold State.regRead
  extract_lets d w k
  have hw : w = (0, 0) := vget_replicate ..
  refine ite_eq_of rfl fun _ => ?_
  rw [if_neg h0]
  refine ite_eq_of rfl fun _ => ite_eq_of rfl fun _ => ite_eq_of (halfGet_zero true) fun _ => ite_eq_of rfl fun _ => ?_
  rw [if_neg (by decide)]
  refine ite_eq_of ?_ fun _ => ite_eq_of ?_ fun _ => ite_eq_of ?_ fun _ => ite_eq_of ?_ fun _ => ite_eq_of ?_ fun _ => ite_eq_of ?_
    fun _ => resetReady_readLow h1 h2
  · exact (congrArg (PktBp.read · _) (vget_replicate ..)).trans (pktBp_read_default _)
  · exact (congrArg (Trigger.read · _) (vget_replicate ..)).trans (trigger_read_default _)
  · rw [hw, ite_self]
    exact halfGet_zero _
  · exact ite_self _
  · rw [reset_queue, queue_read_default]
  · exact halfGet_zero _

/-- Settles O57, register by register of the register BAR. -/
theorem resetIsAsTheSpecSays : Obligations.ResetIsAsTheSpecSays := by
  refine ⟨reset_regRead, fun off => ?_, rfl, rfl, rfl, rfl, rfl, fun q => ?_, fun a => rfl⟩
  · by_cases h0 : off = 0
    · subst h0
      rfl
    by_cases h1 : off = 0x104
    · subst h1
      rfl
    by_cases h2 : off = 0x348
    · subst h2
      rfl
    rw [if_neg h0, if_neg h1, if_neg h2]
    exact resetReady_regRead_rest h0 h1 h2
  · exact congrArg Queue.en (reset_queue q)

end Sys2Proof.Machine
end

section
/-! The floating-point lane instructions (R70-R73, R126, R138-R142), each from its layout's operands and its own meaning. -/

namespace Sys2Proof.Machine

/-! ### The forms of the layouts -/

/-- What a well-formed instruction gives, an instruction gives: an ill-formed one does not issue. -/
theorem givesWord_of_wf {i : Instr} {d : Nat} {f : Warp → Lane → Word × CC} (h : i.wellFormed = true → GivesWord i d f) :
    GivesWord i d f := fun s c hi => h hi.wf s c hi

theorem xrCounts_dest_pos (op : Nat) (ty : Ty) : 0 < (xrCounts op ty).1 := by
  unfold xrCounts
  split_ifs
  · decide
  · split <;> decide
  · decide

/-- The destination of an instruction of the default layout that has one. -/
theorem xr_dest_mem {op : BitVec 10} (o : Xr) (dims : Nat) (hD : (xrRow op.toNat).useD = true) (hop : op ≠ 0x143) :
    vD o.d (xrCounts op.toNat o.ty).1 ∈ (Layout.xr op o).opnds dims := by
  simp only [Layout.opnds, hD, beq_iff_eq, if_neg hop]
  exact List.mem_append_left _ (List.mem_append_left _ (List.mem_singleton_self _))

theorem vD_written {i : Instr} {d : RegField} {n : Nat} (h : vD d n ∈ i.layout.opnds 1) (hn : 0 < n) :
    (RegClass.v, d.toNat) ∈ writesRegs i := mem_writesRegs h rfl (k := 0) hn

/-- An instruction of the default layout whose effect is one `put` of a word gives it. -/
theorem givesWord_xr {i : Instr} {op : BitVec 10} {o : Xr} {f : Warp → Lane → Word × CC} (g : LaneMask → Warp → Warp)
    (hl : i.layout = .xr op o) (hD : (xrRow op.toNat).useD = true) (hop : op ≠ 0x143) (hx : ∀ s, exec i s = issue i (lane g) s)
    (hg : ∀ m w, g m w = w.put m o.d.toNat o.h.c o.h.ccSet (f w)) : GivesWord i o.d.toNat f := by
  have hd : vD o.d (xrCounts op.toNat o.ty).1 ∈ i.layout.opnds 1 := by
    rw [hl]
    exact xr_dest_mem o 1 hD hop
  refine givesWord_of g (fun s _ _ => hx s) hg o.d.isLt (vD_written hd (xrCounts_dest_pos _ _)) ?_
  rw [hl]
  rfl

theorem Xr.wf_head {op : BitVec 10} {o : Xr} (h : o.wf op = true) : o.h.wf (xrRow op.toNat).cc = true := by
  simp only [Xr.wf, Bool.and_eq_true, and_assoc] at h
  exact h.1

theorem Xr.wf_sat {op : BitVec 10} {o : Xr} (h : o.wf op = true) (hsat : (xrRow op.toNat).sat = false) : o.sat = false := by
  simp only [Xr.wf, hsat, implies, Bool.and_eq_true, Bool.not_false, Bool.not_true, Bool.false_or, Bool.not_eq_true'] at h
  exact h.2

theorem Head.wf_must {h : Head} (hwf : h.wf .must = true) : h.c = true := by
  simp only [Head.wf, Bool.and_eq_true] at hwf
  simpa [implies] using hwf.2

/-- A well-formed instruction that must have C = 1 writes the flags it names. -/
theorem xr_ccOut_of_must {op : BitVec 10} {o : Xr} (hcc : (xrRow op.toNat).cc = .must) (hwf : (Layout.xr op o).wf = true) :
    (Layout.xr op o).ccOut = some o.h.ccSet :=
  if_pos (Head.wf_must (hcc ▸ Xr.wf_head hwf))

/-- The same of one whose meaning saturates where the form may ask for it, of a row that does not admit it. -/
theorem givesWord_xf2_unsat {i : Instr} {op : BitVec 10} {o : Xr} {f : Word → Word → Word × CC} (hl : i.layout = .xr op o)
    (hD : (xrRow op.toNat).useD = true) (hop : op ≠ 0x143) (hsat : (xrRow op.toNat).sat = false)
    (hx : ∀ s, exec i s = issue i (lane (xf2 o f)) s) : GivesWord i o.d.toNat fun w l => f (xfA o w l) (xfB o w l) := by
  refine givesWord_of_wf fun hwf => givesWord_xr (xf2 o f) hl hD hop hx fun m w => ?_
  have hs : o.sat = false := Xr.wf_sat (op := op) (show (Layout.xr op o).wf = true from hl ▸ hwf) hsat
  simp only [xf2, satF, hs, Bool.false_eq_true, if_false]

/-! ### The results -/

theorem floatInstructionsGiveTheirResults : FloatInstructionsGiveTheirResults :=
  ⟨fun o => ⟨givesWord_xr (semFadd o) rfl rfl (by decide) (fun _ => rfl) fun _ _ => rfl,
      givesWord_xr (semFsub o) rfl rfl (by decide) (fun _ => rfl) fun _ _ => rfl,
      givesWord_xr (semFmul o) rfl rfl (by decide) (fun _ => rfl) fun _ _ => rfl,
      givesWord_xr (semFfma o) rfl rfl (by decide) (fun _ => rfl) fun _ _ => rfl,
      givesWord_xf2_unsat rfl rfl (by decide) rfl fun _ => rfl,
      givesWord_xf2_unsat rfl rfl (by decide) rfl fun _ => rfl,
      givesWord_xf2_unsat rfl rfl (by decide) rfl fun _ => rfl,
      givesWord_xf2_unsat rfl rfl (by decide) rfl fun _ => rfl,
      givesFlags_of (semFcmp o) (fun _ _ hi => issueCmp_of_issues hi) (fun _ _ => rfl) fun hwf => xr_ccOut_of_must rfl hwf,
      givesWord_xr (semFrnd o) rfl rfl (by decide) (fun _ => rfl) fun _ _ => rfl,
      givesWord_xr (semFclass o) rfl rfl (by decide) (fun _ => rfl) fun _ _ => rfl⟩,
    fun o => givesWord_of (semFsel o) (fun _ _ _ => rfl) (fun _ _ => rfl) o.d.isLt (vD_written List.mem_cons_self Nat.one_pos) rfl,
    fun o => givesWord_of (semFscale o) (fun _ _ _ => rfl) (fun _ _ => rfl) o.d.isLt (vD_written List.mem_cons_self Nat.one_pos) rfl⟩

theorem packedFloatInstructionsGiveTheirResults : PackedFloatInstructionsGiveTheirResults := fun o =>
  ⟨givesWord_xr (semHadd2 o) rfl rfl (by decide) (fun _ => rfl) fun _ _ => rfl,
    givesWord_xr (semHmul2 o) rfl rfl (by decide) (fun _ => rfl) fun _ _ => rfl,
    givesWord_xr (semHfma2 o) rfl rfl (by decide) (fun _ => rfl) fun _ _ => rfl,
    givesWord_xr (semBadd2 o) rfl rfl (by decide) (fun _ => rfl) fun _ _ => rfl,
    givesWord_xr (semBmul2 o) rfl rfl (by decide) (fun _ => rfl) fun _ _ => rfl,
    givesWord_xr (semBfma2 o) rfl rfl (by decide) (fun _ => rfl) fun _ _ => rfl⟩

/-- Settles O4: every instruction's effect is one write of its result and flags. -/
theorem floatingPointInstructionsGiveTheirResults : Obligations.FloatingPointInstructionsGiveTheirResults :=
  ⟨floatInstructionsGiveTheirResults, packedFloatInstructionsGiveTheirResults⟩

end Sys2Proof.Machine
end

section
/-! Special functions, conversions and immediate moves (R74-R78, R143-R146), and the AMAX update of a conversion (R67). -/

namespace Sys2Proof.Machine

/-! ### Lane instructions, with the whole of their warp -/

/-- A lane instruction leaves its warp as its effect made it, but for what its retirement and tracing mark. -/
theorem lane_retires {i : Instr} {s : State} {c : Ctx} (g : LaneMask → Warp → Warp) (h : Issues i s c)
    (hk : LaneKeeps i c (g (c.lanes i) c.w)) :
    ∃ t w sp a o, issue i (lane g) s = .next t ∧ t.warp? c.ref.block c.ref.warp = some w ∧ LaneFrame i s c t w ∧
      w = { g (c.lanes i) c.w with split := sp, started := a, ordinal := o } := by
  obtain ⟨t, w, sp, a, o, he, ht, hr, rfl⟩ :=
    ok_retires h (body := lane g) rfl (Noted.modW s c (g (c.lanes i))) hk.split hk.specs hk.resv
  exact ⟨t, _, sp, a, o, he, ht, ⟨hr, ⟨hk.regs.v, hk.regs.s, hk.regs.h, hk.regs.cc⟩, ⟨hk.full.v, hk.full.s, hk.full.h⟩,
    ⟨hk.specials.x, hk.specials.part, hk.specials.lfsr, hk.specials.repc, hk.specials.tick, hk.specials.join,
      hk.specials.exited, hk.specials.handler, hk.specials.nopre, hk.specials.hdie, hk.specials.hdev, hk.specials.hpod⟩,
    hk.amax⟩, rfl⟩

/-- A put into a written register and the named flags keeps a lane instruction's frame. -/
theorem put_keeps {i : Instr} {x : Ctx} {d : Nat} {c set : Bool} (f : Lane → Word × CC) (hw : (RegClass.v, d) ∈ writesRegs i)
    (hc : i.layout.ccOut = if c then some set else none) : LaneKeeps i x (x.w.put (x.lanes i) d c set f) := by
  refine laneKeeps_of (Warp.put_fields _ _ _ _ _ _) (fun n l hn => ?_) (fun k l hk => ?_)
  · rw [Warp.vl_put, if_neg]
    rintro ⟨rfl, -, hl⟩
    exact hn.elim (· hw) fun hn => by rw [hn] at hl; cases hl
  · rw [Warp.cc_put, if_neg]
    rintro ⟨rfl, rfl, hl⟩
    exact hk.elim (· hc) fun hn => by rw [hn] at hl; cases hl

theorem GivesWord.frame {i : Instr} {d : Nat} {f : Warp → Lane → Word × CC} (h : GivesWord i d f) :
    Completes i fun s c t w => LaneFrame i s c t w := fun s c hi =>
  let ⟨t, w, he, ht, hf, _⟩ := h s c hi
  ⟨t, w, he, ht, hf⟩

theorem GivesPair.frame {i : Instr} {d : Nat} {f : Warp → Lane → DWord × CC} (h : GivesPair i d f) :
    Completes i fun s c t w => LaneFrame i s c t w := fun s c hi =>
  let ⟨t, w, he, ht, hf, _⟩ := h s c hi
  ⟨t, w, he, ht, hf⟩

/-- The registers a group of v registers names exist: their number divides the field's range (R89). -/
theorem vD_fits {i : Instr} {s : State} {c : Ctx} (h : Issues i s c) {d : RegField} {n : Nat}
    (hd : vD d n ∈ i.layout.opnds (vaultDims s c.l.asid c.w i.layout)) (hn : n ∣ 128) : d.toNat + n ≤ 128 := by
  have hmod : d.toNat % n = 0 := of_decide_eq_true (Bool.and_eq_true_iff.mp (h.legal _ hd)).1
  obtain ⟨r, hr⟩ := hn
  obtain ⟨q, hq⟩ := Nat.dvd_of_mod_eq_zero hmod
  have hlt : n * q < n * r := hq ▸ hr ▸ d.isLt
  calc d.toNat + n = n * (q + 1) := by rw [hq, Nat.mul_succ]
    _ ≤ n * r := Nat.mul_le_mul_left n (Nat.lt_of_mul_lt_mul_left hlt)
    _ = 128 := hr.symm

/-! ### CVT -/

theorem cvt_dest (o : Cvt) (dims : Nat) : vD o.d (if o.dst.is64 then 2 else 1) ∈ (Instr.cvt o).layout.opnds dims :=
  List.mem_append_left _ List.mem_cons_self

theorem cvt_givesWord {o : Cvt} {f : Warp → Lane → Word × CC}
    (hg : ∀ m w, cvtSem o m w = w.put m o.d.toNat o.h.c o.h.ccSet (f w)) : GivesWord (.cvt o) o.d.toNat f :=
  givesWord_of (cvtSem o) (fun _ _ _ => rfl) hg o.d.isLt (vD_written (cvt_dest o 1) (by split <;> decide)) rfl

theorem cvt_givesPair {o : Cvt} {f : Warp → Lane → DWord × CC} (h64 : o.dst.is64 = true)
    (hg : ∀ m w, cvtSem o m w = w.putP m o.d.toNat o.h.c o.h.ccSet (f w)) : GivesPair (.cvt o) o.d.toNat f := by
  have hd := cvt_dest o
  simp only [h64, if_true] at hd
  exact givesPair_of (cvtSem o) (fun _ _ _ => rfl) hg (fun s x hi => vD_fits hi (hd _) (by decide))
    ⟨vD_written (hd 1) Nat.two_pos, mem_writesRegs (hd 1) rfl (k := 1) Nat.one_lt_two⟩ rfl

/-- CVT writes a word or, of a 64-bit type, a pair. -/
theorem cvtSem_put_or_putP (o : Cvt) :
    (∃ f : Warp → Lane → Word × CC, ∀ m w, cvtSem o m w = w.put m o.d.toNat o.h.c o.h.ccSet (f w)) ∨
    o.dst.is64 = true ∧ ∃ f : Warp → Lane → DWord × CC, ∀ m w, cvtSem o m w = w.putP m o.d.toNat o.h.c o.h.ccSet (f w) := by
  unfold cvtSem
  split
  · split
    · exact .inl ⟨_, fun _ _ => rfl⟩
    · exact .inl ⟨_, fun _ _ => rfl⟩
    · split
      · exact .inr ⟨‹_›, _, fun _ _ => rfl⟩
      · exact .inl ⟨_, fun _ _ => rfl⟩
  · split <;> exact .inl ⟨_, fun _ _ => rfl⟩
  · split <;> exact .inl ⟨_, fun _ _ => rfl⟩
  · split
    · exact .inl ⟨_, fun _ _ => rfl⟩
    · split
      · exact .inr ⟨‹_›, _, fun _ _ => rfl⟩
      · exact .inl ⟨_, fun _ _ => rfl⟩

theorem cvt_frame (o : Cvt) : Completes (.cvt o) fun s c t w => LaneFrame (.cvt o) s c t w := by
  obtain ⟨f, hf⟩ | ⟨h64, f, hf⟩ := cvtSem_put_or_putP o
  · exact (cvt_givesWord hf).frame
  · exact (cvt_givesPair h64 hf).frame

theorem elems16 (x : Word) : elems 16 x = [x.toNat % 2 ^ 16, hiOf16 x] := by
  have : x.toNat / 2 ^ 16 % 2 ^ 16 = hiOf16 x := Nat.mod_eq_of_lt (by have := x.isLt; omega)
  rw [← this]
  simp [elems, List.range_succ]

theorem cvt_f32_to_packed {o : Cvt} (hs : o.src = .f32) (hd : o.dst = .f16x2 ∨ o.dst = .bf16x2) :
    GivesWord (.cvt o) o.d.toNat fun w l => cvtPacked o fp32 [(w.vl o.a.toNat l).toNat, (w.vl o.b.toNat l).toNat] := by
  refine cvt_givesWord fun m w => ?_
  obtain hd | hd := hd <;> simp only [cvtSem, hs, hd]

theorem cvt_packed_to_f32 {o : Cvt} (hs : o.src = .f16x2 ∨ o.src = .bf16x2) (hd : o.dst = .f32) :
    GivesWord (.cvt o) o.d.toNat fun w l => resF (BitVec.ofNat 32 (convert (fmtOf o.src) fp32 .rne false
      (if o.half then hiOf16 (w.vl o.a.toNat l) else (w.vl o.a.toNat l).toNat % 2 ^ 16))) := by
  have he (x : Word) : (elems 16 x).getD (if o.half then 1 else 0) 0 = if o.half then hiOf16 x else x.toNat % 2 ^ 16 := by
    rw [elems16]
    split <;> rfl
  refine cvt_givesWord fun m w => ?_
  obtain hs | hs := hs <;> simp only [cvtSem, hs, hd, he, beq_self_eq_true, if_true]

theorem cvt_packed_to_packed {o : Cvt}
    (h : (o.src = .f16x2 ∧ o.dst = .bf16x2) ∨ (o.src = .bf16x2 ∧ o.dst = .f16x2)) :
    GivesWord (.cvt o) o.d.toNat fun w l =>
      cvtPacked o (fmtOf o.src) [(w.vl o.a.toNat l).toNat % 2 ^ 16, hiOf16 (w.vl o.a.toNat l)] := by
  refine cvt_givesWord fun m w => ?_
  obtain ⟨hs, hd⟩ | ⟨hs, hd⟩ := h <;> simp only [cvtSem, hs, hd, elems16] <;> rfl

theorem cvtToInt_eq {o : Cvt} (hd : o.dst = .n32 ∨ o.dst = .i32 ∨ o.dst = .n64 ∨ o.dst = .i64) (a : Word) :
    cvtToInt o a = fp32.toInt o.rnd (intRange o.dst).1 (intRange o.dst).2 a.toNat := by
  obtain hd | hd | hd | hd := hd <;> simp [cvtToInt, hd, Ty.elem, intRange]

theorem cvt_f32_to_int32 {o : Cvt} (hs : o.src = .f32) (hd : o.dst = .n32 ∨ o.dst = .i32) :
    GivesWord (.cvt o) o.d.toNat fun w l =>
      let x := fp32.toInt o.rnd (intRange o.dst).1 (intRange o.dst).2 (w.vl o.a.toNat l).toNat
      (BitVec.ofInt 32 x.1, { ccInt (BitVec.ofInt 32 x.1 : Word) with v := x.2 }) := by
  refine cvt_givesWord fun m w => ?_
  simp only [← cvtToInt_eq (o := o) (by tauto)]
  obtain hd | hd := hd <;> simp only [cvtSem, hs, hd, Ty.is64] <;> rfl

theorem cvt_f32_to_int64 {o : Cvt} (hs : o.src = .f32) (hd : o.dst = .n64 ∨ o.dst = .i64) :
    GivesPair (.cvt o) o.d.toNat fun w l =>
      let x := fp32.toInt o.rnd (intRange o.dst).1 (intRange o.dst).2 (w.vl o.a.toNat l).toNat
      (BitVec.ofInt 64 x.1, { ccInt (BitVec.ofInt 64 x.1 : DWord) with v := x.2 }) := by
  refine cvt_givesPair (by obtain hd | hd := hd <;> rw [hd] <;> rfl) fun m w => ?_
  simp only [← cvtToInt_eq (o := o) (by tauto)]
  obtain hd | hd := hd <;> simp only [cvtSem, hs, hd, Ty.is64] <;> rfl

/-- The integer of a source of 32 bits. -/
theorem cvtInt_32 {o : Cvt} (hs : o.src = .n32 ∨ o.src = .i32) (w : Warp) (l : Lane) :
    cvtInt o w l = if o.src = .i32 then (w.vl o.a.toNat l).toInt else (w.vl o.a.toNat l).toNat := by
  obtain hs | hs := hs <;> simp [cvtInt, hs]

theorem cvtInt_64 {o : Cvt} (hs : o.src = .n64 ∨ o.src = .i64) (w : Warp) (l : Lane) :
    cvtInt o w l = if o.src = .i64 then (w.vp o.a.toNat l).toInt else (w.vp o.a.toNat l).toNat := by
  obtain hs | hs := hs <;> simp [cvtInt, hs]

/-- CVT from an integer type. -/
theorem cvtSem_of_int {o : Cvt} (hs : o.src = .n32 ∨ o.src = .i32 ∨ o.src = .n64 ∨ o.src = .i64) (m : LaneMask) (w : Warp) :
    cvtSem o m w =
      if o.dst = .f32 then w.put m o.d.toNat o.h.c o.h.ccSet fun l => resF (BitVec.ofNat 32 (fp32.ofInt o.rnd (cvtInt o w l)))
      else if o.dst.is64 then w.putP m o.d.toNat o.h.c o.h.ccSet fun l =>
        ((BitVec.ofInt 64 (cvtInt o w l) : DWord), ccInt (BitVec.ofInt 64 (cvtInt o w l) : DWord))
      else w.put m o.d.toNat o.h.c o.h.ccSet fun l => cvtIntWord o (cvtInt o w l) := by
  obtain hs | hs | hs | hs := hs <;> simp only [cvtSem, hs, beq_iff_eq]

theorem cvt_int32_to_f32 {o : Cvt} (hs : o.src = .n32 ∨ o.src = .i32) (hd : o.dst = .f32) :
    GivesWord (.cvt o) o.d.toNat fun w l => resF (BitVec.ofNat 32
      (fp32.ofInt o.rnd (if o.src = .i32 then (w.vl o.a.toNat l).toInt else (w.vl o.a.toNat l).toNat))) :=
  cvt_givesWord fun m w => by simp only [cvtSem_of_int (hs.imp_right .inl), if_pos hd, cvtInt_32 hs]

theorem cvt_int64_to_f32 {o : Cvt} (hs : o.src = .n64 ∨ o.src = .i64) (hd : o.dst = .f32) :
    GivesWord (.cvt o) o.d.toNat fun w l => resF (BitVec.ofNat 32
      (fp32.ofInt o.rnd (if o.src = .i64 then (w.vp o.a.toNat l).toInt else (w.vp o.a.toNat l).toNat))) :=
  cvt_givesWord fun m w => by simp only [cvtSem_of_int (.inr (.inr hs)), if_pos hd, cvtInt_64 hs]

theorem cvt_int32_to_int64 {o : Cvt} (hs : o.src = .n32 ∨ o.src = .i32) (hd : o.dst = .n64 ∨ o.dst = .i64) :
    GivesPair (.cvt o) o.d.toNat fun w l =>
      let r : DWord := if o.src = .i32 then (w.vl o.a.toNat l).signExtend 64 else (w.vl o.a.toNat l).zeroExtend 64
      (r, ccInt r) := by
  have h64 : o.dst.is64 = true := by obtain hd | hd := hd <;> rw [hd] <;> rfl
  have hf : o.dst ≠ .f32 := by obtain hd | hd := hd <;> rw [hd] <;> decide
  have hr (w : Warp) (l : Lane) : (BitVec.ofInt 64 (cvtInt o w l) : DWord) =
      if o.src = .i32 then (w.vl o.a.toNat l).signExtend 64 else (w.vl o.a.toNat l).zeroExtend 64 := by
    rw [cvtInt_32 hs]
    split
    · rfl
    · exact (BitVec.ofInt_natCast ..).trans (BitVec.ofNat_toNat ..)
  exact cvt_givesPair h64 fun m w => by simp only [cvtSem_of_int (hs.imp_right .inl), if_neg hf, if_pos h64, hr]

/-- Clamping to the range of an integer type of 32 bits. -/
theorem clampInt_eq {t : Ty} (ht : t = .n32 ∨ t = .i32) (x : Int) :
    clampInt 32 (Ty.elem t).2 x =
      (max (intRange t).1 (min (intRange t).2 x), decide (x < (intRange t).1) || decide ((intRange t).2 < x)) := by
  have hlo : (intRange t).1 ≤ (intRange t).2 := by obtain rfl | rfl := ht <;> decide
  have hc : clampInt 32 (Ty.elem t).2 x = if x < (intRange t).1 then ((intRange t).1, true)
      else if (intRange t).2 < x then ((intRange t).2, true) else (x, false) := by
    obtain rfl | rfl := ht <;> rfl
  rw [hc]
  split_ifs with h1 h2
  · rw [max_eq_left (by omega), decide_eq_true h1, Bool.true_or]
  · rw [min_eq_left h2.le, max_eq_right hlo, decide_eq_true h2, Bool.or_true]
  · rw [min_eq_right (by omega), max_eq_right (by omega), decide_eq_false h1, decide_eq_false h2, Bool.or_self]

theorem cvtIntWord_eq {o : Cvt} (hd : o.dst = .n32 ∨ o.dst = .i32) (x : Int) :
    cvtIntWord o x =
      let lo := (intRange o.dst).1
      let hi := (intRange o.dst).2
      let r : Word := BitVec.ofInt 32 (if o.sat then max lo (min hi x) else x)
      (r, { ccInt r with v := o.sat && (decide (x < lo) || decide (hi < x)) }) := by
  simp only [cvtIntWord, clampInt_eq hd]
  cases o.sat <;> rfl

theorem cvt_to_int32 {o : Cvt} (hs : o.src = .n32 ∨ o.src = .i32 ∨ o.src = .n64 ∨ o.src = .i64)
    (hd : o.dst = .n32 ∨ o.dst = .i32) : GivesWord (.cvt o) o.d.toNat fun w l =>
    let x : Int := match o.src with
      | .n64 => (w.vp o.a.toNat l).toNat
      | .i64 => (w.vp o.a.toNat l).toInt
      | .i32 => (w.vl o.a.toNat l).toInt
      | _ => (w.vl o.a.toNat l).toNat
    let lo := (intRange o.dst).1
    let hi := (intRange o.dst).2
    let r : Word := BitVec.ofInt 32 (if o.sat then max lo (min hi x) else x)
    (r, { ccInt r with v := o.sat && (decide (x < lo) || decide (hi < x)) }) := by
  have h64 : ¬o.dst.is64 = true := by obtain hd | hd := hd <;> rw [hd] <;> decide
  have hf : o.dst ≠ .f32 := by obtain hd | hd := hd <;> rw [hd] <;> decide
  refine cvt_givesWord fun m w => ?_
  simp only [cvtSem_of_int hs, if_neg hf, if_neg h64, cvtIntWord_eq hd]
  obtain hs | hs | hs | hs := hs <;> simp only [cvtInt, hs]

/-! ### The AMAX update (R67) -/

theorem Fmt.maxNum_lt {f : Fmt} {a b n : Nat} (ha : a < n) (hb : b < n) (hn : f.nanCode < n) : f.maxNum a b < n := by
  unfold Fmt.maxNum
  split
  · exact hn
  · exact hb
  · exact ha
  · split
    · exact hb
    · exact ha

/-- An AMAX update is over its inputs: the largest magnitude of those that are no NaN, and whether one was. -/
theorem amaxOf_eq (xs : List Nat) : amaxOf xs =
    (BitVec.ofNat 32 ((xs.filter fun x => !(fp32.decode x).isNan).foldl (fun m x => fp32.maxNum m (fp32.abs x)) 0),
      xs.any fun x => (fp32.decode x).isNan) := by
  suffices h : ∀ (m : Nat) (nan : Bool), m < 2 ^ 32 → xs.foldl (fun acc x => if (fp32.decode x).isNan then (acc.1, true)
      else (BitVec.ofNat 32 (fp32.maxNum acc.1.toNat (fp32.abs x)), acc.2)) ((BitVec.ofNat 32 m : Word), nan) =
      (BitVec.ofNat 32 ((xs.filter fun x => !(fp32.decode x).isNan).foldl (fun m x => fp32.maxNum m (fp32.abs x)) m),
        nan || xs.any fun x => (fp32.decode x).isNan) by simpa [amaxOf] using h 0 false (by decide)
  induction xs with
  | nil => simp
  | cons x r ih =>
    intro m nan hm
    have habs : fp32.abs x < 2 ^ 32 := Nat.lt_of_lt_of_le (Nat.mod_lt x (by decide)) (by decide)
    rw [List.foldl_cons, List.any_cons, BitVec.toNat_ofNat, Nat.mod_eq_of_lt hm]
    by_cases hx : (fp32.decode x).isNan = true
    · rw [if_pos hx, ih m true hm, List.filter_cons_of_neg (by simp [hx]), hx, Bool.true_or, Bool.or_true]
    · rw [if_neg hx, ih _ nan (Fmt.maxNum_lt hm habs (by decide)), List.filter_cons_of_pos (by simp [hx]), List.foldl_cons,
        Bool.eq_false_of_not_eq_true hx, Bool.false_or]

theorem amaxOf_fold_lt (xs : List Nat) :
    (xs.filter fun x => !(fp32.decode x).isNan).foldl (fun m x => fp32.maxNum m (fp32.abs x)) 0 < 2 ^ 32 := by
  suffices h : ∀ (ys : List Nat) (m : Nat), m < 2 ^ 32 → ys.foldl (fun m x => fp32.maxNum m (fp32.abs x)) m < 2 ^ 32 from
    h _ 0 (by decide)
  intro ys
  induction ys with
  | nil => exact fun _ h => h
  | cons x r ih =>
    intro m hm
    exact ih _ (Fmt.maxNum_lt hm (Nat.lt_of_lt_of_le (Nat.mod_lt x (by decide)) (by decide)) (by decide))

/-- The update over some inputs is the one of the statements. -/
theorem amaxTakes_amaxUpd (xs : List Nat) (w : Warp) : AmaxTakes xs w (w.amaxUpd (amaxOf xs)) := by
  rw [amaxOf_eq]
  refine ⟨rfl, ?_⟩
  show BitVec.ofNat 32 (fp32.maxNum w.amax.toNat (BitVec.ofNat 32 _).toNat) = _
  rw [BitVec.toNat_ofNat, Nat.mod_eq_of_lt (amaxOf_fold_lt xs)]

/-! ### CVT8 and CVT4 -/

/-- The packed word of elements of `n` bits that CVT8 and CVT4 give a lane, with its flags. -/
def packVal (n : Nat) (o : Pack) (g : Nat) (w : Warp) (l : Lane) : Word × CC :=
  let r := packElems n
    ((List.range g).map fun e => narrow (fmtOf o.ty) o.sat (w.vl (o.a.toNat + e) l).toNat (w.sr o.b.toNat).toNat)
  (r, ccPacked n true r)

theorem packSem_eq (o : Pack) (g : Nat) (m : LaneMask) (w : Warp) : packSem o g m w =
    if o.amax then (w.put m o.d.toNat o.h.c o.h.ccSet (packVal (Ty.elemBits o.ty) o g w)).amaxUpd (amaxOf (groupInputs w m o.a.toNat g))
    else w.put m o.d.toNat o.h.c o.h.ccSet (packVal (Ty.elemBits o.ty) o g w) := rfl

/-- The update of AMAX is no matter of a lane instruction's frame where the instruction carries it. -/
theorem LaneKeeps.amaxUpd {i : Instr} {c : Ctx} {w : Warp} (h : LaneKeeps i c w) (ha : setsAmax i.layout = true)
    (u : Word × Bool) : LaneKeeps i c (w.amaxUpd u) :=
  ⟨h.split, h.specs, h.resv, ⟨h.regs.v, h.regs.s, h.regs.h, h.regs.cc⟩, ⟨h.full.v, h.full.s, h.full.h⟩,
    ⟨h.specials.x, h.specials.part, h.specials.lfsr, h.specials.repc, h.specials.tick, h.specials.join, h.specials.exited,
      h.specials.handler, h.specials.nopre, h.specials.hdie, h.specials.hdev, h.specials.hpod⟩,
    fun hn => absurd (ha.symm.trans hn) (by decide)⟩

theorem pack_dest {op : BitVec 10} (o : Pack) (dims : Nat) (hop : op = 0x107 ∨ op = 0x109) :
    vD o.d ∈ (Layout.pack op o).opnds dims := by
  obtain rfl | rfl := hop <;> exact List.mem_cons_self

/-- CVT8 and CVT4 give the packed word and its flags, and with `.amax` the update over their inputs. -/
theorem pack_gives {i : Instr} {op : BitVec 10} {o : Pack} (g : Nat) (hl : i.layout = .pack op o) (hop : op = 0x107 ∨ op = 0x109)
    (hx : ∀ s, exec i s = issue i (lane (packSem o g)) s) :
    GivesWord i o.d.toNat (packVal (Ty.elemBits o.ty) o g) ∧
    (o.amax = true → Completes i fun _ c _ w => AmaxTakes (groupInputs c.w (c.lanes i) o.a.toNat g) c.w w) := by
  have hw : (RegClass.v, o.d.toNat) ∈ writesRegs i := vD_written (hl ▸ pack_dest o 1 hop) Nat.one_pos
  have hcc : i.layout.ccOut = if o.h.c then some o.h.ccSet else none := by rw [hl]; rfl
  cases ha : o.amax with
  | false =>
    refine ⟨givesWord_of (packSem o g) (fun s _ _ => hx s) (fun m w => ?_) o.d.isLt hw hcc, fun h => nomatch h⟩
    rw [packSem_eq, ha]
    rfl
  | true =>
    have hset : setsAmax i.layout = true := by rw [hl]; exact ha
    have hsem (m : LaneMask) (w : Warp) : packSem o g m w =
        (w.put m o.d.toNat o.h.c o.h.ccSet (packVal (Ty.elemBits o.ty) o g w)).amaxUpd (amaxOf (groupInputs w m o.a.toNat g)) := by
      rw [packSem_eq, ha]
      rfl
    have hkeep (c : Ctx) : LaneKeeps i c (packSem o g (c.lanes i) c.w) := hsem _ _ ▸ (put_keeps _ hw hcc).amaxUpd hset _
    refine ⟨fun s c h => ?_, fun _ s c h => ?_⟩
    · obtain ⟨t, w, sp, a, od, he, ht, hf, rfl⟩ := lane_retires (packSem o g) h (hkeep c)
      refine ⟨t, _, (hx s).trans he, ht, hf, fun l hm => ⟨?_, fun k hk => ?_⟩⟩
      · rw [hsem]
        exact (Warp.vl_put ..).trans (if_pos ⟨rfl, o.d.isLt, hm⟩)
      · rw [hsem]
        refine (Warp.cc_put ..).trans (if_pos ?_)
        rw [hcc] at hk
        split at hk
        · exact ⟨‹_›, Option.some.inj hk, hm⟩
        · cases hk
    · obtain ⟨t, w, sp, a, od, he, ht, hf, rfl⟩ := lane_retires (packSem o g) h (hkeep c)
      refine ⟨t, _, (hx s).trans he, ht, ?_⟩
      rw [hsem]
      obtain ⟨h1, h2⟩ := amaxTakes_amaxUpd (groupInputs c.w (c.lanes i) o.a.toNat g) c.w
      obtain ⟨v, c0, c1, hput⟩ := c.w.put_fields (c.lanes i) o.d.toNat o.h.c o.h.ccSet (packVal (Ty.elemBits o.ty) o g c.w)
      rw [hput]
      exact ⟨h1, h2⟩

/-! ### WID8 and WID4 -/

theorem Warp.setGroup_succ (w : Warp) (d g : Nat) (m : LaneMask) (f : Lane → List Nat) :
    w.setGroup d (g + 1) m f = (w.setGroup d g m f).setV (d + g) m fun l => BitVec.ofNat 32 ((f l).getD g 0) := by
  rw [Warp.setGroup, Warp.setGroup, List.range_succ, List.foldl_append]
  rfl

theorem Warp.setGroup_fields (w : Warp) (d g : Nat) (m : LaneMask) (f : Lane → List Nat) :
    ∃ v, w.setGroup d g m f = { w with v := v } := by
  induction g with
  | zero => exact ⟨w.v, rfl⟩
  | succ g ih =>
    obtain ⟨v, hv⟩ := ih
    rw [Warp.setGroup_succ, hv]
    exact ⟨_, rfl⟩

theorem Warp.vl_setGroup (w : Warp) {d g : Nat} (m : LaneMask) (f : Lane → List Nat) (n : Nat) (l : Lane) (hd : d + g ≤ 128) :
    (w.setGroup d g m f).vl n l =
      if d ≤ n ∧ n < d + g ∧ m.getLsbD l.val then BitVec.ofNat 32 ((f l).getD (n - d) 0) else w.vl n l := by
  induction g with
  | zero =>
    rw [if_neg (by omega)]
    rfl
  | succ g ih =>
    rw [Warp.setGroup_succ, Warp.vl_setV, ih (by omega)]
    by_cases hn : n = d + g
    · subst hn
      by_cases hm : m.getLsbD l.val = true
      · rw [if_pos ⟨rfl, by omega, hm⟩, if_pos ⟨by omega, by omega, hm⟩, Nat.add_sub_cancel_left]
      · rw [if_neg (by tauto), if_neg (by tauto), if_neg (by tauto)]
    · rw [if_neg (by omega)]
      by_cases h : d ≤ n ∧ n < d + g ∧ m.getLsbD l.val = true
      · rw [if_pos h, if_pos ⟨h.1, by omega, h.2.2⟩]
      · rw [if_neg h, if_neg fun h' => h ⟨h'.1, by omega, h'.2.2⟩]

/-- WID8 and WID4 write their group of registers. -/
theorem wid_gives {i : Instr} {o : Pack} {g : Nat} (hd : ∀ dims, vD o.d g ∈ i.layout.opnds dims) (hg : g ∣ 128)
    (hx : ∀ s, exec i s = issue i (lane (widSem o g)) s) :
    GivesGroup i o.d.toNat g fun w l => widenAll o.ty (w.vl o.a.toNat l) (w.sr o.b.toNat).toNat := by
  intro s c h
  have hfit : o.d.toNat + g ≤ 128 := vD_fits h (hd _) hg
  have hkeep : LaneKeeps i c (widSem o g (c.lanes i) c.w) := by
    obtain ⟨v, hv⟩ := c.w.setGroup_fields o.d.toNat g (c.lanes i)
      fun l => widenAll o.ty (c.w.vl o.a.toNat l) (c.w.sr o.b.toNat).toNat
    refine laneKeeps_of ⟨v, c.w.cc0, c.w.cc1, hv⟩ (fun n l hn => ?_) fun k l _ => ?_
    · rw [widSem, Warp.vl_setGroup _ _ _ _ _ hfit, if_neg]
      rintro ⟨h1, h2, hl⟩
      refine hn.elim (fun hn => hn ?_) fun hn => by rw [hn] at hl; cases hl
      have := mem_writesRegs (hd 1) rfl (k := n - o.d.toNat) (show n - o.d.toNat < g by omega)
      rwa [show (vD o.d g).n + (n - o.d.toNat) = n from Nat.add_sub_cancel' h1] at this
    · rw [widSem, hv]
      rfl
  obtain ⟨t, w, sp, a, od, he, ht, hf, rfl⟩ := lane_retires (widSem o g) h hkeep
  refine ⟨t, _, (hx s).trans he, ht, hf, fun l hm e he => ?_⟩
  refine (Warp.vl_setGroup _ _ _ _ _ hfit).trans ((if_pos ⟨by omega, by omega, hm⟩).trans ?_)
  rw [Nat.add_sub_cancel_left]

/-! ### MOVS -/

theorem sD_written {i : Instr} {d : RegField} (h : sD d ∈ i.layout.opnds 1) : (RegClass.s, d.toNat) ∈ writesRegs i :=
  mem_writesRegs h rfl (k := 0) Nat.one_pos

/-- The s register an instruction writes is one of the 64 (R89). -/
theorem sD_fits {i : Instr} {s : State} {c : Ctx} (h : Issues i s c) {d : RegField}
    (hd : sD d ∈ i.layout.opnds (vaultDims s c.l.asid c.w i.layout)) : d.toNat < 64 :=
  of_decide_eq_true (Bool.and_eq_true_iff.mp (h.legal _ hd)).2

theorem Warp.setS_fields (w : Warp) (n : Nat) (x : Word) : ∃ y, w.setS n x = { w with s := y } := by
  unfold Warp.setS
  split
  · exact ⟨w.s, rfl⟩
  · exact ⟨_, rfl⟩

/-- A write of an s register that an instruction has as its destination keeps a lane instruction's frame. -/
theorem setS_keeps {i : Instr} {c : Ctx} {d : Nat} (x : Word) (hw : (RegClass.s, d) ∈ writesRegs i) :
    LaneKeeps i c (c.w.setS d x) := by
  have hs (n : Nat) (hn : (RegClass.s, n) ∉ writesRegs i) : (c.w.setS d x).sr n = c.w.sr n := by
    rw [Warp.sr_setS, if_neg]
    rintro ⟨rfl, -⟩
    exact hn hw
  obtain ⟨y, hy⟩ := c.w.setS_fields d x
  rw [hy] at hs ⊢
  exact ⟨rfl, rfl, rfl, ⟨fun _ _ _ => rfl, hs, fun _ _ => rfl, fun _ _ _ => rfl⟩, ⟨rfl, rfl, rfl⟩,
    ⟨rfl, rfl, rfl, rfl, rfl, rfl, rfl, rfl, rfl, rfl, rfl, rfl⟩, fun _ => ⟨rfl, rfl⟩⟩

/-- An s register reads what was written to it; s0 reads zero (R50). -/
theorem Warp.sr_setS_self (w : Warp) {n : Nat} (x : Word) (h : n < 64) : (w.setS n x).sr n = if n = 0 then 0 else x := by
  by_cases hn : n = 0
  · subst hn
    rfl
  · rw [Warp.sr_setS, if_pos ⟨rfl, hn, h⟩, if_neg hn]

/-- An instruction whose effect is one write of an s register. -/
theorem setS_completes {i : Instr} {d : RegField} {g : LaneMask → Warp → Warp} {f : Warp → Word}
    (hd : ∀ dims, sD d ∈ i.layout.opnds dims) (hx : ∀ s, exec i s = issue i (lane g) s) (hg : ∀ m w, g m w = w.setS d.toNat (f w)) :
    Completes i fun s c t w => LaneFrame i s c t w ∧ w.sr d.toNat = if d.toNat = 0 then 0 else f c.w := by
  intro s c h
  obtain ⟨t, w, sp, a, od, he, ht, hf, rfl⟩ := lane_retires g h (by rw [hg]; exact setS_keeps _ (sD_written (hd 1)))
  refine ⟨t, _, (hx s).trans he, ht, hf, ?_⟩
  rw [hg]
  exact Warp.sr_setS_self _ _ (sD_fits h (hd _))

/-- MOVS writes the v register in the lanes that execute, or the s register. -/
theorem movs_moves (o : Movs) : Completes (.movs o) fun s c t w => LaneFrame (.movs o) s c t w ∧
    match o.op with
    | .vFromS a => ∀ l, (c.lanes (.movs o)).getLsbD l.val = true → w.vl o.d.toNat l = c.w.sr a.toNat
    | .sImm i => w.sr o.d.toNat = if o.d.toNat = 0 then 0 else i.signExtend 32
    | .sFromS a => w.sr o.d.toNat = if o.d.toNat = 0 then 0 else c.w.sr a.toNat := by
  cases ho : o.op with
  | vFromS a =>
    intro s c h
    have hd : vD o.d ∈ (Instr.movs o).layout.opnds 1 := by
      show _ ∈ (Layout.movs 0x142 o).opnds 1
      rw [Layout.opnds, ho]
      exact List.mem_cons_self
    have hsem (m : LaneMask) (w : Warp) : movsSem o m w = w.setV o.d.toNat m fun _ => w.sr a.toNat := by rw [movsSem, ho]
    have hkeep : LaneKeeps (.movs o) c (movsSem o (c.lanes (.movs o)) c.w) := by
      rw [hsem]
      refine laneKeeps_of ⟨_, c.w.cc0, c.w.cc1, rfl⟩ (fun n l hn => ?_) fun _ _ _ => rfl
      rw [Warp.vl_setV, if_neg]
      rintro ⟨rfl, -, hl⟩
      exact hn.elim (· (vD_written hd Nat.one_pos)) fun hn => by rw [hn] at hl; cases hl
    obtain ⟨t, w, sp, b, od, he, ht, hf, rfl⟩ := lane_retires (movsSem o) h hkeep
    refine ⟨t, _, he, ht, hf, fun l hm => ?_⟩
    rw [hsem]
    exact (Warp.vl_setV ..).trans (if_pos ⟨rfl, o.d.isLt, hm⟩)
  | sImm x =>
    refine setS_completes (g := movsSem o) (f := fun _ => x.signExtend 32) (fun dims => ?_) (fun _ => rfl) fun m w => by
      rw [movsSem, ho]
    show _ ∈ (Layout.movs 0x142 o).opnds dims
    rw [Layout.opnds, ho]
    exact List.mem_cons_self
  | sFromS a =>
    refine setS_completes (g := movsSem o) (f := fun w => w.sr a.toNat) (fun dims => ?_) (fun _ => rfl) fun m w => by
      rw [movsSem, ho]
    show _ ∈ (Layout.movs 0x142 o).opnds dims
    rw [Layout.opnds, ho]
    exact List.mem_cons_self

/-! ### The whole statement -/

theorem Pack.wf_elemBits {op : BitVec 10} {o : Pack} (h : o.wf op = true) :
    ((op = 0x107 ∨ op = 0x108) → Ty.elemBits o.ty = 8) ∧ ((op = 0x109 ∨ op = 0x10A) → Ty.elemBits o.ty = 4) := by
  simp only [Pack.wf, Bool.and_eq_true] at h
  obtain ⟨⟨⟨-, ht⟩, -⟩, -⟩ := h
  have height (ht : [Ty.e4m3x4, .e5m2x4].contains o.ty = true) : Ty.elemBits o.ty = 8 := by
    obtain ht | ht : o.ty = .e4m3x4 ∨ o.ty = .e5m2x4 := by simpa using ht
    all_goals rw [ht]; rfl
  have hfour (ht : [Ty.e2m1x8].contains o.ty = true) : Ty.elemBits o.ty = 4 := by
    rw [show o.ty = .e2m1x8 by simpa using ht]
    rfl
  refine ⟨?_, ?_⟩
  · rintro (rfl | rfl) <;> exact height ht
  · rintro (rfl | rfl) <;> exact hfour ht

/-- Settles O5: one lemma for each row of CVT's table, and one for each other form. -/
theorem conversionsGiveTheirResults : Obligations.ConversionsGiveTheirResults := by
  refine ⟨fun o => ⟨givesWord_xr (semFrcp o) rfl rfl (by decide) (fun _ => rfl) fun _ _ => rfl,
      givesWord_xr (semFrsq o) rfl rfl (by decide) (fun _ => rfl) fun _ _ => rfl,
      givesWord_xr (semFsqrt o) rfl rfl (by decide) (fun _ => rfl) fun _ _ => rfl,
      givesWord_xr (semFexp2 o) rfl rfl (by decide) (fun _ => rfl) fun _ _ => rfl,
      givesWord_xr (semFlog2 o) rfl rfl (by decide) (fun _ => rfl) fun _ _ => rfl,
      givesWord_xf2_unsat (f := fun a b => resF (f2 fdiv a b)) (op := 0x105) rfl rfl (by decide) rfl fun _ => rfl⟩,
    cvt_frame, fun _ hs hd => cvt_f32_to_packed hs hd, fun _ hs hd => cvt_packed_to_f32 hs hd,
    fun _ h => cvt_packed_to_packed h, fun _ hs hd => cvt_f32_to_int32 hs hd, fun _ hs hd => cvt_f32_to_int64 hs hd,
    fun _ hs hd => cvt_int32_to_f32 hs hd, fun _ hs hd => cvt_int64_to_f32 hs hd, fun _ hs hd => cvt_int32_to_int64 hs hd,
    fun o hs hd => cvt_to_int32 (by tauto) hd, fun o => ?_, fun o => ?_, fun o ha => ?_, fun o => ?_, fun o => ?_, movs_moves⟩
  · refine givesWord_of_wf fun hwf => ?_
    exact (Pack.wf_elemBits hwf).1 (.inl rfl) ▸ (pack_gives 4 rfl (.inl rfl) fun _ => rfl).1
  · refine givesWord_of_wf fun hwf => ?_
    exact (Pack.wf_elemBits hwf).2 (.inl rfl) ▸ (pack_gives 8 rfl (.inr rfl) fun _ => rfl).1
  · exact ⟨(pack_gives 4 rfl (.inl rfl) fun _ => rfl).2 ha, (pack_gives 8 rfl (.inr rfl) fun _ => rfl).2 ha⟩
  · exact ⟨wid_gives (fun _ => List.mem_cons_self) (by decide) fun _ => rfl,
      wid_gives (fun _ => List.mem_cons_self) (by decide) fun _ => rfl⟩
  · exact givesWord_of (semMovi o) (fun _ _ _ => rfl) (fun _ _ => rfl) o.d.isLt (vD_written List.mem_cons_self Nat.one_pos) rfl

end Sys2Proof.Machine
end

section
/-! RDSR and WRSR (R54-R57, R148): what a read latches, what a write changes, and the waits and traps of both. -/

namespace Sys2Proof.Machine

/-! ### The latch of TICKHI (R55, R171) -/

/-- What a read of a special register latches: a fragment's half under repair, or the warp's. -/
theorem Warp.latch_entry (w : Warp) (k : Fin 32) (idx time : Nat) :
    w.latch (.entry k) idx time =
      if idx = 13 then
        if ((w.split[k]).bind (·.undo)).isSome then
          w.modFrag (fun f => { f with undo := f.undo.map fun u => { u with tick := some (BitVec.ofNat 32 (time / 2 ^ 32)) } }) (.entry k)
        else { w with tick := some (BitVec.ofNat 32 (time / 2 ^ 32)) }
      else w := by
  simp only [Warp.latch, bne_iff_ne, ne_eq, ite_not]

section
variable {sel : FragSel} (hp : isPath sel = false) (idx time : Nat)
include hp

theorem Warp.latch_fields (w : Warp) : ∃ sp tk, w.latch sel idx time = { w with split := sp, tick := tk } := by
  obtain ⟨k, rfl⟩ := isPath_entry hp
  rw [Warp.latch_entry]
  split_ifs <;> exact ⟨_, _, rfl⟩

theorem Warp.latch_tick {w : Warp} {f : Frag} (h : w.frag? sel = some f) : (w.latch sel idx time).tick =
    if idx = 13 ∧ f.undo = none then some (BitVec.ofNat 32 (time / 2 ^ 32)) else w.tick := by
  obtain ⟨k, rfl⟩ := isPath_entry hp
  have hu : ((w.split[k]).bind (·.undo)).isSome = f.undo.isSome := by
    rw [show w.split[k] = some f from h]
    rfl
  rw [Warp.latch_entry, hu]
  by_cases hi : idx = 13
  · cases hf : f.undo <;> simp [hi, Warp.modFrag]
  · simp [hi]

/-- A latch changes at most what the fragment keeps for its repair. -/
theorem Warp.latch_frag {w : Warp} {f : Frag} (h : w.frag? sel = some f) :
    ∃ u, (w.latch sel idx time).frag? sel = some { f with undo := u } := by
  obtain ⟨k, rfl⟩ := isPath_entry hp
  rw [Warp.latch_entry]
  split_ifs
  · rw [Warp.frag?_modFrag, h]
    exact ⟨_, rfl⟩
  · exact ⟨f.undo, h⟩
  · exact ⟨f.undo, h⟩

theorem Warp.latch_frag_ne (w : Warp) {r : FragSel} (hr : r ≠ sel) : (w.latch sel idx time).frag? r = w.frag? r := by
  obtain ⟨k, rfl⟩ := isPath_entry hp
  rw [Warp.latch_entry]
  split_ifs
  · exact Warp.frag?_modFrag_ne _ _ hr
  · rfl
  · rfl

end

/-! ### RDSR -/

/-- RDSR's write of its destination. -/
def rdsrWrite (o : Sr) (m : LaneMask) (x : Lane → Word) (w : Warp) : Warp :=
  if o.sreg then w.setS o.d.toNat (x 0) else w.setV o.d.toNat m x

theorem rdsr_dest (o : Sr) (dims : Nat) :
    (if o.sreg then sD o.d else vD o.d) ∈ (Instr.rdsr o).layout.opnds dims := List.mem_cons_self

theorem rdsrWrite_keeps (o : Sr) (c : Ctx) (x : Lane → Word) : LaneKeeps (.rdsr o) c (rdsrWrite o (c.lanes (.rdsr o)) x c.w) := by
  have hd := rdsr_dest o 1
  unfold rdsrWrite
  split
  · rw [if_pos ‹_›] at hd
    exact setS_keeps _ (sD_written hd)
  · rw [if_neg ‹_›] at hd
    refine laneKeeps_of ⟨_, c.w.cc0, c.w.cc1, rfl⟩ (fun n l hn => ?_) fun _ _ _ => rfl
    rw [Warp.vl_setV, if_neg]
    rintro ⟨rfl, -, hl⟩
    exact hn.elim (· (vD_written hd Nat.one_pos)) fun hn => by rw [hn] at hl; cases hl

/-- What RDSR writes reads back. -/
theorem rdsrWrite_reads {o : Sr} {s : State} {c : Ctx} (h : Issues (.rdsr o) s c) (x : Lane → Word) :
    (o.sreg = true → (rdsrWrite o (c.lanes (.rdsr o)) x c.w).sr o.d.toNat = if o.d.toNat = 0 then 0 else x 0) ∧
    (o.sreg = false → ∀ l, (c.lanes (.rdsr o)).getLsbD l.val = true →
      (rdsrWrite o (c.lanes (.rdsr o)) x c.w).vl o.d.toNat l = x l) := by
  have hd := rdsr_dest o (vaultDims s c.l.asid c.w (Instr.rdsr o).layout)
  refine ⟨fun hs => ?_, fun hs l hl => ?_⟩
  · rw [if_pos hs] at hd
    rw [rdsrWrite, if_pos hs]
    exact Warp.sr_setS_self _ _ (sD_fits h hd)
  · rw [rdsrWrite, hs]
    exact (Warp.vl_setV ..).trans (if_pos ⟨rfl, o.d.isLt, hl⟩)

theorem rdsr_reads (o : Sr) : CompletesIf (.rdsr o)
    (fun _ c => o.a.toNat = 16 ∨ o.a.toNat = 17 → amaxPending c.b c.ref.warp c.w = false) fun s c t w =>
      Retired (.rdsr o) s c t w ∧ SameRegs (.rdsr o) c w ∧ SameFull c.w w ∧
      SameSpecials { c.w with tick := w.tick } w ∧ w.amax = c.w.amax ∧ w.nanSeen = c.w.nanSeen ∧
      w.tick = (if o.a.toNat = 13 ∧ c.f.undo = none then some (BitVec.ofNat 32 (s.time / 2 ^ 32)) else c.w.tick) ∧
      (o.sreg = true → w.sr o.d.toNat = if o.d.toNat = 0 then 0 else specialVal s c o.a.toNat 0) ∧
      (o.sreg = false → ∀ l, (c.lanes (.rdsr o)).getLsbD l.val = true → w.vl o.d.toNat l = specialVal s c o.a.toNat l) := by
  intro s c h hp
  have hwait : amaxWait c o.a.toNat = false := by
    simp only [amaxWait, Bool.and_eq_false_imp, Bool.or_eq_true, beq_iff_eq]
    exact hp
  obtain ⟨t, a, od, he, ht, hout⟩ := ok_completes h (body := rdsrEff o) (if_neg (by rw [hwait]; decide))
    (Noted.modW s c fun w => (rdsrWrite o (c.lanes (.rdsr o)) (specialVal s c o.a.toNat) w).latch c.ref.sel o.a.toNat s.time)
  have keep := rdsrWrite_keeps o c (specialVal s c o.a.toNat)
  have hread := rdsrWrite_reads h (specialVal s c o.a.toNat)
  generalize rdsrWrite o (c.lanes (.rdsr o)) (specialVal s c o.a.toNat) c.w = w0 at ht keep hread
  have hsame (r : FragSel) : w0.frag? r = c.w.frag? r := by cases r <;> simp only [Warp.frag?, keep.split, keep.specs]
  have hf : w0.frag? c.ref.sel = some c.f := (hsame _).trans h.frag
  obtain ⟨u, hu⟩ := Warp.latch_frag h.here o.a.toNat s.time hf
  obtain ⟨sp, hsp⟩ := retiredWarp_fields h (w0.latch c.ref.sel o.a.toNat s.time) a od
  obtain ⟨sp', tk, hl⟩ := Warp.latch_fields h.here o.a.toNat s.time w0
  have htick := Warp.latch_tick h.here o.a.toNat s.time hf
  refine ⟨t, _, he, ht, ⟨⟨_, retiredWarp_frag h hu a od, ⟨rfl, rfl, rfl, rfl, rfl, rfl, rfl⟩⟩, fun r hr => ?_,
    hout.1, hout.2.1, hout.2.2, ?_⟩, ?_⟩
  · rw [retiredWarp_frag_ne h _ a od hr, Warp.latch_frag_ne h.here _ _ _ hr, hsame]
  all_goals rw [hsp, hl] at *
  · exact keep.resv
  · have ha := keep.amax rfl
    have hx := keep.specials
    refine ⟨⟨keep.regs.v, keep.regs.s, keep.regs.h, keep.regs.cc⟩, ⟨keep.full.v, keep.full.s, keep.full.h⟩,
      ⟨hx.x, hx.part, hx.lfsr, hx.repc, rfl, hx.join, hx.exited, hx.handler, hx.nopre, hx.hdie, hx.hdev, hx.hpod⟩,
      ha.1, ha.2, htick.trans ?_, hread⟩
    rw [hx.tick]

/-- RDSR of AMAX or AMAXF waits for the updates that are pending. -/
theorem rdsr_waits {o : Sr} {s : State} {c : Ctx} (h : Issues (.rdsr o) s c) (ha : o.a.toNat = 16 ∨ o.a.toNat = 17)
    (hp : amaxPending c.b c.ref.warp c.w = true) :
    exec (.rdsr o) s = .next (s.modFrag c.ref fun f => { f with st := .waitReg, cond := .amaxDone }) := by
  have hw : amaxWait c o.a.toNat = true := by
    simp only [amaxWait, hp, Bool.and_true, Bool.or_eq_true, beq_iff_eq]
    exact ha
  refine (issue_of_issues (rdsrEff o) h).trans ?_
  rw [rdsrEff, if_pos hw]
  rfl

/-! ### The values -/

/-- TICKHI of a fragment that repairs nothing is the warp's. -/
theorem latched_of_no_undo {c : Ctx} (hp : isPath c.ref.sel = false) (hf : c.w.frag? c.ref.sel = some c.f) (hu : c.f.undo = none) :
    c.w.latched c.ref.sel = c.w.tick := by
  obtain ⟨k, hk⟩ := isPath_entry hp
  rw [hk] at hf ⊢
  have : c.w.pathTick (.entry k) = none := by
    rw [Warp.pathTick, show c.w.split[k] = some c.f from hf]
    show c.f.undo.bind _ = none
    rw [hu]
    rfl
  rw [Warp.latched, this]
  cases c.w.tick <;> rfl

theorem rdsrReadsTheSpecialRegister : RdsrReadsTheSpecialRegister := by
  refine ⟨rdsr_reads, fun _ _ _ h ha hp => rdsr_waits h ha hp, fun s c l => ?_⟩
  intro n k
  refine ⟨rfl, rfl, rfl, rfl, rfl, rfl, rfl, rfl, rfl, rfl, rfl, rfl, rfl, rfl, fun hp hf hu => ?_, rfl, rfl, rfl, rfl, rfl, rfl, rfl,
    rfl, rfl, rfl, rfl, rfl, rfl, rfl, rfl, rfl, rfl, rfl, rfl⟩
  show (c.w.latched c.ref.sel).getD _ = _
  rw [latched_of_no_undo hp hf hu]
  cases c.w.tick <;> rfl

/-! ### WRSR -/

/-- What a write of a special register changes, field by field. -/
theorem Warp.writeSpecial_eq (w : Warp) (idx : Nat) (v : Word) : w.writeSpecial idx v = { w with
    lfsr := if idx = 18 then (if v = 0 then 1 else v) else w.lfsr
    amax := if idx = 16 then (if (fp32.decode (v &&& 0x7FFF_FFFF).toNat).isNan then 0 else v &&& 0x7FFF_FFFF) else w.amax
    nanSeen := if idx = 16 then (w.nanSeen || (fp32.decode (v &&& 0x7FFF_FFFF).toNat).isNan)
      else if idx = 17 then v.getLsbD 0 else w.nanSeen
    x := { cause := if idx = 24 then v else w.x.cause
           pc := if idx = 25 then hiOf w.x.pc ++ v else if idx = 26 then v ++ loOf w.x.pc else w.x.pc
           addr := if idx = 27 then hiOf w.x.addr ++ v else if idx = 28 then v ++ loOf w.x.addr else w.x.addr
           mask := if idx = 29 then v else w.x.mask
           info := if idx = 30 then v else w.x.info } } := by
  unfold Warp.writeSpecial
  split
  case h_1 =>
    dsimp only
    cases (fp32.decode (v &&& 0x7FFF_FFFF).toNat).isNan with
    | true => rw [Bool.or_true]; rfl
    | false => rw [Bool.or_false]; rfl
  case h_3 =>
    simp only [beq_iff_eq]
    rfl
  case h_11 h16 h17 h18 h24 h25 h26 h27 h28 h29 h30 =>
    simp only [if_neg h16, if_neg h17, if_neg h18, if_neg h24, if_neg h25, if_neg h26, if_neg h27, if_neg h28, if_neg h29, if_neg h30]
  all_goals rfl

/-- WRSR's effect on its warp: the value, where there is one, goes to the special register. -/
def wrsrWarp (o : Sr) (c : Ctx) : Warp :=
  match wrsrValue o c with
  | some v => c.w.writeSpecial o.d.toNat v
  | none => c.w

theorem wrsrWarp_fields (o : Sr) (c : Ctx) :
    ∃ lf am ns x, wrsrWarp o c = { c.w with lfsr := lf, amax := am, nanSeen := ns, x := x } := by
  unfold wrsrWarp
  split
  · rw [Warp.writeSpecial_eq]
    exact ⟨_, _, _, _, rfl⟩
  · exact ⟨_, _, _, _, rfl⟩

/-- Where it neither traps nor waits, WRSR writes and retires. -/
theorem wrsr_retires {o : Sr} {s : State} {c : Ctx} (h : Issues (.wrsr o) s c) (hh : 24 ≤ o.d.toNat → c.f.handler = true)
    (hp : o.d.toNat = 16 ∨ o.d.toNat = 17 → amaxPending c.b c.ref.warp c.w = false) :
    ∃ t w sp a od, exec (.wrsr o) s = .next t ∧ t.warp? c.ref.block c.ref.warp = some w ∧ Retired (.wrsr o) s c t w ∧
      w = { wrsrWarp o c with split := sp, started := a, ordinal := od } := by
  have hwait : amaxWait c o.d.toNat = false := by
    simp only [amaxWait, Bool.and_eq_false_imp, Bool.or_eq_true, beq_iff_eq]
    exact hp
  have hpriv : ¬(decide (24 ≤ o.d.toNat) && !c.f.handler) = true := by
    simp only [Bool.and_eq_true, decide_eq_true_eq, Bool.not_eq_true', not_and, Bool.not_eq_false]
    exact hh
  obtain ⟨lf, am, ns, x, hw⟩ := wrsrWarp_fields o c
  have hbody : ∃ g : Warp → Warp, wrsrEff o c (c.lanes (.wrsr o)) s = .ok (s.modW c g) ∧ g c.w = wrsrWarp o c := by
    unfold wrsrEff wrsrWarp wrsrValue
    dsimp only
    rw [if_neg hpriv, hwait, if_neg Bool.false_ne_true]
    split
    · exact ⟨_, rfl, rfl⟩
    · refine ⟨_, rfl, ?_⟩
      cases (lanesOf (c.lanes (.wrsr o))).head? <;> rfl
  obtain ⟨g, hb, hg⟩ := hbody
  obtain ⟨t, w, sp, a, od, he, ht, hr, rfl⟩ := ok_retires h hb (Noted.modW s c g) (by rw [hg, hw]) (by rw [hg, hw]) (by rw [hg, hw])
  exact ⟨t, _, sp, a, od, he, ht, hr, by rw [hg]⟩

theorem wrsrWritesTheSpecialRegister : WrsrWritesTheSpecialRegister := by
  refine ⟨fun o s c h hc => ?_, fun o s c h hc => ?_⟩
  · obtain ⟨t, w, sp, a, od, he, ht, hr, rfl⟩ := wrsr_retires h hc.1 hc.2
    obtain ⟨lf, am, ns, x, hw⟩ := wrsrWarp_fields o c
    refine ⟨t, _, he, ht, hr, ?_, ?_, by rw [hw], by rw [hw], by rw [hw], by rw [hw], by rw [hw], by rw [hw], by rw [hw],
      fun v hv => ?_, fun hv => ?_⟩
    · rw [hw]
      exact ⟨fun _ _ _ => rfl, fun _ _ => rfl, fun _ _ => rfl, fun _ _ _ => rfl⟩
    · rw [hw]
      exact ⟨rfl, rfl, rfl⟩
    · rw [wrsrWarp, hv]
      dsimp only
      rw [Warp.writeSpecial_eq]
      exact ⟨rfl, rfl, rfl, rfl⟩
    · rw [wrsrWarp, hv]
      exact ⟨rfl, rfl, rfl, rfl⟩
  · refine trap_completes h (body := wrsrEff o) (if_pos ?_) (by decide)
    rw [hc.2, decide_eq_true hc.1]
    rfl

/-- Settles O9: each of the two instructions, with its latch, its waits and its trap. -/
theorem specialRegistersAreReadAndWritten : Obligations.SpecialRegistersAreReadAndWritten :=
  ⟨rdsrReadsTheSpecialRegister, wrsrWritesTheSpecialRegister⟩

end Sys2Proof.Machine
end

section
/-! The transform pipe (R62, R67, R154-R157): what an instruction sends, and what the pipe's reply brings back. -/

namespace Sys2Proof.Machine

/-! ### Full bits (R61) -/

theorem getLsbD_setBit {n : Nat} (v : BitVec n) (i : Nat) (b : Bool) {r : Nat} (hr : r < n) :
    (setBit v i b).getLsbD r = if r = i then b else v.getLsbD r := by
  have hbit : (BitVec.ofNat n (2 ^ i)).getLsbD r = decide (r = i) := by
    rw [BitVec.getLsbD_ofNat, decide_eq_true hr, Bool.true_and, Nat.testBit_two_pow]
    exact decide_eq_decide.mpr eq_comm
  cases b with
  | true =>
    rw [setBit, if_pos rfl, BitVec.getLsbD_or, hbit]
    by_cases h : r = i <;> simp [h]
  | false =>
    rw [setBit, if_neg Bool.false_ne_true, BitVec.getLsbD_and, BitVec.getLsbD_not, hbit, decide_eq_true hr]
    by_cases h : r = i <;> simp [h]

/-- The registers of a class that have a full bit in the warp. -/
def regCount : RegClass → Nat
  | .v => 128 | .s => 64 | .h => 16 | .tile => 0

/-- The full bit a warp keeps of a register. -/
def Warp.fullBit (w : Warp) (r : RegClass × Nat) : Bool :=
  match r.1 with
  | .v => w.vFull.getLsbD r.2
  | .s => w.sFull.getLsbD r.2
  | .h => w.hFull.getLsbD r.2
  | .tile => false

theorem Warp.fullBit_mark (w : Warp) (full : Bool) (q : RegClass × Nat) {r : RegClass × Nat} (hr : r.2 < regCount r.1) :
    (w.mark full q).fullBit r = if r = q then full else w.fullBit r := by
  obtain ⟨rc, rn⟩ := r
  obtain ⟨qc, qn⟩ := q
  by_cases hc : rc = qc
  · subst hc
    simp only [Prod.mk.injEq, true_and]
    cases rc with
    | v => exact getLsbD_setBit _ _ _ hr
    | s => exact getLsbD_setBit _ _ _ hr
    | h => exact getLsbD_setBit _ _ _ hr
    | tile => exact absurd hr (Nat.not_lt_zero _)
  · rw [if_neg fun h => hc (Prod.mk.inj h).1]
    cases qc with
    | v => cases rc with | v => exact absurd rfl hc | s | h | tile => rfl
    | s => cases rc with | s => exact absurd rfl hc | v | h | tile => rfl
    | h => cases rc with | h => exact absurd rfl hc | v | s | tile => rfl
    | tile => rfl

/-- Marking registers changes exactly their full bits. -/
theorem Warp.fullBit_markAll (w : Warp) (full : Bool) (l : List (RegClass × Nat)) {r : RegClass × Nat} (hr : r.2 < regCount r.1) :
    (w.markAll full l).fullBit r = if r ∈ l then full else w.fullBit r := by
  induction l generalizing w with
  | nil => rfl
  | cons q l ih =>
    rw [show w.markAll full (q :: l) = (w.mark full q).markAll full l from rfl, ih, Warp.fullBit_mark _ _ _ hr]
    by_cases h : r ∈ l
    · rw [if_pos h, if_pos (List.mem_cons_of_mem _ h)]
    · rw [if_neg h]
      exact if_congr (by simp [h]) rfl rfl

theorem PipeItem.v_mem_dests (p : PipeItem) (n : Nat) : (RegClass.v, n) ∈ p.dests ↔ n ∈ p.v.map (·.1) := by
  unfold PipeItem.dests
  cases p.s <;> simp

theorem PipeItem.s_mem_dests (p : PipeItem) (n : Nat) : (RegClass.s, n) ∈ p.dests ↔ p.s.map (·.1) = some n := by
  unfold PipeItem.dests
  cases p.s <;> simp [eq_comm]

theorem PipeItem.h_mem_dests (p : PipeItem) (n : Nat) : (RegClass.h, n) ∉ p.dests := by
  unfold PipeItem.dests
  cases p.s <;> simp

/-! ### Sending -/

theorem Warp.toPipe_fields (w : Warp) (p : PipeItem) :
    ∃ a b d, w.toPipe p = { w with pipe := w.pipe ++ [p], vFull := a, sFull := b, hFull := d } := by
  obtain ⟨a, b, d, h⟩ := ({ w with pipe := w.pipe ++ [p] } : Warp).markAll_refills false p.dests
  exact ⟨a, b, d, h⟩

theorem Warp.fullBit_toPipe (w : Warp) (p : PipeItem) {r : RegClass × Nat} (hr : r.2 < regCount r.1) :
    (w.toPipe p).fullBit r = if r ∈ p.dests then false else w.fullBit r := Warp.fullBit_markAll _ _ _ hr

theorem Warp.toPipe_hFull (w : Warp) (p : PipeItem) : (w.toPipe p).hFull = w.hFull :=
  BitVec.eq_of_getLsbD_eq fun n hn =>
    (w.fullBit_toPipe p (r := (.h, n)) hn).trans (if_neg (p.h_mem_dests n))

theorem ite_false_eq_and_not_contains {P : Prop} [Decidable P] (b : Bool) {r : Nat} {l : List Nat} (h : P ↔ r ∈ l) :
    (if P then false else b) = (b && !l.contains r) := by
  by_cases hm : r ∈ l
  · rw [if_pos (h.mpr hm), List.contains_iff_mem.mpr hm, Bool.not_true, Bool.and_false]
  · rw [if_neg fun hp => hm (h.mp hp), Bool.eq_false_of_not_eq_true fun hc => hm (List.contains_iff_mem.mp hc), Bool.not_false,
      Bool.and_true]

section
variable {i : Instr} {s : State} {c : Ctx} (p : LaneMask → Warp → PipeItem)
  (hx : ∀ s, exec i s = issue i (lane fun m w => w.toPipe (p m w)) s)
include hx

theorem toPipe_retires (h : Issues i s c) : ∃ t w sp a od, exec i s = .next t ∧ t.warp? c.ref.block c.ref.warp = some w ∧
    Retired i s c t w ∧ w = { c.w.toPipe (p (c.lanes i) c.w) with split := sp, started := a, ordinal := od } := by
  obtain ⟨a, b, d, hf⟩ := c.w.toPipe_fields (p (c.lanes i) c.w)
  obtain ⟨t, w, sp, a', od, he, ht, hr, hw⟩ := ok_retires h (body := lane fun m w => w.toPipe (p m w)) rfl (Noted.modW s c _)
    (congrArg Warp.split hf :) (congrArg Warp.specs hf :) (congrArg Warp.resv hf :)
  exact ⟨t, w, sp, a', od, (hx s).trans he, ht, hr, hw⟩

/-- An instruction that sends an item to the pipe changes nothing else, and its destinations are empty. -/
theorem sendsToPipe_of {ds : List Nat} {sr : Option (Nat × (LaneMask → Warp → Word))} {f : LaneMask → Warp → Lane → List Word}
    (hl : ∀ m w, (p m w).lanes = m) (hv : ∀ m w, (p m w).v.map (·.1) = ds)
    (hval : ∀ (m : LaneMask) (w : Warp) (e n : Nat) (x : Lanes Word) (l : Lane), (p m w).v[e]? = some (n, x) →
      m.getLsbD l.val = true → x[l] = (f m w l).getD e 0)
    (hs : ∀ m w, (p m w).s = sr.map fun x => (x.1, x.2 m w)) : SendsToPipe i ds sr f := by
  intro s c h
  obtain ⟨t, w, sp, a, od, he, ht, hr, hw⟩ := toPipe_retires p hx h
  have hfull {r : RegClass × Nat} (hr : r.2 < regCount r.1) :
      w.fullBit r = if r ∈ (p (c.lanes i) c.w).dests then false else c.w.fullBit r := by
    rw [hw]
    exact Warp.fullBit_toPipe c.w _ hr
  obtain ⟨va, sa, ha, hf⟩ := c.w.toPipe_fields (p (c.lanes i) c.w)
  have hh : w.hFull = c.w.hFull := by rw [hw]; exact c.w.toPipe_hFull _
  rw [hf] at hw
  refine ⟨t, w, he, ht, hr, ?_, by rw [hw], by rw [hw], by rw [hw], by rw [hw], by rw [hw], by rw [hw], by rw [hw], hh,
    p (c.lanes i) c.w, by rw [hw], hl _ _, hv _ _, fun e n x l => hval _ _ e n x l, hs _ _, fun r hr => ?_, fun r hr => ?_⟩
  · rw [hw]
    exact ⟨rfl, rfl, rfl, rfl, rfl, rfl, rfl, rfl, rfl, rfl, rfl, rfl⟩
  · exact (hfull (r := (.v, r)) hr).trans (ite_false_eq_and_not_contains _ (by rw [PipeItem.v_mem_dests, hv]))
  · refine (hfull (r := (.s, r)) hr).trans (ite_false_eq_and_not_contains _ ?_)
    rw [PipeItem.s_mem_dests, hs, Option.mem_toList, Option.map_map]
    rfl

end

/-! ### The four instructions -/

/-- What XRNG sends (R155). -/
def xrngItem (o : Xrng) (m : LaneMask) (w : Warp) : PipeItem :=
  let r : Lanes (List Word) := Vector.ofFn fun l => if m.getLsbD l.val then xrngLane o w l else []
  { lanes := m, v := (List.range 4).map (fun e => (o.d.toNat + e, r.map fun x => x.getD e 0)), s := none, amax := none }

/-- What XSORT sends (R156). -/
def xsortItem (o : Xsort) (m : LaneMask) (w : Warp) : PipeItem :=
  let r : Lanes (Word × Word) := Vector.ofFn fun l => if m.getLsbD l.val then xsortLane o m w l else (0, 0)
  { lanes := m, v := [(o.d.toNat, r.map (·.1)), (o.c.toNat, r.map (·.2))], s := none, amax := none }

/-- The scale XQNT gives its inputs (R157). -/
def xqntScale (o : Xqnt) (m : LaneMask) (w : Warp) : Nat := quantScale e4m3 (maxMag (groupInputs w m o.a.toNat 4))

/-- The packed word XQNT gives a lane (R157). -/
def xqntWord (o : Xqnt) (m : LaneMask) (w : Warp) (l : Lane) : Word :=
  packElems 8 ((List.range 4).map fun e => narrow e4m3 true (fdiv (w.vl (o.a.toNat + e) l).toNat (xqntScale o m w)) 0x3F800000)

/-- What XQNT sends (R157). -/
def xqntItem (o : Xqnt) (m : LaneMask) (w : Warp) : PipeItem :=
  { lanes := m, v := [(o.d.toNat, Vector.ofFn fun l => if m.getLsbD l.val then xqntWord o m w l else 0)]
    s := some (o.b.toNat, BitVec.ofNat 32 (xqntScale o m w)), amax := some (amaxOf (groupInputs w m o.a.toNat 4)) }

/-- What XDQNT sends (R157). -/
def xdqntItem (o : Xdqnt) (m : LaneMask) (w : Warp) : PipeItem :=
  let r : Lanes (List Nat) := Vector.ofFn fun l =>
    if m.getLsbD l.val then widenAll o.ty (w.vl o.a.toNat l) (w.sr o.b.toNat).toNat else []
  { lanes := m, v := (List.range 4).map (fun e => (o.d.toNat + e, r.map fun x => BitVec.ofNat 32 (x.getD e 0)))
    s := none, amax := none }

theorem exec_xrng (o : Xrng) (s : State) :
    exec (.xrng o) s = issue (.xrng o) (lane fun m w => w.toPipe (xrngItem o m w)) s := rfl
theorem exec_xsort (o : Xsort) (s : State) :
    exec (.xsort o) s = issue (.xsort o) (lane fun m w => w.toPipe (xsortItem o m w)) s := rfl
theorem exec_xqnt (o : Xqnt) (s : State) :
    exec (.xqnt o) s = issue (.xqnt o) (lane fun m w => w.toPipe (xqntItem o m w)) s := rfl
theorem exec_xdqnt (o : Xdqnt) (s : State) :
    exec (.xdqnt o) s = issue (.xdqnt o) (lane fun m w => w.toPipe (xdqntItem o m w)) s := rfl

/-- An entry of a list of four registers with their values. -/
theorem range_four_entry {g : Nat → Lanes Word} {d e n : Nat} {x : Lanes Word}
    (h : ((List.range 4).map fun k => (d + k, g k))[e]? = some (n, x)) : x = g e := by
  rw [List.getElem?_map, Option.map_eq_some_iff] at h
  obtain ⟨k, hk, hx⟩ := h
  obtain ⟨hlt, rfl⟩ := List.getElem?_eq_some_iff.mp hk
  rw [List.getElem_range] at hx
  exact (Prod.mk.inj hx).2.symm

theorem xrng_sends (o : Xrng) :
    SendsToPipe (.xrng o) ((List.range 4).map (o.d.toNat + ·)) none fun _ w l => xrngLane o w l := by
  refine sendsToPipe_of (xrngItem o) (exec_xrng o) (fun _ _ => rfl) (fun _ _ => rfl) (fun m w e n x l he hl => ?_) fun _ _ => rfl
  dsimp only [xrngItem] at he
  obtain rfl := range_four_entry he
  simp [hl]

theorem xsort_sends (o : Xsort) : SendsToPipe (.xsort o) [o.d.toNat, o.c.toNat] none fun m w l =>
    [(xsortLane o m w l).1, (xsortLane o m w l).2] := by
  refine sendsToPipe_of (xsortItem o) (exec_xsort o) (fun _ _ => rfl) (fun _ _ => rfl) (fun m w e n x l he hl => ?_) fun _ _ => rfl
  match e, he with
  | 0, he =>
    obtain ⟨rfl, rfl⟩ := Prod.mk.inj (Option.some.inj he)
    simp [hl]
  | 1, he =>
    obtain ⟨rfl, rfl⟩ := Prod.mk.inj (Option.some.inj he)
    simp [hl]

theorem xqnt_sends (o : Xqnt) : SendsToPipe (.xqnt o) [o.d.toNat]
    (some (o.b.toNat, fun m w => BitVec.ofNat 32 (xqntScale o m w))) fun m w l => [xqntWord o m w l] := by
  refine sendsToPipe_of (xqntItem o) (exec_xqnt o) (fun _ _ => rfl) (fun _ _ => rfl) (fun m w e n x l he hl => ?_) fun _ _ => rfl
  match e, he with
  | 0, he =>
    obtain ⟨rfl, rfl⟩ := Prod.mk.inj (Option.some.inj he)
    simp [hl]

theorem xdqnt_sends (o : Xdqnt) : SendsToPipe (.xdqnt o) ((List.range 4).map (o.d.toNat + ·)) none fun _ w l =>
    (widenAll o.ty (w.vl o.a.toNat l) (w.sr o.b.toNat).toNat).map (BitVec.ofNat 32) := by
  refine sendsToPipe_of (xdqntItem o) (exec_xdqnt o) (fun _ _ => rfl) (fun _ _ => rfl) (fun m w e n x l he hl => ?_) fun _ _ => rfl
  dsimp only [xdqntItem] at he
  obtain rfl := range_four_entry he
  simp only [Fin.getElem_fin, Vector.getElem_map, Vector.getElem_ofFn, Fin.eta, hl, if_true]
  exact (List.getD_map ..).symm

theorem pipeInstructionsAreSent : PipeInstructionsAreSent := by
  refine ⟨xrng_sends, xsort_sends, xqnt_sends, xdqnt_sends, fun o s c h => ?_⟩
  obtain ⟨t, w, sp, a, od, he, ht, -, hw⟩ := toPipe_retires (xqntItem o) (exec_xqnt o) h
  obtain ⟨va, sa, ha, hf⟩ := c.w.toPipe_fields (xqntItem o (c.lanes (.xqnt o)) c.w)
  rw [hf] at hw
  exact ⟨t, w, he, ht, _, _, by rw [hw], rfl, amaxTakes_amaxUpd _⟩

/-! ### The reply -/

/-- The v registers of a reply, as they are written one after another. -/
def Warp.setVs (w : Warp) (m : LaneMask) (xs : List (Nat × Lanes Word)) : Warp :=
  xs.foldl (fun (w : Warp) (x : Nat × Lanes Word) => w.setV x.1 m fun l => x.2[l]) w

theorem Warp.setVs_fields (w : Warp) (m : LaneMask) (xs : List (Nat × Lanes Word)) : ∃ v, w.setVs m xs = { w with v := v } := by
  induction xs generalizing w with
  | nil => exact ⟨w.v, rfl⟩
  | cons x r ih =>
    obtain ⟨v, hv⟩ := ih (w.setV x.1 m fun l => x.2[l])
    exact ⟨v, hv⟩

theorem Warp.vl_setVs_other (w : Warp) (m : LaneMask) {xs : List (Nat × Lanes Word)} {n : Nat} (l : Lane)
    (h : ∀ x ∈ xs, x.1 ≠ n) : (w.setVs m xs).vl n l = w.vl n l := by
  induction xs generalizing w with
  | nil => rfl
  | cons x r ih =>
    refine (ih (w.setV x.1 m fun l => x.2[l]) fun y hy => h y (List.mem_cons_of_mem _ hy)).trans ?_
    rw [Warp.vl_setV, if_neg fun hx => h x List.mem_cons_self hx.1]

/-- Each of the registers reads the value the reply brings it, in the reply's lanes. -/
theorem Warp.vl_setVs (w : Warp) (m : LaneMask) {xs : List (Nat × Lanes Word)} (hd : (xs.map (·.1)).Nodup)
    (hlt : ∀ x ∈ xs, x.1 < 128) {x : Nat × Lanes Word} (hx : x ∈ xs) (l : Lane) :
    (w.setVs m xs).vl x.1 l = if m.getLsbD l.val then x.2[l] else w.vl x.1 l := by
  induction xs generalizing w with
  | nil => cases hx
  | cons y r ih =>
    obtain ⟨hy, hr⟩ := List.nodup_cons.mp hd
    have hne (z : Nat × Lanes Word) (hz : z ∈ r) : z.1 ≠ y.1 := fun h => hy (List.mem_map.mpr ⟨z, hz, h⟩)
    show ((w.setV y.1 m fun l => y.2[l]).setVs m r).vl x.1 l = _
    obtain rfl | hx := List.mem_cons.mp hx
    · rw [Warp.vl_setVs_other _ _ _ hne, Warp.vl_setV]
      exact if_congr (by simp [hlt x List.mem_cons_self]) rfl rfl
    · rw [ih _ hr (fun z hz => hlt z (List.mem_cons_of_mem _ hz)) hx, Warp.vl_setV, if_neg (c := y.1 = x.1 ∧ _) fun h => hne x hx h.1.symm]

/-- The s register and the update of a reply. -/
def Warp.replyRest (w : Warp) (p : PipeItem) : Warp :=
  let w2 := match p.s with | some (n, x) => w.setS n x | none => w
  match p.amax with | some u => w2.amaxUpd u | none => w2

theorem Warp.pipeReply_eq (w : Warp) (p : PipeItem) :
    w.pipeReply p = ((w.setVs p.lanes p.v).replyRest p).markAll true p.dests := rfl

/-- A reply as it lands changes besides only what unconfirmed branches and repairs have kept. -/
theorem Warp.pipeLands_fields (w : Warp) (p : PipeItem) :
    ∃ sp ss, w.pipeLands p = { w.pipeReply p with split := sp, specs := ss } := by
  unfold Warp.pipeLands
  extract_lets put undo
  split
  · exact ⟨_, _, rfl⟩
  · exact ⟨_, _, rfl⟩

theorem Warp.sr_congr {w w' : Warp} (h : w.s = w'.s) (n : Nat) : w.sr n = w'.sr n := by rw [Warp.sr, Warp.sr, h]

theorem Warp.replyRest_fields (w : Warp) (p : PipeItem) :
    ∃ sr, w.replyRest p = { w with
      s := sr
      amax := match p.amax with | some u => BitVec.ofNat 32 (fp32.maxNum w.amax.toNat u.1.toNat) | none => w.amax
      nanSeen := match p.amax with | some u => w.nanSeen || u.2 | none => w.nanSeen } ∧
      ∀ w' : Warp, w'.s = sr → ∀ n, 
        w'.sr n = match p.s with | some (k, x) => if k = n ∧ k ≠ 0 ∧ k < 64 then x else w.sr n | none => w.sr n := by
  have hs : ∃ sr, (match p.s with | some (n, x) => w.setS n x | none => w) = { w with s := sr } := by
    split
    · exact w.setS_fields _ _
    · exact ⟨w.s, rfl⟩
  obtain ⟨sr, hs⟩ := hs
  refine ⟨sr, ?_, fun w' hw' n => ?_⟩
  · unfold Warp.replyRest
    rw [hs]
    cases p.amax <;> rfl
  · rw [Warp.sr_congr (w' := { w with s := sr }) hw' n, ← hs]
    cases p.s with
    | none => rfl
    | some x => exact Warp.sr_setS _ _ _ _

theorem pipe_replies : ThePipeRepliesInOrder := by
  intro r s w p rest hw hp hd hlt
  let w1 : Warp := { w with pipe := rest }
  obtain ⟨v, hv⟩ := w1.setVs_fields p.lanes p.v
  obtain ⟨sr, hrest, hsr⟩ := (w1.setVs p.lanes p.v).replyRest_fields p
  obtain ⟨fv, fs, fh, hfull⟩ := ((w1.setVs p.lanes p.v).replyRest p).markAll_refills true p.dests
  obtain ⟨sp, ss, hland⟩ := w1.pipeLands_fields p
  have hbit {q : RegClass × Nat} (hq : q.2 < regCount q.1) (hm : q ∈ p.dests) : (w1.pipeLands p).fullBit q = true := by
    rw [hland]
    exact (Warp.fullBit_markAll _ true p.dests hq).trans (if_pos hm)
  rw [Warp.pipeReply_eq, hfull, hrest] at hland
  have hvl (n : Nat) (l : Lane) : (w1.pipeLands p).vl n l = (w1.setVs p.lanes p.v).vl n l := by
    rw [hland]
    rfl
  have hsr' (n : Nat) : (w1.pipeLands p).sr n =
      match p.s with | some (k, x) => if k = n ∧ k ≠ 0 ∧ k < 64 then x else w.sr n | none => w.sr n := by
    rw [hsr _ (congrArg Warp.s hland), hv]
    rfl
  refine ⟨s.modWarp r.block r.warp fun w => ({ w with pipe := rest } : Warp).pipeLands p, w1.pipeLands p, ?_, ?_, ?_,
    fun x hx l => ?_, fun n l hn => ?_, fun x hx => ?_, fun n y hs hn => ?_, fun n hn => ?_, ?_, ?_, ?_, fun x nan ha => ?_,
    fun ha => ?_, ?_⟩
  · show execTransformPipeReply r s = _
    simp only [execTransformPipeReply, hw, hp]
  · rw [State.warp?_modWarp, hw, Option.map_some]
  · rw [hland, hv]
    rfl
  · rw [hvl, Warp.vl_setVs _ _ hd hlt hx]
    rfl
  · rw [hvl, Warp.vl_setVs_other _ _ _ hn]
    rfl
  · exact hbit (q := (.v, x.1)) (hlt x hx) ((p.v_mem_dests _).mpr (List.mem_map_of_mem hx))
  · refine ⟨?_, hbit (q := (.s, n)) hn ((p.s_mem_dests n).mpr (by rw [hs]; rfl))⟩
    rw [hsr', hs]
    obtain rfl | h0 := Decidable.em (n = 0)
    · rfl
    · rw [if_neg h0]
      exact if_pos ⟨rfl, h0, hn⟩
  · rw [hsr']
    cases hs : p.s with
    | none => rfl
    | some x => exact if_neg fun hx => hn x.2 (by rw [hs, ← hx.1])
  · rw [hland, hv]
    rfl
  · rw [hland, hv]
    rfl
  · rw [hland, hv]
    rfl
  · rw [hland, hv, ha]
    exact ⟨rfl, rfl⟩
  · rw [hland, hv, ha]
    exact ⟨rfl, rfl⟩
  · exact ⟨rfl, rfl, rfl, rfl, rfl, rfl, rfl, rfl, rfl, rfl, rfl, rfl, rfl⟩

/-- Settles O11, in its two parts: what the instructions send, and what the oldest reply of a warp brings back. -/
theorem theTransformPipeTakesAndReplies : Obligations.TheTransformPipeTakesAndReplies :=
  ⟨pipeInstructionsAreSent, pipe_replies⟩

end Sys2Proof.Machine
end

section
/-! The scratchpad and its barrier objects (R181, R191, R197): what is read after a write, and what a delivery leaves. -/

namespace Sys2Proof.Machine

/-! ### Bytes -/

theorem getD_leBytes {n k : Nat} (v : Nat) (h : k < n) : (leBytes n v).getD k 0 = byteOf v k := by
  induction n generalizing v k with
  | zero => omega
  | succ n ih =>
    cases k with
    | zero => simp [leBytes, byteOf]
    | succ k =>
      rw [leBytes, List.getD_cons_succ, ih _ (by omega), byteOf, byteOf, Nat.div_div_eq_div_mul,
        show 256 * 2 ^ (8 * k) = 2 ^ (8 * (k + 1)) by rw [Nat.mul_add, Nat.pow_add]; omega]

theorem leRead_congr {g g' : Nat → Byte} {a n : Nat} (h : ∀ k, k < n → g (a + k) = g' (a + k)) : leRead g a n = leRead g' a n := by
  induction n generalizing a with
  | zero => rfl
  | succ n ih =>
    have h0 : g a = g' a := h 0 (by omega)
    rw [leRead, leRead, h0, ih fun k hk => by simpa [Nat.add_assoc, Nat.add_comm 1] using h (k + 1) (by omega)]

theorem leRead_lt {g : Nat → Byte} {a n : Nat} : leRead g a n < 2 ^ (8 * n) := by
  induction n generalizing a with
  | zero => exact Nat.one_pos
  | succ n ih =>
    have h0 : (g a).toNat < 2 ^ 8 := (g a).isLt
    have hr : leRead g (a + 1) n < 2 ^ (8 * n) := ih
    rw [leRead, Nat.mul_add, Nat.pow_add]
    omega

theorem cellAt_cellPuts (d : Byte) (l : List Host.Cell) (o x : Nat) (bs : List Byte) :
    cellAt d (cellPuts l o bs) x = if o ≤ x ∧ x < o + bs.length then bs.getD (x - o) 0 else cellAt d l x := by
  induction bs generalizing l o with
  | nil =>
    rw [if_neg (by simp only [List.length_nil]; omega)]
    rfl
  | cons b r ih =>
    rw [cellPuts, ih, cellAt_cellPut, List.length_cons]
    by_cases hx : x = o
    · subst hx
      rw [if_neg (by omega), if_pos rfl, if_pos (by omega), Nat.sub_self]
      rfl
    · rw [if_neg hx]
      refine ite_congr (propext (by omega)) (fun hin => ?_) fun _ => rfl
      rw [show x - o = x - (o + 1) + 1 by omega, List.getD_cons_succ]

theorem Block.byte_congr {b b' : Block} (hu : b'.uid = b.uid) (hk : b'.banks = b.banks) (hs : b'.scratch = b.scratch) (x : Nat) :
    b'.byte x = b.byte x := by rw [Block.byte, Block.byte, hu, hk, hs]

/-- A byte of the scratchpad reads as last written; every other byte as before. -/
theorem Block.byte_puts (b : Block) (o x : Nat) (bs : List Byte) :
    (b.puts o bs).byte x = if o ≤ x ∧ x < o + bs.length then bs.getD (x - o) 0 else b.byte x :=
  cellAt_cellPuts _ _ _ _ _

theorem Block.byte_puts_in (b : Block) (o : Nat) {bs : List Byte} {k : Nat} (h : k < bs.length) :
    (b.puts o bs).byte (o + k) = bs.getD k 0 := by
  rw [Block.byte_puts, if_pos (by omega), Nat.add_sub_cancel_left]

theorem Block.byte_puts_out (b : Block) {o x : Nat} {bs : List Byte} (h : x < o ∨ o + bs.length ≤ x) :
    (b.puts o bs).byte x = b.byte x := by
  rw [Block.byte_puts, if_neg (by omega)]

/-! ### Barrier objects -/

/-- An object is read from its 16 bytes alone. -/
theorem Block.obj_congr {b b' : Block} {o : Nat} (h : ∀ x, o ≤ x → x < o + 16 → b'.byte x = b.byte x) : b'.obj o = b.obj o := by
  have hr (k n : Nat) (hk : k + n ≤ 16) : b'.read (o + k) n = b.read (o + k) n :=
    leRead_congr fun i hi => h _ (by omega) (by omega)
  have h0 := hr 0 4 (by omega)
  rw [Nat.add_zero] at h0
  unfold Block.obj
  rw [h0, hr 4 4 (by omega), hr 8 4 (by omega), hr 12 4 (by omega)]

theorem Block.byte_setObj_out (b : Block) {o x : Nat} (v : BarObj) (h : x < o ∨ o + 16 ≤ x) : (b.setObj o v).byte x = b.byte x :=
  b.byte_puts_out (by simpa only [List.length_append, leBytes_length] using h)

/-- The fields of an object that its words hold whole. -/
def BarObj.Fits (x : BarObj) : Prop := x.parr < 2 ^ 16 ∧ x.earr < 2 ^ 16 ∧ x.ebytes < 2 ^ 32

theorem intBits_lt (w : Nat) (p : Int) : intBits w p < 2 ^ w := by
  have hpos : (0 : Int) < 2 ^ w := by positivity
  have hcast : ((2 ^ w : Nat) : Int) = 2 ^ w := by push_cast; rfl
  have := Int.emod_lt_of_pos p hpos
  unfold intBits
  omega

theorem intVal_signed (x : Nat) : intVal 32 true x = if 2 ^ 31 ≤ x then (x : Int) - 2 ^ 32 else (x : Int) := by
  rw [intVal, Bool.true_and]
  exact if_congr decide_eq_true_iff rfl rfl

theorem intVal_lt {x : Nat} (h : x < 2 ^ 32) : intVal 32 true x < 2 ^ 31 := by
  rw [intVal_signed]
  split <;> omega

theorem intVal_intBits {p : Int} (h : -2 ^ 31 ≤ p) (h' : p < 2 ^ 31) : intVal 32 true (intBits 32 p) = p := by
  rw [intVal_signed, intBits]
  split <;> omega

/-- The first word of an object gives back its phase and its count of arrivals. -/
theorem phaseWord_reads (p : Bool) {n : Nat} (h : n < 2 ^ 16) :
    decide (2 ^ 31 ≤ ((if p then 2 ^ 31 else 0) + n) % 2 ^ 32) = p ∧ ((if p then 2 ^ 31 else 0) + n) % 2 ^ 32 % 2 ^ 16 = n := by
  cases p with
  | false => exact ⟨decide_eq_false (by rw [if_neg Bool.false_ne_true]; omega), by rw [if_neg Bool.false_ne_true]; omega⟩
  | true => exact ⟨decide_eq_true (by rw [if_pos rfl]; omega), by rw [if_pos rfl]; omega⟩

/-- An object reads back as it was written, its count of bytes as a 32-bit value. -/
theorem Block.obj_setObj (b : Block) (o : Nat) {x : BarObj} (h : x.Fits) :
    (b.setObj o x).obj o = { x with pbytes := intVal 32 true (intBits 32 x.pbytes) } := by
  obtain ⟨hparr, hearr, heb⟩ := h
  let bs := leBytes 4 ((if x.phase then 2 ^ 31 else 0) + x.parr) ++ leBytes 4 x.earr ++ leBytes 4 (intBits 32 x.pbytes) ++
    leBytes 4 x.ebytes
  have hg (k : Nat) (hk : k < bs.length) : (b.setObj o x).byte (o + k) = bs.getD k 0 := b.byte_puts_in o hk
  have hread {pre post : List Byte} {v : Nat} (hb : bs = pre ++ (leBytes 4 v ++ post)) :
      (b.setObj o x).read (o + pre.length) 4 = v % 2 ^ 32 := leRead_of_bytes bs hg hb
  have h0 := hread (pre := []) (v := (if x.phase then 2 ^ 31 else 0) + x.parr) (by simp only [bs, List.append_assoc]; rfl)
  have h4 := hread (pre := leBytes 4 _) (v := x.earr) (by simp only [bs, List.append_assoc]; rfl)
  have h8 := hread (pre := leBytes 4 _ ++ leBytes 4 _) (v := intBits 32 x.pbytes) (by simp only [bs, List.append_assoc]; rfl)
  have h12 := hread (pre := leBytes 4 _ ++ leBytes 4 _ ++ leBytes 4 _) (v := x.ebytes) (post := [])
    (by simp only [bs, List.append_assoc, List.append_nil]; rfl)
  simp only [List.length_append, leBytes_length, List.length_nil, Nat.add_zero] at h0 h4 h8 h12
  unfold Block.obj
  rw [h0, h4, h8, h12, Nat.mod_eq_of_lt (intBits_lt 32 _), Nat.mod_eq_of_lt heb, Nat.mod_mod_of_dvd _ (by decide), Nat.mod_eq_of_lt hearr]
  obtain ⟨hphase, hcount⟩ := phaseWord_reads x.phase hparr
  dsimp only
  rw [hphase, hcount]

theorem Block.obj_fits (b : Block) (o : Nat) : (b.obj o).Fits :=
  ⟨Nat.mod_lt _ (by decide), Nat.mod_lt _ (by decide), leRead_lt⟩

theorem BarObj.Fits.flip {x : BarObj} (h : x.Fits) : x.flip.Fits := by
  obtain ⟨hparr, hearr, heb⟩ := h
  unfold BarObj.flip
  split
  · exact ⟨hearr, hearr, Nat.two_pow_pos 32⟩
  · exact ⟨hparr, hearr, heb⟩

/-! ### Deliveries -/

/-- Storing an object writes its bytes; the flip check changes besides only the times of its phases. -/
theorem Block.putFlip_scratch (b : Block) (o : Nat) (x : BarObj) : ∃ ph, b.putFlip o x = { b.setObj o x.flip with phases := ph } := by
  unfold Block.putFlip
  extract_lets b'
  split
  · exact ⟨b'.phases, rfl⟩
  · exact ⟨_, rfl⟩

/-- An object that has counted n bytes of a delivery, before its flip check (R182). -/
def BarObj.counted (x : BarObj) (n : Nat) : BarObj := { x with pbytes := x.pbytes - n }

/-- A delivery to an object that can count it (R182). -/
theorem deliver_counts {s : State} {uid o n : Nat} {b : Block} (hb : s.block? uid = some b) (hs : b.spoilt.contains o = false)
    (hf : b.fifoIn o 16 = false) (hp : -2 ^ 31 ≤ (b.obj o).pbytes - (n : Int)) :
    s.deliver uid o n = s.modBlock uid fun b' => b'.putFlip o ((b.obj o).counted n) := by
  have ht : s.objTouch uid o = s := by simp only [State.objTouch, hb, hs, Bool.not_false, if_true]
  simp only [State.deliver, ht, hb, hf, Bool.false_eq_true, if_false, if_neg (Int.not_lt.mpr hp), beq_self_eq_true, Bool.and_self, if_true]
  rfl

/-- A delivery to banks that are, and have stayed, scratchpad (R191). -/
theorem deposit_puts {s : State} {uid off : Nat} {bs : List Byte} {was : Nat → Nat} {b : Block} (hb : s.block? uid = some b)
    (hf : b.fifoIn off bs.length = false) (h0 : b.bankEpoch (off / Config.bankBytes) = was (off / Config.bankBytes))
    (h1 : b.bankEpoch ((off + bs.length - 1) / Config.bankBytes) = was ((off + bs.length - 1) / Config.bankBytes)) :
    s.deposit uid off bs was = s.modBlock uid fun b => b.puts off bs := by
  simp only [State.deposit, hb, hf, h0, h1, Bool.false_eq_true, if_false, beq_self_eq_true, Bool.and_self, if_true]

theorem Block.byte_putFlip (b : Block) (o : Nat) (x : BarObj) (y : Nat) : (b.putFlip o x).byte y = (b.setObj o x.flip).byte y := by
  obtain ⟨ph, h⟩ := b.putFlip_scratch o x
  rw [h]
  rfl

theorem Block.putFlip_uid (b : Block) (o : Nat) (x : BarObj) : (b.putFlip o x).uid = b.uid := by
  obtain ⟨ph, h⟩ := b.putFlip_scratch o x
  rw [h]
  rfl

theorem exec_ldaDelivery {s : State} {id off obj : Nat} {q : Req} (hq : s.req? id = some q) (hk : q.kind = .deliver off obj)
    (hst : q.st = .performed) : exec (.ldaDelivery id) s = .next (ldaDeliveryEff s q off obj) := by
  show execLdaDelivery id s = _
  simp [execLdaDelivery, hq, hk, hst]

theorem req?_id {s : State} {id : Nat} {q : Req} (h : s.req? id = some q) : q.id = id := by
  simpa using List.find?_some h

theorem dropReq_gone {s : State} {id : Nat} {q : Req} (h : s.req? id = some q) (t : State) : ∀ x ∈ (t.dropReq q.id).reqs, x.id ≠ id := by
  intro x hx
  obtain ⟨-, hne⟩ := List.mem_filter.mp hx
  simpa [req?_id h] using hne

/-- The block of a delivery: its bytes are written, and the object is stored with what it has counted. -/
theorem ldaDelivery_lands {s : State} {id off obj : Nat} {q : Req} {b : Block} (hq : s.req? id = some q) (hk : q.kind = .deliver off obj)
    (hst : q.st = .performed) (hdrop : q.drop = false) (hb : s.block? q.block = some b) (hf : b.fifoIn off q.bytes = false)
    (hfo : b.fifoIn obj 16 = false) (hobj : (b.puts off (leBytes q.bytes q.value.toNat)).obj obj = b.obj obj)
    (h0 : q.epoch = b.bankEpoch (off / Config.bankBytes)) (h1 : q.epoch = b.bankEpoch ((off + q.bytes - 1) / Config.bankBytes))
    (hsp : b.spoilt.contains obj = false) (hp : -2 ^ 31 ≤ (b.obj obj).pbytes - (q.bytes : Int)) :
    ∃ t b', exec (.ldaDelivery id) s = .next t ∧ (∀ x ∈ t.reqs, x.id ≠ id) ∧ t.mem = s.mem ∧ t.block? q.block = some b' ∧
      ∀ x, b'.byte x = ((b.puts off (leBytes q.bytes q.value.toNat)).setObj obj ((b.obj obj).counted q.bytes).flip).byte x := by
  let b1 := b.puts off (leBytes q.bytes q.value.toNat)
  let s1 := s.modBlock q.block fun b => b.puts off (leBytes q.bytes q.value.toNat)
  have hdep : s.deposit q.block off (leBytes q.bytes q.value.toNat) (fun _ => q.epoch) = s1 :=
    deposit_puts hb (by rwa [leBytes_length]) h0.symm (by rw [leBytes_length]; exact h1.symm)
  have hb1 : s1.block? q.block = some b1 := 
    (State.block?_modBlock s _ (fun b => b.puts off (leBytes q.bytes q.value.toNat)) fun _ => rfl).trans (congrArg _ hb)
  have hdel := deliver_counts hb1 hsp hfo (by rw [hobj]; exact hp)
  rw [hobj] at hdel
  obtain ⟨b2, hb2, hbyte⟩ : ∃ b2, (s1.deliver q.block obj q.bytes).block? q.block = some b2 ∧
      ∀ y, b2.byte y = (b1.setObj obj ((b.obj obj).counted q.bytes).flip).byte y :=
    ⟨_, by rw [hdel, State.block?_modBlock _ _ _ fun b' => b'.putFlip_uid _ _, hb1, Option.map_some], b1.byte_putFlip _ _⟩
  have heff : ldaDeliveryEff s q off obj =
      ((s1.deliver q.block obj q.bytes).modWarp q.block q.warp fun w => w.foldRead q.attr q.wct).dropReq q.id := by
    unfold ldaDeliveryEff
    rw [hdep, hdrop]
    rfl
  refine ⟨_, { b2 with warps := updAt (fun w => w.foldRead q.attr q.wct) q.warp b2.warps },
    (exec_ldaDelivery hq hk hst).trans (congrArg _ heff), dropReq_gone hq _, ?_, ?_, hbyte⟩
  · rw [hdel]
    rfl
  · show (State.modWarp _ _ _ _).block? q.block = _
    rw [State.block?_modWarp, hb2, Option.map_some]

theorem BarObj.flip_of_pending {x : BarObj} (h : x.pbytes ≠ 0 ∨ x.parr ≠ 0) : x.flip = x :=
  if_neg fun hx => by
    obtain ⟨ha, hp⟩ := Bool.and_eq_true_iff.mp hx
    exact h.elim (· (of_decide_eq_true hp)) (· (of_decide_eq_true ha))

theorem BarObj.flip_of_done {x : BarObj} (h : x.pbytes = 0) (h' : x.parr = 0) :
    x.flip = { x with phase := !x.phase, parr := x.earr, pbytes := x.ebytes, ebytes := 0 } :=
  if_pos (by rw [h, h']; rfl)

theorem deliveriesLandAndAreCounted : DeliveriesLandAndAreCounted := by
  intro s id q off obj b hq hk hst hdrop hb hf hfo hap h0 h1 hsp hp
  let b1 := b.puts off (leBytes q.bytes q.value.toNat)
  let x := (b.obj obj).counted q.bytes
  have hout {y : Nat} (hy : y < off ∨ off + q.bytes ≤ y) : b1.byte y = b.byte y := b.byte_puts_out (by rwa [leBytes_length])
  obtain ⟨t, b', he, hreqs, hmem, ht, hbyte⟩ := ldaDelivery_lands hq hk hst hdrop hb hf hfo
    (Block.obj_congr fun x _ _ => hout (by omega)) h0 h1 hsp hp
  have hread : b'.obj obj = { x.flip with pbytes := intVal 32 true (intBits 32 x.flip.pbytes) } :=
    (Block.obj_congr fun y _ _ => hbyte y).trans (b1.obj_setObj obj (show x.Fits from b.obj_fits obj).flip)
  have hlt : (b.obj obj).pbytes < 2 ^ 31 := intVal_lt leRead_lt
  refine ⟨t, b', he, ht, hreqs, hmem, fun k hk => ?_, fun y hy hy' => ?_, fun hne => ?_, fun hp0 ha => ?_⟩
  · calc b'.byte (off + k) = (b1.setObj obj x.flip).byte (off + k) := hbyte _
      _ = b1.byte (off + k) := b1.byte_setObj_out _ (by omega)
      _ = (leBytes q.bytes q.value.toNat).getD k 0 := b.byte_puts_in off (by rwa [leBytes_length])
      _ = byteOf q.value.toNat k := getD_leBytes _ hk
  · exact (hbyte y).trans ((b1.byte_setObj_out _ hy').trans (hout hy))
  · have hx : intVal 32 true (intBits 32 x.pbytes) = (b.obj obj).pbytes - q.bytes := 
      intVal_intBits hp (by show (b.obj obj).pbytes - (q.bytes : Int) < 2 ^ 31; omega)
    rw [hread, BarObj.flip_of_pending (x := x) hne]
    exact ⟨hx, rfl⟩
  · rw [hread, BarObj.flip_of_done (x := x) hp0 ha]
    exact ⟨rfl, rfl⟩

end Sys2Proof.Machine
end

section
/-! What a slice's answer brings a warp (R62, R177, R184, R270): a load's value in its lane's registers, and the times of a write. -/

namespace Sys2Proof.Machine

/-! ### A value in a lane's registers (R177) -/

theorem getLsbD_laneBit (l k : Lane) : (1#32 <<< l.val).getLsbD k.val = decide (k = l) := by
  rw [BitVec.getLsbD_shiftLeft, decide_eq_true k.isLt, Bool.true_and, BitVec.getLsbD_one]
  rw [Bool.eq_iff_iff]
  simp only [Fin.ext_iff, Bool.and_eq_true, decide_eq_true_eq, Bool.not_eq_true', decide_eq_false_iff_not]
  omega

/-- Word k of a value. -/
def wordOf (v k : Nat) : Word := BitVec.ofNat 32 (v / 2 ^ (32 * k))

/-- Words of a value written to m registers of a lane. -/
def Warp.setWords (w : Warp) (d m : Nat) (l : Lane) (v : Nat) : Warp :=
  (List.range m).foldl (fun w k => w.setV (d + k) (1#32 <<< l.val) fun _ => wordOf v k) w

theorem Warp.setWords_succ (w : Warp) (d m : Nat) (l : Lane) (v : Nat) :
    w.setWords d (m + 1) l v = (w.setWords d m l v).setV (d + m) (1#32 <<< l.val) fun _ => wordOf v m := by
  rw [Warp.setWords, List.range_succ, List.foldl_append]
  rfl

theorem Warp.setWords_fields (w : Warp) (d m : Nat) (l : Lane) (v : Nat) : ∃ x, w.setWords d m l v = { w with v := x } := by
  induction m with
  | zero => exact ⟨w.v, rfl⟩
  | succ m ih =>
    obtain ⟨x, hx⟩ := ih
    rw [Warp.setWords_succ, hx]
    exact ⟨_, rfl⟩

theorem Warp.vl_setWords_other (w : Warp) {d m : Nat} {l k : Lane} (v : Nat) {n : Nat} (h : (∀ j, j < m → n ≠ d + j) ∨ k ≠ l) :
    (w.setWords d m l v).vl n k = w.vl n k := by
  induction m with
  | zero => rfl
  | succ m ih =>
    rw [Warp.setWords_succ, Warp.vl_setV, if_neg, ih (h.imp_left fun h j hj => h j (by omega))]
    rw [getLsbD_laneBit, decide_eq_true_eq]
    rintro ⟨rfl, -, hk⟩
    exact h.elim (fun h => h m (by omega) rfl) (· hk)

theorem Warp.vl_setWords (w : Warp) {d m : Nat} (l : Lane) (v : Nat) {j : Nat} (hj : j < m) (hd : d + j < 128) :
    (w.setWords d m l v).vl (d + j) l = wordOf v j := by
  induction m with
  | zero => omega
  | succ m ih =>
    rw [Warp.setWords_succ, Warp.vl_setV, getLsbD_laneBit]
    by_cases h : j = m
    · subst h
      exact if_pos ⟨rfl, hd, decide_eq_true rfl⟩
    · rw [if_neg (by omega), ih (by omega)]

/-- The words of a value give its low bits. -/
theorem sum_words (v m : Nat) : ((List.range m).map fun k => (wordOf v k).toNat * 2 ^ (32 * k)).sum = v % 2 ^ (32 * m) := by
  induction m with
  | zero => exact (Nat.mod_one v).symm
  | succ m ih =>
    rw [List.range_succ, List.map_append, List.sum_append, ih, Nat.mul_add, Nat.pow_add, Nat.mod_mul]
    simp [wordOf, Nat.mul_comm]

/-- A value of up to 4 bytes as the register of a lane takes it: extended, or its low 32 bits. -/
def narrowWord (n : Nat) (sx : Bool) (v : Nat) : Word := BitVec.ofNat 32 (intBits 32 (intVal (8 * n) sx v))

theorem narrowWord_four (sx : Bool) (v : Nat) : (narrowWord 4 sx v).toNat = v % 2 ^ 32 := by
  unfold narrowWord intBits intVal
  rw [BitVec.toNat_ofNat]
  split <;> omega

theorem Warp.setData_narrow (w : Warp) (d : Nat) {n : Nat} (l : Lane) (v : Nat) (sx : Bool) (h : n ≤ 4) :
    w.setData d n l v sx = w.setV d (1#32 <<< l.val) fun _ => narrowWord n sx v := if_pos h

theorem Warp.setData_wide (w : Warp) (d : Nat) {n : Nat} (l : Lane) (v : Nat) (sx : Bool) (h : ¬ n ≤ 4) :
    w.setData d n l v sx = w.setWords d (n / 4) l v := if_neg h

theorem Warp.setData_fields (w : Warp) (d n : Nat) (l : Lane) (v : Nat) (sx : Bool) : ∃ x, w.setData d n l v sx = { w with v := x } := by
  by_cases h : n ≤ 4
  · rw [w.setData_narrow d l v sx h]
    exact ⟨_, rfl⟩
  · rw [w.setData_wide d l v sx h]
    exact w.setWords_fields _ _ _ _

theorem Warp.vl_setData_narrow (w : Warp) {d n : Nat} (l : Lane) (v : Nat) (sx : Bool) (h : n ≤ 4) (hd : d < 128) :
    (w.setData d n l v sx).vl d l = narrowWord n sx v := by
  rw [w.setData_narrow d l v sx h, Warp.vl_setV, getLsbD_laneBit]
  exact if_pos ⟨rfl, hd, decide_eq_true rfl⟩

theorem Warp.vl_setData_other (w : Warp) {d n : Nat} {l k : Lane} (v : Nat) (sx : Bool) {r : Nat}
    (h : (∀ j, j < max 1 (n / 4) → r ≠ d + j) ∨ k ≠ l) : (w.setData d n l v sx).vl r k = w.vl r k := by
  by_cases hn : n ≤ 4
  · rw [w.setData_narrow d l v sx hn, Warp.vl_setV, getLsbD_laneBit, if_neg]
    rintro ⟨rfl, -, hk⟩
    exact h.elim (fun h => h 0 (by omega) rfl) (· (of_decide_eq_true hk))
  · rw [w.setData_wide d l v sx hn]
    exact w.vl_setWords_other v (h.imp_left fun h j hj => h j (by omega))

/-- A value of whole words reads back from the registers it was written to. -/
theorem Warp.data_setData (w : Warp) {d m : Nat} (l : Lane) (v : Nat) (sx : Bool) (hm : 0 < m) (hd : d + m ≤ 128) :
    (w.setData d (4 * m) l v sx).data d (4 * m) l = v % 2 ^ (8 * (4 * m)) := by
  obtain rfl | h1 : m = 1 ∨ 1 < m := by omega
  · show ((List.range 1).map fun k => ((w.setData d 4 l v sx).vl (d + k) l).toNat * 2 ^ (32 * k)).sum % 2 ^ 32 = v % 2 ^ 32
    simp only [List.range_one, List.map_cons, List.map_nil, List.sum_cons, List.sum_nil, Nat.add_zero, Nat.mul_zero, pow_zero, Nat.mul_one]
    rw [w.vl_setData_narrow l v sx (Nat.le_refl 4) (by omega), narrowWord_four, Nat.mod_mod]
  · rw [w.setData_wide d l v sx (by omega), Warp.data, if_neg (by omega), Nat.mul_div_cancel_left _ (by decide)]
    rw [List.map_congr_left (g := fun k => (wordOf v k).toNat * 2 ^ (32 * k)) fun k hk => by
      rw [w.vl_setWords l v (List.mem_range.mp hk) (by have := List.mem_range.mp hk; omega)], sum_words,
      show 8 * (4 * m) = 32 * m by omega, Nat.mod_mod]

/-! ### A load's value comes back -/

/-- What lands in a lane changes besides only what unconfirmed branches and repairs have kept. -/
theorem Warp.landLane_fields (w : Warp) {q : Req} {d : Nat} (h : q.dst = some d) : ∃ ss, ∃ undo : Frag → Frag,
    w.landLane q = { w.setData d q.bytes (Fin.ofNat 32 q.lane) q.value.toNat q.sx with specs := ss, split := w.split.map (Option.map undo) } ∧
    ∀ f, (undo f).replay = f.replay ∧ (undo f).redo = f.redo := by
  unfold Warp.landLane
  rw [h]
  exact ⟨_, _, rfl, fun _ => ⟨rfl, rfl⟩⟩

theorem any_frags_map {w : Warp} {g : Frag → Frag} {p : Fin 32 × Frag → Bool} (hp : ∀ i f, p (i, g f) = p (i, f)) (v : Warp)
    (hv : v.split = w.split.map (Option.map g)) : v.frags.any p = w.frags.any p := by
  have h (v : Warp) : v.frags.any p = (List.finRange 32).any fun i => (v.split[i]).any fun f => p (i, f) := by
    rw [Warp.frags, List.any_filterMap]
    exact List.any_congr rfl fun i => by cases v.split[i] <;> rfl
  rw [h, h, hv]
  refine List.any_congr rfl fun i => ?_
  rw [Fin.getElem_fin, Fin.getElem_fin, Vector.getElem_map]
  cases w.split[i.val] with
  | none => rfl
  | some f => exact hp i f

/-- The values due for some registers are those due before a change of a warp that keeps its pipe and what its fragments replay. -/
theorem regsDue_modWarp {s : State} {u i : Nat} {f : Warp → Warp} {w : Warp} {g : Frag → Frag} (hw : s.warp? u i = some w)
    (hpipe : (f w).pipe = w.pipe) (hsplit : (f w).split = w.split.map (Option.map g))
    (hg : ∀ x, (g x).replay = x.replay ∧ (g x).redo = x.redo) (n : Nat) (rs : List (RegClass × Nat)) :
    (s.modWarp u i f).regsDue u i n rs = s.regsDue u i n rs := by
  unfold State.regsDue
  rw [State.block?_modWarp, State.warp?_modWarp, hw, Option.map_some]
  dsimp only
  rw [hpipe, any_frags_map (w := w) (g := g) (fun _ x => by obtain ⟨hr, hd⟩ := hg x; rw [hr, hd]) _ hsplit]
  cases s.block? u <;> rfl

theorem Req.dests_v {q : Req} {r : RegClass × Nat} (h : r ∈ q.dests) : r.1 = .v := by
  unfold Req.dests at h
  split at h
  · obtain ⟨k, -, rfl⟩ := List.mem_map.mp h
    rfl
  · cases h

/-- A request that is over fills its registers where no more is due for them, and changes nothing else of its warp. -/
theorem fill_fills {s : State} {q : Req} {w : Warp} (hw : s.warp? q.block q.warp = some w) :
    ∃ w' a b d, (s.fill q).warp? q.block q.warp = some w' ∧ w' = w.refilled a b d w.started ∧
      (s.regsDue q.block q.warp q.id q.dests = false → ∀ r ∈ q.dests, r.2 < 128 → w'.vFull.getLsbD r.2 = true) := by
  unfold State.fill
  split
  case isTrue hdue => exact ⟨w, w.vFull, w.sFull, w.hFull, hw, rfl, fun h => absurd (h.symm.trans hdue) Bool.false_ne_true⟩
  case isFalse =>
    obtain ⟨a, b, d, hm⟩ := w.markAll_refills true q.dests
    refine ⟨_, a, b, d, by rw [State.warp?_modWarp, hw, Option.map_some], hm, fun _ r hr hlt => ?_⟩
    obtain ⟨cls, n⟩ := r
    obtain rfl : cls = .v := Req.dests_v hr
    exact (w.fullBit_markAll true q.dests (r := (.v, n)) hlt).trans (if_pos hr)

theorem State.fill_outside (s : State) (q : Req) : (s.fill q).mem = s.mem ∧ (s.fill q).host = s.host := by
  unfold State.fill
  split <;> exact ⟨rfl, rfl⟩

theorem exec_loadResult_read {s : State} {id : Nat} {q : Req} (hq : s.req? id = some q) (hst : q.st = .performed)
    (hv : q.valueBack = false) (hk : q.kind = .read ∨ q.kind = .fill) (hg : q.grp = 0) (hdrop : q.drop = false) (hloc : q.loc = false) :
    exec (.loadResult id) s =
      .next (((s.modWarp q.block q.warp fun w => (w.landLane q).foldRead q.attr q.wct).fill q).dropReq q.id) := by
  show execLoadResult id s = _
  obtain hk | hk := hk <;>
    simp [execLoadResult, loadResultEff, hq, hst, hv, hk, hg, hdrop, hloc]

/-- A load's value comes back to its lane. -/
theorem loadValueLands {s : State} {id : Nat} {q : Req} {w : Warp} {d : Nat} (hq : s.req? id = some q) (hst : q.st = .performed)
    (hv : q.valueBack = false) (hk : q.kind = .read ∨ q.kind = .fill) (hg : q.grp = 0) (hdrop : q.drop = false) (hloc : q.loc = false)
    (hd : q.dst = some d) (hw : s.warp? q.block q.warp = some w) :
    ∃ t w', exec (.loadResult id) s = .next t ∧ t.warp? q.block q.warp = some w' ∧ (∀ x ∈ t.reqs, x.id ≠ id) ∧
      (∀ n l, w'.vl n l = (w.setData d q.bytes (Fin.ofNat 32 q.lane) q.value.toNat q.sx).vl n l) ∧
      w'.hdie = max w.hdie (q.wct + podMargin q.attr) ∧ w'.hdev = max w.hdev (q.wct + podMargin q.attr) ∧
      (s.regsDue q.block q.warp q.id q.dests = false → ∀ r ∈ q.dests, r.2 < 128 → w'.vFull.getLsbD r.2 = true) ∧
      t.mem = s.mem ∧ t.host = s.host := by
  let f (w : Warp) : Warp := (w.landLane q).foldRead q.attr q.wct
  let s1 := s.modWarp q.block q.warp f
  obtain ⟨v, hv'⟩ := w.setData_fields d q.bytes (Fin.ofNat 32 q.lane) q.value.toNat q.sx
  obtain ⟨ss, undo, hland, hundo⟩ := w.landLane_fields hd
  rw [hv'] at hland
  have hw1 : s1.warp? q.block q.warp = some (f w) := by rw [State.warp?_modWarp, hw, Option.map_some]
  have hdue : s1.regsDue q.block q.warp q.id q.dests = s.regsDue q.block q.warp q.id q.dests :=
    regsDue_modWarp hw (congrArg Warp.pipe hland :) (congrArg Warp.split hland :) hundo _ _
  obtain ⟨w', a, b, c, ht, hw', hfull⟩ := fill_fills (q := q) hw1
  obtain ⟨hmem, hhost⟩ := s1.fill_outside q
  refine ⟨_, w', exec_loadResult_read hq hst hv hk hg hdrop hloc, ht, dropReq_gone hq _, fun n l => ?_, ?_, ?_,
    hdue ▸ hfull, hmem, hhost⟩
  · rw [hw', hv', show (f w) = _ from congrArg (Warp.foldRead · q.attr q.wct) hland]
    rfl
  · rw [hw', show (f w) = _ from congrArg (Warp.foldRead · q.attr q.wct) hland]
    rfl
  · rw [hw', show (f w) = _ from congrArg (Warp.foldRead · q.attr q.wct) hland]
    rfl

/-! ### A write's times come back -/

theorem exec_writeTimes {s : State} {id : Nat} {q : Req} (hq : s.req? id = some q) (hst : q.st = .performed)
    (ht : q.timesBack = false) (hk : q.kind = .write ∨ ∃ op, q.kind = .atomic op) :
    exec (.writeTimesReturn id) s = .next (writeTimesEff s q) := by
  show execWriteTimesReturn id s = _
  obtain hk | ⟨op, hk⟩ := hk <;> simp [execWriteTimesReturn, hq, hst, ht, hk]

theorem Warp.foldWrite_sameData (w : Warp) (a : Attr) (die dev : Nat) : SameData w (w.foldWrite a die dev) :=
  ⟨rfl, rfl, rfl, rfl, rfl, rfl, rfl, rfl, rfl, rfl, rfl, rfl, rfl, rfl, rfl⟩

theorem storeTimesReturn {s : State} {id : Nat} {q : Req} {w : Warp} (hq : s.req? id = some q) (hst : q.st = .performed)
    (ht : q.timesBack = false) (hk : q.kind = .write) (hloc : q.loc = false) (hw : s.warp? q.block q.warp = some w) :
    ∃ t, exec (.writeTimesReturn id) s = .next t ∧ t.warp? q.block q.warp = some (w.foldWrite q.attr q.wdie q.wdev) ∧
      (∀ x ∈ t.reqs, x.id ≠ id) ∧ t.mem = s.mem ∧ t.host = s.host := by
  let f (w : Warp) : Warp := w.foldWrite q.attr q.wdie q.wdev
  have heff : writeTimesEff s q = (s.modWarp q.block q.warp f).dropReq q.id := by
    simp [writeTimesEff, Req.isRed, hk, hloc, f]
  refine ⟨_, (exec_writeTimes hq hst ht (.inl hk)).trans (congrArg _ heff), ?_, dropReq_gone hq _, rfl, rfl⟩
  show (s.modWarp q.block q.warp f).warp? q.block q.warp = _
  rw [State.warp?_modWarp, hw, Option.map_some]

theorem redTimesReturn {s : State} {id : Nat} {q : Req} {w : Warp} {op : AtomOp} (hq : s.req? id = some q) (hst : q.st = .performed)
    (ht : q.timesBack = false) (hk : q.kind = .atomic op) (hd : q.dst = none) (hv : q.valueBack = true) (hloc : q.loc = false)
    (hw : s.warp? q.block q.warp = some w) :
    ∃ t, exec (.writeTimesReturn id) s = .next t ∧
      t.warp? q.block q.warp = some ((w.foldWrite q.attr q.wdie q.wdev).foldRead q.attr q.wct) ∧
      (∀ x ∈ t.reqs, x.id ≠ id) ∧ t.mem = s.mem := by
  let f (w : Warp) : Warp := (w.foldWrite q.attr q.wdie q.wdev).foldRead q.attr q.wct
  have heff : writeTimesEff s q = (s.modWarp q.block q.warp f).dropReq q.id := by
    simp [writeTimesEff, Req.isRed, hk, hloc, hd, hv, f]
  refine ⟨_, (exec_writeTimes hq hst ht (.inr ⟨op, hk⟩)).trans (congrArg _ heff), ?_, dropReq_gone hq _, rfl⟩
  show (s.modWarp q.block q.warp f).warp? q.block q.warp = _
  rw [State.warp?_modWarp, hw, Option.map_some]

theorem resultsAndTimesComeBack : ResultsAndTimesComeBack := by
  refine ⟨fun s id q w d hq hst hv hk hg hdrop hloc hd hlane hn hfit hd0 hw => ?_, fun s id q w hq hst ht hk hloc hw => ?_,
    fun s id q w op hq hst ht hk hd hv hloc hw => ?_⟩
  · obtain ⟨t, w', he, htw, hreqs, hvl, hdie, hdev, hfull, hmem, hhost⟩ := loadValueLands hq hst hv hk hg hdrop hloc hd hw
    refine ⟨t, w', he, htw, hreqs, fun h4 => ?_, fun hlt => ?_, fun n l hne => ?_, hdie, hdev, hfull, hmem, hhost⟩
    · obtain ⟨m, hm⟩ : ∃ m, q.bytes = 4 * m := ⟨q.bytes / 4, by omega⟩
      have hdata : w'.data d q.bytes (Fin.ofNat 32 q.lane) =
          (w.setData d q.bytes (Fin.ofNat 32 q.lane) q.value.toNat q.sx).data d q.bytes (Fin.ofNat 32 q.lane) := by
        simp only [Warp.data, hvl]
      rw [hdata, hm]
      exact w.data_setData _ _ _ (by omega) (by omega)
    · rw [hvl, w.vl_setData_narrow _ _ _ (by omega) hd0]
      rfl
    · rw [hvl, w.vl_setData_other _ _ hne]
  · obtain ⟨t, he, htw, hreqs, hmem, hhost⟩ := storeTimesReturn hq hst ht hk hloc hw
    exact ⟨t, _, he, htw, w.foldWrite_sameData _ _ _, rfl, rfl, rfl, hreqs, hmem, hhost⟩
  · obtain ⟨t, he, htw, hreqs, hmem⟩ := redTimesReturn hq hst ht hk hd hv hloc hw
    exact ⟨t, _, he, htw, ⟨rfl, rfl, rfl, rfl, rfl, rfl, rfl, rfl, rfl, rfl, rfl, rfl, rfl, rfl, rfl⟩, rfl, rfl, rfl, hreqs, hmem⟩

/-- Settles O30, in its two parts: values and times into a warp, deliveries into the scratchpad. -/
theorem resultsTimesAndBytesComeBack : Obligations.ResultsTimesAndBytesComeBack :=
  ⟨resultsAndTimesComeBack, deliveriesLandAndAreCounted⟩

end Sys2Proof.Machine
end

section
/-! The matrix engine's steps (R204, R217, R218, R220): what a step of an operation leaves of its block, for every step; loading a slot,
applying a row, clearing a tile, and the end of an operation. -/

namespace Sys2Proof.Machine

/-! ### Operations of a block -/

theorem State.eng?_block {s : State} {id : Nat} {e : Eng} (h : s.eng? id = some e) : e.b.ops.find? (fun o => o.id == e.o.id) = some e.o := by
  unfold State.eng? at h
  obtain ⟨b, -, h⟩ := Option.bind_eq_some_iff.mp h
  obtain ⟨o, ho, h⟩ := Option.bind_eq_some_iff.mp h
  obtain ⟨l, -, h⟩ := Option.bind_eq_some_iff.mp h
  obtain rfl : (⟨b, l, o⟩ : Eng) = e := Option.some.inj h
  have hid : o.id = id := by simpa using List.find?_some ho
  rw [hid]
  exact ho

theorem engEvent_next {s : State} {id : Nat} {ok : Eng → Bool} {k : Eng → State → State} {e : Eng} (he : s.eng? id = some e)
    (ht : s.engTurn e = true) (hok : ok e = true) : engEvent id ok k s = .next (k e s) := by
  simp only [engEvent, he, hok, ht, Bool.and_self, if_true]

theorem State.block?_modBlock_some {s : State} {uid : Nat} {b : Block} (hb : s.block? uid = some b) {f : Block → Block}
    (hf : ∀ b, (f b).uid = b.uid) : (s.modBlock uid f).block? uid = some (f b) := by
  rw [State.block?_modBlock _ _ _ hf, hb, Option.map_some]

/-- An update of an operation changes the list of operations alone. -/
theorem State.block?_modOp {s : State} {uid : Nat} {b : Block} (hb : s.block? uid = some b) (id : Nat) (f : EngOp → EngOp) :
    (s.modOp uid id f).block? uid = some { b with ops := updFirst (·.id == id) f b.ops } :=
  State.block?_modBlock_some (f := fun b => { b with ops := updFirst (·.id == id) f b.ops }) hb fun _ => rfl

theorem find?_updOp {ops : List EngOp} {id : Nat} {o : EngOp} {f : EngOp → EngOp} (ho : ops.find? (fun o => o.id == id) = some o)
    (hf : ∀ o, (f o).id = o.id) : (updFirst (·.id == id) f ops).find? (fun o => o.id == id) = some (f o) := by
  rw [find?_updFirst_self, ho, Option.map_some]
  exact fun y hy => by rw [hf]; exact hy

/-! ### Tiles -/

theorem Block.tileRow_setTileRow (b : Block) {k r k' r' : Nat} (x : List Word) (hr : r < 128) (hr' : r' < 128) :
    (b.setTileRow k' r' x).tileRow k r = if (k, r) = (k', r') then x else b.tileRow k r := by
  unfold Block.setTileRow Block.tileRow
  by_cases h : (k, r) = (k', r')
  · obtain ⟨rfl, rfl⟩ := Prod.mk.inj h
    rw [if_pos rfl]
    exact tget_tput_self _ _ _ _
  · rw [if_neg h]
    exact tget_tput_ne _ _ _ fun hk => h (Prod.ext (by show k = k'; omega) (by show r = r'; omega))

theorem Block.tileRow_setTileRow_self (b : Block) (k r : Nat) (x : List Word) : (b.setTileRow k r x).tileRow k r = x :=
  tget_tput_self _ _ _ _

/-- A row is read from the tiles of its block alone. -/
theorem Block.tileRow_congr {b b' : Block} (hu : b'.uid = b.uid) (ht : b'.tiles = b.tiles) (k r : Nat) : b'.tileRow k r = b.tileRow k r := by
  rw [Block.tileRow, Block.tileRow, hu, ht]

/-- The first n rows of a tile, cleared. -/
def Block.clearRows (b : Block) (t n : Nat) : Block := (List.range n).foldl (fun b r => b.setTileRow t r (List.replicate 16 0)) b

theorem Block.clearRows_succ (b : Block) (t n : Nat) :
    b.clearRows t (n + 1) = (b.clearRows t n).setTileRow t n (List.replicate 16 0) := by
  rw [Block.clearRows, List.range_succ, List.foldl_append]
  rfl

theorem Block.clearRows_fields (b : Block) (t n : Nat) : ∃ y, b.clearRows t n = { b with tiles := y } := by
  induction n with
  | zero => exact ⟨b.tiles, rfl⟩
  | succ n ih =>
    obtain ⟨y, hy⟩ := ih
    rw [Block.clearRows_succ, hy]
    exact ⟨_, rfl⟩

theorem Block.tileRow_clearRows (b : Block) {t n k r : Nat} (hn : n ≤ 128) (hr : r < 128) :
    (b.clearRows t n).tileRow k r = if k = t ∧ r < n then List.replicate 16 0 else b.tileRow k r := by
  induction n with
  | zero => rw [if_neg (by omega)]; rfl
  | succ n ih =>
    rw [Block.clearRows_succ, Block.tileRow_setTileRow _ _ hr (by omega), ih (by omega)]
    by_cases h : (k, r) = (t, n)
    · obtain ⟨rfl, rfl⟩ := Prod.mk.inj h
      rw [if_pos rfl, if_pos ⟨rfl, by omega⟩]
    · rw [if_neg h]
      refine if_congr ?_ rfl rfl
      have : ¬(k = t ∧ r = n) := fun ⟨hk, hr⟩ => h (Prod.ext hk hr)
      omega

theorem getD_zeros (j : Nat) : (List.replicate 16 (0 : Word)).getD j 0 = 0 := by
  rw [List.getD_eq_getElem?_getD, List.getElem?_replicate]
  split <;> rfl

/-! ### MLW (R217) -/

/-- A slot that the engine has loaded. -/
def State.loadSlot (s : State) (e : Eng) (k : Nat) (sl : Slot) : State :=
  (s.modBlock e.b.uid fun b => { b with slots := vset b.slots k (some sl) }).modOp e.b.uid e.o.id fun x => { x with progress := 1 }

theorem loadSlot_loads {s : State} {e : Eng} {k : Nat} (sl : Slot) (hb : s.block? e.b.uid = some e.b) (hk : k < 2) :
    ∃ b, (s.loadSlot e k sl).block? e.b.uid = some b ∧ vget none b.slots k = some sl ∧ b.tiles = e.b.tiles ∧ b.scratch = e.b.scratch := by
  have hb1 := State.block?_modBlock_some (f := fun b => { b with slots := vset b.slots k (some sl) }) hb fun _ => rfl
  refine ⟨_, State.block?_modOp hb1 _ _, ?_, rfl, rfl⟩
  show vget none (vset e.b.slots k (some sl)) k = _
  rw [vget_vset, if_pos ⟨rfl, hk⟩]

theorem slot_lt (p : Bool) : (if p then 1 else 0) < 2 := by cases p <;> decide

theorem exec_mlwLoadComplete {s : State} {id : Nat} {e : Eng} {o : Mlw} {src : MatSrc} {sw : Word} (he : s.eng? id = some e)
    (ht : s.engTurn e = true) (hp : e.o.progress = 0) (hk : e.o.kind = .mlw o src sw) :
    exec (.mlwLoadComplete id) s = .next (mlwLoad e s) := by
  refine engEvent_next he ht ?_
  simp [hp, hk]

theorem mlwLoad_dense {s u : State} {e : Eng} {o : Mlw} {src : MatSrc} {sw : Word} {rows : List (List Byte)}
    (hk : e.o.kind = .mlw o src sw) (hsp : o.sp = false)
    (hr : s.matRows (fun s k => s.matRead e src k 0 (2 * matBits o.fmt)) 128 = (u, .ok rows)) :
    mlwLoad e s = u.loadSlot e (if o.slot then 1 else 0)
      ⟨o.fmt, false, (rows.map (unpackBits (matBits o.fmt) 16)).map (·.map (BitVec.ofNat 16)), [], sw⟩ := by
  simp only [mlwLoad, hk, hsp, Bool.false_eq_true, if_false, hr]
  rfl

theorem mlwLoad_sparse {s u : State} {e : Eng} {o : Mlw} {src : MatSrc} {sw : Word} {cols : List (List Nat × Nat × Nat)}
    (hk : e.o.kind = .mlw o src sw) (hsp : o.sp = true)
    (hr : s.matRows (fun s j => s.matGroup e src j 0 (matBits o.fmt)) 16 = (u, .ok cols)) :
    mlwLoad e s = u.loadSlot e (if o.slot then 1 else 0)
      ⟨o.fmt, true, ((List.range 128).map fun k => cols.map fun g => g.1.getD k 0).map (·.map (BitVec.ofNat 16)),
        (cols.map (·.2.1)).map (BitVec.ofNat 128), sw⟩ := by
  simp only [mlwLoad, hk, hsp, if_true, hr]
  rfl

/-- The elements of a sparse group from one of its bits on. -/
theorem getD_expandSparse (m n : Nat) {i k : Nat} (vs : List Nat) (h : i < n) : (expandSparse m n k vs).getD i 0 =
    if m.testBit (k + i) then vs.getD ((List.range i).filter fun j => m.testBit (k + j)).length 0 else 0 := by
  induction n generalizing i k vs with
  | zero => omega
  | succ n ih =>
    have hbit : (m / 2 ^ k % 2 = 1) = (m.testBit k = true) := by rw [Nat.testBit_eq_decide_div_mod_eq, decide_eq_true_eq]
    rw [expandSparse]
    cases i with
    | zero =>
      simp only [hbit, Nat.add_zero]
      by_cases hb : m.testBit k = true
      · cases vs <;> simp [hb]
      · simp [hb]
    | succ i =>
      have hcount : ((List.range (i + 1)).filter fun j => m.testBit (k + j)).length =
          (if m.testBit k then 1 else 0) + ((List.range i).filter fun j => m.testBit (k + 1 + j)).length := by
        rw [List.range_succ_eq_map, List.filter_cons, List.filter_map, Nat.add_zero]
        have hf : ((fun j => m.testBit (k + j)) ∘ Nat.succ) = fun j => m.testBit (k + 1 + j) :=
          funext fun j => congrArg m.testBit (by show k + (j + 1) = _; omega)
        rw [hf]
        split <;> simp [Nat.add_comm]
      rw [hcount, show k + (i + 1) = k + 1 + i by omega]
      simp only [hbit]
      by_cases hb : m.testBit k = true
      · rw [if_pos hb, if_pos hb, List.getD_cons_succ, ih _ (by omega), Nat.add_comm 1]
        cases vs <;> simp
      · rw [if_neg hb, if_neg hb, List.getD_cons_succ, ih _ (by omega), Nat.zero_add]

/-! ### MMA (R218) -/

theorem slotError_none {b : Block} {ks : List Nat} {fmt : Ty} (h : ∀ k ∈ ks, ∃ sl, vget none b.slots k = some sl ∧ pairOk fmt sl.fmt = true) :
    slotError (ks.map fun k => (vget none b.slots k).map (·.fmt)) fmt = none := by
  refine List.findSome?_eq_none_iff.mpr fun x hx => ?_
  obtain ⟨k, hk, rfl⟩ := List.mem_map.mp hx
  obtain ⟨sl, hs, hp⟩ := h k hk
  simp [hs, hp]

/-- The block of an MMA whose row has been applied. -/
def Block.mmaApply (b : Block) (o : Mma) (row0 sv r : Nat) (act : List (List Nat)) : Block :=
  (b.setTileRow o.tile.toNat (row0 + r) (mmaNewRow b o sv r act (b.tileRow o.tile.toNat (row0 + r)))).setTag o.tile.toNat o.fmt.isInt8

theorem mmaRow_applies {s u : State} {e : Eng} {o : Mma} {src : MatSrc} {n row0 sv : Nat} {act : List (List Nat)}
    (hk : e.o.kind = .mma o src n row0 sv) (hc : e.o.cancel = false)
    (hs : ∀ k ∈ slotsOf o.kmode, ∃ sl, vget none e.b.slots k = some sl ∧ pairOk o.fmt sl.fmt = true)
    (ha : s.actRow e src o.sp e.o.progress (matBits o.fmt) (slotsOf o.kmode).length = (u, .ok act)) :
    mmaRow e s = (u.modBlock e.b.uid fun b => b.mmaApply o row0 sv e.o.progress act).modOp e.b.uid e.o.id
      fun x => { x with progress := e.o.progress + 1 } := by
  simp only [mmaRow, hk, hc, Bool.false_eq_true, if_false, slotError_none hs, ha]
  rfl

theorem exec_mmaRow {s : State} {id : Nat} {e : Eng} {o : Mma} {src : MatSrc} {n row0 sv : Nat} (he : s.eng? id = some e)
    (ht : s.engTurn e = true) (hk : e.o.kind = .mma o src n row0 sv) (hp : e.o.progress < n) :
    exec (.mmaRow id) s = .next (mmaRow e s) := by
  refine engEvent_next he ht ?_
  simp [hp, hk]

/-! ### The end of an operation (R62, R204) -/

/-- A warp in which a handle's registers have become full. -/
def Warp.fillHandle (w : Warp) (v : DWord) : Warp :=
  if v == 0 then w else (List.range 16).foldl (fun w h => if w.hr h == v then w.mark true (.h, h) else w) w

theorem Warp.fillHandle_fields (w : Warp) (v : DWord) : ∃ x, w.fillHandle v = { w with hFull := x } := by
  unfold Warp.fillHandle
  split
  · exact ⟨w.hFull, rfl⟩
  · refine List.foldlRecOn (motive := fun y : Warp => ∃ x, y = { w with hFull := x }) _ _ ⟨w.hFull, rfl⟩ fun y hy h _ => ?_
    obtain ⟨x, rfl⟩ := hy
    split
    · exact ⟨_, rfl⟩
    · exact ⟨x, rfl⟩

/-- The registers that hold the handle are full, and no other has changed. -/
theorem Warp.fillHandle_full (w : Warp) {v : DWord} {h : Nat} (hh : h < 16) (hv : w.hr h = v) (h0 : v ≠ 0) :
    (w.fillHandle v).hFull.getLsbD h = true := by
  have hfold : ∀ (l : List Nat) (y : Warp), y.h = w.h → (h ∈ l ∨ y.hFull.getLsbD h = true) →
      (l.foldl (fun w h => if w.hr h == v then w.mark true (.h, h) else w) y).hFull.getLsbD h = true := by
    intro l
    induction l with
    | nil => exact fun y _ hy => hy.elim (nomatch ·) id
    | cons k r ih =>
      intro y hy hor
      have hmark (q : Nat) : (y.mark true (.h, q)).hFull.getLsbD h = if h = q then true else y.hFull.getLsbD h :=
        getLsbD_setBit _ _ _ hh
      rw [List.foldl_cons]
      split
      · refine ih _ hy ?_
        rw [hmark]
        by_cases hk : h = k
        · exact .inr (if_pos hk)
        · rw [if_neg hk]
          exact hor.imp_left fun hm => (List.mem_cons.mp hm).resolve_left hk
      · rename_i hne
        refine ih _ hy (hor.imp_left fun hm => (List.mem_cons.mp hm).resolve_left ?_)
        rintro rfl
        exact hne (beq_iff_eq.mpr ((congrArg (vget 0 · h) hy).trans hv))
  unfold Warp.fillHandle
  rw [if_neg (by simpa using h0)]
  exact hfold _ w rfl (.inl (List.mem_range.mpr hh))

theorem find?_freeOld (ops : List EngOp) (id : Nat) {o : EngOp} (h : ops.find? (fun o => o.id == id) = some o) :
    ∃ fr, (freeOld ops).find? (fun o => o.id == id) = some { o with freed := fr } := by
  let free (o : EngOp) : Bool := o.status != .pending &&
    decide (256 ≤ (ops.filter fun x => x.status != .pending && x.handle != 0 && decide (o.id < x.id)).length)
  have hid (o : EngOp) : (if free o then { o with freed := true } else o).id = o.id := by split <;> rfl
  have hp : (fun o : EngOp => o.id == id) ∘ (fun o => if free o then { o with freed := true } else o) = fun o => o.id == id :=
    funext fun o => congrArg (· == id) (hid o)
  refine ⟨if free o then true else o.freed, ?_⟩
  show (ops.map fun o => if free o then { o with freed := true } else o).find? _ = _
  rw [List.find?_map, hp, h, Option.map_some]
  split <;> rfl

/-- A block of which an operation, `e.o` in it, has ended, before its tiles' full bits and its parked fragments are seen to. -/
def Block.opEnded (b : Block) (e : Eng) (st : OpStatus) : Block :=
  { b with
    ops := freeOld (updFirst (·.id == e.o.id) (fun _ => { e.o with status := st, suspend := none }) b.ops)
    warps := updAt (fun w => w.amaxUpd (e.o.amax, e.o.nan)) e.o.warp (b.warps.map (·.fillHandle e.o.handle)) }

def Block.ended (b : Block) (e : Eng) (st : OpStatus) : Block := (b.opEnded e st).fillTiles.unparkHandles

theorem endOp_ends {s : State} {e : Eng} {b : Block} (st : OpStatus) (hb : s.block? e.b.uid = some b)
    (ho : b.ops.find? (fun o => o.id == e.o.id) = some e.o) : (s.endOp e st).block? e.b.uid = some (b.ended e st) := by
  unfold State.endOp
  rw [State.block?_modBlock, hb, Option.map_some]
  · simp only [ho, Option.map_some, Option.getD_some, id]
    rfl
  · exact fun _ => rfl

theorem Block.ended_op {b : Block} {e : Eng} (st : OpStatus) (ho : b.ops.find? (fun o => o.id == e.o.id) = some e.o) :
    ∃ o, (b.ended e st).ops.find? (fun o => o.id == e.o.id) = some o ∧ o.status = st ∧ o.suspend = none := by
  have hupd : (updFirst (·.id == e.o.id) (fun _ => { e.o with status := st, suspend := none }) b.ops).find? (fun o => o.id == e.o.id) =
      some { e.o with status := st, suspend := none } := by
    rw [find?_updFirst_self, ho, Option.map_some]
    exact fun _ _ => beq_self_eq_true e.o.id
  obtain ⟨fr, hfr⟩ := find?_freeOld _ e.o.id hupd
  exact ⟨_, hfr, rfl, rfl⟩

theorem Block.unparkHandles_warps (b : Block) :
    ∃ g : Frag → Frag, b.unparkHandles.warps = b.warps.map fun w => { w with split := w.split.map (Option.map g) } := ⟨_, rfl⟩

/-- A warp as the end of an operation finds it: its handle's registers become full, and the warp that issued it takes the update of AMAX. -/
def Warp.afterOp (w : Warp) (e : Eng) (k : Nat) : Warp :=
  if e.o.warp = k then (w.fillHandle e.o.handle).amaxUpd (e.o.amax, e.o.nan) else w.fillHandle e.o.handle

theorem Block.ended_warp (b : Block) (e : Eng) (st : OpStatus) : ∃ g : Frag → Frag, ∀ k : Nat,
    (b.ended e st).warps[k]? = b.warps[k]?.map fun w : Warp => { w.afterOp e k with split := (w.afterOp e k).split.map (Option.map g) } := by
  obtain ⟨g, hg⟩ := (b.opEnded e st).fillTiles.unparkHandles_warps
  refine ⟨g, fun k => ?_⟩
  rw [Block.ended, hg, List.getElem?_map]
  show Option.map _ ((updAt _ e.o.warp _)[k]?) = _
  rw [getElem?_updAt, List.getElem?_map]
  unfold Warp.afterOp
  by_cases h : e.o.warp = k
  · simp only [h, if_true, Option.map_map]
    rfl
  · simp only [h, if_false, Option.map_map]
    rfl

theorem Warp.afterOp_full (w : Warp) (e : Eng) (k : Nat) {h : Nat} (hh : h < 16) (hv : (w.afterOp e k).hr h = e.o.handle) (h0 : e.o.handle ≠ 0) :
    (w.afterOp e k).hFull.getLsbD h = true := by
  obtain ⟨x, hx⟩ := w.fillHandle_fields e.o.handle
  have hfull : w.hr h = e.o.handle → (w.fillHandle e.o.handle).hFull.getLsbD h = true := (w.fillHandle_full hh · h0)
  have hr : (w.fillHandle e.o.handle).hr h = w.hr h := by rw [hx]; rfl
  unfold Warp.afterOp at hv ⊢
  split
  · rw [if_pos ‹_›] at hv
    exact hfull (hr.symm.trans hv)
  · rw [if_neg ‹_›] at hv
    exact hfull (hr.symm.trans hv)

theorem Warp.afterOp_amax (w : Warp) (e : Eng) : (w.afterOp e e.o.warp).nanSeen = (w.nanSeen || e.o.nan) ∧
    (w.afterOp e e.o.warp).amax = BitVec.ofNat 32 (fp32.maxNum w.amax.toNat e.o.amax.toNat) := by
  obtain ⟨x, hx⟩ := w.fillHandle_fields e.o.handle
  rw [Warp.afterOp, if_pos rfl, hx]
  exact ⟨rfl, rfl⟩

end Sys2Proof.Machine
end

section
/-! The steps of MLW, MMA and MZR, and the end of any operation, as O39 states them. -/

namespace Sys2Proof.Machine

/-! ### The end of an operation (R62, R204) -/

theorem exec_engineComplete {s : State} {id : Nat} {e : Eng} (he : s.eng? id = some e) (hp : e.o.status = .pending)
    (hf : e.o.finished = true) : exec (.engineComplete id) s = .next (s.endOp e .done) := by
  show execEngineComplete id s = _
  simp [execEngineComplete, he, hp, hf]

theorem operationEnds {s : State} {id : Nat} {e : Eng} (he : s.eng? id = some e) (hp : e.o.status = .pending) (hf : e.o.finished = true)
    (hb : s.block? e.b.uid = some e.b) :
    ∃ t b, exec (.engineComplete id) s = .next t ∧ t.block? e.b.uid = some b ∧
      t.mem = s.mem ∧ t.host = s.host ∧ b.scratch = e.b.scratch ∧ b.tiles = e.b.tiles ∧
      (∃ o, b.ops.find? (fun o => o.id == e.o.id) = some o ∧ o.status = .done ∧ o.suspend = none) ∧
      (∀ (k : Nat) (w : Warp), b.warps[k]? = some w → ∀ h, h < 16 → w.hr h = e.o.handle → e.o.handle ≠ 0 → w.hFull.getLsbD h = true) ∧
      ∀ w, e.b.warps[e.o.warp]? = some w → ∃ w', b.warps[e.o.warp]? = some w' ∧ w'.nanSeen = (w.nanSeen || e.o.nan) ∧
        w'.amax = BitVec.ofNat 32 (fp32.maxNum w.amax.toNat e.o.amax.toNat) := by
  have ho := State.eng?_block he
  obtain ⟨g, hw⟩ := e.b.ended_warp e .done
  refine ⟨_, _, exec_engineComplete he hp hf, endOp_ends .done hb ho, rfl, rfl, rfl, rfl, Block.ended_op .done ho,
    fun k w hk h hh hv h0 => ?_, fun w hk => ?_⟩
  · rw [hw, Option.map_eq_some_iff] at hk
    obtain ⟨w, -, rfl⟩ := hk
    exact w.afterOp_full e k hh hv h0
  · refine ⟨_, by rw [hw, hk, Option.map_some], ?_⟩
    exact w.afterOp_amax e

/-! ### MLW (R217) -/

theorem mlwLoadsASlot {s u : State} {id : Nat} {e : Eng} {o : Mlw} {src : MatSrc} {sw : Word} {rows : List (List Byte)}
    (he : s.eng? id = some e) (ht : s.engTurn e = true) (hp : e.o.progress = 0) (hk : e.o.kind = .mlw o src sw) (hsp : o.sp = false)
    (hr : s.matRows (fun s k => s.matRead e src k 0 (2 * matBits o.fmt)) 128 = (u, .ok rows)) (hb : u.block? e.b.uid = some e.b) :
    ∃ t b, exec (.mlwLoadComplete id) s = .next t ∧ t.block? e.b.uid = some b ∧
      vget none b.slots (if o.slot then 1 else 0) = some ⟨o.fmt, false,
        rows.map fun r => (unpackBits (matBits o.fmt) 16 r).map (BitVec.ofNat 16), [], sw⟩ ∧
      b.tiles = e.b.tiles ∧ b.scratch = e.b.scratch ∧ t.mem = u.mem := by
  obtain ⟨b, htb, hslot, htiles, hscratch⟩ := loadSlot_loads ⟨o.fmt, false,
    (rows.map (unpackBits (matBits o.fmt) 16)).map (·.map (BitVec.ofNat 16)), [], sw⟩ hb (slot_lt o.slot)
  refine ⟨_, b, (exec_mlwLoadComplete he ht hp hk).trans (congrArg _ (mlwLoad_dense hk hsp hr)), htb, ?_, htiles, hscratch, rfl⟩
  rw [hslot, List.map_map]
  rfl

theorem mlwLoadsASparseSlot {s u : State} {id : Nat} {e : Eng} {o : Mlw} {src : MatSrc} {sw : Word} {cols : List (List Nat × Nat × Nat)}
    (he : s.eng? id = some e) (ht : s.engTurn e = true) (hp : e.o.progress = 0) (hk : e.o.kind = .mlw o src sw) (hsp : o.sp = true)
    (hr : s.matRows (fun s j => s.matGroup e src j 0 (matBits o.fmt)) 16 = (u, .ok cols)) (hb : u.block? e.b.uid = some e.b) :
    ∃ t b sl, exec (.mlwLoadComplete id) s = .next t ∧ t.block? e.b.uid = some b ∧ t.mem = u.mem ∧ b.tiles = e.b.tiles ∧
      b.scratch = e.b.scratch ∧ vget none b.slots (if o.slot then 1 else 0) = some sl ∧ sl.fmt = o.fmt ∧ sl.sparse = true ∧ sl.sw = sw ∧
      sl.bitmap = cols.map (fun g => BitVec.ofNat 128 g.2.1) ∧
      ∀ k j, k < 128 → j < 16 → (sl.w.getD k []).getD j 0 = BitVec.ofNat 16 ((cols.getD j ([], 0, 0)).1.getD k 0) := by
  obtain ⟨b, htb, hslot, htiles, hscratch⟩ := loadSlot_loads ⟨o.fmt, true,
    ((List.range 128).map fun k => cols.map fun g => g.1.getD k 0).map (·.map (BitVec.ofNat 16)),
    (cols.map (·.2.1)).map (BitVec.ofNat 128), sw⟩ hb (slot_lt o.slot)
  refine ⟨_, b, _, (exec_mlwLoadComplete he ht hp hk).trans (congrArg _ (mlwLoad_sparse hk hsp hr)), htb, rfl, htiles, hscratch, hslot,
    rfl, rfl, rfl, List.map_map, fun k j hk _ => ?_⟩
  have hrow : (((List.range 128).map fun k => cols.map fun g => g.1.getD k 0).map (·.map (BitVec.ofNat 16))).getD k [] =
      (cols.map fun g => g.1.getD k 0).map (BitVec.ofNat 16) := by
    simp [List.getD_eq_getElem?_getD, hk]
  show List.getD (List.getD _ k []) j 0 = _
  rw [hrow]
  cases hc : cols[j]? <;> simp [List.getD_eq_getElem?_getD, hc]

/-! ### MMA (R218) -/

theorem mmaAppliesARow {s u : State} {id : Nat} {e : Eng} {o : Mma} {src : MatSrc} {n row0 sv : Nat} {act : List (List Nat)}
    (he : s.eng? id = some e) (ht : s.engTurn e = true) (hk : e.o.kind = .mma o src n row0 sv) (hp : e.o.progress < n)
    (hc : e.o.cancel = false) (hs : ∀ k ∈ slotsOf o.kmode, ∃ sl, vget none e.b.slots k = some sl ∧ pairOk o.fmt sl.fmt = true)
    (ha : s.actRow e src o.sp e.o.progress (matBits o.fmt) (slotsOf o.kmode).length = (u, .ok act)) (hb : u.block? e.b.uid = some e.b) :
    ∃ t b, exec (.mmaRow id) s = .next t ∧ t.block? e.b.uid = some b ∧ t.mem = u.mem ∧
      b.tileRow o.tile.toNat (row0 + e.o.progress) =
        mmaNewRow e.b o sv e.o.progress act (e.b.tileRow o.tile.toNat (row0 + e.o.progress)) ∧
      (∀ k r, r < 128 → (k, r) ≠ (o.tile.toNat, row0 + e.o.progress) → row0 + e.o.progress < 128 → b.tileRow k r = e.b.tileRow k r) ∧
      b.tileTag.getLsbD o.tile.toNat = o.fmt.isInt8 ∧ b.scratch = e.b.scratch := by
  have hb1 := State.block?_modBlock_some (f := fun b => b.mmaApply o row0 sv e.o.progress act) hb fun _ => rfl
  refine ⟨_, _, (exec_mmaRow he ht hk hp).trans (congrArg _ (mmaRow_applies hk hc hs ha)), State.block?_modOp hb1 _ _, rfl,
    e.b.tileRow_setTileRow_self _ _ _, fun k r hr hne hlt => ?_, ?_, rfl⟩
  · exact (e.b.tileRow_setTileRow _ hr hlt).trans (if_neg hne)
  · exact (getLsbD_setBit _ _ _ o.tile.isLt).trans (if_pos rfl)

/-! ### MZR (R220) -/

theorem Block.tileRow_setTag (b : Block) (t : Nat) (v : Bool) (k r : Nat) : (b.setTag t v).tileRow k r = b.tileRow k r := rfl

theorem Block.ended_tiles (b : Block) (e : Eng) (st : OpStatus) :
    (∀ k r, (b.ended e st).tileRow k r = b.tileRow k r) ∧ (b.ended e st).tileTag = b.tileTag :=
  ⟨Block.tileRow_congr rfl rfl, rfl⟩

/-- A block one of whose tiles is cleared. -/
def Block.zeroTile (b : Block) (x : Nat) : Block := (b.clearRows x 128).setTag x false

theorem Block.zeroTile_fields (b : Block) (x : Nat) : ∃ y, b.zeroTile x = { b with tiles := y, tileTag := setBit b.tileTag x false } := by
  obtain ⟨y, hy⟩ := b.clearRows_fields x 128
  rw [Block.zeroTile, hy]
  exact ⟨y, rfl⟩

theorem Block.tileRow_zeroTile (b : Block) (x k : Nat) {r : Nat} (hr : r < 128) :
    (b.zeroTile x).tileRow k r = if k = x then List.replicate 16 0 else b.tileRow k r := by
  rw [Block.zeroTile, Block.tileRow_setTag, b.tileRow_clearRows (Nat.le_refl 128) hr]
  exact if_congr (and_iff_left hr) rfl rfl

theorem exec_mzrEngineZero {s : State} {id : Nat} {e : Eng} {x : Nat} (he : s.eng? id = some e) (ht : s.engTurn e = true)
    (hk : e.o.kind = .mzr x) : exec (.mzrEngineZero id) s = .next ((s.modBlock e.b.uid fun b => b.zeroTile x).endOp e .done) := by
  have hz : mzrZero e s = (s.modBlock e.b.uid fun b => b.zeroTile x).endOp e .done := by
    unfold mzrZero
    rw [hk]
    rfl
  exact (engEvent_next he ht (by simp [hk])).trans (congrArg _ hz)

theorem mzrClearsATile {s : State} {id : Nat} {e : Eng} {x : Nat} (he : s.eng? id = some e) (ht : s.engTurn e = true)
    (hk : e.o.kind = .mzr x) (hb : s.block? e.b.uid = some e.b) :
    ∃ t b, exec (.mzrEngineZero id) s = .next t ∧ t.block? e.b.uid = some b ∧ t.mem = s.mem ∧
      (∀ r j, r < 128 → j < 16 → b.tileAt x r j = 0) ∧ (x < 8 → b.tileTag.getLsbD x = false) ∧
      ∀ k r, k ≠ x → r < 128 → b.tileRow k r = e.b.tileRow k r := by
  obtain ⟨y, hy⟩ := e.b.zeroTile_fields x
  have hb1 : (s.modBlock e.b.uid fun b => b.zeroTile x).block? e.b.uid = some (e.b.zeroTile x) :=
    State.block?_modBlock_some hb fun b => by
      obtain ⟨y, hy⟩ := b.zeroTile_fields x
      rw [hy]
  have ho : (e.b.zeroTile x).ops.find? (fun o => o.id == e.o.id) = some e.o := by
    rw [hy]
    exact State.eng?_block he
  obtain ⟨hrows, htag⟩ := (e.b.zeroTile x).ended_tiles e .done
  have hrow (k : Nat) {r : Nat} (hr : r < 128) :
      ((e.b.zeroTile x).ended e .done).tileRow k r = if k = x then List.replicate 16 0 else e.b.tileRow k r :=
    (hrows k r).trans (e.b.tileRow_zeroTile x k hr)
  refine ⟨_, _, exec_mzrEngineZero he ht hk, endOp_ends .done hb1 ho, rfl, fun r j hr _ => ?_, fun hx => ?_, fun k r hne hr => ?_⟩
  · rw [Block.tileAt, hrow x hr, if_pos rfl]
    exact getD_zeros j
  · rw [htag, hy]
    exact (getLsbD_setBit _ _ _ hx).trans (if_pos rfl)
  · rw [hrow k hr, if_neg hne]

end Sys2Proof.Machine
end

section
/-! MDR (R219): a row as it is drained, into the scratchpad, into global memory and into the vault. -/

namespace Sys2Proof.Machine

/-! ### A row drained -/

/-- The tag under which an operation drains its rows: the one its tile had as it began. -/
def Eng.tag (e : Eng) (o : Mdr) : Bool := if e.o.progress = 0 then e.b.tileTag.getLsbD o.tile.toNat else e.o.r1 == 1

/-- The elements of the row that an operation drains, before their conversion. -/
def Eng.drained (e : Eng) (o : Mdr) (ep : Epilogue) : List Nat := (List.range 16).map (drainY e.b o ep (e.tag o) e.o.progress)

/-- The bytes of that row. -/
def Eng.drainBytes (e : Eng) (o : Mdr) (ep : Epilogue) : List Byte := packBits (matBits o.fmt) ((e.drained o ep).map (drainConv o))

theorem Eng.drainBytes_eq (e : Eng) (o : Mdr) (ep : Epilogue) : e.drainBytes o ep =
    packBits (matBits o.fmt) ((List.range 16).map fun j => drainConv o (drainY e.b o ep (e.tag o) e.o.progress j)) := by
  rw [Eng.drainBytes, Eng.drained, List.map_map]
  rfl

theorem Eng.drainBytes_length (e : Eng) (o : Mdr) (ep : Epilogue) : (e.drainBytes o ep).length = rowBytes o.fmt := by
  rw [Eng.drainBytes, packBits, leBytes_length, Eng.drained, List.length_map, List.length_map, List.length_range, rowBytes]
  omega

theorem rowBytes_pos (fmt : Ty) : 0 < rowBytes fmt ∧ 4 ∣ rowBytes fmt := by cases fmt <;> decide

/-- A block in which a row of an operation's destination may have been written, but nothing else of the operation has changed. -/
structure RowWritten (e : Eng) (b : Block) : Prop where
  uid : b.uid = e.b.uid
  tiles : b.tiles = e.b.tiles
  tag : b.tileTag = e.b.tileTag
  op : ∃ x, b.ops.find? (fun x => x.id == e.o.id) = some x ∧ x.amax = e.o.amax ∧ x.nan = e.o.nan

/-- The tile of a block of which a row has been drained with Z. -/
def Block.clearRow (b : Block) (t r : Nat) : Block := (b.setTileRow t r (List.replicate 16 0)).setTag t false

/-- An operation whose row has been drained. -/
def Eng.rowDone (e : Eng) (o : Mdr) (ep : Epilogue) (x : EngOp) : EngOp :=
  let x := { x with progress := e.o.progress + 1, r1 := if e.tag o then 1 else 0 }
  if o.amax then x.addAmax (e.drained o ep) else x

theorem Eng.rowDone_id (e : Eng) (o : Mdr) (ep : Epilogue) (x : EngOp) : (e.rowDone o ep x).id = x.id := by
  unfold Eng.rowDone
  cases o.amax <;> rfl

/-- The block of an operation that has drained a row. -/
def Block.drain (b : Block) (e : Eng) (o : Mdr) (ep : Epilogue) : Block :=
  { (if o.z then b.clearRow o.tile.toNat (ep.row0 + e.o.progress) else b) with ops := updFirst (·.id == e.o.id) (e.rowDone o ep) b.ops }

theorem Block.drain_fields (b : Block) (e : Eng) (o : Mdr) (ep : Epilogue) :
    (b.drain e o ep).uid = b.uid ∧ (b.drain e o ep).scratch = b.scratch ∧ (b.drain e o ep).banks = b.banks := by
  unfold Block.drain
  split <;> exact ⟨rfl, rfl, rfl⟩

theorem addAmax_kept (o : EngOp) (xs : List Nat) : AmaxKept xs o (o.addAmax xs) := by
  unfold AmaxKept EngOp.addAmax
  rw [amaxOf_eq]
  refine ⟨rfl, ?_⟩
  show BitVec.ofNat 32 (fp32.maxNum o.amax.toNat (BitVec.ofNat 32 _).toNat) = _
  rw [BitVec.toNat_ofNat, Nat.mod_eq_of_lt (amaxOf_fold_lt xs)]

theorem Eng.rowDone_keeps (e : Eng) (o : Mdr) (ep : Epilogue) {x : EngOp} (ha : x.amax = e.o.amax) (hn : x.nan = e.o.nan) :
    (e.rowDone o ep x).progress = e.o.progress + 1 ∧
    (o.amax = false → (e.rowDone o ep x).amax = e.o.amax ∧ (e.rowDone o ep x).nan = e.o.nan) ∧
    (o.amax = true → AmaxKept (e.drained o ep) e.o (e.rowDone o ep x)) := by
  unfold Eng.rowDone
  refine ⟨by cases o.amax <;> rfl, fun h => ?_, fun h => ?_⟩
  · rw [h]
    exact ⟨ha, hn⟩
  · obtain ⟨hnan, hamax⟩ := addAmax_kept { x with progress := e.o.progress + 1, r1 := if e.tag o then 1 else 0 } (e.drained o ep)
    rw [if_pos h]
    exact ⟨hnan.trans (by rw [← hn]), hamax.trans (by rw [← ha])⟩

theorem Block.drain_drained {b : Block} {e : Eng} (o : Mdr) (ep : Epilogue) (h : RowWritten e b) : RowDrained e o ep (b.drain e o ep) := by
  obtain ⟨x, hx, ha, hn⟩ := h.op
  obtain ⟨hprog, hkeep, hamax⟩ := e.rowDone_keeps o ep ha hn
  refine ⟨fun hz => ?_, fun hz => ?_, e.rowDone o ep x, ?_, hprog, hkeep, hamax⟩
  · unfold Block.drain
    rw [hz]
    exact ⟨h.tiles, h.tag⟩
  · have hrow (k r : Nat) : (b.drain e o ep).tileRow k r = (b.clearRow o.tile.toNat (ep.row0 + e.o.progress)).tileRow k r := by
      unfold Block.drain
      rw [if_pos hz]
      rfl
    refine ⟨fun j _ => ?_, ?_, fun k r hr hlt hne => ?_⟩
    · rw [Block.tileAt, hrow, Block.clearRow, Block.tileRow_setTag, Block.tileRow_setTileRow_self]
      exact getD_zeros j
    · unfold Block.drain
      rw [if_pos hz]
      exact (getLsbD_setBit _ _ _ o.tile.isLt).trans (if_pos rfl)
    · rw [hrow, Block.clearRow, Block.tileRow_setTag, Block.tileRow_setTileRow _ _ hr hlt, if_neg hne,
        Block.tileRow_congr h.uid h.tiles]
  · exact find?_updOp hx (e.rowDone_id o ep)

theorem mdrRow_drains {s u : State} {e : Eng} {o : Mdr} {dst : MatSrc} {ep : Epilogue} {b : Block} (hk : e.o.kind = .mdr o dst ep)
    (hc : e.o.cancel = false) (hb : s.block? e.b.uid = some e.b)
    (hw : s.matWrite e dst e.o.progress (e.drainBytes o ep) = (u, .ok ())) (hu : u.block? e.b.uid = some b) :
    (mdrRow e s).block? e.b.uid = some (b.drain e o ep) ∧ (mdrRow e s).mem = u.mem ∧ (mdrRow e s).host = u.host ∧
      (mdrRow e s).vault = u.vault := by
  have heb : s.engBlock e = e.b := by rw [State.engBlock, hb]; rfl
  let v := if o.z then u.modBlock e.b.uid fun b => b.clearRow o.tile.toNat (ep.row0 + e.o.progress) else u
  have hrow : mdrRow e s = v.modOp e.b.uid e.o.id (e.rowDone o ep) := by
    unfold Eng.drainBytes Eng.drained Eng.tag at hw
    simp only [mdrRow, hk, hc, Bool.false_eq_true, if_false, heb, hw]
    rfl
  rw [hrow]
  have hv : v.block? e.b.uid = some (if o.z then b.clearRow o.tile.toNat (ep.row0 + e.o.progress) else b) ∧
      v.mem = u.mem ∧ v.host = u.host ∧ v.vault = u.vault := by
    by_cases hz : o.z = true
    · simp only [v, hz, if_true]
      exact ⟨State.block?_modBlock_some hu fun _ => rfl, rfl, rfl, rfl⟩
    · simp only [v, hz]
      exact ⟨hu, rfl, rfl, rfl⟩
  obtain ⟨hvb, hmem, hhost, hvault⟩ := hv
  refine ⟨(State.block?_modOp hvb _ _).trans ?_, hmem, hhost, hvault⟩
  unfold Block.drain
  split <;> rfl

theorem exec_mdrRow {s : State} {id : Nat} {e : Eng} {o : Mdr} {dst : MatSrc} {ep : Epilogue} (he : s.eng? id = some e)
    (ht : s.engTurn e = true) (hk : e.o.kind = .mdr o dst ep) (hp : e.o.progress < ep.count) :
    exec (.mdrRow id) s = .next (mdrRow e s) := by
  refine engEvent_next he ht ?_
  simp [hp, hk]

end Sys2Proof.Machine
end

section
/-! MDR's three destinations (R191, R219, R287, R288): what writing a row leaves of the state. -/

namespace Sys2Proof.Machine

theorem RowWritten.refl {s : State} {id : Nat} {e : Eng} (he : s.eng? id = some e) : RowWritten e e.b :=
  ⟨rfl, rfl, rfl, e.o, State.eng?_block he, rfl, rfl⟩

/-! ### Scratchpad -/

theorem Block.bytesAt_puts (b : Block) (o : Nat) (bs : List Byte) : (b.puts o bs).bytesAt o bs.length = bs := by
  refine List.ext_getElem (by simp [Block.bytesAt]) fun k _ hk => ?_
  simp only [Block.bytesAt, List.getElem_map, List.getElem_range, b.byte_puts_in o hk, List.getD_eq_getElem _ _ hk]

theorem matWrite_scratch {s : State} {e : Eng} {base st r : Nat} {bs : List Byte} (hb : s.block? e.b.uid = some e.b)
    (hf : e.b.fifoIn (base + r * st) bs.length = false) (hs : SameBanks e e.b) :
    s.matWrite e (.scratch base st) r bs = (s.modBlock e.b.uid fun b => b.puts (base + r * st) bs, .ok ()) := by
  show (s.deposit e.b.uid (base + r * st) bs (e.o.wasEpoch e.b.uid), Except.ok ()) = _
  rw [deposit_puts hb hf (hs _).symm (hs _).symm]

theorem mdrRow_scratch {s : State} {id : Nat} {e : Eng} {o : Mdr} {ep : Epilogue} {off st : Nat} (he : s.eng? id = some e)
    (ht : s.engTurn e = true) (hk : e.o.kind = .mdr o (.scratch off st) ep) (hp : e.o.progress < ep.count) (hc : e.o.cancel = false)
    (hb : s.block? e.b.uid = some e.b) (hf : e.b.fifoIn (off + e.o.progress * st) (rowBytes o.fmt) = false) (hs : SameBanks e e.b) :
    ∃ t b, exec (.mdrRow id) s = .next t ∧ t.block? e.b.uid = some b ∧ t.mem = s.mem ∧ t.host = s.host ∧
      b.bytesAt (off + e.o.progress * st) (rowBytes o.fmt) = e.drainBytes o ep ∧
      (∀ y, y < off + e.o.progress * st ∨ off + e.o.progress * st + rowBytes o.fmt ≤ y → b.byte y = e.b.byte y) ∧ RowDrained e o ep b := by
  have hlen := e.drainBytes_length o ep
  let b1 := e.b.puts (off + e.o.progress * st) (e.drainBytes o ep)
  have hb1 := State.block?_modBlock_some (f := fun b => b.puts (off + e.o.progress * st) (e.drainBytes o ep)) hb fun _ => rfl
  obtain ⟨hblock, hmem, hhost, -⟩ := mdrRow_drains hk hc hb (matWrite_scratch hb (by rwa [hlen]) hs) hb1
  obtain ⟨huid, hscratch, hbanks⟩ := b1.drain_fields e o ep
  have hbyte (y : Nat) : (b1.drain e o ep).byte y = b1.byte y := Block.byte_congr huid hbanks hscratch y
  obtain ⟨-, -, -, hop⟩ := RowWritten.refl he
  refine ⟨_, _, exec_mdrRow he ht hk hp, hblock, hmem, hhost, ?_, fun y hy => ?_, Block.drain_drained o ep ⟨rfl, rfl, rfl, hop⟩⟩
  · rw [← hlen]
    refine Eq.trans ?_ (e.b.bytesAt_puts (off + e.o.progress * st) (e.drainBytes o ep))
    exact List.map_congr_left fun k _ => hbyte _
  · exact (hbyte y).trans (e.b.byte_puts_out (by rwa [hlen]))

/-! ### Times of an operation's writes -/

/-- The block of an operation that has taken the times of a write: it is as it was, and so are the operation's values for its AMAX update. -/
theorem RowWritten.opTimes {s : State} {e : Eng} {b : Block} (hb : s.block? e.b.uid = some b) (h : RowWritten e b) (a : Attr) (x y : Nat) :
    ∃ b', (s.opTimes e a x y).block? e.b.uid = some b' ∧ RowWritten e b' ∧ b'.scratch = b.scratch := by
  refine ⟨_, State.block?_modOp hb _ _, ⟨h.uid, h.tiles, h.tag, ?_⟩, rfl⟩
  obtain ⟨o, ho, ha, hn⟩ := h.op
  exact ⟨_, find?_updOp ho fun _ => rfl, ha, hn⟩

/-! ### Global memory -/

theorem pieces_one {va n : Nat} (hn : 0 < n) (h : va % 65536 + n ≤ 65536) : pieces va n = [(va, n)] := by
  rw [pieces, if_neg (by omega), piecesGo, if_pos (by omega)]

theorem matWrite_global {s : State} {e : Eng} {base st r pa : Nat} {a : Attr} {bs : List Byte} (h0 : 0 < bs.length)
    (hpage : (base + r * st) % 65536 + bs.length ≤ 65536) (hx : s.engXlate e (base + r * st) .engWr = (s, .ok (pa, a)))
    (ha : a.target = .device) (hl : s.lostAt a.tier pa = none) :
    s.matWrite e (.global base st) r bs = (s.engWrite e pa a bs, .ok ()) := by
  have hok : s.engWriteOk (base + r * st) pa a = (s, .ok ()) := by
    simp only [State.engWriteOk, hl, State.sendOut, ha]
  simp only [State.matWrite, pieces_one h0 hpage, List.foldl_cons, List.foldl_nil, hx, hok, List.nil_append, Nat.sub_self, List.drop_zero,
    List.take_length]

theorem refreshAll_cores (s : State) (core pa n : Nat) : ∃ x, s.refreshAll core .device pa n = { s with cores := x } := by
  unfold State.refreshAll
  refine List.foldlRecOn (motive := fun u : State => ∃ x, u = { s with cores := x }) _ _ ⟨s.cores, rfl⟩ fun u hu k _ => ?_
  obtain ⟨x, rfl⟩ := hu
  obtain ⟨y, hy⟩ := refresh_cores { s with cores := x } core (lineKey .device pa + k)
  exact ⟨y, hy⟩

/-- An engine's write to this device's memory is one at the slices; besides it changes the core's copies and the operation's times. -/
theorem engWrite_device {s : State} {e : Eng} {pa : Nat} {a : Attr} {bs : List Byte} {b : Block} (ha : a.target = .device) (hm : s.memOk)
    (hb : s.block? e.b.uid = some b) (h : RowWritten e b) :
    ∃ b', (s.engWrite e pa a bs).block? e.b.uid = some b' ∧ RowWritten e b' ∧ b'.scratch = b.scratch ∧
      (s.engWrite e pa a bs).host = s.host ∧ (∀ k, k < bs.length → (s.engWrite e pa a bs).mem.get (pa + k) = bs.getD k 0) ∧
      ∀ x, x < pa ∨ pa + bs.length ≤ x → (s.engWrite e pa a bs).mem.get x = s.mem.get x := by
  let w := s.sliceWrite .device pa bs (some (s.dieOf e.b.core))
  obtain ⟨c, hc⟩ := refreshAll_cores (w.1.goodSector .device pa bs.length) e.b.core pa bs.length
  have heq : s.engWrite e pa a bs = ({ w.1.goodSector .device pa bs.length with cores := c } : State).opTimes e a w.2.1 w.2.2 := by
    unfold State.engWrite
    rw [ha, ← hc]
  obtain ⟨g, -, hg⟩ := (Traffic.sliceWrite s .device pa bs (some (s.dieOf e.b.core))).block? e.b.uid
  have hb1 : ({ w.1.goodSector .device pa bs.length with cores := c } : State).block? e.b.uid = some (b.shed g) := by
    rw [hb] at hg
    exact hg
  obtain ⟨b', hb', hrow, hscratch⟩ := RowWritten.opTimes hb1 ⟨h.uid, h.tiles, h.tag, h.op⟩ a w.2.1 w.2.2
  obtain ⟨hin, hout⟩ := State.sliceWrite_reads (pa := pa) (bs := bs) (some (s.dieOf e.b.core)) hm (.inl rfl)
  obtain ⟨-, hhost⟩ := s.sliceWrite_memories .device pa bs (some (s.dieOf e.b.core))
  rw [heq]
  exact ⟨b', hb', hrow, hscratch, hhost, hin, fun x hx => (hout x).1 (.inr hx)⟩

theorem mdrRow_global {s : State} {id : Nat} {e : Eng} {o : Mdr} {ep : Epilogue} {base st pa : Nat} {a : Attr} (he : s.eng? id = some e)
    (ht : s.engTurn e = true) (hk : e.o.kind = .mdr o (.global base st) ep) (hp : e.o.progress < ep.count) (hc : e.o.cancel = false)
    (hb : s.block? e.b.uid = some e.b) (hm : s.memOk) (hpage : (base + e.o.progress * st) % 65536 + rowBytes o.fmt ≤ 65536)
    (hx : s.engXlate e (base + e.o.progress * st) .engWr = (s, .ok (pa, a))) (ha : a.target = .device) (hl : s.lostAt a.tier pa = none) :
    ∃ t b, exec (.mdrRow id) s = .next t ∧ t.block? e.b.uid = some b ∧ t.host = s.host ∧ b.scratch = e.b.scratch ∧
      (List.range (rowBytes o.fmt)).map (fun k => t.mem.get (pa + k)) = e.drainBytes o ep ∧
      (∀ x, x < pa ∨ pa + rowBytes o.fmt ≤ x → t.mem.get x = s.mem.get x) ∧ RowDrained e o ep b := by
  have hlen := e.drainBytes_length o ep
  obtain ⟨hpos, -⟩ := rowBytes_pos o.fmt
  obtain ⟨b, hb1, hrow, hscratch, hhost, hin, hout⟩ := engWrite_device (pa := pa) (bs := e.drainBytes o ep) ha hm hb (.refl he)
  obtain ⟨hblock, hmem, hhost', -⟩ := mdrRow_drains hk hc hb
    (matWrite_global (by rw [hlen]; exact hpos) (by rwa [hlen]) hx ha hl) hb1
  obtain ⟨-, hscratch', -⟩ := b.drain_fields e o ep
  refine ⟨_, _, exec_mdrRow he ht hk hp, hblock, hhost'.trans hhost, hscratch'.trans hscratch, ?_, fun x hx => ?_,
    Block.drain_drained o ep hrow⟩
  · rw [hmem, ← hlen]
    refine List.ext_getElem (by simp) fun k _ hk => ?_
    rw [List.getElem_map, List.getElem_range, hin k hk, List.getD_eq_getElem _ _ hk]
  · rw [hmem]
    exact hout x (by rwa [hlen])

end Sys2Proof.Machine
end

section
/-! MDR into the vault (R255, R288), and O39 from its clauses. -/

namespace Sys2Proof.Machine

/-! ### Pieces of a memory -/

/-- A memory after pieces are written one after another. -/
def Memory.writePieces (m : Memory) (l : List (Nat × List Byte)) : Memory := l.foldl (fun m x => m.writeBytes x.1 x.2) m

theorem Memory.get_writePieces_out {m : Memory} (h : m.wf = true) {l : List (Nat × List Byte)} {y : Nat}
    (hy : ∀ x ∈ l, y < x.1 ∨ x.1 + x.2.length ≤ y) : (m.writePieces l).get y = m.get y := by
  induction l generalizing m with
  | nil => rfl
  | cons x r ih =>
    have hx := hy x List.mem_cons_self
    refine (ih (m.writeBytes_wf x.1 x.2 h) fun z hz => hy z (List.mem_cons_of_mem _ hz)).trans ?_
    rw [Memory.get_writeBytes h, if_neg (by omega)]

/-- Pieces that lie apart read back as they were written. -/
theorem Memory.get_writePieces {m : Memory} (h : m.wf = true) {l : List (Nat × List Byte)}
    (hp : l.Pairwise fun x y => x.1 + x.2.length ≤ y.1 ∨ y.1 + y.2.length ≤ x.1) :
    ∀ x ∈ l, (List.range x.2.length).map (fun k => (m.writePieces l).get (x.1 + k)) = x.2 := by
  induction l generalizing m with
  | nil => exact fun x hx => nomatch hx
  | cons y r ih =>
    obtain ⟨hy, hr⟩ := List.pairwise_cons.mp hp
    have hw := m.writeBytes_wf y.1 y.2 h
    intro x hx
    obtain rfl | hx := List.mem_cons.mp hx
    · refine List.ext_getElem (by simp) fun k _ hk => ?_
      rw [List.getElem_map, List.getElem_range]
      refine (Memory.get_writePieces_out hw fun z hz => ?_).trans ?_
      · have := hy z hz
        omega
      · rw [Memory.get_writeBytes h, if_pos (by omega), Nat.add_sub_cancel_left, List.getD_eq_getElem _ _ hk]
    · exact ih hw hr x hx

/-! ### The words of a row -/

/-- The words of a row with their bytes, from word n on. -/
def rowPieces (tn : Tensor) (bs : List Byte) (n : Nat) (ws : List (List Nat)) : List (Nat × List Byte) :=
  (ws.zipIdx n).map fun x => (tn.addr x.1, (bs.drop (4 * x.2)).take 4)

theorem rowPieces_cons (tn : Tensor) (bs : List Byte) (n : Nat) (w : List Nat) (ws : List (List Nat)) :
    rowPieces tn bs n (w :: ws) = (tn.addr w, (bs.drop (4 * n)).take 4) :: rowPieces tn bs (n + 1) ws := rfl

theorem rowPieces_fst (tn : Tensor) (bs : List Byte) (n : Nat) (ws : List (List Nat)) : (rowPieces tn bs n ws).map (·.1) = ws.map tn.addr := by
  induction ws generalizing n with
  | nil => rfl
  | cons w ws ih => rw [rowPieces_cons, List.map_cons, List.map_cons, ih]

/-- Each word of a row has four of its bytes, in order. -/
theorem rowPieces_snd (tn : Tensor) (bs : List Byte) (n : Nat) (ws : List (List Nat)) (h : bs.length = 4 * (n + ws.length)) :
    (rowPieces tn bs n ws).flatMap (·.2) = bs.drop (4 * n) ∧ ∀ x ∈ rowPieces tn bs n ws, x.2.length = 4 := by
  induction ws generalizing n with
  | nil => exact ⟨(List.drop_eq_nil_of_le (by simp at h; omega)).symm, fun x hx => nomatch hx⟩
  | cons w ws ih =>
    have hlen : ws.length + 1 = (w :: ws).length := rfl
    obtain ⟨hbs, hl⟩ := ih (n + 1) (by omega)
    rw [rowPieces_cons]
    refine ⟨?_, List.forall_mem_cons.mpr ⟨by rw [List.length_take, List.length_drop]; omega, hl⟩⟩
    rw [List.flatMap_cons, hbs, show 4 * (n + 1) = 4 * n + 4 by omega, ← List.drop_drop, List.take_append_drop]

theorem vaultWords_length (cs : List Nat) (r n : Nat) : (vaultWords cs r 0 n).length = (n + 3) / 4 := by
  rw [vaultWords, List.length_map, List.length_range]
  split <;> omega

/-! ### Writing a row -/

/-- The state after words are written to the vault. -/
def State.vaultPieces (s : State) (e : Eng) (l : List (Nat × List Byte)) : State := l.foldl (fun s x => s.vaultWrite e x.1 x.2) s

theorem vaultPieces_vault (s : State) (e : Eng) (l : List (Nat × List Byte)) :
    (s.vaultPieces e l).vault = s.vault.writePieces l ∧ (s.vaultPieces e l).mem = s.mem ∧ (s.vaultPieces e l).host = s.host := by
  induction l generalizing s with
  | nil => exact ⟨rfl, rfl, rfl⟩
  | cons x r ih => exact ih (s.vaultWrite e x.1 x.2)

theorem vaultPieces_block {s : State} {e : Eng} {b : Block} (l : List (Nat × List Byte)) (hb : s.block? e.b.uid = some b) (h : RowWritten e b) :
    ∃ b', (s.vaultPieces e l).block? e.b.uid = some b' ∧ RowWritten e b' ∧ b'.scratch = b.scratch := by
  induction l generalizing s b with
  | nil => exact ⟨b, hb, h, rfl⟩
  | cons x r ih =>
    obtain ⟨b1, hb1, h1, hs1⟩ := RowWritten.opTimes (s := { s with
      vault := s.vault.writeBytes x.1 x.2
      bad := s.bad.filter fun b => !(b.space == 3 && decide (x.1 ≤ b.at_) && decide (b.at_ + 32 ≤ x.1 + x.2.length)) }) hb h {} s.time s.time
    obtain ⟨b', hb', h', hs'⟩ := ih hb1 h1
    exact ⟨b', hb', h', hs'.trans hs1⟩

theorem matWrite_vault {s : State} {e : Eng} {i : Nat} {cs : List Nat} {r : Nat} {bs : List Byte} {tn : Tensor}
    (ht : s.tensor? e.l.asid i = some tn) :
    s.matWrite e (.vault i cs) r bs = (s.vaultPieces e (rowPieces tn bs 0 (vaultWords cs r 0 bs.length)), .ok ()) := by
  simp only [State.matWrite, ht, State.vaultPieces, rowPieces, List.foldl_map]

theorem mdrRow_vault {s : State} {id : Nat} {e : Eng} {o : Mdr} {ep : Epilogue} {i : Nat} {cs : List Nat} {tn : Tensor}
    (he : s.eng? id = some e) (ht : s.engTurn e = true) (hk : e.o.kind = .mdr o (.vault i cs) ep) (hp : e.o.progress < ep.count)
    (hc : e.o.cancel = false) (hb : s.block? e.b.uid = some e.b) (hm : s.memOk) (htn : s.tensor? e.l.asid i = some tn)
    (hap : ((vaultWords cs e.o.progress 0 (rowBytes o.fmt)).map tn.addr).Pairwise (fun x y => x + 4 ≤ y ∨ y + 4 ≤ x)) :
    ∃ t b, exec (.mdrRow id) s = .next t ∧ t.block? e.b.uid = some b ∧ t.mem = s.mem ∧ t.host = s.host ∧ b.scratch = e.b.scratch ∧
      (vaultWords cs e.o.progress 0 (rowBytes o.fmt)).flatMap (fun w => (List.range 4).map fun k => t.vault.get (tn.addr w + k)) =
        e.drainBytes o ep ∧
      (∀ x, (∀ w ∈ vaultWords cs e.o.progress 0 (rowBytes o.fmt), x < tn.addr w ∨ tn.addr w + 4 ≤ x) → t.vault.get x = s.vault.get x) ∧
      RowDrained e o ep b := by
  have hlen := e.drainBytes_length o ep
  obtain ⟨-, hdvd⟩ := rowBytes_pos o.fmt
  let ws := vaultWords cs e.o.progress 0 (rowBytes o.fmt)
  let l := rowPieces tn (e.drainBytes o ep) 0 ws
  have hfst : l.map (·.1) = ws.map tn.addr := rowPieces_fst ..
  obtain ⟨hsnd, hfour⟩ := rowPieces_snd tn (e.drainBytes o ep) 0 ws (by
    have : ws.length = (rowBytes o.fmt + 3) / 4 := vaultWords_length ..
    omega)
  have hpair : l.Pairwise fun x y => x.1 + x.2.length ≤ y.1 ∨ y.1 + y.2.length ≤ x.1 := by
    have h : (l.map (·.1)).Pairwise fun x y => x + 4 ≤ y ∨ y + 4 ≤ x := hfst ▸ hap
    exact (List.pairwise_map.mp h).imp_of_mem fun hx hy hxy => by rwa [hfour _ hx, hfour _ hy]
  obtain ⟨hvault, hmem, hhost⟩ := vaultPieces_vault s e l
  obtain ⟨b, hb1, hrow, hscratch⟩ := vaultPieces_block l hb (.refl he)
  have hwr := matWrite_vault (cs := cs) (r := e.o.progress) (bs := e.drainBytes o ep) htn
  rw [hlen] at hwr
  obtain ⟨hblock, hmem', hhost', hvault'⟩ := mdrRow_drains hk hc hb hwr hb1
  obtain ⟨-, hscratch', -⟩ := b.drain_fields e o ep
  obtain ⟨-, -, hwf⟩ := hm
  refine ⟨_, _, exec_mdrRow he ht hk hp, hblock, hmem'.trans hmem, hhost'.trans hhost, hscratch'.trans hscratch, ?_, fun x hx => ?_,
    Block.drain_drained o ep hrow⟩
  · rw [hvault', hvault]
    let g (a : Nat) : List Byte := (List.range 4).map fun k => (s.vault.writePieces l).get (a + k)
    calc ws.flatMap (fun w => g (tn.addr w)) = (l.map (·.1)).flatMap g := by rw [hfst, List.flatMap_map]
      _ = l.flatMap (·.2) := by
        rw [List.flatMap_map]
        exact List.flatMap_congr fun x hx => by
          have h := Memory.get_writePieces hwf hpair x hx
          rwa [hfour x hx] at h
      _ = e.drainBytes o ep := hsnd
  · rw [hvault', hvault]
    refine Memory.get_writePieces_out hwf fun y hy => ?_
    have hy1 : y.1 ∈ ws.map tn.addr := hfst ▸ List.mem_map_of_mem hy
    obtain ⟨w, hw, hwy⟩ := List.mem_map.mp hy1
    rw [← hwy, hfour y hy]
    exact hx w hw

/-! ### O39 -/

/-- Settles O39: the end of an operation, and each step of MLW, MMA, MDR and MZR. -/
theorem matrixOperationsRun : Obligations.MatrixOperationsRun := by
  refine ⟨fun s id e => operationEnds, fun s id e o src sw u rows => mlwLoadsASlot, fun s id e o src n row0 sv u act => mmaAppliesARow,
    fun s id e o ep off st he ht hk hp hc hb hf hs => ?_, fun s id e o ep base st pa a he ht hk hp hc hb hm hpage hx ha hl => ?_,
    fun s id e o ep i cs tn he ht hk hp hc hb hm htn hap => ?_, fun s id e o src sw u cols => mlwLoadsASparseSlot,
    fun m k vs hk => ?_, fun s id e x => mzrClearsATile⟩
  · have h := mdrRow_scratch he ht hk hp hc hb hf hs
    rwa [Eng.drainBytes_eq] at h
  · have h := mdrRow_global he ht hk hp hc hb hm hpage hx ha hl
    rwa [Eng.drainBytes_eq] at h
  · have h := mdrRow_vault he ht hk hp hc hb hm htn hap
    rwa [Eng.drainBytes_eq] at h
  · have h := getD_expandSparse m 128 (k := 0) vs hk
    simpa only [Nat.zero_add] using h

end Sys2Proof.Machine
end

section
/-! What a word holds: a field in its place, and the zero fields of R112. -/

namespace Sys2Proof

/-! ### Checks in order -/

@[simp] theorem bind_eq_ok_iff {ε α β : Type} {x : Except ε α} {f : α → Except ε β} {b : β} :
    (x >>= f) = .ok b ↔ ∃ a, x = .ok a ∧ f a = .ok b := by
  cases x <;> simp [bind, Except.bind]

theorem map_eq_ok_iff {ε α β : Type} {x : Except ε α} {f : α → β} {b : β} :
    x.map f = .ok b ↔ ∃ a, x = .ok a ∧ f a = b := by
  cases x <;> simp [Except.map]

@[simp] theorem need_eq_ok {b : Bool} {u : Unit} : need b = .ok u ↔ b = true := by
  cases b <;> simp [need]

theorem ite_eq_ok_error {ε α : Type} {c : Prop} [Decidable c] {x : Except ε α} {e : ε} {a : α} :
    (if c then x else .error e) = .ok a ↔ c ∧ x = .ok a := by
  split <;> simp_all

/-! ### Fields of a word -/

/-- The field `x` stands in `w` from bit `s`. -/
def Has {N n : Nat} (w : BitVec N) (s : Nat) (x : BitVec n) : Prop := w.extractLsb' s n = x

theorem has_append {v l N : Nat} {x : BitVec v} {y : BitVec l} {w : BitVec N} {s : Nat} :
    Has w s (x ++ y) ↔ Has w (s + l) x ∧ Has w s y := by
  unfold Has
  rw [← BitVec.extractLsb'_append_extractLsb'_eq_extractLsb' (x := w) (start₁ := s) (len₁ := l) (len₂ := v) rfl]
  refine ⟨fun h => ⟨?_, ?_⟩, fun ⟨h1, h2⟩ => by rw [h1, h2]⟩
  · simpa [BitVec.extractLsb'_append_eq_of_le] using congrArg (BitVec.extractLsb' l v) h
  · simpa [BitVec.extractLsb'_append_eq_of_add_le] using congrArg (BitVec.extractLsb' 0 l) h

theorem eq_iff_has {N : Nat} {x w : BitVec N} : x = w ↔ Has w 0 x := by
  rw [Has, BitVec.extractLsb'_eq_self, eq_comm]

@[simp] theorem has_bit {N s : Nat} {w : BitVec N} {b : Bool} : Has w s (b1 b) ↔ w.getLsbD s = b := by
  have hx (x : BitVec 1) : x = b1 b ↔ x.getLsbD 0 = b := by
    revert x b
    decide
  simp only [Has, hx, BitVec.getLsbD_extractLsb', Nat.add_zero, Nat.zero_lt_one, decide_true, Bool.true_and]

@[simp] theorem has_zero_bit {N s : Nat} {w : BitVec N} : Has w s 0#1 ↔ w.getLsbD s = false := has_bit (b := false)
@[simp] theorem has_one_bit {N s : Nat} {w : BitVec N} : Has w s 1#1 ↔ w.getLsbD s = true := has_bit (b := true)

/-- A field is zero where each of its bits is. -/
theorem has_zero_iff {N n s : Nat} {w : BitVec N} : Has w s 0#n ↔ ∀ i < n, w.getLsbD (s + i) = false := by
  refine ⟨fun h i hi => ?_, fun h => BitVec.eq_of_getLsbD_eq fun i hi => ?_⟩
  · simpa [hi] using congrArg (·.getLsbD i) h
  · simpa [hi] using h i hi

/-- The parts of a zero field are zero. -/
theorem Has.part {N n s : Nat} {w : BitVec N} (h : Has w s 0#n) (k m : Nat) (hk : k + m ≤ n) : Has w (s + k) 0#m :=
  has_zero_iff.mpr fun i hi => Nat.add_assoc s k i ▸ has_zero_iff.mp h (k + i) (by omega)

theorem has_zero_add {N s : Nat} {w : BitVec N} (m k : Nat) : Has w s 0#(m + k) ↔ Has w (s + k) 0#m ∧ Has w s 0#k := by
  have h : 0#(m + k) = 0#m ++ 0#k := by simp
  rw [h, has_append]

theorem has_zero_two {N s : Nat} {w : BitVec N} : Has w s 0#2 ↔ w.getLsbD (s + 1) = false ∧ w.getLsbD s = false := by
  rw [show 2 = 1 + 1 from rfl, has_zero_add 1 1, has_zero_bit, has_zero_bit]

theorem has_zero_four {N s : Nat} {w : BitVec N} : Has w s 0#4 ↔
    w.getLsbD (s + 3) = false ∧ w.getLsbD (s + 2) = false ∧ w.getLsbD (s + 1) = false ∧ w.getLsbD s = false := by
  rw [show 4 = 2 + 2 from rfl, has_zero_add 2 2, has_zero_two, has_zero_two, and_assoc]

theorem append_eq_iff {v l : Nat} {x : BitVec v} {y : BitVec l} {z : BitVec (v + l)} :
    x ++ y = z ↔ z.extractLsb' l v = x ∧ z.extractLsb' 0 l = y := by
  rw [eq_iff_has, has_append, Nat.zero_add]
  rfl

/-- A field is below a power of two where its high bits are zero. -/
theorem toNat_lt_iff_has {N s m : Nat} {w : BitVec N} (k : Nat) :
    (w.extractLsb' s (m + k)).toNat < 2 ^ k ↔ Has w (s + k) 0#m := by
  have hlo := (w.extractLsb' s k).isLt
  rw [← BitVec.extractLsb'_append_extractLsb'_eq_extractLsb' (x := w) rfl, BitVec.toNat_append,
    Nat.shiftLeft_eq, Nat.mul_comm, ← Nat.two_pow_add_eq_or_of_lt hlo, Has, ← BitVec.toNat_inj, BitVec.toNat_zero]
  rcases Nat.eq_zero_or_pos (w.extractLsb' (s + k) m).toNat with h | h
  · simp only [h, hlo, Nat.mul_zero, Nat.zero_add]
  · have := Nat.le_mul_of_pos_right (2 ^ k) h
    omega

/-! ### A word and its halfwords (R5, R86) -/

theorem word_of_halves (w : DWord) :
    w.extractLsb' 48 16 ++ w.extractLsb' 32 16 ++ w.extractLsb' 16 16 ++ w.extractLsb' 0 16 = w := by
  rw [eq_iff_has]
  simp only [has_append]
  simp [Has]

theorem halves_of_word (h0 h1 h2 h3 : Half) :
    (h3 ++ h2 ++ h1 ++ h0 : DWord).extractLsb' 0 16 = h0 ∧ (h3 ++ h2 ++ h1 ++ h0 : DWord).extractLsb' 16 16 = h1 ∧
      (h3 ++ h2 ++ h1 ++ h0 : DWord).extractLsb' 32 16 = h2 ∧ (h3 ++ h2 ++ h1 ++ h0 : DWord).extractLsb' 48 16 = h3 := by
  have h := eq_iff_has.mp (rfl : h3 ++ h2 ++ h1 ++ h0 = (h3 ++ h2 ++ h1 ++ h0 : DWord))
  simp only [has_append] at h
  obtain ⟨⟨⟨hh3, hh2⟩, hh1⟩, hh0⟩ := h
  exact ⟨hh0, hh1, hh2, hh3⟩

theorem word32_of_halves (w : BitVec 32) : w.extractLsb' 16 16 ++ w.extractLsb' 0 16 = w := by
  rw [eq_iff_has, has_append]
  exact ⟨rfl, rfl⟩

theorem halves_of_word32 (h0 h1 : Half) :
    (h1 ++ h0 : BitVec 32).extractLsb' 0 16 = h0 ∧ (h1 ++ h0 : BitVec 32).extractLsb' 16 16 = h1 :=
  (has_append.mp (eq_iff_has.mp rfl)).symm

/-! ### Zero fields -/

theorem zeroIn_eq_ok {n : Nat} {w m : BitVec n} {u : Unit} : zeroIn w m = .ok u ↔ w &&& m = 0#n := by
  unfold zeroIn; split <;> simp_all

@[simp] theorem zeroIn_or {n : Nat} {w a b : BitVec n} {u : Unit} :
    zeroIn w (a ||| b) = .ok u ↔ zeroIn w a = .ok u ∧ zeroIn w b = .ok u := by
  simp only [zeroIn_eq_ok, BitVec.and_or_distrib_left, BitVec.or_eq_zero_iff]

@[simp] theorem zeroIn_bitsMask {n lo len : Nat} {w : BitVec n} {u : Unit} (h : lo + len ≤ n) :
    zeroIn w (bitsMask n lo len) = .ok u ↔ Has w lo 0#len := by
  have hm (i : Nat) (hi : i < n) : (bitsMask n lo len).getLsbD i = decide (lo ≤ i ∧ i < lo + len) := by
    simp only [bitsMask, BitVec.getLsbD_ofNat, hi, decide_true, Bool.true_and, Nat.testBit_mul_two_pow,
      Nat.testBit_two_pow_sub_one]
    grind
  rw [zeroIn_eq_ok, has_zero_iff]
  refine ⟨fun h i hi => ?_, fun h => BitVec.eq_of_getLsbD_eq fun i hi => ?_⟩
  · have hb := congrArg (·.getLsbD (lo + i)) h
    simpa [hm (lo + i) (by omega), hi] using hb
  · rw [BitVec.getLsbD_and, hm i hi, BitVec.getLsbD_zero, Bool.and_eq_false_iff, decide_eq_false_iff_not]
    by_cases hin : lo ≤ i ∧ i < lo + len
    · exact .inl (Nat.add_sub_cancel' hin.1 ▸ h (i - lo) (by omega))
    · exact .inr hin

@[simp] theorem zeroIn_zmask {must : Bool} {lo len : Nat} {w : DWord} {u : Unit} (h : lo + len ≤ 64) :
    zeroIn w (zmask must lo len) = .ok u ↔ (must = true → Has w lo 0#len) := by
  cases must
  · simp [zmask, zeroIn_eq_ok]
  · simpa [zmask] using zeroIn_bitsMask h

end Sys2Proof
end

section
/-! The code points of R102, and the head every 64-bit instruction has (R94). -/

namespace Sys2Proof

/-! ### Code points (R102) -/

theorem Guard.ofCode_eq_iff {c : BitVec 4} {x : Guard} : Guard.ofCode c = x ↔ c = x.code := by
  revert c; cases x <;> decide
theorem Rnd.ofCode_eq_iff {c : BitVec 2} {x : Rnd} : Rnd.ofCode c = x ↔ c = x.code := by
  revert c; cases x <;> decide
theorem Ord.ofCode_eq_iff {c : BitVec 2} {x : Ord} : Ord.ofCode c = x ↔ c = x.code := by
  revert c; cases x <;> decide
theorem Hint.ofCode_eq_iff {c : BitVec 2} {x : Hint} : Hint.ofCode c = x ↔ c = x.code := by
  revert c; cases x <;> decide
theorem ShflMode.ofCode_eq_iff {c : BitVec 2} {x : ShflMode} : ShflMode.ofCode c = x ↔ c = x.code := by
  revert c; cases x <;> decide
theorem VoteMode.ofCode_eq_iff {c : BitVec 2} {x : VoteMode} : VoteMode.ofCode c = x ↔ c = x.code := by
  revert c; cases x <;> decide
@[simp] theorem Scope.ofCode_eq_ok_iff {c : BitVec 3} {x : Scope} : Scope.ofCode c = .ok x ↔ c = x.code := by
  revert c; cases x <;> decide
@[simp] theorem Width.ofCode_eq_ok_iff {c : BitVec 3} {x : Width} : Width.ofCode c = .ok x ↔ c = x.code := by
  revert c; cases x <;> decide
@[simp] theorem PredHint.ofCode_eq_ok_iff {c : BitVec 2} {x : PredHint} : PredHint.ofCode c = .ok x ↔ c = x.code := by
  revert c; cases x <;> decide
@[simp] theorem AtomOp.ofCode_eq_ok_iff {c : BitVec 4} {x : AtomOp} : AtomOp.ofCode c = .ok x ↔ c = x.code := by
  revert c; cases x <;> decide
@[simp] theorem WaitCmp.ofCode_eq_ok_iff {c : BitVec 4} {x : WaitCmp} : WaitCmp.ofCode c = .ok x ↔ c = x.code := by
  revert c; cases x <;> decide
@[simp] theorem TredOp.ofCode_eq_ok_iff {c : BitVec 3} {x : TredOp} : TredOp.ofCode c = .ok x ↔ c = x.code := by
  revert c; cases x <;> decide
@[simp] theorem Space.ofCode_eq_ok_iff {c : BitVec 2} {x : Space} : Space.ofCode c = .ok x ↔ c = x.code := by
  revert c; cases x <;> decide
@[simp] theorem KMode.ofCode_eq_ok_iff {c : BitVec 2} {x : KMode} : KMode.ofCode c = .ok x ↔ c = x.code := by
  revert c; cases x <;> decide
@[simp] theorem Limiter.ofCode_eq_ok_iff {c : BitVec 2} {x : Limiter} : Limiter.ofCode c = .ok x ↔ c = x.code := by
  revert c; cases x <;> decide
@[simp] theorem CopyRed.ofCode_eq_ok_iff {c : BitVec 4} {x : CopyRed} : CopyRed.ofCode c = .ok x ↔ c = x.code := by
  revert c; cases x <;> decide
@[simp] theorem ScanOp.ofCode_eq_ok_iff {c : BitVec 4} {x : ScanOp} : ScanOp.ofCode c = .ok x ↔ c = x.code := by
  revert c; cases x <;> decide

@[simp] theorem has_guard {w : DWord} {s : Nat} {x : Guard} : Has w s x.code ↔ Guard.ofCode (w.extractLsb' s 4) = x :=
  Guard.ofCode_eq_iff.symm
@[simp] theorem has_rnd {w : DWord} {s : Nat} {x : Rnd} : Has w s x.code ↔ Rnd.ofCode (w.extractLsb' s 2) = x :=
  Rnd.ofCode_eq_iff.symm
@[simp] theorem has_ord {w : DWord} {s : Nat} {x : Ord} : Has w s x.code ↔ Ord.ofCode (w.extractLsb' s 2) = x :=
  Ord.ofCode_eq_iff.symm
@[simp] theorem has_hint {w : DWord} {s : Nat} {x : Hint} : Has w s x.code ↔ Hint.ofCode (w.extractLsb' s 2) = x :=
  Hint.ofCode_eq_iff.symm
@[simp] theorem has_shflMode {w : DWord} {s : Nat} {x : ShflMode} : Has w s x.code ↔ ShflMode.ofCode (w.extractLsb' s 2) = x :=
  ShflMode.ofCode_eq_iff.symm
@[simp] theorem has_voteMode {w : DWord} {s : Nat} {x : VoteMode} : Has w s x.code ↔ VoteMode.ofCode (w.extractLsb' s 2) = x :=
  VoteMode.ofCode_eq_iff.symm

/-! ### The head of a 64-bit instruction (R94) -/

theorem has_encHead {w : DWord} {h : Head} {op : BitVec 10} :
    Has w 0 (encHead h op) ↔ headOf w = h ∧ Has w 0 (op ++ 3#2) := by
  obtain ⟨ccSet, c, gset, guard, stop⟩ := h
  simp only [encHead, has_append, and_assoc]
  simp only [Nat.reduceAdd, has_bit, has_guard, headOf, Head.mk.injEq, and_assoc]

@[simp] theorem implies_eq_true {c p : Bool} : implies c p = true ↔ (c = true → p = true) := by
  cases c <;> simp [implies]

@[simp] theorem needC_eq_ok {w : DWord} {cc : CcRule} {u : Unit} :
    needC w cc = .ok u ↔ (cc = .must → w.getLsbD 18 = true) := by
  cases cc <;> simp [needC, need_eq_ok]

theorem headOf_wf_iff {w : DWord} {cc : CcRule} : (headOf w).wf cc = true ↔
    (cc = .must → w.getLsbD 18 = true) ∧ zeroIn w (headZero w cc) = .ok () := by
  have hg : Guard.ofCode (w.extractLsb' 13 4) = .al ↔ w.extractLsb' 13 4 = 0#4 := Guard.ofCode_eq_iff
  simp only [headZero, zeroIn_or, zeroIn_zmask (show 17 + 1 ≤ 64 by decide),
    zeroIn_zmask (show 18 + 1 ≤ 64 by decide), zeroIn_zmask (show 19 + 1 ≤ 64 by decide), has_zero_bit, Head.wf,
    implies_eq_true, headOf, Bool.and_eq_true, Bool.or_eq_true, beq_iff_eq, hg, Bool.not_eq_true']
  grind

@[simp] theorem mRest_zero : mRest 0#64 = bitsMask 64 48 16 := by decide
@[simp] theorem mRest_59 : mRest (bitsMask 64 59 1) = bitsMask 64 60 4 ||| bitsMask 64 48 11 := by decide
@[simp] theorem mRest_58 : mRest (bitsMask 64 58 1) = bitsMask 64 59 5 ||| bitsMask 64 48 10 := by decide
@[simp] theorem mRest_57 : mRest (bitsMask 64 57 3) = bitsMask 64 60 4 ||| bitsMask 64 48 9 := by decide
@[simp] theorem mRest_56 : mRest (bitsMask 64 56 4) = bitsMask 64 60 4 ||| bitsMask 64 48 8 := by decide
@[simp] theorem mRest_48 : mRest (bitsMask 64 48 1) = bitsMask 64 49 15 := by decide

@[simp] theorem tyIn_eq_ok {l : List Ty} {c : BitVec 4} {t : Ty} : tyIn l c = .ok t ↔ t ∈ l ∧ c = t.code := by
  have hinj (a b : Ty) : a.code = b.code → a = b := by cases a <;> cases b <;> decide
  unfold tyIn
  split
  case h_1 u hu =>
    simp only [Except.ok.injEq]
    have hc := List.find?_some hu
    have hm := List.mem_of_find?_eq_some hu
    grind
  case h_2 hn =>
    have hno := List.find?_eq_none.mp hn
    grind

end Sys2Proof
end

section
/-! Which layout a 64-bit word is read as: the operations of R94-R104 by the layout of their operands. -/

namespace Sys2Proof

/-- The word `w` has the opcode of the layout and its operands are what the layout's decoder reads. -/
def Layout.ReadFrom (w : DWord) : Layout → Prop
  | .event | .h2 _ _ | .n3 _ _ | .ni _ _ | .nm _ _ | .nj _ | .np _ => False
  | .xr op o => Has w 2 op ∧ decXr (xrRow op.toNat) w = .ok o
  | .sel op o => Has w 2 op ∧ decSel (op != 0xf) w = .ok o
  | .lut3 op o => Has w 2 op ∧ decLut3 w = .ok o
  | .fscale op o => Has w 2 op ∧ decFscale w = .ok o
  | .cvt op o => Has w 2 op ∧ decCvt w = .ok o
  | .pack op o => Has w 2 op ∧ decPack (op == 0x107 || op == 0x108) (op == 0x107 || op == 0x109) w = .ok o
  | .movi op o => Has w 2 op ∧ decMovi w = .ok o
  | .movs op o => Has w 2 op ∧ decMovs w = .ok o
  | .sr op o => Has w 2 op ∧ decSr (op == 0x145) w = .ok o
  | .shfl op o => Has w 2 op ∧ decShfl w = .ok o
  | .vote op o => Has w 2 op ∧ decVote w = .ok o
  | .tred op o => Has w 2 op ∧ decTred w = .ok o
  | .part op o => Has w 2 op ∧ decPart w = .ok o
  | .xrng op o => Has w 2 op ∧ decXrng w = .ok o
  | .xsort op o => Has w 2 op ∧ decXsort w = .ok o
  | .xqnt op o => Has w 2 op ∧ decXqnt w = .ok o
  | .xdqnt op o => Has w 2 op ∧ decXdqnt w = .ok o
  | .br op o => Has w 2 op ∧ decBr w = .ok o
  | .jump op o => Has w 2 op ∧ decJump w = .ok o
  | .jumpReg op o => Has w 2 op ∧ decJumpReg w = .ok o
  | .brx op o => Has w 2 op ∧ decBrx w = .ok o
  | .bare op o => Has w 2 op ∧ decBare (op == 0x347) w = .ok o
  | .rep op o => Has w 2 op ∧ decRep w = .ok o
  | .xi op o => Has w 2 op ∧ decXi (op == 0x384) w = .ok o
  | .xm op o => Has w 2 op ∧ decXm (xmRow op.toNat) w = .ok o
  | .xp op o => Has w 2 op ∧ decXp (xmRow op.toNat) w = .ok o
  | .xa op o => Has w 2 op ∧ decXa (op == 0x209) w = .ok o
  | .xas op o => Has w 2 op ∧ decXas w = .ok o
  | .waita op o => Has w 2 op ∧ decWaita w = .ok o
  | .bank op o => Has w 2 op ∧ decBank w = .ok o
  | .xs op o => Has w 2 op ∧ decXs (xsRow op.toNat) w = .ok o
  | .mlw op o => Has w 2 op ∧ decMlw w = .ok o
  | .mma op o => Has w 2 op ∧ decMma w = .ok o
  | .mdr op o => Has w 2 op ∧ decMdr w = .ok o
  | .mzr op o => Has w 2 op ∧ decMzr w = .ok o
  | .mrs op o => Has w 2 op ∧ decMrs w = .ok o
  | .mws op o => Has w 2 op ∧ decMws w = .ok o
  | .copy op o => Has w 2 op ∧ decCopy (op - 0x300).toNat w = .ok o
  | .copyx op o => Has w 2 op ∧ decCopyx w = .ok o
  | .hw op o => Has w 2 op ∧ decHw (op == 0x305) w = .ok o
  | .opA op o => Has w 2 op ∧ decOpA (!(op == 0x385)) w = .ok o
  | .opD op o => Has w 2 op ∧ decOpD w = .ok o
  | .opDA op o => Has w 2 op ∧ decOpDA w = .ok o
  | .opAB op o => Has w 2 op ∧ (if op = 0x388 then decL1inv w else decOpAB w) = .ok o
  | .scan op o => Has w 2 op ∧ decScan w = .ok o
  | .chainOp op o => Has w 2 op ∧ decChainOp w = .ok o
  | .cjoin op o => Has w 2 op ∧ decCjoin w = .ok o
  | .launch op o => Has w 2 op ∧ decLaunch w = .ok o

theorem readFrom_of_map {i : Instr} {w : DWord} (h : decodeOp w = .ok i) : i.layout.ReadFrom w := by
  unfold decodeOp at h
  split at h
  case h_158 => cases h
  all_goals
    obtain ⟨o, ho, rfl⟩ := map_eq_ok_iff.mp h
    exact ⟨BitVec.eq_of_toNat_eq ‹_›, ho⟩

theorem decode_of_readFrom {i : Instr} {w : DWord} (h : i.layout.ReadFrom w) : decodeOp w = .ok i := by
  cases i
  any_goals exact h.elim
  all_goals
    have hop := congrArg BitVec.toNat h.1
    unfold decodeOp
    rw [hop]
    exact congrArg (Except.map _) h.2

end Sys2Proof
end

section
/-! Each layout is read exactly from its own encoding (R94-R104). -/

namespace Sys2Proof

/-- A word is read as the layout `L` exactly where `L` is within its limits and the word is its encoding. -/
def Layout.Exact (L : Layout) : Prop := ∀ w : DWord, Has w 0 3#2 → (L.ReadFrom w ↔ L.wf = true ∧ encode64 L = w)

@[simp] theorem zeroIn_sxZero {w : DWord} {useB : Option Bool} {width : Width} {u : Unit} :
    zeroIn w (sxZero useB width) = .ok u ↔ Xm.wf.sx useB width (fB w) = true := by
  have hlow : (fB w).toNat < 2 ↔ Has w 35 0#6 := toNat_lt_iff_has 1
  have hzero : fB w = 0#7 ↔ Has w 35 0#6 ∧ w.getLsbD 34 = false := by rw [← has_zero_bit, ← has_zero_add 6 1]; rfl
  rcases useB with _ | _ | _
  · simp only [sxZero, mB, Xm.wf.sx, zeroIn_bitsMask (show 34 + 7 ≤ 64 by decide), Has, fB, beq_iff_eq]
    rfl
  · cases width <;> simp [sxZero, Xm.wf.sx, hlow, hzero]
  · simp [sxZero, Xm.wf.sx, zeroIn_eq_ok]

theorem has_imm {w : DWord} {i : BitVec 14} :
    Has w 41 (i.extractLsb' 7 7) ∧ Has w 34 (i.extractLsb' 0 7) ↔ w.extractLsb' 34 14 = i := by
  have hi : (i.extractLsb' 7 7 ++ i.extractLsb' 0 7 : BitVec 14) = i :=
    (BitVec.extractLsb'_append_extractLsb'_eq_extractLsb' rfl).trans BitVec.extractLsb'_eq_self
  exact has_append.symm.trans (iff_of_eq (congrArg (Has w 34) hi))

theorem imm_eq (w : DWord) : (w.extractLsb' 41 7 ++ w.extractLsb' 34 7 : BitVec 14) = w.extractLsb' 34 14 :=
  BitVec.extractLsb'_append_extractLsb'_eq_extractLsb' rfl

/-! ### The plain layouts -/

structure ArithLayoutsExact (op : BitVec 10) : Prop where
  lut3 : ∀ o, (Layout.lut3 op o).Exact
  fscale : ∀ o, (Layout.fscale op o).Exact
  pack : ∀ o, (Layout.pack op o).Exact
  movi : ∀ o, (Layout.movi op o).Exact

theorem arithLayoutsExact (op : BitVec 10) : ArithLayoutsExact op := by
  constructor
  all_goals
    rintro ⟨⟩ w hw
    simp only [encode64, encX, encI, eq_iff_has (w := w), has_append, has_encHead]
    simp [Layout.ReadFrom, Layout.wf, decLut3, decFscale, decPack, Pack.wf, decMovi, fA, fB, fC, fD, mC,
      pure, Except.pure]
    simp only [Has] at *
    grind [headOf_wf_iff]

structure CrossLaneLayoutsExact (op : BitVec 10) : Prop where
  sr : ∀ o, (Layout.sr op o).Exact
  vote : ∀ o, (Layout.vote op o).Exact
  xrng : ∀ o, (Layout.xrng op o).Exact
  xsort : ∀ o, (Layout.xsort op o).Exact
  xqnt : ∀ o, (Layout.xqnt op o).Exact
  xdqnt : ∀ o, (Layout.xdqnt op o).Exact

theorem crossLaneLayoutsExact (op : BitVec 10) : CrossLaneLayoutsExact op := by
  constructor
  all_goals
    rintro ⟨⟩ w hw
    simp only [encode64, encX, eq_iff_has (w := w), has_append, has_encHead]
    simp [Layout.ReadFrom, Layout.wf, decSr, Sr.wf, decVote, Vote.wf, decXrng, decXsort, decXqnt, decXdqnt, fA, fB, fC, fD,
      mB, mC, pure, Except.pure]
    simp only [Has] at *
    grind [headOf_wf_iff]

structure MemoryLayoutsExact (op : BitVec 10) : Prop where
  xa : ∀ o, (Layout.xa op o).Exact
  xas : ∀ o, (Layout.xas op o).Exact
  br : ∀ o, (Layout.br op o).Exact
  bank : ∀ o, (Layout.bank op o).Exact

theorem memoryLayoutsExact (op : BitVec 10) : MemoryLayoutsExact op := by
  constructor
  all_goals
    rintro ⟨⟩ w hw
    simp only [encode64, encX, encM, eq_iff_has (w := w), has_append, has_encHead]
    simp [Layout.ReadFrom, Layout.wf, decXa, Xa.wf, decXas, Xas.wf, AtomOp.widthOk, decBr, decBank, fA, fB, fD, mB, mC, mD,
      pure, Except.pure]
    simp only [Has] at *
    grind [headOf_wf_iff]

structure MatrixLayoutsExact (op : BitVec 10) : Prop where
  mlw : ∀ o, (Layout.mlw op o).Exact
  mma : ∀ o, (Layout.mma op o).Exact
  mdr : ∀ o, (Layout.mdr op o).Exact
  mzr : ∀ o, (Layout.mzr op o).Exact
  mws : ∀ o, (Layout.mws op o).Exact

theorem matrixLayoutsExact (op : BitVec 10) : MatrixLayoutsExact op := by
  constructor
  all_goals
    rintro ⟨⟩ w hw
    simp only [encode64, encX, eq_iff_has (w := w), has_append, has_encHead]
    simp [Layout.ReadFrom, Layout.wf, decMlw, decMma, decMdr, decMzr, decMws, fA, fB, fC, fD, mA, mB, mC, mD,
      pure, Except.pure]
    simp only [Has] at *
    grind [headOf_wf_iff]

structure ChainLayoutsExact (op : BitVec 10) : Prop where
  scan : ∀ o, (Layout.scan op o).Exact
  chainOp : ∀ o, (Layout.chainOp op o).Exact
  cjoin : ∀ o, (Layout.cjoin op o).Exact

theorem chainLayoutsExact (op : BitVec 10) : ChainLayoutsExact op := by
  constructor
  all_goals
    rintro ⟨⟩ w hw
    simp only [encode64, encX, eq_iff_has (w := w), has_append, has_encHead]
    simp [Layout.ReadFrom, Layout.wf, decScan, decChainOp, decCjoin, fA, fB, fD, mB, mC, mD, pure, Except.pure]
    simp only [Has] at *
    grind [headOf_wf_iff]

/-! ### The layouts with a code point or a field of their own -/

theorem xm_exact (op : BitVec 10) (o : Xm) : (Layout.xm op o).Exact := by
  intro w hw
  cases o
  have hhint : Hint.ofCode (w.extractLsb' 49 2) = .default ↔ _ := Hint.ofCode_eq_iff
  simp only [encode64, encM, eq_iff_has (w := w), has_append, has_encHead]
  simp [Layout.ReadFrom, Layout.wf, decXm, Xm.wf, fA, fB, fD, pure, Except.pure]
  simp only [Has] at *
  grind [headOf_wf_iff, Hint.code]

theorem xp_exact (op : BitVec 10) (o : Xp) (hcc : (xmRow op.toNat).cc = .never) : (Layout.xp op o).Exact := by
  intro w hw
  cases o
  have hhint : Hint.ofCode (w.extractLsb' 49 2) = .default ↔ _ := Hint.ofCode_eq_iff
  simp only [encode64, encM, eq_iff_has (w := w), has_append, has_encHead]
  simp [Layout.ReadFrom, Layout.wf, decXp, Xp.wf, fA, fB, fD, pure, Except.pure]
  simp only [Has] at *
  grind [headOf_wf_iff, Hint.code]

theorem xs_exact (op : BitVec 10) (o : Xs) : (Layout.xs op o).Exact := by
  intro w hw
  cases o
  have h2 := @has_zero_two 64 49 w
  simp only [encode64, encM, eq_iff_has (w := w), has_append, has_encHead]
  simp [Layout.ReadFrom, Layout.wf, decXs, Xs.wf, fA, fB, fD, pure, Except.pure]
  simp only [Has] at *
  grind [headOf_wf_iff, Hint.code]

theorem sel_exact (op : BitVec 10) (o : Sel) : (Layout.sel op o).Exact := by
  intro w hw
  cases o
  have h2 := @has_zero_four 64 55 w
  simp only [encode64, encX, eq_iff_has (w := w), has_append, has_encHead]
  simp [Layout.ReadFrom, Layout.wf, decSel, Sel.wf, fA, fB, fD, mC, pure, Except.pure]
  simp only [Has] at *
  grind [headOf_wf_iff]
theorem shfl_exact (op : BitVec 10) (o : Shfl) : (Layout.shfl op o).Exact := by
  intro w hw
  cases o
  have h2 : (w.extractLsb' 34 7).toNat < 32 ↔ Has w 39 0#2 := toNat_lt_iff_has 5
  simp only [encode64, encX, eq_iff_has (w := w), has_append, has_encHead]
  simp [Layout.ReadFrom, Layout.wf, decShfl, Shfl.wf, fA, fB, fD, fC, pure, Except.pure]
  simp only [Has] at *
  grind [headOf_wf_iff]

theorem tred_exact (op : BitVec 10) (o : Tred) : (Layout.tred op o).Exact := by
  intro w hw
  cases o
  have h2 (z : BitVec 3) : (w.extractLsb' 56 1 ++ w.extractLsb' 48 2 : BitVec 3) = z ↔ _ := append_eq_iff (v := 1) (l := 2)
  have hty (x : TredOp) : (match x with | .and | .or | .xor => [Ty.n32] | _ => [.n32, .i32, .f32]) = x.types := by cases x <;> rfl
  simp only [encode64, encX, eq_iff_has (w := w), has_append, has_encHead]
  simp [Layout.ReadFrom, Layout.wf, decTred, Tred.wf, fA, fD, fC, mB, h2, TredOp.types, pure, Except.pure]
  simp only [Has] at *
  grind [headOf_wf_iff]

/-- M's default code points are zero where M is. -/
theorem m_zero {w : DWord} (h : Has w 48 0#16) : w.extractLsb' 62 2 = 0#2 ∧ w.extractLsb' 52 2 = 0#2 ∧ w.extractLsb' 48 4 = 0#4 :=
  ⟨h.part 14 2 (by decide), h.part 4 2 (by decide), h.part 0 4 (by decide)⟩

structure HeadLayoutsExact (op : BitVec 10) : Prop where
  bare : ∀ o, (Layout.bare op o).Exact
  opA : ∀ o, (Layout.opA op o).Exact
  opD : ∀ o, (Layout.opD op o).Exact
  opDA : ∀ o, (Layout.opDA op o).Exact

theorem headLayoutsExact (op : BitVec 10) : HeadLayoutsExact op := by
  constructor
  all_goals
    rintro ⟨⟩ w hw
    have hm := @m_zero w
    simp only [encode64, encX, eq_iff_has (w := w), has_append, has_encHead]
    simp [Layout.ReadFrom, Layout.wf, decBare, decOpA, decOpD, decOpDA, fA, fD, mA, mB, mC, mD, pure, Except.pure]
    simp only [Has] at *
    grind [headOf_wf_iff]

theorem opAB_exact (op : BitVec 10) (o : OpAB) : (Layout.opAB op o).Exact := by
  intro w hw
  cases o
  have h16 : Has w 41 0#23 ↔ Has w 48 0#16 ∧ Has w 41 0#7 := has_zero_add 16 7
  have h13 : Has w 41 0#23 ↔ Has w 51 0#13 ∧ Has w 41 0#10 := has_zero_add 13 10
  have hhint : Has w 41 0#10 ↔ Has w 49 0#2 ∧ Has w 41 0#8 := has_zero_add 2 8
  have hord : Has w 41 0#8 ↔ Has w 47 0#2 ∧ Has w 41 0#6 := has_zero_add 2 6
  have hscope : Has w 41 0#6 ↔ Has w 44 0#3 ∧ Has w 41 0#3 := has_zero_add 3 3
  simp only [encode64, encX, eq_iff_has (w := w), has_append, has_encHead]
  by_cases hop : op = 0x388#10
  all_goals
    simp [hop, Layout.ReadFrom, Layout.wf, decOpAB, decL1inv, fA, fB, mC, mD, pure, Except.pure]
    simp only [Has] at *
    grind [headOf_wf_iff]

theorem jump_exact (op : BitVec 10) (o : Jump) : (Layout.jump op o).Exact := by
  intro w hw
  cases o
  have h1 : Has w 58 0#6 ↔ _ := has_zero_add 4 2
  simp only [encode64, eq_iff_has (w := w), has_append, has_encHead]
  simp [Layout.ReadFrom, Layout.wf, decJump, pure, Except.pure]
  simp only [Has] at *
  grind [headOf_wf_iff]

theorem jumpReg_exact (op : BitVec 10) (o : JumpReg) : (Layout.jumpReg op o).Exact := by
  intro w hw
  cases o
  have h1 : Has w 60 0#4 ↔ _ := has_zero_add 2 2
  have h2 : Has w 48 0#11 → Has w 52 0#2 ∧ Has w 48 0#4 := fun h => ⟨h.part 4 2 (by decide), h.part 0 4 (by decide)⟩
  simp only [encode64, encX, eq_iff_has (w := w), has_append, has_encHead]
  simp [Layout.ReadFrom, Layout.wf, decJumpReg, needM0, fA, mB, mC, mD, pure, Except.pure]
  simp only [Has] at *
  grind [headOf_wf_iff]

theorem mrs_exact (op : BitVec 10) (o : Mrs) : (Layout.mrs op o).Exact := by
  intro w hw
  cases o
  have h2 : Has w 48 0#8 → Has w 48 0#4 := fun h => h.part 0 4 (by decide)
  simp only [encode64, encX, eq_iff_has (w := w), has_append, has_encHead]
  simp [Layout.ReadFrom, Layout.wf, decMrs, fA, fB, fD, mC, pure, Except.pure]
  simp only [Has] at *
  grind [headOf_wf_iff]

theorem xi_exact (op : BitVec 10) (o : Xi) : (Layout.xi op o).Exact := by
  intro w hw
  cases o
  simp only [encode64, encI, eq_iff_has (w := w), has_append, has_encHead]
  simp [Layout.ReadFrom, Layout.wf, decXi, mD, pure, Except.pure]
  simp only [Has] at *
  grind [headOf_wf_iff, headOf]

theorem rep_exact (op : BitVec 10) (o : Rep) : (Layout.rep op o).Exact := by
  intro w hw
  obtain ⟨h, f⟩ := o
  cases f
  simp only [encode64, encode64.encRepStep, encI, eq_iff_has (w := w), has_append, has_encHead]
  simp [Layout.ReadFrom, Layout.wf, decRep, mD, pure, Except.pure]
  simp only [Has] at *
  grind [headOf_wf_iff, headOf]

theorem copy_exact (op : BitVec 10) (o : Copy) : (Layout.copy op o).Exact := by
  intro w hw
  cases o
  have hk (n : Nat) (hn : n < 1024 - 0x300): (op - 0x300#10).toNat = n ↔ op = BitVec.ofNat 10 (0x300 + n) := by
    bv_omega
  have hk0 := hk 0 (by decide)
  have hk1 := hk 1 (by decide)
  have hk2 := hk 2 (by decide)
  simp only [encode64, encX, eq_iff_has (w := w), has_append, has_encHead]
  simp [-BitVec.toNat_sub, Layout.ReadFrom, Layout.wf, decCopy, Copy.wf, hk0, hk1, hk2, fA, fB, fC, fD, pure, Except.pure]
  simp only [Has] at *
  grind [headOf_wf_iff, headOf]

theorem waita_exact (op : BitVec 10) (o : Waita) : (Layout.waita op o).Exact := by
  intro w hw
  obtain ⟨h, d, a, b, off, cmp, e, ord, space, width⟩ := o
  simp only [encode64, encM, eq_iff_has (w := w), has_append, has_encHead]
  cases space
  all_goals
    simp only [WaitSpace.bits, has_append]
    simp [Layout.ReadFrom, Layout.wf, decWaita, Waita.wf, fA, fB, fD, pure, Except.pure, map_eq_ok_iff, ite_eq_iff]
    simp only [Has] at *
    grind [headOf_wf_iff]

theorem launch_exact (op : BitVec 10) (o : Launch) : (Layout.launch op o).Exact := by
  intro w hw
  cases o
  have h1 := @has_zero_bit 64 49 w
  simp only [encode64, encX, eq_iff_has (w := w), has_append, has_encHead]
  simp [Layout.ReadFrom, Layout.wf, decLaunch, fA, fD, mB, mC, pure, Except.pure]
  simp only [Has] at *
  grind [headOf_wf_iff]

theorem hw_exact (op : BitVec 10) (o : Hw) : (Layout.hw op o).Exact := by
  intro w hw
  obtain ⟨h, d, a, acq⟩ := o
  have hcc : (if op = 0x305 then CcRule.must else .never) = .must ↔ op = 0x305 := by split <;> simp_all
  have h12 : Has w 48 0#16 ↔ Has w 52 0#12 ∧ Has w 48 0#4 := has_zero_add 12 4
  have h4 : Has w 48 0#4 ↔ Has w 49 0#3 ∧ Has w 48 0#1 := has_zero_add 3 1
  have h1 := @has_zero_bit 64 48 w
  rcases acq with _ | s
  all_goals
    simp only [encode64, encX, eq_iff_has (w := w), has_append, has_encHead]
    simp [Layout.ReadFrom, Layout.wf, decHw, fA, fD, mB, mC, pure, Except.pure]
    simp only [Has] at *
    grind [headOf_wf_iff, Scope.code]

theorem movs_exact (op : BitVec 10) (o : Movs) : (Layout.movs op o).Exact := by
  intro w hw
  obtain ⟨h, d, o⟩ := o
  have himm (z : BitVec 14) : (w.extractLsb' 41 7 ++ w.extractLsb' 34 7 : BitVec 14) = z ↔ _ := append_eq_iff (v := 7) (l := 7)
  have hcb : Has w 34 0#14 ↔ Has w 41 0#7 ∧ Has w 34 0#7 := has_zero_add 7 7
  have hm16 : Has w 48 0#16 ↔ Has w 62 0#2 ∧ Has w 48 0#14 := has_zero_add 2 14
  have hm14 : Has w 48 0#14 ↔ Has w 54 0#8 ∧ Has w 48 0#6 := has_zero_add 8 6
  have hm6 : Has w 48 0#6 ↔ Has w 52 0#2 ∧ Has w 48 0#4 := has_zero_add 2 4
  have hvar (v : BitVec 2) : Has w 62 v ↔ w.extractLsb' 62 2 = v := Iff.rfl
  have hv : w.extractLsb' 62 2 = 0#2 ∨ w.extractLsb' 62 2 = 1#2 ∨ w.extractLsb' 62 2 = 2#2 ∨ w.extractLsb' 62 2 = 3#2 := by
    generalize w.extractLsb' 62 2 = v
    revert v; decide
  simp only [encode64]
  rcases hv with hv | hv | hv | hv <;> cases o
  all_goals
    simp only [encX, eq_iff_has (w := w), has_append, has_encHead]
    simp [hv, hvar, hm16, hm14, hm6, himm, Layout.ReadFrom, Layout.wf, decMovs, fA, fD, hcb, pure, Except.pure]
  all_goals
    simp only [Has] at *
    grind [headOf_wf_iff]

theorem part_exact (op : BitVec 10) (o : PartOp) : (Layout.part op o).Exact := by
  intro w hw
  obtain ⟨h, p⟩ := o
  have himm (z : BitVec 14) : (w.extractLsb' 41 7 ++ w.extractLsb' 34 7 : BitVec 14) = z ↔ _ := append_eq_iff (v := 7) (l := 7)
  have hm14 : Has w 48 0#14 ↔ Has w 54 0#8 ∧ Has w 48 0#6 := has_zero_add 8 6
  have hm6 : Has w 48 0#6 ↔ Has w 52 0#2 ∧ Has w 48 0#4 := has_zero_add 2 4
  simp only [encode64, encX, eq_iff_has (w := w), has_append, has_encHead]
  simp [Layout.ReadFrom, Layout.wf, decPart, mA, mD, pure, Except.pure]
  simp only [Has] at *
  grind [headOf_wf_iff]

theorem brx_exact (op : BitVec 10) (o : Brx) : (Layout.brx op o).Exact := by
  intro w hw
  cases o
  have himm (z : BitVec 14) : (w.extractLsb' 41 7 ++ w.extractLsb' 34 7 : BitVec 14) = z ↔ _ := append_eq_iff (v := 7) (l := 7)
  simp only [encode64, encX, eq_iff_has (w := w), has_append, has_encHead]
  simp [himm, Layout.ReadFrom, Layout.wf, decBrx, fA, mD, pure, Except.pure]
  simp only [Has] at *
  grind [headOf_wf_iff]

/-- CVT's types are the code points it holds. -/
theorem decCvt_types {w : DWord} {o : Cvt} (h : decCvt w = .ok o) :
    tyIn Ty.all (w.extractLsb' 52 4) = .ok o.src ∧ tyIn Ty.all (w.extractLsb' 48 4) = .ok o.dst := by
  unfold decCvt at h
  obtain ⟨src, hsrc, h⟩ := bind_eq_ok_iff.mp h
  obtain ⟨dst, hdst, h⟩ := bind_eq_ok_iff.mp h
  split at h
  · cases h
  · obtain ⟨-, -, h⟩ := bind_eq_ok_iff.mp h
    cases h
    exact ⟨hsrc, hdst⟩

theorem cvt_exact (op : BitVec 10) (o : Cvt) : (Layout.cvt op o).Exact := by
  intro w hw
  have hall (t : Ty) : t ∈ Ty.all := by cases t <;> decide
  simp only [encode64, encX, eq_iff_has (w := w), has_append, has_encHead]
  by_cases ht : tyIn Ty.all (w.extractLsb' 52 4) = .ok o.src ∧ tyIn Ty.all (w.extractLsb' 48 4) = .ok o.dst
  case neg =>
    refine iff_of_false (fun h => ht (decCvt_types h.2)) fun h => ht ?_
    simp [Has] at h
    simp [hall, h]
  case pos =>
    obtain ⟨h, d, a, b, half, eB, eA, sat, rnd, src, dst⟩ := o
    rcases hr : cvtRow src dst with _ | ⟨useB, satOk⟩
    all_goals
      simp [Layout.ReadFrom, Layout.wf, decCvt, Cvt.wf, hr, ht, fA, fB, fD, mC, pure, Except.pure]
    simp only [Has] at *
    grind [headOf_wf_iff, tyIn_eq_ok]

theorem copyx_exact (op : BitVec 10) (o : Copyx) : (Layout.copyx op o).Exact := by
  intro w hw
  obtain ⟨h, d, a, b, c, bo, xf⟩ := o
  have hxf (v : BitVec 3) : Has w 53 v ↔ w.extractLsb' 53 3 = v := Iff.rfl
  have h54 : w.getLsbD 54 = (w.extractLsb' 53 3).getLsbD 1 := by simp
  have hk : ∀ k : BitVec 3, k = 0#3 ∨ k = 1#3 ∨ k = 2#3 ∨ k = 3#3 ∨ k = 4#3 ∨ k = 5#3 ∨ k = 6#3 ∨ k = 7#3 := by decide
  simp only [encode64, encX, eq_iff_has (w := w), has_append, has_encHead]
  rcases hk (w.extractLsb' 53 3) with hk | hk | hk | hk | hk | hk | hk | hk <;> cases xf
  all_goals
    simp only [CopyXf.bits, has_append]
    simp [hk, hxf, h54, CopyXf.wf, CopyXf.scaled, Layout.ReadFrom, Layout.wf, decCopyx, fA, fB, fD, fC, map_eq_ok_iff, ite_eq_iff, pure, Except.pure]
  all_goals
    simp only [Has] at *
    grind [headOf_wf_iff]

theorem xr_exact (op : BitVec 10) (o : Xr) (hk : (xrRow op.toNat).kC = true → (xrRow op.toNat).imm = false) : (Layout.xr op o).Exact := by
  intro w hw
  obtain ⟨h, d, a, src, eC, eB, eA, absB, absA, negB, negA, sat, rnd, ty⟩ := o
  have hrnd : Rnd.ofCode (w.extractLsb' 52 2) = .rne ↔ _ := Rnd.ofCode_eq_iff
  have himm := @has_imm w
  have hshift : (fC w).toNat < 32 ↔ Has w 46 0#2 := toNat_lt_iff_has 5
  have hlane : (w.extractLsb' 34 14).toNat < 32 ↔ Has w 39 0#9 := toNat_lt_iff_has 5
  have hv (v : BitVec 2) : Has w 62 v ↔ w.extractLsb' 62 2 = v := Iff.rfl
  simp only [encode64]
  by_cases himmv : w.extractLsb' 62 2 = 1#2 <;> cases src
  all_goals
    simp only [encX, eq_iff_has (w := w), has_append, has_encHead]
    simp [hv, himmv, imm_eq, Layout.ReadFrom, Layout.wf, decXr, Xr.wf, XrSrc.wf, XrSrc.isImm, fA, fB, fD, pure, Except.pure]
  all_goals
    generalize xrRow op.toNat = r at *
    simp only [Has] at *
    grind [headOf_wf_iff, Rnd.code, fC]

/-! ### Every layout of 64 bits -/

theorem readFrom_len {L : Layout} {w : DWord} (h : L.ReadFrom w) : L.len = 8 := by
  cases L
  any_goals exact h.elim
  all_goals rfl

theorem cc_of_xp {i : Instr} {op : BitVec 10} {o : Xp} (h : i.layout = .xp op o) : (xmRow op.toNat).cc = .never := by
  cases i <;> cases h <;> rfl

theorem xrRow_imm_of_kC {n : Nat} (h : (xrRow n).kC = true) : (xrRow n).imm = false := by
  revert h
  unfold xrRow
  split <;> decide

theorem Layout.exact {L : Layout} (hlen : L.len = 8)
    (hxp : ∀ op o, L = .xp op o → (xmRow op.toNat).cc = .never) : L.Exact := by
  cases L
  case xr op o => exact xr_exact op o xrRow_imm_of_kC
  case sel op o => exact sel_exact op o
  case lut3 op o => exact (arithLayoutsExact op).lut3 o
  case fscale op o => exact (arithLayoutsExact op).fscale o
  case cvt op o => exact cvt_exact op o
  case pack op o => exact (arithLayoutsExact op).pack o
  case movi op o => exact (arithLayoutsExact op).movi o
  case movs op o => exact movs_exact op o
  case sr op o => exact (crossLaneLayoutsExact op).sr o
  case shfl op o => exact shfl_exact op o
  case vote op o => exact (crossLaneLayoutsExact op).vote o
  case tred op o => exact tred_exact op o
  case part op o => exact part_exact op o
  case xrng op o => exact (crossLaneLayoutsExact op).xrng o
  case xsort op o => exact (crossLaneLayoutsExact op).xsort o
  case xqnt op o => exact (crossLaneLayoutsExact op).xqnt o
  case xdqnt op o => exact (crossLaneLayoutsExact op).xdqnt o
  case br op o => exact (memoryLayoutsExact op).br o
  case jump op o => exact jump_exact op o
  case jumpReg op o => exact jumpReg_exact op o
  case brx op o => exact brx_exact op o
  case bare op o => exact (headLayoutsExact op).bare o
  case rep op o => exact rep_exact op o
  case xi op o => exact xi_exact op o
  case xm op o => exact xm_exact op o
  case xp op o => exact xp_exact op o (hxp op o rfl)
  case xa op o => exact (memoryLayoutsExact op).xa o
  case xas op o => exact (memoryLayoutsExact op).xas o
  case waita op o => exact waita_exact op o
  case bank op o => exact (memoryLayoutsExact op).bank o
  case xs op o => exact xs_exact op o
  case mlw op o => exact (matrixLayoutsExact op).mlw o
  case mma op o => exact (matrixLayoutsExact op).mma o
  case mdr op o => exact (matrixLayoutsExact op).mdr o
  case mzr op o => exact (matrixLayoutsExact op).mzr o
  case mrs op o => exact mrs_exact op o
  case mws op o => exact (matrixLayoutsExact op).mws o
  case copy op o => exact copy_exact op o
  case copyx op o => exact copyx_exact op o
  case hw op o => exact hw_exact op o
  case opA op o => exact (headLayoutsExact op).opA o
  case opD op o => exact (headLayoutsExact op).opD o
  case opDA op o => exact (headLayoutsExact op).opDA o
  case opAB op o => exact opAB_exact op o
  case scan op o => exact (chainLayoutsExact op).scan o
  case chainOp op o => exact (chainLayoutsExact op).chainOp o
  case cjoin op o => exact (chainLayoutsExact op).cjoin o
  case launch op o => exact launch_exact op o
  all_goals cases hlen

theorem decodeOp_eq_ok_iff {w : DWord} {i : Instr} (hw : Has w 0 3#2) :
    decodeOp w = .ok i ↔ i.len = 8 ∧ i.wellFormed = true ∧ encode64 i.layout = w := by
  have hx (hlen : i.layout.len = 8) : i.layout.Exact := Layout.exact hlen fun _ _ => cc_of_xp
  refine ⟨fun h => ?_, fun ⟨hlen, henc⟩ => decode_of_readFrom ((hx hlen w hw).mpr henc)⟩
  have hr := readFrom_of_map h
  exact ⟨readFrom_len hr, (hx (readFrom_len hr) w hw).mp hr⟩

end Sys2Proof
end

section
/-! The 16- and 32-bit forms (R90-R93). -/

namespace Sys2Proof

theorem h2Ctor_layout (op : BitVec 4) (o : H2) : (h2Ctor op o).layout = .h2 op o := by
  have hop : ∀ op : BitVec 4, ∃ k < 16, op = BitVec.ofNat 4 k := fun op => ⟨op.toNat, op.isLt, by simp⟩
  obtain ⟨k, hk, rfl⟩ := hop op
  interval_cases k <;> rfl

theorem h2Ctor_of_layout {i : Instr} {op : BitVec 4} {o : H2} (h : i.layout = .h2 op o) : h2Ctor op o = i := by
  cases i <;> cases h
  all_goals rfl

theorem n3Ctor_layout {op : BitVec 7} {c : N3 → Instr} (h : n3Ctor op = some c) (o : N3) : (c o).layout = .n3 op o := by
  unfold n3Ctor at h
  split at h <;> cases h
  all_goals exact congrArg (Layout.n3 · o) (BitVec.eq_of_toNat_eq (Eq.symm ‹_›))

theorem niCtor_layout {op : BitVec 7} {c : NI → Instr} (h : niCtor op = some c) (o : NI) : (c o).layout = .ni op o := by
  unfold niCtor at h
  split at h <;> cases h
  all_goals exact congrArg (Layout.ni · o) (BitVec.eq_of_toNat_eq (Eq.symm ‹_›))

theorem nmCtor_layout {op : BitVec 7} {c : NM → Instr} (h : nmCtor op = some c) (o : NM) : (c o).layout = .nm op o := by
  unfold nmCtor at h
  split at h <;> cases h
  all_goals exact congrArg (Layout.nm · o) (BitVec.eq_of_toNat_eq (Eq.symm ‹_›))

theorem n3Ctor_of_layout {i : Instr} {op : BitVec 7} {o : N3} (h : i.layout = .n3 op o) :
    ∃ c, n3Ctor op = some c ∧ c o = i := by
  cases i <;> cases h <;> exact ⟨_, rfl, rfl⟩

theorem niCtor_of_layout {i : Instr} {op : BitVec 7} {o : NI} (h : i.layout = .ni op o) :
    n3Ctor op = none ∧ ∃ c, niCtor op = some c ∧ c o = i := by
  cases i <;> cases h <;> exact ⟨rfl, _, rfl, rfl⟩

theorem nmCtor_of_layout {i : Instr} {op : BitVec 7} {o : NM} (h : i.layout = .nm op o) :
    n3Ctor op = none ∧ niCtor op = none ∧ ∃ c, nmCtor op = some c ∧ c o = i := by
  cases i <;> cases h <;> exact ⟨rfl, rfl, _, rfl, rfl⟩

theorem eq_jmpNJ_of_layout {i : Instr} {o : NJ} (h : i.layout = .nj o) : i = .jmpNJ o := by
  cases i <;> cases h
  rfl
theorem eq_repNP_of_layout {i : Instr} {o : RepFields} (h : i.layout = .np o) : i = .repNP o := by
  cases i <;> cases h
  rfl

@[simp] theorem zeroIn_ite {n lo len : Nat} {c : Prop} [Decidable c] {w : BitVec n} {u : Unit} (h : lo + len ≤ n) :
    zeroIn w (if c then bitsMask n lo len else 0#n) = .ok u ↔ (c → Has w lo 0#len) := by
  split
  case isTrue hc => simp [hc, h]
  case isFalse hc => simp [hc, zeroIn_eq_ok]

theorem decN3_eq_ok_iff {op : BitVec 7} {w : BitVec 32} {o : N3} (hw : Has w 0 1#2) :
    decN3 op w = .ok o ∧ w.extractLsb' 2 7 = op ↔ o.wf op = true ∧ encode32 (.n3 op o) = w := by
  cases o
  simp only [encode32, eq_iff_has (w := w), has_append]
  simp [decN3, N3.wf, pure, Except.pure, bind_eq_ok_iff]
  simp only [Has] at *
  grind

theorem decNI_eq_ok_iff {op : BitVec 7} {w : BitVec 32} {o : NI} (hw : Has w 0 1#2) :
    decNI op w = .ok o ∧ w.extractLsb' 2 7 = op ↔ o.wf op = true ∧ encode32 (.ni op o) = w := by
  cases o
  have hshift : (w.extractLsb' 24 8).toNat < 32 ↔ Has w 29 0#3 := toNat_lt_iff_has 5
  simp only [encode32, eq_iff_has (w := w), has_append]
  simp [decNI, NI.wf, pure, Except.pure, bind_eq_ok_iff]
  simp only [Has] at *
  grind

theorem decNM_eq_iff {op : BitVec 7} {w : BitVec 32} {o : NM} (hw : Has w 0 1#2) :
    decNM w = o ∧ w.extractLsb' 2 7 = op ↔ encode32 (.nm op o) = w := by
  cases o
  simp only [encode32, eq_iff_has (w := w), has_append]
  simp [decNM]
  simp only [Has] at *
  grind

theorem decNP_eq_ok_iff {w : BitVec 32} {o : RepFields} (hw : Has w 0 1#2) :
    decNP w = .ok o ∧ w.extractLsb' 2 7 = 0x70#7 ↔ encode32 (.np o) = w := by
  cases o
  simp only [encode32, encRepNP, eq_iff_has (w := w), has_append]
  simp [decNP, pure, Except.pure, bind_eq_ok_iff]
  simp only [Has] at *
  grind

theorem nj_eq_iff {w : BitVec 32} {o : NJ} (hw : Has w 0 1#2) :
    ⟨w.extractLsb' 9 23⟩ = o ∧ w.extractLsb' 2 7 = 0x68#7 ↔ encode32 (.nj o) = w := by
  cases o
  simp only [encode32, eq_iff_has (w := w), has_append]
  simp
  simp only [Has] at *
  grind

theorem decode32_eq_ok_iff {w : BitVec 32} {i : Instr} (hw : Has w 0 1#2) :
    decode32 w = .ok i ↔ i.len = 4 ∧ i.wellFormed = true ∧ encode32 i.layout = w := by
  constructor
  · intro h
    unfold decode32 at h
    extract_lets op at h
    split at h
    case h_1 c _ _ hc =>
      obtain ⟨o, ho, rfl⟩ := map_eq_ok_iff.mp h
      obtain ⟨hwf, henc⟩ := (decN3_eq_ok_iff hw).mp ⟨ho, rfl⟩
      rw [Instr.len, Instr.wellFormed, n3Ctor_layout hc]
      exact ⟨rfl, hwf, henc⟩
    case h_2 c _ _ hc =>
      obtain ⟨o, ho, rfl⟩ := map_eq_ok_iff.mp h
      obtain ⟨hwf, henc⟩ := (decNI_eq_ok_iff hw).mp ⟨ho, rfl⟩
      rw [Instr.len, Instr.wellFormed, niCtor_layout hc]
      exact ⟨rfl, hwf, henc⟩
    case h_3 c _ _ hc =>
      cases h
      rw [Instr.len, Instr.wellFormed, nmCtor_layout hc]
      exact ⟨rfl, rfl, (decNM_eq_iff hw).mp ⟨rfl, rfl⟩⟩
    case h_4 =>
      split at h
      case isTrue hop =>
        cases h
        exact ⟨rfl, rfl, (nj_eq_iff hw).mp ⟨rfl, beq_iff_eq.mp hop⟩⟩
      case isFalse =>
        split at h
        case isTrue hop =>
          obtain ⟨o, ho, rfl⟩ := map_eq_ok_iff.mp h
          exact ⟨rfl, rfl, (decNP_eq_ok_iff hw).mp ⟨ho, beq_iff_eq.mp hop⟩⟩
        case isFalse => cases h
  · rintro ⟨hlen, hwf, henc⟩
    rw [Instr.len] at hlen
    rw [Instr.wellFormed] at hwf
    cases hl : i.layout
    case n3 op o =>
      rw [hl] at hwf henc
      obtain ⟨c, hc, rfl⟩ := n3Ctor_of_layout hl
      obtain ⟨ho, hop⟩ := (decN3_eq_ok_iff hw).mpr ⟨hwf, henc⟩
      simp only [decode32, hop, hc, ho, Except.map]
    case ni op o =>
      rw [hl] at hwf henc
      obtain ⟨hn3, c, hc, rfl⟩ := niCtor_of_layout hl
      obtain ⟨ho, hop⟩ := (decNI_eq_ok_iff hw).mpr ⟨hwf, henc⟩
      simp only [decode32, hop, hn3, hc, ho, Except.map]
    case nm op o =>
      rw [hl] at henc
      obtain ⟨hn3, hni, c, hc, rfl⟩ := nmCtor_of_layout hl
      obtain ⟨ho, hop⟩ := (decNM_eq_iff hw).mpr henc
      simp only [decode32, hop, hn3, hni, hc, ho]
    case nj o =>
      rw [hl] at henc
      obtain rfl := eq_jmpNJ_of_layout hl
      obtain ⟨rfl, hop⟩ := (nj_eq_iff hw).mpr henc
      rw [decode32, hop]
      rfl
    case np o =>
      rw [hl] at henc
      obtain rfl := eq_repNP_of_layout hl
      obtain ⟨ho, hop⟩ := (decNP_eq_ok_iff hw).mpr henc
      rw [decode32, hop]
      exact congrArg (Except.map _) ho
    all_goals
      rw [hl] at hlen
      cases hlen

theorem h2_eq_iff {w : BitVec 16} {op : BitVec 4} {o : H2} (hw : w.getLsbD 0 = false) :
    ⟨w.getLsbD 15, w.extractLsb' 10 5, w.extractLsb' 5 5⟩ = o ∧ w.extractLsb' 1 4 = op ↔ encode16 (.h2 op o) = w := by
  cases o
  simp only [encode16, eq_iff_has (w := w), has_append]
  simp
  simp only [Has] at *
  grind

/-- R90: the one ill-formed halfword of the form is zero. -/
theorem h2_wf_iff {op : BitVec 4} {o : H2} : o.wf op = true ↔ encode16 (.h2 op o) ≠ 0#16 := by
  obtain ⟨c, s, d⟩ := o
  rw [Ne, ← h2_eq_iff rfl, H2.wf]
  simp
  grind

theorem decode16_eq_ok_iff {w : BitVec 16} {i : Instr} (hw : w.getLsbD 0 = false) :
    decode16 w = .ok i ↔ i.len = 2 ∧ i.wellFormed = true ∧ encode16 i.layout = w := by
  constructor
  · intro h
    unfold decode16 at h
    split at h
    case isTrue => cases h
    case isFalse hne =>
      cases h
      have henc := (h2_eq_iff hw).mp ⟨rfl, rfl⟩
      rw [Instr.len, Instr.wellFormed, h2Ctor_layout]
      exact ⟨rfl, h2_wf_iff.mpr (henc.symm ▸ hne :), henc⟩
  · rintro ⟨hlen, hwf, henc⟩
    rw [Instr.len] at hlen
    rw [Instr.wellFormed] at hwf
    cases hl : i.layout
    case h2 op o =>
      rw [hl] at hwf henc
      obtain ⟨ho, hop⟩ := (h2_eq_iff hw).mpr henc
      rw [decode16, if_neg (henc ▸ h2_wf_iff.mp hwf), ho, hop, h2Ctor_of_layout hl]
    all_goals
      rw [hl] at hlen
      cases hlen

end Sys2Proof
end

section
/-! Every instruction decodes from its own encoding, and what decodes encodes again. -/

namespace Sys2Proof

/-! ### The length of an encoding stands in its low bits (R86) -/

theorem halfCount_eq (h : Half) : halfCount h = if h.getLsbD 0 = false then 1 else if h.getLsbD 1 = false then 2 else 4 := by
  unfold halfCount
  cases h.getLsbD 0 <;> cases h.getLsbD 1 <;> rfl

theorem halfCount_eq_one_iff {w : Half} : halfCount w = 1 ↔ w.getLsbD 0 = false := by
  rw [halfCount_eq]
  grind

theorem has_two {N s : Nat} {w : BitVec N} {a b : Bool} : Has w s (b1 b ++ b1 a) ↔ w.getLsbD (s + 1) = b ∧ w.getLsbD s = a := by
  rw [has_append, has_bit, has_bit]

theorem halfCount_eq_two_iff {N : Nat} {w : BitVec N} : halfCount (w.extractLsb' 0 16) = 2 ↔ Has w 0 1#2 := by
  have h := @has_two N 0 w true false
  simp [halfCount_eq]
  grind

theorem halfCount_eq_four_iff {N : Nat} {w : BitVec N} : halfCount (w.extractLsb' 0 16) = 4 ↔ Has w 0 3#2 := by
  have h := @has_two N 0 w true true
  simp [halfCount_eq]
  grind

theorem encode16_low {L : Layout} (h : L.len = 2) : (encode16 L).getLsbD 0 = false := by
  cases L
  case h2 op o => exact has_zero_bit.mp (has_append.mp (eq_iff_has.mp rfl)).2
  all_goals cases h

theorem encode32_low {L : Layout} (h : L.len = 4) : Has (encode32 L) 0 1#2 := by
  cases L
  case n3 | ni | nm | nj | np => exact (has_append.mp (eq_iff_has.mp rfl)).2
  all_goals cases h

theorem append_encHead_low {x : BitVec 44} {h : Head} {op : BitVec 10} {w : DWord} (hw : x ++ encHead h op = w) : Has w 0 3#2 :=
  (has_append.mp (has_encHead.mp (has_append.mp (eq_iff_has.mp hw)).2).2).2

theorem encode64_low {L : Layout} (h : L.len = 8) : Has (encode64 L) 0 3#2 := by
  cases L
  case event | h2 | n3 | ni | nm | nj | np => cases h
  case xr op o =>
    rw [encode64]
    split <;> exact append_encHead_low rfl
  case movs op o =>
    rw [encode64]
    split <;> exact append_encHead_low rfl
  case hw op o =>
    rw [encode64]
    split <;> exact append_encHead_low rfl
  all_goals exact append_encHead_low rfl

theorem Instr.encode_of_len_two {i : Instr} (h : i.len = 2) : encode i = [encode16 i.layout] := by
  rw [Instr.len] at h
  rw [encode, h]
  rfl

theorem Instr.encode_of_len_four {i : Instr} (h : i.len = 4) :
    encode i = [(encode32 i.layout).extractLsb' 0 16, (encode32 i.layout).extractLsb' 16 16] := by
  rw [Instr.len] at h
  rw [encode, h]
  rfl

theorem Instr.encode_of_len_eight {i : Instr} (h : i.len = 8) :
    encode i = [(encode64 i.layout).extractLsb' 0 16, (encode64 i.layout).extractLsb' 16 16,
      (encode64 i.layout).extractLsb' 32 16, (encode64 i.layout).extractLsb' 48 16] := by
  rw [Instr.len] at h
  rw [encode, h]
  rfl

theorem Instr.encodable_of_len {i : Instr} {n : Nat} (h : i.len = n) (hn : 0 < n) : i.encodable = true := by
  simp only [Instr.encodable, h, Bool.not_eq_true', beq_eq_false_iff_ne]
  omega

end Sys2Proof

namespace Sys2Proof.Machine

/-- Settles O52: a short form is decoded by its length and then exactly from its own encoding. -/
theorem shortInstructionsRoundTrip : Obligations.ShortInstructionsRoundTrip := by
  unfold Obligations.ShortInstructionsRoundTrip
  rintro i hwf (hlen | hlen)
  case inl =>
    have hlow := encode16_low hlen
    rw [Instr.encode_of_len_two hlen, decodeHalves, if_pos (halfCount_eq_one_iff.mpr hlow)]
    exact (decode16_eq_ok_iff hlow).mpr ⟨hlen, hwf, rfl⟩
  case inr =>
    have hlow := encode32_low hlen
    rw [Instr.encode_of_len_four hlen, decodeHalves, if_pos (halfCount_eq_two_iff.mpr hlow), word32_of_halves]
    exact (decode32_eq_ok_iff hlow).mpr ⟨hlen, hwf, rfl⟩

/-- Settles O53: each layout of 64 bits is read exactly from its own encoding. -/
theorem longInstructionsRoundTrip : Obligations.LongInstructionsRoundTrip := by
  unfold Obligations.LongInstructionsRoundTrip
  intro i hwf hlen
  have hlow := encode64_low hlen
  rw [Instr.encode_of_len_eight hlen, decodeHalves, if_pos (halfCount_eq_four_iff.mpr hlow), word_of_halves]
  exact (decodeOp_eq_ok_iff hlow).mpr ⟨hlen, hwf, rfl⟩

/-- Settles O54: what each decoder accepts is exactly a well-formed instruction and its encoding, at each of the three lengths. -/
theorem decodedWordsEncodeAgain : Obligations.DecodedWordsEncodeAgain := by
  unfold Obligations.DecodedWordsEncodeAgain
  intro hs i h
  unfold decodeHalves at h
  split at h
  case h_1 h0 =>
    obtain ⟨hc, h⟩ := ite_eq_ok_error.mp h
    obtain ⟨hlen, hwf, rfl⟩ := (decode16_eq_ok_iff (halfCount_eq_one_iff.mp hc)).mp h
    exact ⟨hwf, Instr.encodable_of_len hlen (by decide), hlen, Instr.encode_of_len_two hlen⟩
  case h_2 h0 h1 =>
    obtain ⟨hc, h⟩ := ite_eq_ok_error.mp h
    obtain ⟨h0', h1'⟩ := halves_of_word32 h0 h1
    rw [← h0', halfCount_eq_two_iff] at hc
    obtain ⟨hlen, hwf, henc⟩ := (decode32_eq_ok_iff hc).mp h
    refine ⟨hwf, Instr.encodable_of_len hlen (by decide), hlen, ?_⟩
    rw [Instr.encode_of_len_four hlen, henc, h0', h1']
  case h_3 h0 h1 h2 h3 =>
    obtain ⟨hc, h⟩ := ite_eq_ok_error.mp h
    obtain ⟨h0', h1', h2', h3'⟩ := halves_of_word h0 h1 h2 h3
    rw [← h0', halfCount_eq_four_iff] at hc
    obtain ⟨hlen, hwf, henc⟩ := (decodeOp_eq_ok_iff hc).mp h
    refine ⟨hwf, Instr.encodable_of_len hlen (by decide), hlen, ?_⟩
    rw [Instr.encode_of_len_eight hlen, henc, h0', h1', h2', h3']
  case h_4 => cases h

/-- Settles O55: the decoder, run on each word, reads the instruction named. -/
theorem wordsOfTheSpecDecode : Obligations.WordsOfTheSpecDecode := by
  unfold Obligations.WordsOfTheSpecDecode
  decide +kernel

end Sys2Proof.Machine
end

section
/-! The 16- and 32-bit lane instructions (R90-R93): each form writes one word, or the flags alone. -/

namespace Sys2Proof.Machine

/-! ### One write of a word in each form -/

theorem h2_dest_mem {i : Instr} {op : BitVec 4} {o : H2} (hl : i.layout = .h2 op o) : (RegClass.v, o.d.toNat) ∈ writesRegs i := by
  refine mem_writesRegs (p := ⟨3, .v, o.d.toNat, 1, 1, !(op == 9 || op == 10), true, false⟩) (k := 0) ?_ rfl Nat.one_pos
  rw [hl, Layout.opnds]
  split <;> exact List.mem_cons_self

theorem givesWord_h2 {i : Instr} {op : BitVec 4} {o : H2} {f : Warp → Lane → Word × CC} (g : LaneMask → Warp → Warp)
    (hl : i.layout = .h2 op o) (hx : ∀ s, exec i s = issue i (lane g) s)
    (hg : ∀ m w, g m w = w.put m o.d.toNat o.c false (f w)) : GivesWord i o.d.toNat f :=
  givesWord_of g (fun s _ _ => hx s) hg (Nat.lt_trans o.d.isLt (by decide)) (h2_dest_mem hl) (by rw [hl]; rfl)

theorem givesWord_n3 {i : Instr} {op : BitVec 7} {o : N3} {f : Warp → Lane → Word × CC} (g : LaneMask → Warp → Warp)
    (hl : i.layout = .n3 op o) (hop : (op == 0x16 || op == 0x17) = false) (hx : ∀ s, exec i s = issue i (lane g) s)
    (hg : ∀ m w, g m w = w.put m o.d.toNat o.c false (f w)) : GivesWord i o.d.toNat f := by
  have hd : vD o.d ∈ i.layout.opnds 1 := by
    rw [hl, Layout.opnds, hop]
    exact List.mem_cons_self
  exact givesWord_of g (fun s _ _ => hx s) hg o.d.isLt (vD_written hd Nat.one_pos) (by rw [hl]; rfl)

theorem givesWord_ni {i : Instr} {op : BitVec 7} {o : NI} {f : Warp → Lane → Word × CC} (g : LaneMask → Warp → Warp)
    (hl : i.layout = .ni op o) (hop : (op == 0x48) = false) (hx : ∀ s, exec i s = issue i (lane g) s)
    (hg : ∀ m w, g m w = w.put m o.d.toNat o.c false (f w)) : GivesWord i o.d.toNat f := by
  have hd : vD o.d ∈ i.layout.opnds 1 := by
    rw [hl, Layout.opnds, hop]
    exact List.mem_cons_self
  exact givesWord_of g (fun s _ _ => hx s) hg o.d.isLt (vD_written hd Nat.one_pos) (by rw [hl]; rfl)

/-! ### The compares (R93) -/

theorem N3.wf_cmp {op : BitVec 7} {o : N3} (h : o.wf op = true) (hop : (op == 0x16 || op == 0x17) = true) : o.c = true := by
  simp only [N3.wf, hop, implies_eq_true, Bool.and_eq_true] at h
  exact (h.2 trivial).1

theorem NI.wf_cmp {o : NI} (h : o.wf 0x48 = true) : o.c = true := by
  simp only [NI.wf, implies_eq_true, Bool.and_eq_true] at h
  exact (h.2 rfl).1

theorem givesFlags_n3 {i : Instr} {op : BitVec 7} {o : N3} {f : Word → Word → CC} (hl : i.layout = .n3 op o)
    (hop : (op == 0x16 || op == 0x17) = true) (hx : ∀ s, exec i s = issueCmp i s) (hs : cmpSem i = n3Cmp o f) :
    GivesFlags i fun w l => f (w.vl o.a.toNat l) (w.vl o.b.toNat l) := by
  refine givesFlags_of (n3Cmp o f) (fun s c hi => (hx s).trans (hs ▸ issueCmp_of_issues hi)) (fun _ _ => rfl) fun hwf => ?_
  rw [Instr.wellFormed, hl] at hwf
  rw [hl]
  exact if_pos (N3.wf_cmp hwf hop)

/-! ### Shift amounts -/

/-- A shift amount below 32 is its low five bits. -/
theorem fieldOf_imm {o : NI} {op : BitVec 7} (h : o.wf op = true) (hop : (op == 0x41 || op == 0x42 || op == 0x43) = true) :
    fieldOf (o.imm.zeroExtend 32 : Word) 0 5 = o.imm.toNat := by
  simp only [NI.wf, hop, implies_eq_true, Bool.and_eq_true, decide_eq_true_eq] at h
  have hlt := h.1.1 trivial
  simp [fieldOf]
  omega

/-! ### The results -/

theorem shortFormsGiveTheirResults : ShortFormsGiveTheirResults := fun o =>
  ⟨givesWord_h2 (semIaddH2 o) rfl (fun _ => rfl) fun _ _ => rfl,
    givesWord_h2 (semIsubH2 o) rfl (fun _ => rfl) fun _ _ => rfl,
    givesWord_h2 (semImulH2 o) rfl (fun _ => rfl) fun _ _ => rfl,
    givesWord_h2 (semAndH2 o) rfl (fun _ => rfl) fun _ _ => rfl,
    givesWord_h2 (semOrH2 o) rfl (fun _ => rfl) fun _ _ => rfl,
    givesWord_h2 (semXorH2 o) rfl (fun _ => rfl) fun _ _ => rfl,
    givesWord_h2 (semShlH2 o) rfl (fun _ => rfl) fun _ _ => by simp only [← fieldOf_low5]; rfl,
    givesWord_h2 (semShrH2 o) rfl (fun _ => rfl) fun _ _ => by simp only [← fieldOf_low5]; rfl,
    givesWord_h2 (semSarH2 o) rfl (fun _ => rfl) fun _ _ => by simp only [← fieldOf_low5]; rfl,
    givesWord_h2 (semMovH2 o) rfl (fun _ => rfl) fun _ _ => rfl,
    givesWord_h2 (semMoviH2 o) rfl (fun _ => rfl) fun _ _ => rfl,
    givesWord_h2 (semFaddH2 o) rfl (fun _ => rfl) fun _ _ => rfl,
    givesWord_h2 (semFsubH2 o) rfl (fun _ => rfl) fun _ _ => rfl,
    givesWord_h2 (semFmulH2 o) rfl (fun _ => rfl) fun _ _ => rfl,
    givesWord_h2 (semFmaxH2 o) rfl (fun _ => rfl) fun _ _ => rfl,
    givesWord_h2 (semFminH2 o) rfl (fun _ => rfl) fun _ _ => rfl⟩

theorem threeRegisterFormsGiveTheirResults : ThreeRegisterFormsGiveTheirResults := fun o =>
  ⟨givesWord_n3 (semIaddN3 o) rfl rfl (fun _ => rfl) fun _ _ => rfl,
    givesWord_n3 (semIsubN3 o) rfl rfl (fun _ => rfl) fun _ _ => rfl,
    givesWord_n3 (semImulN3 o) rfl rfl (fun _ => rfl) fun _ _ => rfl,
    givesWord_n3 (semIminN3 o) rfl rfl (fun _ => rfl) fun _ _ => rfl,
    givesWord_n3 (semImaxN3 o) rfl rfl (fun _ => rfl) fun _ _ => rfl,
    givesWord_n3 (semAndN3 o) rfl rfl (fun _ => rfl) fun _ _ => rfl,
    givesWord_n3 (semOrN3 o) rfl rfl (fun _ => rfl) fun _ _ => rfl,
    givesWord_n3 (semXorN3 o) rfl rfl (fun _ => rfl) fun _ _ => rfl,
    givesWord_n3 (semAndnN3 o) rfl rfl (fun _ => rfl) fun _ _ => rfl,
    givesWord_n3 (semShlN3 o) rfl rfl (fun _ => rfl) fun _ _ => by simp only [← fieldOf_low5]; rfl,
    givesWord_n3 (semShrN3 o) rfl rfl (fun _ => rfl) fun _ _ => by simp only [← fieldOf_low5]; rfl,
    givesWord_n3 (semSarN3 o) rfl rfl (fun _ => rfl) fun _ _ => by simp only [← fieldOf_low5]; rfl,
    givesWord_n3 (semFaddN3 o) rfl rfl (fun _ => rfl) fun _ _ => rfl,
    givesWord_n3 (semFsubN3 o) rfl rfl (fun _ => rfl) fun _ _ => rfl,
    givesWord_n3 (semFmulN3 o) rfl rfl (fun _ => rfl) fun _ _ => rfl,
    givesWord_n3 (semFminN3 o) rfl rfl (fun _ => rfl) fun _ _ => rfl,
    givesWord_n3 (semFmaxN3 o) rfl rfl (fun _ => rfl) fun _ _ => rfl,
    givesWord_n3 (semHadd2N3 o) rfl rfl (fun _ => rfl) fun _ _ => rfl,
    givesWord_n3 (semHmul2N3 o) rfl rfl (fun _ => rfl) fun _ _ => rfl,
    givesWord_n3 (semBadd2N3 o) rfl rfl (fun _ => rfl) fun _ _ => rfl,
    givesWord_n3 (semBmul2N3 o) rfl rfl (fun _ => rfl) fun _ _ => rfl,
    givesWord_n3 (semMovN3 o) rfl rfl (fun _ => rfl) fun _ _ => rfl,
    givesFlags_n3 (f := fun a b => ccSub a b 0) rfl rfl (fun _ => rfl) rfl,
    givesFlags_n3 (f := fun a b => ccFcmp fp32 a.toNat b.toNat) rfl rfl (fun _ => rfl) rfl⟩

/-- The shifts of an immediate amount, which a well-formed instruction has below 32. -/
theorem givesWord_shift {i : Instr} {op : BitVec 7} {o : NI} (sh : Word → Nat → Word) (hl : i.layout = .ni op o)
    (hop : (op == 0x41 || op == 0x42 || op == 0x43) = true) (hne : (op == 0x48) = false)
    (hx : ∀ s, exec i s = issue i (lane (niSem o (o.imm.zeroExtend 32) fun a b => resW (sh a (fieldOf b 0 5)))) s) :
    GivesWord i o.d.toNat fun w l => resW (sh (w.vl o.a.toNat l) o.imm.toNat) := by
  refine givesWord_of_wf fun hwf => givesWord_ni _ hl hne hx fun m w => ?_
  rw [Instr.wellFormed, hl] at hwf
  simp only [niSem, fieldOf_imm hwf hop]

theorem immediateFormsGiveTheirResults : ImmediateFormsGiveTheirResults := fun o =>
  ⟨givesWord_ni (semIaddi o) rfl rfl (fun _ => rfl) fun _ _ => rfl,
    givesWord_shift (· <<< ·) rfl rfl rfl fun _ => rfl,
    givesWord_shift (· >>> ·) rfl rfl rfl fun _ => rfl,
    givesWord_shift BitVec.sshiftRight rfl rfl rfl fun _ => rfl,
    givesWord_ni (semAndi o) rfl rfl (fun _ => rfl) fun _ _ => rfl,
    givesWord_ni (semOri o) rfl rfl (fun _ => rfl) fun _ _ => rfl,
    givesWord_ni (semXori o) rfl rfl (fun _ => rfl) fun _ _ => rfl,
    givesWord_ni (semMovi8 o) rfl rfl (fun _ => rfl) fun _ _ => rfl,
    givesFlags_of (semIcmpi o) (fun _ _ hi => issueCmp_of_issues hi) (fun _ _ => rfl) fun hwf => if_pos (NI.wf_cmp hwf)⟩

/-- Settles O1: every instruction's effect is one write of its result and flags, or of the flags alone. -/
theorem shortInstructionsGiveTheirResults : Obligations.ShortInstructionsGiveTheirResults :=
  ⟨shortFormsGiveTheirResults, threeRegisterFormsGiveTheirResults, immediateFormsGiveTheirResults⟩

end Sys2Proof.Machine
end

section
/-! RTE (R110, R246, R338): the fragment goes on where it trapped, and what becomes of a repetition it owned. -/

namespace Sys2Proof.Machine

/-- The fragment as RTE leaves it. -/
def returned (w : Warp) (h : Handler) (f : Frag) : Frag :=
  { f with pc := w.x.pc &&& ~~~1#64, join := h.join, depth := h.depth, handler := false, st := .ready, cond := .never, released := false }

theorem Warp.leaveHandler_not_owner {w : Warp} {h : Handler} (hw : w.handler = some h) (ho : h.owner = false) (r : FragSel) :
    w.leaveHandler r = ({ w with handler := none } : Warp).modFrag (returned w h) r := by
  simp only [Warp.leaveHandler, hw, ho]
  rfl

theorem Warp.leaveHandler_resumes {w : Warp} {h : Handler} {p : RepState} (hw : w.handler = some h) (ho : h.owner = true)
    (hp : w.rep = some p) (ha : p.addr = w.x.pc &&& ~~~1#64) (r : FragSel) :
    w.leaveHandler r = ({ w with handler := none, rep := some { p with f := none, owner := r } } : Warp).modFrag (returned w h) r := by
  simp only [Warp.leaveHandler, hw, ho, hp, ha, beq_self_eq_true, if_true]
  rfl

theorem Warp.leaveHandler_gives_up {w : Warp} {h : Handler} {p : RepState} (hw : w.handler = some h) (ho : h.owner = true)
    (hp : w.rep = some p) (ha : p.addr ≠ w.x.pc &&& ~~~1#64) (r : FragSel) :
    w.leaveHandler r = ({ w with handler := none, rep := none, repc := 0 } : Warp).modFrag (returned w h) r := by
  simp only [Warp.leaveHandler, hw, ho, hp, beq_eq_false_iff_ne.mpr ha, if_true, Bool.false_eq_true, if_false]
  rfl

/-- RTE in the handler, with the mask it must have, leaves the warp as `leaveHandler` makes it, but for its marks. -/
theorem rte_completes (o : Head) {h : Handler} {s : State} {c : Ctx} (hi : Issues (.rte o) s c) (hh : c.f.handler = true)
    (hw : c.w.handler = some h) (hm : c.f.mask = h.mask &&& ~~~c.w.exited) :
    ∃ t a o', exec (.rte o) s = .next t ∧
      t.warp? c.ref.block c.ref.warp = some { c.w.leaveHandler c.ref.sel with started := a, ordinal := o' } := by
  have hb : rteEff c (c.lanes (.rte o)) s = .went (s.land c (c.w.leaveHandler c.ref.sel) [idxOf c.ref.sel]) := by
    have hok : c.rteMaskOk = true := by simp [Ctx.rteMaskOk, hw, hm]
    rw [rteEff, hh, hok, State.warpOf_eq hi.warp]
    rfl
  obtain ⟨t, a, o', he, ht, -⟩ := went_completes_noted (body := rteEff) hi hb (land_noted _ _ _ _)
  exact ⟨t, a, o', he, ht⟩

/-- Where RTE changes no split but its fragment's, the fragment returns and the rest of the warp is as it is left. -/
theorem rte_completes_as (o : Head) {h : Handler} {s : State} {c : Ctx} (hi : Issues (.rte o) s c) (hh : c.f.handler = true)
    (hw : c.w.handler = some h) (hm : c.f.mask = h.mask &&& ~~~c.w.exited) {x : Warp}
    (hx : c.w.leaveHandler c.ref.sel = x.modFrag (returned c.w h) c.ref.sel) (hs : x.split = c.w.split) :
    ∃ t sp a o', exec (.rte o) s = .next t ∧
      t.warp? c.ref.block c.ref.warp = some { x with split := sp, started := a, ordinal := o' } ∧
      ({ x with split := sp, started := a, ordinal := o' } : Warp).frag? c.ref.sel = some (returned c.w h c.f) := by
  obtain ⟨t, a, o', he, ht⟩ := rte_completes o hi hh hw hm
  obtain ⟨k, hk⟩ := isPath_entry hi.here
  have hf := hi.frag
  rw [hk] at hf
  have hxf : x.frag? (.entry k) = some c.f := by rw [← hf]; simp only [Warp.frag?, hs]
  rw [hx, hk] at ht
  refine ⟨t, _, a, o', he, ht, ?_⟩
  rw [hk]
  exact (Warp.frag?_modFrag x (returned c.w h) k).trans (by rw [hxf]; rfl)

theorem rte_returns (o : Head) (h : Handler) : CompletesIf (.rte o)
    (fun _ c => c.f.handler = true ∧ c.w.handler = some h ∧ c.f.mask = h.mask &&& ~~~c.w.exited ∧ h.owner = false)
    fun _ c _ w => w.handler = none ∧ SameData c.w w ∧ w.lfsr = c.w.lfsr ∧ w.join = c.w.join ∧ w.exited = c.w.exited ∧ w.rep = c.w.rep ∧
      ∃ f, w.frag? c.ref.sel = some f ∧ f.pc = c.w.x.pc &&& ~~~1#64 ∧ f.handler = false ∧ f.st = .ready ∧ f.mask = c.f.mask ∧
        f.join = h.join ∧ f.depth = h.depth := by
  rintro s c hi ⟨hh, hw, hm, ho⟩
  obtain ⟨t, sp, a, o', he, ht, hf⟩ := rte_completes_as o hi hh hw hm (Warp.leaveHandler_not_owner hw ho _) rfl
  exact ⟨t, _, he, ht, rfl, ⟨rfl, rfl, rfl, rfl, rfl, rfl, rfl, rfl, rfl, rfl, rfl, rfl, rfl, rfl, rfl⟩, rfl, rfl, rfl, rfl,
    _, hf, rfl, rfl, rfl, rfl, rfl, rfl⟩

theorem rte_resumes_or_gives_up (o : Head) (h : Handler) (r : RepState) : CompletesIf (.rte o)
    (fun _ c => c.f.handler = true ∧ c.w.handler = some h ∧ c.f.mask = h.mask &&& ~~~c.w.exited ∧ h.owner = true ∧ c.w.rep = some r)
    fun _ c _ w => w.handler = none ∧ w.v = c.w.v ∧ w.s = c.w.s ∧ w.h = c.w.h ∧ w.join = c.w.join ∧ w.exited = c.w.exited ∧
      (r.addr = c.w.x.pc &&& ~~~1#64 → w.repc = c.w.repc ∧ w.rep = some { r with f := none, owner := c.ref.sel }) ∧
      (r.addr ≠ c.w.x.pc &&& ~~~1#64 → w.repc = 0 ∧ w.rep = none) ∧
      ∃ f, w.frag? c.ref.sel = some f ∧ f.pc = c.w.x.pc &&& ~~~1#64 ∧ f.handler = false ∧ f.st = .ready ∧ f.mask = c.f.mask ∧
        f.join = h.join ∧ f.depth = h.depth := by
  rintro s c hi ⟨hh, hw, hm, ho, hr⟩
  by_cases ha : r.addr = c.w.x.pc &&& ~~~1#64
  case pos =>
    obtain ⟨t, sp, a, o', he, ht, hf⟩ := rte_completes_as o hi hh hw hm (Warp.leaveHandler_resumes hw ho hr ha _) rfl
    exact ⟨t, _, he, ht, rfl, rfl, rfl, rfl, rfl, rfl, fun _ => ⟨rfl, rfl⟩, fun hne => absurd ha hne,
      _, hf, rfl, rfl, rfl, rfl, rfl, rfl⟩
  case neg =>
    obtain ⟨t, sp, a, o', he, ht, hf⟩ := rte_completes_as o hi hh hw hm (Warp.leaveHandler_gives_up hw ho hr ha _) rfl
    exact ⟨t, _, he, ht, rfl, rfl, rfl, rfl, rfl, rfl, fun heq => absurd heq ha, fun _ => ⟨rfl, rfl⟩,
      _, hf, rfl, rfl, rfl, rfl, rfl, rfl⟩

theorem rte_traps_outside (o : Head) : TrapsWhere (.rte o) (fun _ c => c.f.handler = false) 3 0 := fun s c hi hh =>
  trap_completes (body := rteEff) hi (by simp only [rteEff, hh, Bool.not_false, if_true]) (by decide)

theorem rte_traps_on_mask (o : Head) (h : Handler) : TrapsWhere (.rte o)
    (fun _ c => c.f.handler = true ∧ c.w.handler = some h ∧ c.f.mask ≠ h.mask &&& ~~~c.w.exited) 4 3 := by
  rintro s c hi ⟨hh, hw, hm⟩
  have hok : c.rteMaskOk = false := by simp [Ctx.rteMaskOk, hw, hm]
  exact trap_completes (body := rteEff) hi
    (by simp only [rteEff, hh, hok, Bool.not_true, Bool.not_false, Bool.false_eq_true, if_false, if_true]) (by decide)

/-- Settles O20: RTE leaves the handler in its warp alone, by whether its fragment owns a repetition and where it goes on. -/
theorem rteReturnsFromTheHandler : Obligations.RteReturnsFromTheHandler :=
  ⟨rte_returns, rte_resumes_or_gives_up, rte_traps_outside, rte_traps_on_mask⟩

end Sys2Proof.Machine
end

section
/-! Global loads (R177, R185, R260, R262): each lane in turn sends its request, and the instruction retires. -/

namespace Sys2Proof.Machine

/-! ### Requests sent -/

/-- A state that has sent some requests, numbered in the port's order (R262). -/
def State.sentAll (s : State) (qs : List Req) : State :=
  { s with reqs := s.reqs ++ qs.zipIdx.map fun x => { x.1 with id := s.nextReq + x.2, sentAt := s.time }
           nextReq := s.nextReq + qs.length }

theorem State.sentAll_nil (s : State) : s.sentAll [] = s := by
  simp [State.sentAll]

theorem State.send_sentAll (s : State) (qs : List Req) (q : Req) : (s.sentAll qs).send q = s.sentAll (qs ++ [q]) := by
  simp [State.sentAll, State.send, List.zipIdx_append, Nat.add_assoc]

theorem State.send_sentAll_one (s : State) (q : Req) : s.send q = s.sentAll [q] := by
  rw [← State.sentAll_nil s, State.send_sentAll, State.sentAll_nil]
  rfl

theorem State.reqs_sentAll_map (s : State) (ls : List Lane) (f : Lane → Req) : (s.sentAll (ls.map f)).reqs =
    s.reqs ++ ls.zipIdx.map fun x => { f x.1 with id := s.nextReq + x.2, sentAt := s.time } := by
  simp [State.sentAll, List.zipIdx_map]

/-- Lanes each of which sends its request leave the state that has sent them all, and none fails. -/
theorem eachLane_sends {s : State} {ls : List Lane} {step : State → Lane → State × Option LaneErr} {f : Lane → Req}
    (h : ∀ pre l, pre ++ [l] <+: ls → step (s.sentAll (pre.map f)) l = ((s.sentAll (pre.map f)).send (f l), none)) :
    s.eachLane ls step = (s.sentAll (ls.map f), []) := by
  unfold State.eachLane
  suffices hl : ∀ pre post, pre ++ post = ls → post.foldl (fun (st : State × List LaneErr) l =>
      let r := step st.1 l
      (r.1, st.2 ++ r.2.toList)) (s.sentAll (pre.map f), []) = (s.sentAll (ls.map f), []) by
    simpa [State.sentAll_nil] using hl [] ls rfl
  intro pre post
  induction post generalizing pre with
  | nil =>
    rintro rfl
    simp
  | cons l post ih =>
    intro hls
    have hpre : pre ++ [l] <+: ls := ⟨post, by simpa using hls⟩
    rw [List.foldl_cons, h pre l hpre, State.send_sentAll, ← ih (pre ++ [l]) (by simpa using hls), List.map_append]
    rfl

/-! ### Translations while requests are on their way -/

/-- An entry that a TLB holds serves a translation whatever requests are on their way. -/
theorem xlate_sentAll {s : State} {quad asid va : Nat} {acc : Acc} (h : (s.tlbFind quad asid va).isSome = true) (qs : List Req)
    {x : Xlate} (hx : s.xlate quad asid va acc = (s, x)) : (s.sentAll qs).xlate quad asid va acc = (s.sentAll qs, x) := by
  have hfind : (s.sentAll qs).tlbFind quad asid va = s.tlbFind quad asid va := rfl
  obtain ⟨e, he⟩ := Option.isSome_iff_exists.mp h
  rw [State.xlate, he] at hx
  rw [State.xlate, hfind, he]
  simp only [State.noteXlate, State.notePage] at hx ⊢
  cases hp : pteResult e.pte va acc with
  | fault c m =>
    rw [hp] at hx
    exact congrArg (Prod.mk _) (congrArg Prod.snd hx :)
  | ok pa a =>
    have hm : (s.sentAll qs).maps = s.maps := rfl
    rw [hp] at hx
    rw [hm]
    cases hf : s.maps.filter (·.holds asid va) with
    | nil =>
      rw [hf] at hx
      have hl := congrArg (fun y => y.1.maps.length) hx
      simp at hl
    | cons m ms =>
      rw [hf] at hx
      exact congrArg (Prod.mk _) (congrArg Prod.snd hx :)

/-- A lane whose address a TLB holds is translated, whatever requests are on their way. -/
theorem laneXlate_sentAll {s : State} {c : Ctx} {l : Lane} {va pa : Nat} {a : Attr} {acc : Acc} {reads : Bool} (qs : List Req)
    (h : Maps s c va acc pa a) (hlost : s.lostAt a.tier pa = none) (hbad : reads = true → s.badAt a.target a.tier pa = none) :
    (s.sentAll qs).laneXlate c l va acc reads = (s.sentAll qs, .ok (pa, a)) := by
  obtain ⟨hfind, hx⟩ := h
  have hx' := xlate_sentAll hfind qs hx
  have hfind' : ((s.sentAll qs).tlbFind (s.quadOf c.b.core) c.l.asid va).isSome = true := hfind
  have hq : (s.sentAll qs).quadOf c.b.core = s.quadOf c.b.core := rfl
  have hlost' : (s.sentAll qs).lostAt a.tier pa = none := hlost
  have hbad' : reads = true → (s.sentAll qs).badAt a.target a.tier pa = none := hbad
  unfold State.laneXlate
  rw [hq]
  simp only [hx', hfind', State.noteWalk, if_true]
  cases reads with
  | true => simp only [hbad' rfl, if_true]
  | false => simp only [hlost', Bool.false_eq_true, if_false]

/-! ### Live lines while loads are on their way -/

/-- A request that holds back no live line: a load's. -/
def Req.IsLoad (q : Req) : Prop := q.kind = .fill ∨ q.kind = .read

theorem any_sentAll {s : State} {qs : List Req} {p : Req → Bool} (h : ∀ q ∈ qs, ∀ k, p { q with id := k, sentAt := s.time } = false) :
    (s.sentAll qs).reqs.any p = s.reqs.any p := by
  have hnew : ((qs.zipIdx.map fun x => { x.1 with id := s.nextReq + x.2, sentAt := s.time }).any p) = false := by
    rw [List.any_eq_false]
    intro x hx
    obtain ⟨⟨q, k⟩, hq, rfl⟩ := List.mem_map.mp hx
    simpa using h q (List.fst_mem_of_mem_zipIdx hq) _
  rw [State.sentAll, List.any_append, hnew, Bool.or_false]

/-- Loads on their way change no line's service. -/
theorem l1Find_sentAll {s : State} {c : Ctx} {va : Nat} {qs : List Req} (h : ∀ q ∈ qs, q.IsLoad) :
    (s.sentAll qs).l1Find c va = s.l1Find c va := by
  have hatomic (core line : Nat) : (s.sentAll qs).ownAtomic core line = s.ownAtomic core line :=
    any_sentAll fun q hq k => by
      obtain hk | hk := h q hq <;> simp [hk]
  have hstore (core line uid wi : Nat) (m : LaneMask) : (s.sentAll qs).otherStore core line uid wi m = s.otherStore core line uid wi m :=
    any_sentAll fun q hq k => by
      obtain hk | hk := h q hq <;> simp [hk]
  have hcore : (s.sentAll qs).core = s.core := rfl
  have htime : (s.sentAll qs).time = s.time := rfl
  simp only [State.l1Find, hatomic, hstore, hcore, htime]

/-! ### How a load ends -/

/-- What an acquire action makes of the issuing warp: its fragment alone changes. -/
def LeavesAcquire (c : Ctx) (ord : Ord) (sc : Scope) (n : Nat) (g : Warp → Warp) : Prop :=
  ∀ w, (g w).frag? c.ref.sel = (w.frag? c.ref.sel).map (acquireFrag ord sc n) ∧ (∀ r, r ≠ c.ref.sel → (g w).frag? r = w.frag? r) ∧
    ∃ sp, g w = { w with split := sp }

/-- The acquire action changes the issuing warp alone (R186). -/
theorem acquire_noted {c : Ctx} (hp : isPath c.ref.sel = false) (s : State) (ord : Ord) (sc : Scope) :
    ∃ g, Noted c g s (s.acquire c ord sc) ∧ LeavesAcquire c ord sc s.nextReq g := by
  obtain ⟨k, hk⟩ := isPath_entry hp
  by_cases h : (ord = .acq ∨ ord = .acqrel) ∧ sc ≠ .core
  case pos =>
    have hb : ((ord == .acq || ord == .acqrel) && sc != .core) = true := by simpa using h
    have hg : acquireFrag ord sc s.nextReq = fun f => { f with acquire := some s.nextReq } := by
      funext f
      rw [acquireFrag, acquired, if_pos h]
    refine ⟨fun w => w.modFrag (acquireFrag ord sc s.nextReq) c.ref.sel, ?_, fun w => ⟨Warp.frag?_modFrag_self _ _ _, fun r hr => ?_, ?_⟩⟩
    · rw [State.acquire, hb, if_pos rfl, hg]
      exact Noted.modW s c _
    · rw [hk] at hr ⊢
      exact Warp.frag?_modFrag_ne _ _ hr
    · rw [hk]
      exact ⟨_, rfl⟩
  case neg =>
    have hb : ((ord == .acq || ord == .acqrel) && sc != .core) = false := by simpa using h
    have hg : acquireFrag ord sc s.nextReq = id := by
      funext f
      rw [acquireFrag, acquired, if_neg h]
      rfl
    refine ⟨id, ?_, fun w => ⟨?_, fun _ _ => rfl, w.split, rfl⟩⟩
    · rw [State.acquire, hb, if_neg Bool.false_ne_true]
      exact Noted.cores s c s.cores
    · rw [hg]
      exact Option.map_id_apply.symm

/-- The destinations of an access that is on its way are empty where a lane executes (R62). -/
theorem vFull_markAll_false (w : Warp) (dst : List (RegClass × Nat)) {r : Nat} (hr : r < 128) :
    (w.markAll false dst).vFull.getLsbD r = (w.vFull.getLsbD r && !dst.contains (.v, r)) := by
  have h := Warp.fullBit_markAll w false dst (r := (.v, r)) hr
  rw [show (w.markAll false dst).vFull.getLsbD r = (w.markAll false dst).fullBit (.v, r) from rfl, h]
  by_cases hm : (RegClass.v, r) ∈ dst
  · simp [hm]
  · simp [hm, Warp.fullBit]

theorem markAll_v_fields (w : Warp) (full : Bool) {dst : List (RegClass × Nat)} (h : ∀ r ∈ dst, r.1 = .v) :
    ∃ v, w.markAll full dst = { w with vFull := v } := by
  suffices hv : ∀ v, ∃ v', ({ w with vFull := v } : Warp).markAll full dst = { w with vFull := v' } from hv w.vFull
  induction dst with
  | nil => exact fun v => ⟨v, rfl⟩
  | cons r l ih =>
    obtain ⟨rc, rn⟩ := r
    obtain rfl : rc = .v := h _ List.mem_cons_self
    exact fun v => ih (fun r hr => h r (List.mem_cons_of_mem _ hr)) _

theorem vRegs_v (d n : Nat) : ∀ r ∈ vRegs d n, r.1 = .v := by
  intro r hr
  obtain ⟨k, -, rfl⟩ := List.mem_map.mp hr
  rfl

/-- The issuing warp while an access is on its way: its destinations are empty where a lane executes. -/
def emptied (m : LaneMask) (dst : List (RegClass × Nat)) (w : Warp) : Warp := if 0 < popcount m then w.markAll false dst else w

/-- A state whose requests have been sent and whose destinations are empty. -/
def State.underWay (s : State) (c : Ctx) (m : LaneMask) (dst : List (RegClass × Nat)) (qs : List Req) : State :=
  if 0 < popcount m then (s.sentAll qs).modW c fun w => w.markAll false dst else s.sentAll qs

theorem underWay_noted (s : State) (c : Ctx) (m : LaneMask) (dst : List (RegClass × Nat)) (qs : List Req) :
    Noted c (emptied m dst) (s.sentAll qs) (s.underWay c m dst qs) := by
  have hf : emptied m dst = if 0 < popcount m then fun w => w.markAll false dst else id := by
    funext w
    unfold emptied
    split <;> rfl
  rw [hf]
  unfold State.underWay
  split
  · exact Noted.modW _ c _
  · exact Noted.cores _ c (s.sentAll qs).cores

theorem emptied_fields (m : LaneMask) {dst : List (RegClass × Nat)} (h : ∀ r ∈ dst, r.1 = .v) (w : Warp) :
    ∃ v, emptied m dst w = { w with vFull := v } := by
  unfold emptied
  split
  · exact markAll_v_fields w false h
  · exact ⟨w.vFull, rfl⟩

theorem emptied_vFull (m : LaneMask) (dst : List (RegClass × Nat)) (w : Warp) {r : Nat} (hr : r < 128) :
    (emptied m dst w).vFull.getLsbD r = (w.vFull.getLsbD r && !(m != 0 && dst.contains (.v, r))) := by
  unfold emptied
  split
  case isTrue h =>
    have hm : (m != 0) = true := by simpa [popcount_eq_zero] using Nat.pos_iff_ne_zero.mp h
    rw [vFull_markAll_false w dst hr, hm, Bool.true_and]
  case isFalse h =>
    have hm : (m != 0) = false := by simpa [popcount_eq_zero] using h
    rw [hm, Bool.false_and, Bool.not_false, Bool.and_true]

/-- Noting an issue changes the blocks and what the cores keep for themselves. -/
theorem firstSync_parts (s : State) (c : Ctx) : ∃ b x, s.firstSync c = { s with blocks := b, cores := x } := by
  unfold State.firstSync
  split
  · exact ⟨s.blocks, s.cores, rfl⟩
  · obtain ⟨x, hx⟩ := State.packet_eq (s.modW c fun w => { w with started := true }) c.b.core c.l.asid none
      (syncPacket c.w.warpSlot (idxOf c.ref.sel).val c.f.pc (s.modW c fun w => { w with started := true }).time c.f.mask)
    rw [State.syncFrag, hx]
    exact ⟨_, x, rfl⟩

theorem noteIssue_parts (s : State) (c : Ctx) (l : Layout) : ∃ b x, s.noteIssue c l = { s with blocks := b, cores := x } := by
  obtain ⟨b, x, h⟩ := firstSync_parts s c
  unfold State.noteIssue
  split
  · exact ⟨s.blocks, s.cores, rfl⟩
  · extract_lets s1 o
    split
    · rw [show s1 = _ from h]
      exact ⟨_, _, rfl⟩
    · exact ⟨b, x, h⟩

theorem finish_ok_nextReq (c : Ctx) (i : Instr) (s : State) : (finish c i (.ok s)).nextReq = s.nextReq := by
  obtain ⟨b, x, h⟩ := noteIssue_parts s c i.layout
  exact (congrArg State.nextReq h :)

theorem acquire_nextReq (s : State) (c : Ctx) (ord : Ord) (sc : Scope) : (s.acquire c ord sc).nextReq = s.nextReq := by
  unfold State.acquire
  split <;> rfl

/-- The issuing warp once an access whose requests are on their way has retired: its destinations are empty, its fragment holds the
acquire action and stands at the next instruction, and all else is as it was. -/
structure OnItsWay (i : Instr) (c : Ctx) (dst : List (RegClass × Nat)) (acq : Option Nat) (w : Warp) : Prop where
  frag : ∃ g, w.frag? c.ref.sel = some g ∧ Fallen i c.f g ∧ g.acquire = acq
  otherFrags : ∀ r, r ≠ c.ref.sel → w.frag? r = c.w.frag? r
  fields : ∃ sp a o v, w = { c.w with split := sp, started := a, ordinal := o, vFull := v } ∧
    ∀ r, r < 128 → v.getLsbD r = (c.w.vFull.getLsbD r && !(c.lanes i != 0 && dst.contains (.v, r)))

theorem retired_onItsWay {i : Instr} {s : State} {c : Ctx} (h : Issues i s c) {dst : List (RegClass × Nat)} (hdst : ∀ r ∈ dst, r.1 = .v)
    {ord : Ord} {sc : Scope} {n : Nat} {g : Warp → Warp} (hg : LeavesAcquire c ord sc n g) (a : Bool) (o : Word) :
    OnItsWay i c dst (acquired ord sc n c.f.acquire) (retiredWarp i c (g (emptied (c.lanes i) dst c.w)) a o) := by
  obtain ⟨v, hv⟩ := emptied_fields (c.lanes i) hdst c.w
  have hfull := fun r hr => emptied_vFull (c.lanes i) dst c.w (r := r) hr
  obtain ⟨hsel, hother, sp, hsp⟩ := hg (emptied (c.lanes i) dst c.w)
  obtain ⟨sp', hret⟩ := retiredWarp_fields h (g (emptied (c.lanes i) dst c.w)) a o
  have hsame (r : FragSel) : (emptied (c.lanes i) dst c.w).frag? r = c.w.frag? r := by
    rw [hv]
    cases r <;> rfl
  rw [hsame, h.frag] at hsel
  refine ⟨⟨_, retiredWarp_frag h hsel a o, ⟨rfl, rfl, rfl, rfl, rfl, rfl, rfl⟩, rfl⟩, fun r hr => ?_, sp', a, o, v, ?_, ?_⟩
  · rw [retiredWarp_frag_ne h _ a o hr, hother r hr, hsame]
  · rw [hret, hsp, hv]
  · simpa only [hv] using hfull

/-- An access that has sent a request for each lane retires as the statements say, whatever free values it has drawn. -/
theorem sent_of_underWay {i : Instr} {s : State} {c : Ctx} {body : Ctx → LaneMask → State → Eff} (h : Issues i s c)
    {dst : List (RegClass × Nat)} (hdst : ∀ r ∈ dst, r.1 = .v) {ord : Ord} {sc : Scope} {f : Lane → Req} (n : Nat)
    (hb : body c (c.lanes i) s = .ok ((({ s with fresh := n } : State).underWay c (c.lanes i) dst ((lanesOf (c.lanes i)).map f)).acquire c ord sc)) :
    ∃ t w, issue i body s = .next t ∧ t.warp? c.ref.block c.ref.warp = some w ∧
      Sent i s c t w dst (acquired ord sc (s.nextReq + (lanesOf (c.lanes i)).length) c.f.acquire) f := by
  have hu := underWay_noted { s with fresh := n } c (c.lanes i) dst ((lanesOf (c.lanes i)).map f)
  have hnext : (({ s with fresh := n } : State).underWay c (c.lanes i) dst ((lanesOf (c.lanes i)).map f)).nextReq = s.nextReq + (lanesOf (c.lanes i)).length := by
    unfold State.underWay
    split <;> exact congrArg _ (List.length_map _)
  obtain ⟨g, hg, hleaves⟩ := acquire_noted h.here (({ s with fresh := n } : State).underWay c (c.lanes i) dst ((lanesOf (c.lanes i)).map f)) ord sc
  obtain ⟨st, od, hfin⟩ := finish_ok i ((({ s with fresh := n } : State).underWay c (c.lanes i) dst ((lanesOf (c.lanes i)).map f)).acquire c ord sc) h.here
  have hall := (hu.trans hg).trans hfin
  have hw : (({ s with fresh := n } : State).sentAll ((lanesOf (c.lanes i)).map f)).warp? c.ref.block c.ref.warp = some c.w := h.warp
  rw [hnext] at hleaves
  refine ⟨_, _, by rw [issue_of_issues body h, hb], hall.warp_eq hw, ?_⟩
  obtain ⟨hfrag, hother, sp, a, o, v, hfields, hv⟩ := retired_onItsWay h hdst hleaves
    (st (g (emptied (c.lanes i) dst c.w))) (od (g (emptied (c.lanes i) dst c.w)))
  rw [retiredWarp] at hfrag hother hfields
  simp only [hfields] at hfrag hother ⊢
  exact {
    frag := hfrag, otherFrags := hother
    rv := rfl, rs := rfl, rh := rfl, cc0 := rfl, cc1 := rfl
    specials := ⟨rfl, rfl, rfl, rfl, rfl, rfl, rfl, rfl, rfl, rfl, rfl, rfl⟩
    amax := ⟨rfl, rfl⟩
    vFull := hv, sFull := rfl, hFull := rfl
    reqs := hall.outside.reqs.trans (State.reqs_sentAll_map { s with fresh := n } _ f)
    next := (finish_ok_nextReq _ _ _).trans ((acquire_nextReq _ _ _ _).trans hnext)
    memory := fun _ => ⟨hall.outside.mem, hall.outside.host, hall.outside.vault⟩ }

/-! ### The lanes of a load -/

/-- The request of a lane that no line serves. -/
def missReq (g : LoadArgs) (s : State) (c : Ctx) (pa : Lane → Nat) (a : Lane → Attr) (l : Lane) : Req :=
  { baseReq s c l (loadKind (a l) g.hint) (g.addr l) (pa l) (a l) g.n with dst := some g.d, sx := g.sx, lr := g.lr }

/-- The request of a lane that a line serves, with the value it gives. -/
def hitReq (g : LoadArgs) (s : State) (c : Ctx) (ln : Lane → L1Line) (v : BitVec 128) (l : Lane) : Req :=
  { baseReq s c l .read (g.addr l) (lineBase (ln l).pline + g.addr l % 128) (ln l).attr g.n with
    dst := some g.d, sx := g.sx, st := .performed, value := v, wct := if (ln l).attr.stable then 0 else (ln l).wct }

theorem missReq_isLoad (g : LoadArgs) (s : State) (c : Ctx) (pa : Lane → Nat) (a : Lane → Attr) (l : Lane) :
    (missReq g s c pa a l).IsLoad := by
  show loadKind (a l) g.hint = .fill ∨ loadKind (a l) g.hint = .read
  unfold loadKind
  split
  · exact .inl rfl
  · exact .inr rfl

theorem isLoad_of_mem_map {f : Lane → Req} (hf : ∀ l, (f l).IsLoad) {ls : List Lane} : ∀ q ∈ ls.map f, q.IsLoad := by
  intro q hq
  obtain ⟨l, -, rfl⟩ := List.mem_map.mp hq
  exact hf l

/-- A lane that no line serves is translated and sends its request. -/
theorem loadLane_misses {g : LoadArgs} {s : State} {c : Ctx} {pa : Lane → Nat} {a : Lane → Attr} {l : Lane} {qs : List Req}
    (hqs : ∀ q ∈ qs, q.IsLoad) (hm : Maps s c (g.addr l) .rd (pa l) (a l)) (hlost : s.lostAt (a l).tier (pa l) = none)
    (hbad : s.badAt (a l).target (a l).tier (pa l) = none) (hmiss : g.lr = true ∨ g.hint = .noL1 ∨ s.l1Find c (g.addr l) = none) :
    loadLane g c (s.sentAll qs) l = ((s.sentAll qs).send (missReq g s c pa a l), none) := by
  have hnone : (if g.lr || g.hint == .noL1 then none else (s.sentAll qs).l1Find c (g.addr l)) = none := by
    rw [l1Find_sentAll hqs]
    split
    · rfl
    · rename_i hn
      simp only [Bool.or_eq_true, beq_iff_eq, not_or] at hn
      exact (hmiss.resolve_left hn.1).resolve_left hn.2
  unfold loadLane
  simp only [hnone, laneXlate_sentAll qs hm hlost fun _ => hbad]
  rfl

/-- A lane that a live line serves. -/
theorem loadLane_hits {g : LoadArgs} {s : State} {c : Ctx} {ln : L1Line} {l : Lane} {qs : List Req} (hqs : ∀ q ∈ qs, q.IsLoad)
    (hlr : g.lr = false) (hhint : g.hint ≠ .noL1) (hfind : s.l1Find c (g.addr l) = some ln) (hr : ln.attr.r = true)
    (hbad : ln.badAt (g.addr l) = none) {t : State} {v : Nat} (hread : (s.sentAll qs).lineRead ln (g.addr l) g.n = (t, v)) :
    loadLane g c (s.sentAll qs) l = (t.send (hitReq g t c (fun _ => ln) (BitVec.ofNat 128 v) l), none) := by
  have hsome : (if g.lr || g.hint == .noL1 then none else (s.sentAll qs).l1Find c (g.addr l)) = some ln := by
    rw [l1Find_sentAll hqs, hfind, hlr, beq_eq_false_iff_ne.mpr hhint]
    rfl
  unfold loadLane
  simp only [hsome, State.serve, hr, Bool.not_true, Bool.false_eq_true, if_false, hbad, hread]
  rfl

/-- A load whose lanes have sent their requests. -/
theorem globalLoad_sends {g : LoadArgs} {c : Ctx} {m : LaneMask} {s t : State} {f : Lane → Req}
    (hal : ∀ l : Lane, m.getLsbD l.val = true → g.addr l % g.n = 0)
    (hlanes : s.eachLane (lanesOf m) (loadLane g c) = (t.sentAll ((lanesOf m).map f), [])) :
    globalLoad g c m s = .ok ((t.underWay c m (vRegs g.d g.n) ((lanesOf m).map f)).acquire c g.ord g.scope) := by
  rw [globalLoad, misaligned_none hal]
  simp only [hlanes]
  rfl

/-! ### The loads -/

section

variable {i : Instr} {g : Ctx → LoadArgs} (hx : ∀ s, exec i s = issue i (fun c => globalLoad (g c) c) s)
include hx

theorem load_misses (pa : Lane → Nat) (a : Lane → Attr) : CompletesIf i
    (fun s c => Aligned c i (g c).n (g c).addr ∧ LanesMap s c i (g c).addr .rd true pa a ∧
      ∀ l : Lane, (c.lanes i).getLsbD l.val = true → (g c).lr = true ∨ (g c).hint = .noL1 ∨ s.l1Find c ((g c).addr l) = none)
    fun s c t w => Sent i s c t w (vRegs (g c).d (g c).n)
      (acquired (g c).ord (g c).scope (s.nextReq + (lanesOf (c.lanes i)).length) c.f.acquire) (missReq (g c) s c pa a) := by
  rintro s c h ⟨hal, hmap, hmiss⟩
  have hlanes : s.eachLane (lanesOf (c.lanes i)) (loadLane (g c) c) =
      (s.sentAll ((lanesOf (c.lanes i)).map (missReq (g c) s c pa a)), []) := eachLane_sends fun pre l hpre => by
    have hl := mem_lanesOf.mp (hpre.subset (List.mem_append_right _ List.mem_cons_self))
    obtain ⟨hm, hlost, hbad⟩ := hmap l hl
    exact loadLane_misses (isLoad_of_mem_map (missReq_isLoad _ _ _ _ _)) hm hlost (hbad rfl) (hmiss l hl)
  rw [hx]
  exact sent_of_underWay h (vRegs_v _ _) s.fresh (globalLoad_sends hal hlanes)

theorem load_hits (ln : Lane → L1Line) : CompletesIf i
    (fun s c => (g c).lr = false ∧ (g c).hint ≠ .noL1 ∧ Aligned c i (g c).n (g c).addr ∧
      ∀ l : Lane, (c.lanes i).getLsbD l.val = true → s.l1Find c ((g c).addr l) = some (ln l) ∧ (ln l).attr.r = true ∧
        (ln l).badAt ((g c).addr l) = none ∧ (ln l).attr.undef = false)
    fun s c t w => Sent i s c t w (vRegs (g c).d (g c).n)
      (acquired (g c).ord (g c).scope (s.nextReq + (lanesOf (c.lanes i)).length) c.f.acquire) fun l =>
        hitReq (g c) s c ln (BitVec.ofNat 128 ((ln l).value ((g c).addr l) (g c).n)) l := by
  rintro s c h ⟨hlr, hhint, hal, hhit⟩
  have hlanes : s.eachLane (lanesOf (c.lanes i)) (loadLane (g c) c) = (s.sentAll ((lanesOf (c.lanes i)).map fun l =>
      hitReq (g c) s c ln (BitVec.ofNat 128 ((ln l).value ((g c).addr l) (g c).n)) l), []) := eachLane_sends fun pre l hpre => by
    have hl := mem_lanesOf.mp (hpre.subset (List.mem_append_right _ List.mem_cons_self))
    obtain ⟨hfind, hr, hbad, hu⟩ := hhit l hl
    exact loadLane_hits (isLoad_of_mem_map fun _ => .inr rfl) hlr hhint hfind hr hbad (by simp only [State.lineRead, hu]; rfl)
  rw [hx]
  exact sent_of_underWay h (vRegs_v _ _) s.fresh (globalLoad_sends hal hlanes)

theorem load_hits_undefined (k : Lane) (ln : L1Line) : CompletesIf i
    (fun s c => (g c).lr = false ∧ (g c).hint ≠ .noL1 ∧ Aligned c i (g c).n (g c).addr ∧ lanesOf (c.lanes i) = [k] ∧
      s.l1Find c ((g c).addr k) = some ln ∧ ln.attr.r = true ∧ ln.badAt ((g c).addr k) = none ∧ ln.attr.undef = true)
    fun s c t w => ∃ v, Sent i s c t w (vRegs (g c).d (g c).n)
      (acquired (g c).ord (g c).scope (s.nextReq + 1) c.f.acquire) (hitReq (g c) s c (fun _ => ln) v) := by
  rintro s c h ⟨hlr, hhint, hal, hone, hfind, hr, hbad, hu⟩
  have hread : (s.sentAll []).lineRead ln ((g c).addr k) (g c).n =
      ({ s with fresh := s.fresh + 1 }, leNat (freeRun s.fresh (g c).n)) := by
    rw [State.sentAll_nil]
    simp only [State.lineRead, hu, if_true, State.draw]
  have hlane := loadLane_hits (qs := []) (fun _ hq => absurd hq List.not_mem_nil) hlr hhint hfind hr hbad hread
  rw [State.sentAll_nil] at hlane
  have hlanes : s.eachLane (lanesOf (c.lanes i)) (loadLane (g c) c) = (({ s with fresh := s.fresh + 1 } : State).sentAll
      ((lanesOf (c.lanes i)).map (hitReq (g c) s c (fun _ => ln) (BitVec.ofNat 128 (leNat (freeRun s.fresh (g c).n))))), []) := by
    rw [hone, State.eachLane, List.foldl_cons, List.foldl_nil, hlane, List.map_cons, List.map_nil]
    exact congrArg (·, []) (State.send_sentAll_one _ _)
  rw [hx]
  have hlen : (lanesOf (c.lanes i)).length = 1 := congrArg List.length hone
  rw [← hlen]
  obtain ⟨t, w, he, ht, hsent⟩ := sent_of_underWay (body := fun c => globalLoad (g c) c) h (vRegs_v _ _) (s.fresh + 1) (globalLoad_sends hal hlanes)
  exact ⟨t, w, he, ht, _, hsent⟩

end

/-- Settles O22: every form of a global load is the same operation, lane after lane. -/
theorem globalLoadsSendTheirRequests : Obligations.GlobalLoadsSendTheirRequests := by
  unfold Obligations.GlobalLoadsSendTheirRequests
  intro i g hform
  have hx : ∀ s, exec i s = issue i (fun c => globalLoad (g c) c) s := by
    obtain ⟨o, rfl, rfl⟩ | ⟨o, rfl, rfl⟩ | ⟨o, rfl, rfl⟩ := hform
    all_goals exact fun _ => rfl
  exact ⟨load_misses hx, load_hits hx, load_hits_undefined hx⟩

end Sys2Proof.Machine
end

section
/-! A step and what it runs (R86, R88, R109, R112, R264, R351): what a fetch may change, how a turn comes to `exec` of the
instruction it has fetched, and what the change of a page table does to the notes of pages. -/

namespace Sys2Proof.Machine

/-! ### What a fetch changes -/

/-- A fetch changes the TLBs, what is noted of pages and the count of free values, and nothing else. -/
def State.FetchedTo (s u : State) : Prop := u = { s with tlbs := u.tlbs, maps := u.maps, fresh := u.fresh }

theorem State.FetchedTo.refl (s : State) : s.FetchedTo s := rfl

theorem State.FetchedTo.trans {s t u : State} (h : s.FetchedTo t) (h' : t.FetchedTo u) : s.FetchedTo u := by
  unfold State.FetchedTo at *
  rw [h'] at *
  rw [h]

theorem State.fetchedTo_draw (s : State) : s.FetchedTo s.draw.2 := rfl

theorem State.fetchedTo_tlbFill (s : State) (quad asid va : Nat) (p : BitVec 128) : s.FetchedTo (s.tlbFill quad asid va p) := by
  unfold State.tlbFill
  extract_lets l
  split
  next n t ht =>
    have hfill (t : State) (h : s.FetchedTo t) (l : Table (List TlbEntry)) : s.FetchedTo { t with tlbs := l } := by
      unfold State.FetchedTo at *
      rw [h]
    refine hfill t ?_ _
    split at ht
    · obtain ⟨-, rfl⟩ := Prod.mk.inj ht
      exact s.fetchedTo_draw
    · obtain ⟨-, rfl⟩ := Prod.mk.inj ht
      exact .refl s

theorem State.fetchedTo_noteXlate (s : State) (asid va : Nat) (p : BitVec 128) (x : Xlate) :
    s.FetchedTo (s.noteXlate asid va p x).1 := by
  cases x with
  | fault c m => rfl
  | ok pa a =>
    simp only [State.noteXlate, State.notePage]
    split <;> rfl

theorem State.fetchedTo_xlate (s : State) (quad asid va : Nat) (acc : Acc) : s.FetchedTo (s.xlate quad asid va acc).1 := by
  unfold State.xlate
  split
  · exact s.fetchedTo_noteXlate ..
  · split
    · rfl
    · split
      · exact (s.fetchedTo_tlbFill ..).trans (State.fetchedTo_noteXlate ..)
      · rfl

/-- A request the engines send that is performed has only taken a free choice. -/
theorem State.fetchedTo_sendOut {s u : State} {t : Target} {acc : Acc} (h : s.sendOut t acc = (u, none)) : s.FetchedTo u := by
  cases t with
  | remote d =>
    simp only [State.sendOut] at h
    split at h
    · cases h
    · split at h
      · cases h
      · cases h
      · obtain ⟨rfl, -⟩ := Prod.mk.inj h
        exact s.fetchedTo_draw
  | device | host =>
    obtain ⟨rfl, -⟩ := Prod.mk.inj h
    exact .refl s

theorem State.fetchedTo_fetchHalf {s u : State} {l : Machine.Launch} {core va : Nat} {x : Half}
    (h : s.fetchHalf l core va = (u, .ok x)) : s.FetchedTo u := by
  unfold State.fetchHalf at h
  split at h
  · cases h
  next t pa a hx =>
    have ht := s.fetchedTo_xlate (s.quadOf core) l.asid (va % 2 ^ 56) .fetch
    rw [hx] at ht
    split at h
    · cases h
    · split at h
      · cases h
      next t' hs =>
        have ht' := ht.trans (State.fetchedTo_sendOut hs)
        split at h
        · obtain ⟨rfl, -⟩ := Prod.mk.inj h
          exact ht'.trans t'.fetchedTo_draw
        · extract_lets hs now at h
          split at h <;> obtain ⟨rfl, -⟩ := Prod.mk.inj h
          · exact ht'
          · exact ht'.trans t'.fetchedTo_draw

theorem State.fetchedTo_fetchMore {l : Machine.Launch} {core n : Nat} {hs acc : List Half} {s u : State} {va : Nat}
    (h : s.fetchMore l core n va acc = (u, .halves hs)) : s.FetchedTo u := by
  induction n generalizing s va acc with
  | zero =>
    obtain ⟨rfl, -⟩ := Prod.mk.inj h
    exact .refl s
  | succ n ih =>
    simp only [State.fetchMore] at h
    split at h
    · cases h
    next hx => exact (State.fetchedTo_fetchHalf hx).trans (ih h)

theorem State.fetchedTo_fetch {s u : State} {l : Machine.Launch} {core : Nat} {pc : DWord} {hs : List Half}
    (h : s.fetch l core pc = (u, .halves hs)) : s.FetchedTo u := by
  unfold State.fetch at h
  split at h
  · cases h
  next hx => exact (State.fetchedTo_fetchHalf hx).trans (State.fetchedTo_fetchMore h)

/-! ### The halfword fetched -/

theorem leRead_two (g : Nat → Byte) (a : Nat) : leRead g a 2 = (g (a + 1) ++ g a).toNat := by
  have h0 := (g a).isLt
  rw [BitVec.toNat_append, Nat.shiftLeft_eq, Nat.mul_comm, ← Nat.two_pow_add_eq_or_of_lt h0]
  simp only [leRead]
  omega

/-- A halfword of the device's memory that has had one value since its launch is that value (R88). -/
theorem fetchHalf_of_unchanged {s u : State} {l : Machine.Launch} {core va pa : Nat} {a : Attr}
    (hx : s.xlate (s.quadOf core) l.asid (va % 2 ^ 56) .fetch = (u, .ok pa a)) (ht : a.target = .device) (hu : a.undef = false)
    (hb : u.badAt .device a.tier pa = none) (hi : u.mem.read pa 2 = l.image.read pa 2)
    (hp : ∀ p ∈ u.past, p.target = .device → p.at_ = pa → l.begun ≤ p.until_ → p.half = BitVec.ofNat 16 (u.mem.read pa 2)) :
    s.fetchHalf l core va = (u, .ok (u.mem.get (pa + 1) ++ u.mem.get pa)) := by
  have hall : (u.codeHalves l .device pa).all (· == (u.codeHalves l .device pa).headD 0) = true := by
    simp only [State.codeHalves, State.physRead, List.cons_append, List.nil_append, List.headD_cons, List.all_cons, List.all_map,
      beq_self_eq_true, Bool.true_and, Bool.and_eq_true, beq_iff_eq, List.all_eq_true, List.mem_filter, decide_eq_true_eq,
      Function.comp_apply]
    exact ⟨congrArg _ hi.symm, fun p ⟨hm, ⟨htp, hat⟩, hun⟩ => hp p hm htp hat hun⟩
  have hnow : (u.codeHalves l .device pa).headD 0 = u.mem.get (pa + 1) ++ u.mem.get pa := by
    change BitVec.ofNat 16 (leRead u.mem.get pa 2) = _
    rw [leRead_two, BitVec.ofNat_toNat]
    rfl
  unfold State.fetchHalf
  simp only [hx, ht, hb, hu, State.sendOut, Bool.false_eq_true, if_false]
  rw [if_pos hall, hnow]

/-! ### The turn of a fragment -/

theorem moveOn_of_not_halted (s : State) {c : Ctx} (h : c.f.halted = false) : s.moveOn c = (s, c) := if_neg (by simp [h])

/-- A fragment that owes nothing runs the instruction it stands at (R86, R109, R112). -/
theorem todo_of_decoded {s u : State} {c : Ctx} {hs : List Half} {i : Instr} (hredo : c.f.redo = []) (hheld : c.f.held = none)
    (hpark : c.parksAt = none) (hrep : c.inRep = none) (hf : s.fetch c.l c.b.core c.f.pc = (u, .halves hs))
    (hd : decodeHalves hs = .ok i) (hh : u.haltsAt c i = false) : s.todo c = (u, .run i) := by
  simp only [State.todo, hredo, hheld, hpark, hrep, hf, hd, hh, Bool.false_eq_true, if_false]

/-- The turn of a fragment that is about to run an instruction: in a context that is not halted, what the instruction does. -/
theorem pickStep_of_run (run : Instr → State → Host.Outcome State Fault Refusal) {s u : State} {r : FragRef} {c0 c : Ctx}
    {s' : State} {i : Instr} (hc : ({ s with cur := some r } : State).ctx? r = some c0)
    (hi : ({ s with cur := some r } : State).issues c0 = true) (hr : c0.reissueDue = false)
    (hm : ({ s with cur := some r } : State).moveOn c0 = (s', c)) (ht : s'.todo c = (u, .run i)) (hn : u.haltOf c.l.asid = false) :
    pickStep run r s = run i u := by
  simp only [pickStep, hc, hi, hr, hm, ht, Bool.not_true, Bool.or_false, Bool.false_eq_true, if_false]
  cases run i u with
  | next t => exact congrArg Host.Outcome.next (if_neg (ne_true_of_eq_false hn))
  | fault f => rfl
  | refused r => rfl

/-- In a halted context a fragment that then is ready no more halts (R351). -/
theorem pickStep_of_run_halted (run : Instr → State → Host.Outcome State Fault Refusal) {s u : State} {r : FragRef} {c0 c : Ctx}
    {s' t : State} {i : Instr} (hc : ({ s with cur := some r } : State).ctx? r = some c0)
    (hi : ({ s with cur := some r } : State).issues c0 = true) (hr : c0.reissueDue = false)
    (hm : ({ s with cur := some r } : State).moveOn c0 = (s', c)) (ht : s'.todo c = (u, .run i)) (hn : u.haltOf c.l.asid = true)
    (hx : run i u = .next t) : pickStep run r s = .next (t.modW c fun w => w.haltNew c.w) := by
  simp only [pickStep, hc, hi, hr, hm, ht, hx, Bool.not_true, Bool.or_false, Bool.false_eq_true, if_false]
  exact congrArg Host.Outcome.next (if_pos hn)

/-! ### Time -/

theorem flushTraces_of_no_packets {s : State} (h : ∀ k, (s.core k).pkts = []) : s.flushTraces = s := by
  unfold State.flushTraces
  induction s.cores.map (·.1) with
  | nil => rfl
  | cons k ks ih =>
    have hk : s.flushTrace k = s := if_pos (by rw [h k]; rfl)
    rw [List.foldl_cons, hk, ih]

theorem advance_mem {s : State} {dt : Nat} (h : dt = 0 ∨ ∀ k, (s.core k).pkts = []) : (s.advance dt).mem = s.mem := by
  unfold State.advance
  rcases h with rfl | h
  · rfl
  · rw [flushTraces_of_no_packets h, ite_self]

theorem advance_time (s : State) (dt : Nat) : (s.advance dt).time = s.time + dt := by
  unfold State.advance
  split
  · rfl
  · exact congrArg (· + dt) (Traffic.foldl _ Traffic.flushTrace _ s).time

/-! ### The notes of pages

Each pending note, of a page that has moved and is not undefined yet, is looked at as often as it stands in the list, so that none is
left: the list as it was is folded over the list as it becomes. -/

section
variable {α : Type} [DecidableEq α] (pend hold : α → Bool) (mark : α → α)

/-- One note is settled: a pending one is marked where its page is held, and dropped elsewhere. -/
def settleNote (l : List α) (m : α) : List α :=
  if !pend m then l else if hold m then updFirst (· == m) mark l else l.filter (· != m)

variable {pend hold mark}

theorem mem_updFirst_of_ne {l : List α} {m x : α} (hx : x ∈ l) (hne : x ≠ m) : x ∈ updFirst (· == m) mark l := by
  induction l with
  | nil => exact hx
  | cons y r ih => grind [updFirst]

theorem mark_mem_updFirst {l : List α} {m : α} (hm : m ∈ l) : mark m ∈ updFirst (· == m) mark l := by
  induction l with
  | nil => cases hm
  | cons y r ih => grind [updFirst]

theorem count_updFirst_self {l : List α} {m : α} (hne : mark m ≠ m) :
    (updFirst (· == m) mark l).count m = l.count m - 1 := by
  induction l with
  | nil => rfl
  | cons y r ih =>
    by_cases hy : y = m
    · simp [updFirst, hy, hne]
    · simp [updFirst, hy, ih]

theorem count_updFirst_of_ne {l : List α} {m x : α} (hne : x ≠ m) (hk : x ≠ mark m) :
    (updFirst (· == m) mark l).count x = l.count x := by
  induction l with
  | nil => rfl
  | cons y r ih =>
    by_cases hy : y = m
    · simp [updFirst, hy, hne.symm, hk.symm]
    · simp [updFirst, hy, ih, List.count_cons]

/-- Another note stays where one is settled. -/
theorem mem_settleNote_of_ne {l : List α} {m x : α} (hx : x ∈ l) (hne : x ≠ m) : x ∈ settleNote pend hold mark l m := by
  unfold settleNote
  split
  · exact hx
  · split
    · exact mem_updFirst_of_ne hx hne
    · exact List.mem_filter.mpr ⟨hx, bne_iff_ne.mpr hne⟩

/-- A note that is not pending stays. -/
theorem mem_settleNote_of_not_pend {l : List α} {m x : α} (hx : x ∈ l) (hp : pend x = false) :
    x ∈ settleNote pend hold mark l m := by
  by_cases hne : x = m
  · subst hne
    simpa [settleNote, hp] using hx
  · exact mem_settleNote_of_ne hx hne

theorem mem_settleNotes_of_not_pend {rest l : List α} {x : α} (hx : x ∈ l) (hp : pend x = false) :
    x ∈ rest.foldl (settleNote pend hold mark) l := by
  induction rest generalizing l with
  | nil => exact hx
  | cons m rest ih => exact ih (mem_settleNote_of_not_pend hx hp)

/-- A pending note whose page is held is marked when its turn comes. -/
theorem mark_mem_settleNotes (hmark : ∀ m, pend (mark m) = false) {rest l : List α} {m : α} (hm : m ∈ rest) (hl : m ∈ l)
    (hp : pend m = true) (hh : hold m = true) : mark m ∈ rest.foldl (settleNote pend hold mark) l := by
  induction rest generalizing l with
  | nil => cases hm
  | cons x rest ih =>
    by_cases hx : x = m
    · subst hx
      rw [List.foldl_cons]
      refine mem_settleNotes_of_not_pend ?_ (hmark x)
      simpa [settleNote, hp, hh] using mark_mem_updFirst hl
    · exact ih ((List.mem_cons.mp hm).resolve_left (Ne.symm hx)) (mem_settleNote_of_ne hl (Ne.symm hx))

/-- Settling a note leaves a pending one fewer of it, and no more of another. -/
theorem count_settleNote (hmark : ∀ m, pend (mark m) = false) {l : List α} {m x : α} (hp : pend x = true) :
    (settleNote pend hold mark l m).count x ≤ l.count x - if m = x then 1 else 0 := by
  have hne (y : α) : x ≠ mark y := fun h => by simp [h, hmark] at hp
  unfold settleNote
  by_cases hx : m = x
  · subst hx
    rw [if_pos rfl, if_neg (by simp [hp])]
    split
    · exact (count_updFirst_self (hne m).symm).le
    · rw [List.count_eq_zero_of_not_mem (by simp)]
      exact Nat.zero_le _
  · rw [if_neg hx]
    split
    · exact le_rfl
    · split
      · exact (count_updFirst_of_ne (Ne.symm hx) (hne m)).le
      · exact List.filter_sublist.count_le x

/-- No pending note is left, where each was looked at as often as it stood there. -/
theorem not_mem_settleNotes (hmark : ∀ m, pend (mark m) = false) {rest l : List α} {x : α} (hp : pend x = true)
    (hc : l.count x ≤ rest.count x) : x ∉ rest.foldl (settleNote pend hold mark) l := by
  induction rest generalizing l with
  | nil => exact List.count_eq_zero.mp (Nat.le_zero.mp hc)
  | cons m rest ih =>
    refine ih ?_
    have hs := count_settleNote (hold := hold) (l := l) (m := m) hmark hp
    rw [List.count_cons] at hc
    simp only [beq_iff_eq] at hc
    omega

end

/-- A note is pending: its page has moved and its values are not undefined yet (R264). -/
def State.pending (s : State) (m : PageMap) : Bool := !m.undef && s.moved m

/-- The lines of a core's L1 but for what is undefined of them, and what else the core holds. -/
def Core.held (k : Core) : Core × List (Nat × Nat × List Byte) :=
  ({ k with lines := [] }, k.lines.map fun x => (x.asid, x.vline, x.data))

/-- From t to u notes of pages have changed, and of the lines of the L1s only what is undefined. -/
def SpoiledTo (t u : State) : Prop := u = { t with maps := u.maps, cores := u.cores } ∧ ∀ k, (u.core k).held = (t.core k).held

theorem SpoiledTo.refl (t : State) : SpoiledTo t t := ⟨rfl, fun _ => rfl⟩

theorem SpoiledTo.trans {t u v : State} (h : SpoiledTo t u) (h' : SpoiledTo u v) : SpoiledTo t v := by
  obtain ⟨hu, hk⟩ := h
  obtain ⟨hv, hk'⟩ := h'
  refine ⟨?_, fun k => (hk' k).trans (hk k)⟩
  rw [hu] at hv
  exact hv

theorem tget_map {α : Type} (d : α) (f : α → α) (hf : f d = d) (t : Table α) (i : Nat) :
    tget d (t.map fun c => (c.1, f c.2)) i = f (tget d t i) := by
  induction t with
  | nil => exact hf.symm
  | cons c r ih => simp only [List.map_cons, tget, ih, apply_ite f]

/-- A line's values are undefined from now on if it lies in the page (R264). -/
def PageMap.spoil (m : PageMap) (x : L1Line) : L1Line :=
  if m.holds x.asid (x.vline * 128) then { x with attr := { x.attr with undef := true } } else x

theorem PageMap.spoil_data (m : PageMap) (x : L1Line) :
    ((m.spoil x).asid, (m.spoil x).vline, (m.spoil x).data) = (x.asid, x.vline, x.data) := by
  unfold PageMap.spoil
  split <;> rfl

theorem State.spoilPage_core (t : State) (m : PageMap) (k : Nat) :
    (t.spoilPage m).core k = { t.core k with lines := (t.core k).lines.map m.spoil } :=
  tget_map ({} : Core) (fun c : Core => { c with lines := c.lines.map m.spoil }) rfl t.cores k

theorem spoiledTo_spoilPage (t : State) (m : PageMap) : SpoiledTo t (t.spoilPage m) := by
  refine ⟨rfl, fun k => ?_⟩
  simp only [State.spoilPage_core, Core.held, List.map_map, Function.comp_def, m.spoil_data]

/-- What is settled of one note (R264). -/
def State.remapNote (s t : State) (m : PageMap) : State :=
  if m.undef || !s.moved m then t else if s.pageInL2 m then t.spoilPage m else { t with maps := t.maps.filter (· != m) }

theorem remapped_eq (s : State) : s.remapped = s.maps.foldl s.remapNote s := rfl

theorem spoiledTo_remapNote (s t : State) (m : PageMap) : SpoiledTo t (s.remapNote t m) := by
  unfold State.remapNote
  split
  · exact .refl t
  · split
    · exact spoiledTo_spoilPage t m
    · exact ⟨rfl, fun _ => rfl⟩

theorem remapNote_maps (s t : State) (m : PageMap) : (s.remapNote t m).maps =
    settleNote s.pending s.pageInL2 (fun x => { x with undef := true }) t.maps m := by
  unfold State.remapNote settleNote State.pending
  cases m.undef <;> cases s.moved m <;> cases s.pageInL2 m <;> rfl

theorem spoiledTo_remapped (s : State) : SpoiledTo s s.remapped :=
  List.foldlRecOn (motive := SpoiledTo s) _ _ (.refl s) fun t h m _ => h.trans (spoiledTo_remapNote s t m)

theorem remapped_maps (s : State) :
    s.remapped.maps = s.maps.foldl (settleNote s.pending s.pageInL2 fun x => { x with undef := true }) s.maps := by
  rw [remapped_eq]
  exact List.foldl_hom State.maps (H := fun t m => (remapNote_maps s t m).symm) |>.symm

theorem pending_undef (s : State) (m : PageMap) : s.pending { m with undef := true } = false := rfl

/-- What a change under the page tables leaves of the notes (R264). -/
theorem remapped_notes (t : State) :
    (∀ m ∈ t.maps, t.moved m = true → t.pageInL2 m = true → { m with undef := true } ∈ t.remapped.maps) ∧
    (∀ m ∈ t.maps, m.undef = true ∨ t.moved m = false → m ∈ t.remapped.maps) ∧
    ∀ m ∈ t.remapped.maps, t.moved m = true → m.undef = true := by
  have hstay (m : PageMap) (hm : m ∈ t.maps) (h : m.undef = true ∨ t.moved m = false) : m ∈ t.remapped.maps := by
    rw [remapped_maps]
    exact mem_settleNotes_of_not_pend hm (by rcases h with h | h <;> simp [State.pending, h])
  refine ⟨fun m hm hmoved hl2 => ?_, hstay, fun m hm hmoved => ?_⟩
  · by_cases hu : m.undef = true
    · rw [← hu]
      exact hstay m hm (.inl hu)
    · rw [remapped_maps]
      exact mark_mem_settleNotes (pending_undef t) hm hm (by simp [State.pending, hu, hmoved]) hl2
  · by_contra hu
    rw [remapped_maps] at hm
    exact not_mem_settleNotes (pending_undef t) (by simp [State.pending, hu, hmoved]) le_rfl hm

theorem settled_of_unmoved {s t : State} (hm : t.mem = s.mem) (hd : t.dev.ctxBase = s.dev.ctxBase) :
    s.settled (.next t) = .next t := by
  simp [State.settled, State.tablesMoved, hm, hd]

theorem settled_of_moved {s t : State} (h : t.mem ≠ s.mem ∨ t.dev.ctxBase ≠ s.dev.ctxBase) :
    s.settled (.next t) = .next t.remapped := by
  have : s.tablesMoved t = true := by
    simpa only [State.tablesMoved, Bool.or_eq_true, bne_iff_ne, ne_comm] using h
  simp only [State.settled, this, if_true]

/-! ### The obligation -/

/-- The turn of a picked fragment (R86, R109, R112). -/
theorem step_of_pick {s : State} {r : FragRef} {rest : List FragRef} (h : s.picks = r :: rest) :
    step s = s.settled (pickStep exec r { s with picks := rest }) := by
  simp only [step, h]

/-- An event of the agenda, where nothing is picked. -/
theorem step_of_agenda {s : State} {dt : Nat} {i : Instr} {rest : List (Nat × Instr)} (hp : s.picks = [])
    (ha : s.agenda = (dt, i) :: rest) : step s = s.settled (exec i { s.advance dt with agenda := rest, cur := none }) := by
  simp only [step, hp, ha]

/-- Settles O56: a fetch changes what `FetchedTo` says, `todo` ends in the decoded instruction, and of the notes of pages each pending
one is settled in the fold of `remapped`. -/
theorem aStepRunsTheDecodedInstruction : Obligations.AStepRunsTheDecodedInstruction := by
  unfold Obligations.AStepRunsTheDecodedInstruction
  refine ⟨?_, fun s dt i rest hp ha => ⟨step_of_agenda hp ha, advance_time s dt, advance_mem⟩, fun s t f r => ⟨rfl, rfl, settled_of_unmoved, ?_⟩,
    fun s u l core va pa a hx ht hu hb hi hp => fetchHalf_of_unchanged hx ht hu hb hi hp⟩
  · intro s r rest c0 u hs i s1 s2 c hpicks hc hi hr hredo hheld hpark hrep hf hd hh
    have htodo := todo_of_decoded hredo hheld hpark hrep hf hd hh
    refine ⟨fun h => Prod.mk.inj (moveOn_of_not_halted s1 h), State.fetchedTo_fetch hf, fun hn => ?_, fun hn t ht => ?_⟩
    · rw [step_of_pick hpicks, pickStep_of_run exec (s := { s with picks := rest }) (s' := s2) (c := c) hc hi hr rfl htodo hn]
    · rw [step_of_pick hpicks, pickStep_of_run_halted exec (s := { s with picks := rest }) (s' := s2) (c := c) hc hi hr rfl htodo hn ht]
  · by_cases hmoved : t.mem ≠ s.mem ∨ t.dev.ctxBase ≠ s.dev.ctxBase
    · obtain ⟨hu, hk⟩ := spoiledTo_remapped t
      exact ⟨_, settled_of_moved hmoved, hu, fun k => Prod.mk.inj (hk k), fun _ => remapped_notes t⟩
    · have h := not_or.mp hmoved
      exact ⟨t, settled_of_unmoved (not_not.mp h.1) (not_not.mp h.2), rfl, fun _ => ⟨rfl, rfl⟩, fun h => absurd h hmoved⟩

end Sys2Proof.Machine
end

section
/-! Global stores send their requests (R178, R262), and where that fails: a store drops the sibling copies of its line, and the write
back of a dirty local one (R253) may change the page table that the lanes after it are translated by. -/

namespace Sys2Proof.Machine

theorem Sent.places {i : Instr} {s t : State} {c : Ctx} {w : Warp} {dst : List (RegClass × Nat)} {acq : Option Nat}
    {f : Lane → Req} (h : Sent i s c t w dst acq f) :
    t.reqs.map Req.pa = s.reqs.map Req.pa ++ (lanesOf (c.lanes i)).map fun l => (f l).pa := by
  rw [h.reqs, List.map_append, List.map_map]
  conv => rhs; rw [← List.zipIdx_map_fst 0 (lanesOf (c.lanes i)), List.map_map]
  rfl

/-! ### The counterexample -/

/-- The fragment that stores. -/
def storingFrag : FragRef := ⟨1, 0, .entry 0⟩

/-- The entry of a page of 2 MiB: virtual page 1 at physical 0x400000, with the rights of the code page. -/
def largePte : BitVec 128 := BitVec.ofNat 128 (1 + 2 + 2 ^ 2 + 2 ^ 4 + 2 ^ 5 + 2 ^ 6 + 2 ^ 48 + 2 ^ 88 * 0x40)

/-- The entry of a page of 64 KiB in it: virtual page 0x20 at physical 0x300000, readable and writable. -/
def smallPte : BitVec 128 := BitVec.ofNat 128 (1 + 2 + 2 ^ 4 + 2 ^ 5 + 2 ^ 48 * 0x20 + 2 ^ 88 * 0x30)

/-- The bucket of virtual page 0x20 in a page table of 1,024 buckets at 0x40000 (R329). -/
def smallBucket : Nat := 0x40000 + 128 * (0x20 * 0x9E3779B97F4A7C15 % 2 ^ 64 / 2 ^ 54)

/-- A dirty local line at 0x10800: its third word makes an entry of the context table valid, of 1,024 buckets (R327). -/
def dirtyLine : L1Line :=
  { asid := 0, vline := 0, pline := lineKey .device 0x10800, attr := {}
    data := List.replicate 8 0 ++ leBytes 4 0x8000_000A ++ List.replicate 116 0
    expiry := none, wct := 0, loc := true, dirty := 4 }

/-- A fragment of two lanes whose v8 holds 0x10800 and 0x200000. The context table lies at 0x10800, where the entry of context 0 is
not valid yet; its page table has the small page of lane 1's address, the quad's TLB the large one. The dirty line is another core's
of the quad. -/
def sharedTable : State :=
  let s := State.reset.withFetchWord 64 0
  let s : State := { s with
    picks := [], cur := some storingFrag, dev := { s.dev with ctxBase := 0x10800 }
    mem := (s.mem.writeBytes 0x10800 (leBytes 8 0x40000)).writeBytes smallBucket (leBytes 16 smallPte.toNat)
    tlbs := tput s.tlbs 0 [⟨0, 0, 1, fetchPte⟩, ⟨0, 1, 1, largePte⟩]
    maps := [pteNote 0 0x10000 fetchPte, pteNote 0 0x200000 largePte]
    cores := tput s.cores 1 { lines := [dirtyLine] } }
  (s.modFrag storingFrag fun f => { f with mask := 3 }).modWarp 1 0 fun w =>
    w.setV 8 0xFFFF_FFFF fun l => if l = 0 then 0x10800 else 0x200000

/-- The store of the two lanes. -/
def tableStore : Instr := .st32 ⟨0, 8, 4, true⟩

/-- Where the lanes' addresses are translated to before the store. -/
def storePlace (l : Lane) : Nat := if l = 0 then 0x10800 else 0x400000

/-- The hypotheses of the statement in a state, evaluated. -/
def storeIssues (s : State) (c : Ctx) : Bool :=
  let os := tableStore.layout.opnds (vaultDims s c.l.asid c.w tableStore.layout)
  s.cur == some c.ref && !isPath c.ref.sel && os.all (·.legal c.l.desc.regs c.l.desc.tiles) &&
    os.all (fun o => o.regs.all (regFull c.b c.w)) && suspendedOn c.b c.ref.warp c.w tableStore.layout os == none &&
    c.f.acquire == none && decide (c.f.walkEnd ≤ s.time) &&
    decide ((s.reqs.filter fun q => q.core == c.b.core).length + popcount c.f.mask ≤ Config.maxRequests)

theorem issues_of_storeIssues {s : State} {c : Ctx} (hc : s.ctx? c.ref = some c) (h : storeIssues s c = true) :
    Issues tableStore s c := by
  simp only [storeIssues, Bool.and_eq_true, beq_iff_eq, Bool.not_eq_true', List.all_eq_true, decide_eq_true_eq] at h
  obtain ⟨⟨⟨⟨⟨⟨⟨hcur, hhere⟩, hlegal⟩, hfull⟩, hquiet⟩, hopen⟩, hwalked⟩, hroom⟩ := h
  exact
    { wf := rfl, cur := hcur, ctx := hc, here := hhere, tiles := fun h => absurd h Bool.false_ne_true, legal := hlegal
      guard := fun h => absurd h Bool.false_ne_true, full := fun o ho _ => hfull o ho, quiet := hquiet
      whole := fun h => absurd h Bool.false_ne_true, open_ := fun _ => hopen, walked := fun _ => hwalked, room := fun _ => hroom }

theorem sharedTable_reqs : sharedTable.reqs = [] := rfl

theorem sharedTable_numbered : sharedTable.numbered := by
  simp [State.numbered, sharedTable_reqs]

/-- The fragment issues the store, its lanes' addresses are aligned and map to their places. -/
theorem storingFrag_stores : ((sharedTable.ctx? storingFrag).any fun c =>
    storeIssues sharedTable c && c.ref == storingFrag && lanesOf (c.lanes tableStore) == [0, 1] && decide (
      Aligned c tableStore 4 (gAddr c.w 8 0 4) ∧
      LanesMap sharedTable c tableStore (gAddr c.w 8 0 4) .wr false storePlace (fun _ => pteAttr fetchPte))) = true := by
  decide +kernel

/-- Where the requests of an outcome go. -/
def requestPlaces : Host.Outcome State Fault Refusal → List Nat
  | .next t => t.reqs.map Req.pa
  | _ => []

/-- The store of lane 0 drops the dirty line, whose write back makes the page table valid, and lane 1's goes to the small page. -/
theorem exec_tableStore_places : requestPlaces (exec tableStore sharedTable) = [0x10800, 0x300000] := by
  decide +kernel

/-- Refutes O23: lane 0's store invalidates a sibling's dirty local line of its own line, which is written back (R253, R262) into the
page tables, so that lane 1's address, which the large page of the TLB served before the instruction, is translated by a smaller page
(R325, R329); the statement has it go where it was translated to before. -/
theorem not_globalStoresSendTheirRequests : ¬ Obligations.GlobalStoresSendTheirRequests := by
  unfold Obligations.GlobalStoresSendTheirRequests
  rintro ⟨-, hst32, -⟩
  obtain ⟨c, hc, h⟩ := (Option.any_eq_true ..).mp storingFrag_stores
  simp only [Bool.and_eq_true, beq_iff_eq, decide_eq_true_eq] at h
  obtain ⟨⟨⟨hissues, href⟩, hlanes⟩, haligned, hmaps⟩ := h
  obtain ⟨t, w, hexec, -, hsent⟩ := hst32 _ storePlace (fun _ => pteAttr fetchPte) sharedTable c
    (issues_of_storeIssues (href ▸ hc) hissues) ⟨haligned, hmaps, sharedTable_numbered⟩
  have hplaces := hsent.places
  rw [show lanesOf (c.lanes (.st32 ⟨0, 8, 4, true⟩)) = [0, 1] from hlanes] at hplaces
  have hstore : t.reqs.map Req.pa = [0x10800, 0x300000] := by
    rw [← exec_tableStore_places, show exec tableStore sharedTable = .next t from hexec]
    rfl
  exact absurd (a := [0x10800, 0x300000] = [0x10800, 0x400000]) (hstore.symm.trans hplaces) (by decide)

end Sys2Proof.Machine
end

section
/-! What a lane operation reads and writes of a warp (R62, R107): its registers and flags, and nothing of its fragments. -/

namespace Sys2Proof.Machine

/-- A warp with other fragments. -/
def Warp.resplit (w : Warp) (sp : Lanes (Option Frag)) : Warp := { w with split := sp }

/-- An operation neither reads nor writes a warp's fragments. -/
def OverSplit (g : LaneMask → Warp → Warp) : Prop := ∀ m w sp, g m (w.resplit sp) = (g m w).resplit sp

/-! ### The writes of a warp -/

theorem Warp.setS_resplit (w : Warp) (sp : Lanes (Option Frag)) (n : Nat) (x : Word) :
    (w.resplit sp).setS n x = (w.setS n x).resplit sp := by
  unfold Warp.setS
  split <;> rfl

theorem Warp.setCC_resplit (w : Warp) (sp : Lanes (Option Frag)) (set : Bool) (m : LaneMask) (f : Lane → CC) :
    (w.resplit sp).setCC set m f = (w.setCC set m f).resplit sp := by
  cases set <;> rfl

theorem Warp.putCC_resplit (w : Warp) (sp : Lanes (Option Frag)) (m : LaneMask) (set : Bool) (f : Lane → CC) :
    (w.resplit sp).putCC m set f = (w.putCC m set f).resplit sp := w.setCC_resplit sp set m f

theorem Warp.put_resplit (w : Warp) (sp : Lanes (Option Frag)) (m : LaneMask) (d : Nat) (c set : Bool) (f : Lane → Word × CC) :
    (w.resplit sp).put m d c set f = (w.put m d c set f).resplit sp := by
  cases c <;> cases set <;> rfl

theorem Warp.putP_resplit (w : Warp) (sp : Lanes (Option Frag)) (m : LaneMask) (d : Nat) (c set : Bool) (f : Lane → DWord × CC) :
    (w.resplit sp).putP m d c set f = (w.putP m d c set f).resplit sp := by
  cases c <;> cases set <;> rfl

theorem Warp.mark_resplit (w : Warp) (sp : Lanes (Option Frag)) (b : Bool) (r : RegClass × Nat) :
    (w.resplit sp).mark b r = (w.mark b r).resplit sp := by
  unfold Warp.mark
  split <;> rfl

theorem foldl_resplit {α : Type} {f : Warp → α → Warp} (hf : ∀ w sp x, f (w.resplit sp) x = (f w x).resplit sp) (l : List α)
    (w : Warp) (sp : Lanes (Option Frag)) : l.foldl f (w.resplit sp) = (l.foldl f w).resplit sp := by
  induction l generalizing w with
  | nil => rfl
  | cons x r ih => rw [List.foldl_cons, hf, ih, List.foldl_cons]

theorem Warp.toPipe_resplit (w : Warp) (sp : Lanes (Option Frag)) (p : PipeItem) :
    (w.resplit sp).toPipe p = (w.toPipe p).resplit sp :=
  foldl_resplit (fun w sp => w.mark_resplit sp false) p.dests { w with pipe := w.pipe ++ [p] } sp

/-! ### The forms of lane operations -/

theorem overSplit_h2Sem (o : H2) (f : Word → Word → Word × CC) : OverSplit (h2Sem o f) := fun _ w sp => w.put_resplit sp ..
theorem overSplit_h2Imm (o : H2) : OverSplit (h2Imm o) := fun _ w sp => w.put_resplit sp ..
theorem overSplit_n3Sem (o : N3) (f : Word → Word → Word × CC) : OverSplit (n3Sem o f) := fun _ w sp => w.put_resplit sp ..
theorem overSplit_n3Cmp (o : N3) (f : Word → Word → CC) : OverSplit (n3Cmp o f) := fun _ w sp => w.putCC_resplit sp ..
theorem overSplit_niSem (o : NI) (b : Word) (f : Word → Word → Word × CC) : OverSplit (niSem o b f) :=
  fun _ w sp => w.put_resplit sp ..
theorem overSplit_niCmp (o : NI) : OverSplit (niCmp o) := fun _ w sp => w.putCC_resplit sp ..
theorem overSplit_xr1 (o : Xr) (f : Word → Word × CC) : OverSplit (xr1 o f) := fun _ w sp => w.put_resplit sp ..
theorem overSplit_xr2 (o : Xr) (f : Word → Word → Word × CC) : OverSplit (xr2 o f) := fun _ w sp => w.put_resplit sp ..
theorem overSplit_xr3 (o : Xr) (f : Word → Word → Word → Word × CC) : OverSplit (xr3 o f) := fun _ w sp => w.put_resplit sp ..
theorem overSplit_xrCarry (o : Xr) (f : Nat → Word → Word → Word × CC) : OverSplit (xrCarry o f) :=
  fun _ w sp => w.put_resplit sp ..
theorem overSplit_xrMadw (o : Xr) : OverSplit (xrMadw o) := fun _ w sp => w.putP_resplit sp ..
theorem overSplit_xrIcmp (o : Xr) : OverSplit (xrIcmp o) := fun _ w sp => w.putCC_resplit sp ..
theorem overSplit_xrPair (o : Xr) (f : DWord → DWord → DWord × CC) : OverSplit (xrPair o f) := fun _ w sp => w.putP_resplit sp ..
theorem overSplit_selSem (o : Sel) (cc : Word → CC) (fa fb : Word → Word) : OverSplit (selSem o cc fa fb) :=
  fun _ w sp => w.put_resplit sp ..
theorem overSplit_lut3Sem (o : Lut3) : OverSplit (lut3Sem o) := fun _ w sp => w.put_resplit sp ..
theorem overSplit_xf1 (o : Xr) (f : Word → Word × CC) : OverSplit (xf1 o f) := fun _ w sp => w.put_resplit sp ..
theorem overSplit_xf2 (o : Xr) (f : Word → Word → Word × CC) : OverSplit (xf2 o f) := fun _ w sp => w.put_resplit sp ..
theorem overSplit_xf3 (o : Xr) (f : Word → Word → Word → Word × CC) : OverSplit (xf3 o f) := fun _ w sp => w.put_resplit sp ..
theorem overSplit_xfCmp (o : Xr) : OverSplit (xfCmp o) := fun _ w sp => w.putCC_resplit sp ..
theorem overSplit_fscaleSem (o : Fscale) : OverSplit (fscaleSem o) := fun _ w sp => w.put_resplit sp ..
theorem overSplit_xp2 (f : Fmt) (o : Xr) (g : Nat → Nat → Nat) : OverSplit (xp2 f o g) := fun _ w sp => w.put_resplit sp ..
theorem overSplit_xp3 (f : Fmt) (o : Xr) (g : Nat → Nat → Nat → Nat) : OverSplit (xp3 f o g) := fun _ w sp => w.put_resplit sp ..
theorem overSplit_moviSem (o : Movi) : OverSplit (moviSem o) := fun _ w sp => w.put_resplit sp ..
theorem overSplit_shflSem (o : Shfl) : OverSplit (shflSem o) := fun _ w sp => w.put_resplit sp ..
theorem overSplit_voteSem (o : Vote) : OverSplit (voteSem o) := fun _ w sp => w.put_resplit sp ..
theorem overSplit_tredSem (o : Tred) : OverSplit (tredSem o) := fun _ w sp => w.put_resplit sp ..
theorem overSplit_xrngSem (o : Xrng) : OverSplit (xrngSem o) := fun _ w sp => w.toPipe_resplit sp _
theorem overSplit_xsortSem (o : Xsort) : OverSplit (xsortSem o) := fun _ w sp => w.toPipe_resplit sp _
theorem overSplit_xqntSem (o : Xqnt) : OverSplit (xqntSem o) := fun _ w sp => w.toPipe_resplit sp _
theorem overSplit_xdqntSem (o : Xdqnt) : OverSplit (xdqntSem o) := fun _ w sp => w.toPipe_resplit sp _

theorem overSplit_widSem (o : Pack) (g : Nat) : OverSplit (widSem o g) := fun _ w sp =>
  foldl_resplit (fun _ _ _ => rfl) (List.range g) w sp

/-- Of the operations that write a pair for one type and a word for the others. -/
theorem overSplit_ite {b : Bool} {f g : LaneMask → Warp → Warp} (hf : OverSplit f) (hg : OverSplit g) :
    OverSplit fun m w => if b then f m w else g m w := by
  cases b
  · exact hg
  · exact hf

theorem overSplit_xrLea (o : Xr) : OverSplit (xrLea o) :=
  overSplit_ite (fun _ w sp => w.putP_resplit sp ..) (fun _ w sp => w.put_resplit sp ..)
theorem overSplit_xrShift (o : Xr) (f : Word → Word → Word × CC) (g : DWord → Nat → DWord) : OverSplit (xrShift o f g) :=
  overSplit_ite (fun _ w sp => w.putP_resplit sp ..) (overSplit_xr2 o f)
theorem overSplit_movSem (o : Xr) : OverSplit (movSem o) :=
  overSplit_ite (fun _ w sp => w.putP_resplit sp ..) (overSplit_xr1 o resW)

theorem overSplit_movsSem (o : Movs) : OverSplit (movsSem o) := by
  intro m w sp
  unfold movsSem
  split
  · rfl
  · exact w.setS_resplit sp ..
  · exact w.setS_resplit sp ..

theorem overSplit_cvtSem (o : Cvt) : OverSplit (cvtSem o) := by
  intro m w sp
  unfold cvtSem
  extract_lets d
  split
  · split
    · exact w.put_resplit sp ..
    · exact w.put_resplit sp ..
    · split
      · exact w.putP_resplit sp ..
      · exact w.put_resplit sp ..
  · split <;> exact w.put_resplit sp ..
  · split <;> exact w.put_resplit sp ..
  · split
    · exact w.put_resplit sp ..
    · split
      · exact w.putP_resplit sp ..
      · exact w.put_resplit sp ..

theorem overSplit_packSem (o : Pack) (g : Nat) : OverSplit (packSem o g) := by
  intro m w sp
  unfold packSem
  extract_lets f n k w1 k' w1'
  have h : w1 = w1'.resplit sp := w.put_resplit sp ..
  split
  · rw [h]; rfl
  · exact h

end Sys2Proof.Machine
end

section
/-! Which instructions act as lane operations: an instruction of `bodyOf` that is none of them is told apart by what it does in a
device where nothing is mapped and no scratchpad is granted. -/

namespace Sys2Proof.Machine

/-! ### A device where nothing is mapped -/

/-- A block of no banks with one warp. -/
def spareBlock (w : Warp) : Block := { uid := 0, lid := 0, index := 0, core := 0, since := 0, banks := [], warps := [w] }

/-- A device that holds a warp and nothing else. -/
def holding (w : Warp) : State := { State.reset with blocks := [spareBlock w] }

/-- A warp as it starts. -/
def spareWarp : Warp := startWarp fetchDesc 0 0 (0, 0) 0 false

/-- A fragment of the device's warp in a speculation window, past its release action. -/
def spare : Ctx :=
  { ref := ⟨0, 0, .path 0 false⟩, b := spareBlock spareWarp, w := spareWarp, f := { mask := 1, pc := 0, released := true }
    l := { id := 0, desc := fetchDesc, queue := 0, prio := 0, asid := 0, parent := none, root := 0, st := .running, devCount := 0,
           next := 1, start := none } }

/-- An effect completes. -/
def Eff.isOk : Eff → Bool
  | .ok _ => true
  | _ => false

/-- What a lane operation does to a warp is seen in a device that holds it. -/
theorem warp_of_lane {body : Ctx → LaneMask → State → Eff} {g : LaneMask → Warp → Warp} {m : LaneMask} {w w' : Warp} {t : State}
    (hl : body = lane g) (hb : body spare m (holding w) = .ok t) (ht : t.warp? 0 0 = some w') : g m w = w' := by
  subst hl
  cases hb
  exact Option.some.inj ht

theorem lane_injective {f g : LaneMask → Warp → Warp} (h : lane f = lane g) : g = f :=
  funext fun _ => funext fun _ => warp_of_lane h rfl rfl

/-- A lane operation always completes. -/
theorem not_lane {body : Ctx → LaneMask → State → Eff} {g : LaneMask → Warp → Warp} {P : Prop} (h : some body = some (lane g))
    {s : State} (hf : (body spare 1 s).isOk = false) : P := by
  cases h
  cases hf

theorem walk_holding (w : Warp) (va : Nat) : (holding w).walk 0 va = none := by
  have hread : (holding w).mem.read ((holding w).dev.ctxBase.toNat + 32 * 0 + 8) 4 = 0 := rfl
  simp [State.walk, hread]

theorem laneXlate_holding (w : Warp) (l : Lane) (va : Nat) (acc : Acc) (reads : Bool) :
    (holding w).laneXlate spare l va acc reads = (holding w, .error ⟨l, 0x0A, 0, va⟩) := by
  have hfind : (holding w).tlbFind ((holding w).quadOf spare.b.core) spare.l.asid va = none := rfl
  have hwalk : (holding w).walk spare.l.asid va = none := walk_holding w va
  simp only [State.laneXlate, State.xlate, hfind, hwalk]
  rfl

theorem lanesOf_one : lanesOf 1 = [0] := by decide

theorem eachLane_one {s s' : State} {f : State → Lane → State × Option LaneErr} {e : LaneErr} (h : f s 0 = (s', some e)) :
    s.eachLane (lanesOf 1) f = (s', [e]) := by
  rw [lanesOf_one, State.eachLane, List.foldl_cons, h]
  rfl

theorem width_bytes_pos (k : Width) : 0 < k.bytes := by cases k <;> decide

theorem outOfBounds_spare {n : Nat} (hn : 0 < n) (addr : Lane → Nat) :
    ∃ x, outOfBounds spare 1 n .scratch addr = some x := by
  have hbad : ((lanesOf 1).filter fun l => decide (0 < addr l + n)) = [0] := by
    rw [lanesOf_one, List.filter_cons, if_pos (decide_eq_true (Nat.add_pos_right _ hn))]
    rfl
  simp only [outOfBounds, Priv.bound, show spare.b.scrSize = 0 from rfl, hbad]
  exact ⟨_, rfl⟩

theorem withRelease_spare (ord : Ord) (sc : Scope) (s : State) (k : State → Eff) : withRelease spare ord sc s k = k s :=
  withRelease_done (fun _ => ⟨.inl rfl, fun _ => rfl⟩) k

/-! ### The instructions that are no lane operations -/

theorem loadLane_spare (g : LoadArgs) (w : Warp) :
    loadLane g spare (holding w) 0 = (holding w, some ⟨0, 0x0A, 0, g.addr 0⟩) := by
  have hmiss : (holding w).l1Find spare (g.addr 0) = none := rfl
  simp only [loadLane, hmiss, ite_self, laneXlate_holding]

theorem globalLoad_spare (g : LoadArgs) (w : Warp) : (globalLoad g spare 1 (holding w)).isOk = false := by
  unfold globalLoad
  split
  · rfl
  · rw [eachLane_one (loadLane_spare g w)]
    rfl

theorem storeLane_spare (n : Nat) (addr data : Lane → Nat) (w : Warp) :
    storeLane n addr data spare (holding w) 0 = (holding w, some ⟨0, 0x0A, 0, addr 0⟩) := by
  simp only [storeLane, laneXlate_holding]

theorem globalStore_spare (n : Nat) (ord : Ord) (sc : Scope) (addr data : Lane → Nat) (w : Warp) :
    (globalStore n ord sc addr data spare 1 (holding w)).isOk = false := by
  unfold globalStore
  split
  · rfl
  · rw [withRelease_spare, eachLane_one (storeLane_spare n addr data w)]
    rfl

theorem atomLane_spare (op : AtomOp) (n : Nat) (addr : Lane → Nat) (opnd : Lane → Nat × Nat) (dst : Option Nat) (w : Warp) :
    atomLane op n addr opnd dst spare (holding w) 0 = (holding w, some ⟨0, 0x0A, 0, addr 0⟩) := by
  simp only [atomLane, laneXlate_holding]

theorem globalAtom_spare (o : Xa) (dst : Option Nat) (w : Warp) : (globalAtom o dst spare 1 (holding w)).isOk = false := by
  unfold globalAtom
  extract_lets n addr
  split
  · rfl
  · rw [withRelease_spare, eachLane_one (atomLane_spare ..)]
    rfl

theorem scratchGate_spare {n : Nat} (hn : 0 < n) (store : Bool) (addr : Lane → Nat) (s : State) (k : State → Eff) :
    (scratchGate store spare 1 n addr s k).isOk = false := by
  obtain ⟨x, hx⟩ := outOfBounds_spare hn addr
  unfold scratchGate
  split
  · rfl
  · rw [hx]
    rfl

theorem scratchLoad_spare {n : Nat} (hn : 0 < n) (d : Nat) (sx : Bool) (addr : Lane → Nat) (s : State) :
    (scratchLoad n d sx addr spare 1 s).isOk = false := scratchGate_spare hn ..

theorem scratchStore_spare {n : Nat} (hn : 0 < n) (ord : Ord) (addr data : Lane → Nat) (s : State) :
    (scratchStore n ord addr data spare 1 s).isOk = false := scratchGate_spare hn ..

theorem atomsEff_spare (o : Xas) (s : State) : (atomsEff o spare 1 s).isOk = false := by
  obtain ⟨x, hx⟩ := outOfBounds_spare (n := o.width.bytes) (width_bytes_pos _) (pAddr spare.w o.a o.sreg o.off.toInt o.width.bytes)
  unfold atomsEff
  extract_lets n addr
  split
  · rfl
  · rw [hx]
    rfl

theorem privLanes_spare {p : Priv} {n : Nat} {addr : Lane → Nat} {acc : Acc} {f : State → Lane → State × Option LaneErr}
    {dst : List (RegClass × Nat)} {w : Warp} {e : LaneErr} (hf : f (holding w) 0 = (holding w, some e)) :
    (privLanes p n addr acc f dst spare 1 (holding w)).isOk = false := by
  unfold privLanes
  split
  · rfl
  · split
    · rfl
    · rw [eachLane_one hf]
      rfl

theorem localLine_spare (l : Lane) (va n : Nat) (acc : Acc) (bypass : Bool) (w : Warp) :
    localLine spare l va n acc bypass (holding w) = (holding w, .error ⟨l, 0x0A, 0, va⟩) := by
  have hfind : ((holding w).core spare.b.core).lines = [] := rfl
  simp only [localLine, hfind, List.find?_nil, laneXlate_holding]

theorem ldlEff_spare (o : Xp) (w : Warp) : (ldlEff o spare 1 (holding w)).isOk = false :=
  privLanes_spare (by simp only [ldlLane, localLine_spare]; rfl)

theorem stlEff_spare (o : Xp) (w : Warp) : (stlEff o spare 1 (holding w)).isOk = false :=
  privLanes_spare (by simp only [stlLane, localLine_spare]; rfl)

theorem ldcEff_spare (o : Xp) (w : Warp) : (ldcEff o spare 1 (holding w)).isOk = false :=
  privLanes_spare (by simp only [ldcLane, laneXlate_holding]; rfl)

theorem ldaEff_spare (o : Xm) (s : State) : (ldaEff o spare 1 s).isOk = false := by
  obtain ⟨x, hx⟩ := outOfBounds_spare (n := o.width.bytes) (width_bytes_pos _) fun l => (spare.w.vl o.d.toNat l).toNat
  unfold ldaEff
  extract_lets n addr off obj
  split
  · rfl
  · split
    · rfl
    · rw [hx]
      rfl

/-- The device with an SC of the fragment whose outcome has not come back. -/
def scOwed : State :=
  { holding spareWarp with reqs := [{ id := 0, grp := 0, kind := .sc, block := 0, warp := 0, sel := spare.ref.sel, lane := 0, core := 0
                                      quad := 0, die := 0, asid := 0, va := 0, pa := 0, attr := {}, bytes := 4 }] }

theorem scEff_spare (o : Xm) : (scEff o spare 1 scOwed).isOk = false := by
  unfold scEff
  extract_lets n addr
  split
  · rfl
  · rw [withRelease_spare]
    rfl

theorem lockLanes_spare (addr : Lane → Nat) (w : Warp) :
    lockLanes addr spare 1 (holding w) = (holding w, [⟨0, 0x0A, 0, addr 0⟩], []) := by
  rw [lockLanes, lanesOf_one]
  simp only [List.foldl_cons, List.foldl_nil, laneXlate_holding, List.nil_append]

theorem lockEff_spare (o : Xm) (w : Warp) : (lockEff o spare 1 (holding w)).isOk = false := by
  simp only [lockEff, lockLanes_spare]
  rfl

theorem holding_modFrag (w : Warp) (f : Frag → Frag) : (holding w).modFrag spare.ref f = holding (w.modFrag f spare.ref.sel) := rfl

theorem waitaGlobal_spare (o : Waita) (sc : Scope) (w : Warp) : (waitaGlobal o sc spare 1 (holding w)).isOk = false := by
  cases hm : misaligned spare 1 o.width.bytes (gAddr spare.w o.a o.off.toInt o.width.bytes) with
  | some t =>
    simp only [waitaGlobal, hm]
    rfl
  | none =>
    simp only [waitaGlobal, hm, holding_modFrag, lockLanes_spare]
    rfl

theorem waitaScratch_spare (o : Waita) (k : Bool) (s : State) : (waitaScratch o k spare 1 s).isOk = false := by
  unfold waitaScratch
  extract_lets n addr
  obtain ⟨x, hx⟩ := outOfBounds_spare (n := n) (width_bytes_pos _) addr
  split
  · rfl
  · rw [hx]
    rfl

theorem waitaEff_spare (o : Waita) (w : Warp) : (waitaEff o spare 1 (holding w)).isOk = false := by
  unfold waitaEff
  cases o.space with
  | global sc => exact waitaGlobal_spare o sc w
  | scratch k => exact waitaScratch_spare o k _

theorem loadPiece_spare (va n : Nat) (w : Warp) :
    (holding w).loadPiece spare va n = (holding w, .error ⟨0, 0x0A, 0, va⟩) := by
  simp only [State.loadPiece, laneXlate_holding]

theorem loadBytes_spare {va : Nat} (h : va % 128 = 0) (w : Warp) :
    ∃ e, (holding w).loadBytes spare va 128 = (holding w, .error e) := by
  have hpieces : List.range ((va % 32 + 128 + 31) / 32) = [0, 1, 2, 3] := by
    rw [show va % 32 = 0 by omega]
    rfl
  simp only [State.loadBytes, hpieces, List.foldl_cons, List.foldl_nil, loadPiece_spare]
  exact ⟨_, rfl⟩

theorem launchEff_spare (o : Sys2Proof.Launch) (w : Warp) : (launchEff o spare 1 (holding w)).isOk = false := by
  simp only [launchEff, show spare.f.offer = none from rfl]
  split
  · rfl
  next h =>
    obtain ⟨e, he⟩ := loadBytes_spare (va := (spare.w.sp o.a.toNat).toNat % 2 ^ 56) (by simpa using h) w
    simp only [he, behindWrites]
    split <;> rfl

theorem prefEff_spare (o : Xm) (m : LaneMask) (w : Warp) : prefEff o spare m (holding w) = .ok (holding w) := by
  have hlane (l : Lane) : prefLane (gAddr spare.w o.a o.off.toInt 1) o.hint spare (holding w) l = holding w := by
    have hmiss : ((holding w).l1Find spare (gAddr spare.w o.a o.off.toInt 1 l)).isSome = false := rfl
    simp only [prefLane, hmiss, Bool.and_false, Bool.false_eq_true, if_false, laneXlate_holding]
  rw [prefEff, List.foldl_fixed' hlane]

end Sys2Proof.Machine
end

section
/-! A lane operation of a repetition neither reads nor writes a fragment (R107, R109). -/

namespace Sys2Proof.Machine

theorem of_lane {f g : LaneMask → Warp → Warp} (hf : OverSplit f) (h : some (lane f) = some (lane g)) : OverSplit g :=
  lane_injective (Option.some.inj h) ▸ hf

theorem overSplit_of_id {g : LaneMask → Warp → Warp} (h : ∀ m w, g m w = w) : OverSplit g := fun m w sp => by rw [h, h]

theorem latch_spare_resplit (w : Warp) (sp : Lanes (Option Frag)) (i t : Nat) :
    (w.resplit sp).latch spare.ref.sel i t = (w.latch spare.ref.sel i t).resplit sp := by
  unfold Warp.latch
  extract_lets
  split <;> rfl

/-- RDSR, which reads what lies outside the warp, is a lane operation for the registers it finds the same everywhere. -/
theorem overSplit_of_rdsr {o : Sr} {g : LaneMask → Warp → Warp} (h : rdsrEff o = lane g) : OverSplit g := by
  have hg (m : LaneMask) (w : Warp) : g m w =
      (if o.sreg then w.setS o.d.toNat (specialVal State.reset spare o.a.toNat 0)
        else w.setV o.d.toNat m (specialVal State.reset spare o.a.toNat)).latch spare.ref.sel o.a.toNat 0 := by
    have hbody : rdsrEff o spare m (holding w) = .ok ((holding w).modW spare fun w =>
        (if o.sreg then w.setS o.d.toNat (specialVal State.reset spare o.a.toNat 0)
          else w.setV o.d.toNat m (specialVal State.reset spare o.a.toNat)).latch spare.ref.sel o.a.toNat 0) :=
      if_neg (by simp [amaxWait, show amaxPending spare.b spare.ref.warp spare.w = false from rfl])
    exact warp_of_lane h hbody rfl
  intro m w sp
  rw [hg, hg]
  cases o.sreg
  · exact latch_spare_resplit (w.setV o.d.toNat m (specialVal State.reset spare o.a.toNat)) sp ..
  · exact (congrArg (·.latch spare.ref.sel o.a.toNat 0) (w.setS_resplit sp ..)).trans (latch_spare_resplit ..)

/-- An instruction of `bodyOf` that acts as a lane operation leaves the warp's fragments out. -/
theorem overSplit_of_bodyOf {j : Instr} {g : LaneMask → Warp → Warp} (h : bodyOf j = some (lane g)) : OverSplit g := by
  cases j with
  | iaddH2 o | isubH2 o | imulH2 o | andH2 o | orH2 o | xorH2 o | shlH2 o | shrH2 o | sarH2 o | movH2 o | faddH2 o | fsubH2 o
    | fmulH2 o | fmaxH2 o | fminH2 o => exact of_lane (overSplit_h2Sem o _) h
  | moviH2 o => exact of_lane (overSplit_h2Imm o) h
  | iaddN3 o | isubN3 o | imulN3 o | iminN3 o | imaxN3 o | andN3 o | orN3 o | xorN3 o | andnN3 o | shlN3 o | shrN3 o
    | sarN3 o | faddN3 o | fsubN3 o | fmulN3 o | fminN3 o | fmaxN3 o | hadd2N3 o | hmul2N3 o | badd2N3 o | bmul2N3 o
    | movN3 o => exact of_lane (overSplit_n3Sem o _) h
  | icmpN3 o | fcmpN3 o => exact of_lane (overSplit_n3Cmp o _) h
  | iaddi o | shli o | shri o | sari o | andi o | ori o | xori o | movi8 o => exact of_lane (overSplit_niSem o _ _) h
  | icmpi o => exact of_lane (overSplit_niCmp o) h
  | iadd o | isub o | imul o | imulh o | idiv o | irem o | imin o | imax o | rol o | ror o | and o | or o | xor o | andn o
    | bfe o => exact of_lane (overSplit_xr2 o _) h
  | iaddc o | isubb o => exact of_lane (overSplit_xrCarry o _) h
  | ineg o | iabs o | not o | popc o | clz o | ctz o | brev o => exact of_lane (overSplit_xr1 o _) h
  | imad o | fshl o | fshr o | bfi o | bysel o => exact of_lane (overSplit_xr3 o _) h
  | imadw o => exact of_lane (overSplit_xrMadw o) h
  | icmp o => exact of_lane (overSplit_xrIcmp o) h
  | isel o | fsel o => exact of_lane (overSplit_selSem o _ _ _) h
  | lea o => exact of_lane (overSplit_xrLea o) h
  | iadd64 o | isub64 o => exact of_lane (overSplit_xrPair o _) h
  | shl o | shr o | sar o => exact of_lane (overSplit_xrShift o _ _) h
  | lut3 o => exact of_lane (overSplit_lut3Sem o) h
  | fadd o | fsub o | fmul o | fmin o | fmax o | fminm o | fmaxm o | fdiv o => exact of_lane (overSplit_xf2 o _) h
  | ffma o => exact of_lane (overSplit_xf3 o _) h
  | fcmp o => exact of_lane (overSplit_xfCmp o) h
  | frnd o | fclass o | frcp o | frsq o | fsqrt o | fexp2 o | flog2 o => exact of_lane (overSplit_xf1 o _) h
  | fscale o => exact of_lane (overSplit_fscaleSem o) h
  | hadd2 o | hmul2 o | badd2 o | bmul2 o => exact of_lane (overSplit_xp2 _ o _) h
  | hfma2 o | bfma2 o => exact of_lane (overSplit_xp3 _ o _) h
  | cvt o => exact of_lane (overSplit_cvtSem o) h
  | cvt8 o | cvt4 o => exact of_lane (overSplit_packSem o _) h
  | wid8 o | wid4 o => exact of_lane (overSplit_widSem o _) h
  | mov o => exact of_lane (overSplit_movSem o) h
  | movi o => exact of_lane (overSplit_moviSem o) h
  | movs o => exact of_lane (overSplit_movsSem o) h
  | shfl o => exact of_lane (overSplit_shflSem o) h
  | vote o => exact of_lane (overSplit_voteSem o) h
  | tred o => exact of_lane (overSplit_tredSem o) h
  | xrng o => exact of_lane (overSplit_xrngSem o) h
  | xsort o => exact of_lane (overSplit_xsortSem o) h
  | xqnt o => exact of_lane (overSplit_xqntSem o) h
  | xdqnt o => exact of_lane (overSplit_xdqntSem o) h
  | ld32 o | ld o | lr o => exact not_lane h (globalLoad_spare _ spareWarp)
  | st32 o | st o => exact not_lane h (globalStore_spare _ _ _ _ _ spareWarp)
  | atom o | red o => exact not_lane h (globalAtom_spare o _ spareWarp)
  | lds32 o => exact not_lane h (scratchLoad_spare (n := 4) (by decide) _ _ _ State.reset)
  | lds o => exact not_lane h (scratchLoad_spare (width_bytes_pos o.width) _ _ _ State.reset)
  | sts32 o => exact not_lane h (scratchStore_spare (n := 4) (by decide) _ _ _ State.reset)
  | sts o => exact not_lane h (scratchStore_spare (width_bytes_pos o.width) _ _ _ State.reset)
  | atoms o => exact not_lane h (atomsEff_spare o State.reset)
  | ldl o => exact not_lane h (ldlEff_spare o spareWarp)
  | stl o => exact not_lane h (stlEff_spare o spareWarp)
  | ldc o => exact not_lane h (ldcEff_spare o spareWarp)
  | lda o => exact not_lane h (ldaEff_spare o State.reset)
  | sc o => exact not_lane h (scEff_spare o)
  | lock o => exact not_lane h (lockEff_spare o spareWarp)
  | waita o => exact not_lane h (waitaEff_spare o spareWarp)
  | launch o => exact not_lane h (launchEff_spare o spareWarp)
  | nop o => exact overSplit_of_id fun m w => warp_of_lane (Option.some.inj h) rfl rfl
  | pref o => exact overSplit_of_id fun m w => warp_of_lane (Option.some.inj h) (prefEff_spare o m w) rfl
  | rdsr o => exact overSplit_of_rdsr (Option.some.inj h)
  | _ => exact absurd h.symm (Option.some_ne_none _)

end Sys2Proof.Machine
end

section
/-! REP (R106-R110): its activation, and an iteration of a lane operation. -/

namespace Sys2Proof.Machine

/-! ### The checks of an iteration, of a fragment that a STEP has let go -/

/-- No check stops an instruction. -/
theorem gate_eq_none_iff {s : State} {c : Ctx} {l : Layout} {free : Bool} : gate s c l free = none ↔
    windowWaits c l free = false ∧ staticCheck c.l.desc l (opndsOf s c l) = none ∧
    (opndsOf s c l).find? (fun o => o.src && o.e && !o.regs.all (regFull c.b c.w)) = none ∧
    suspendedOn c.b c.ref.warp c.w l (opndsOf s c l) = none ∧
    (opndsOf s c l).filter (fun o => (o.src || o.dst) && !o.regs.all (regFull c.b c.w)) = [] ∧
    (l.isEngine && !(c.f.mask == 0xFFFF_FFFF)) = false ∧ (l.awaitsWalk && !s.condMet c .translation) = false ∧
    (l.sendsRequests && !s.condMet c (.requestRoom (popcount c.f.mask))) = false ∧
    ∀ n, c.f.acquire = some n → (l.isAccess && !s.condMet c (.loadsBefore n)) = false := by
  unfold gate opndsOf
  generalize l.opnds (vaultDims s c.l.asid c.w l) = os
  cases hw : windowWaits c l free with
  | true => simp only [if_true, reduceCtorEq, Bool.true_eq_false, false_and]
  | false =>
    cases hst : staticCheck c.l.desc l os with
    | some x => simp [hst]
    | none =>
      cases he : os.find? (fun o => o.src && o.e && !o.regs.all (regFull c.b c.w)) with
      | some o => simp [hst, he]
      | none =>
        cases hs : suspendedOn c.b c.ref.warp c.w l os with
        | some h => simp [hst, he, hs]
        | none =>
          cases hf : os.filter (fun o => (o.src || o.dst) && !o.regs.all (regFull c.b c.w)) with
          | cons o r => simp [hst, he, hs, hf]
          | nil =>
            simp only [hst, he, hs, hf, Bool.false_eq_true, if_false, true_and]
            cases c.f.acquire <;> simp [ite_eq_iff]

theorem moveOn_ref (s : State) (c : Ctx) : (s.moveOn c).2.ref = c.ref := by
  unfold State.moveOn
  split <;> rfl

theorem moveOn_w (s : State) (c : Ctx) : (s.moveOn c).2.w = c.w := by
  unfold State.moveOn
  split <;> rfl

theorem moveOn_mask (s : State) (c : Ctx) : (s.moveOn c).2.f.mask = c.f.mask := by
  unfold State.moveOn
  split <;> rfl

/-- The checks do not ask whether the fragment was halted. -/
theorem gate_moveOn {s : State} {c : Ctx} {l : Layout} {free : Bool} (h : gate s c l free = none) :
    gate (s.moveOn c).1 (s.moveOn c).2 l free = none := by
  unfold State.moveOn
  split
  · exact gate_eq_none_iff.mpr (gate_eq_none_iff.mp h :)
  · exact h

/-- A fragment let go changes no part of its warp but its own halt. -/
theorem moveOn_warp {s : State} {c : Ctx} (hc : s.ctx? c.ref = some c) (hp : isPath c.ref.sel = false) :
    ∃ sp, (s.moveOn c).1.warp? c.ref.block c.ref.warp = some (c.w.resplit sp) ∧
      (c.w.resplit sp).frag? c.ref.sel = some (s.moveOn c).2.f := by
  obtain ⟨-, -, hw, hf, -⟩ := State.ctx?_eq hc
  obtain ⟨k, hk⟩ := isPath_entry hp
  unfold State.moveOn
  split
  · refine ⟨(c.w.modFrag (fun f => { f with halted := false }) c.ref.sel).split, ?_, ?_⟩
    · have hsplit : c.w.modFrag (fun f => { f with halted := false }) c.ref.sel =
          c.w.resplit (c.w.modFrag (fun f => { f with halted := false }) c.ref.sel).split := by
        rw [hk]
        rfl
      exact ((Noted.modW s c fun w => w.modFrag (fun f => { f with halted := false }) c.ref.sel).warp_eq hw).trans
        (congrArg some hsplit)
    · rw [hk] at hf ⊢
      exact (Warp.frag?_modFrag c.w _ k).trans (by rw [hf]; rfl)
  · exact ⟨c.w.split, hw, hf⟩

/-! ### One iteration -/

/-- An iteration whose instruction completes (R109). -/
theorem repStep_of_ok {s s1 : State} {c : Ctx} {r : RepState} {f : RepFields} {j : Instr} {body : Ctx → LaneMask → State → Eff}
    (hj : c.repInstr r f = some j) (hg : gate s c j.layout true = none) (hb : bodyOf j = some body)
    (hok : body c (c.w.execMask c.f.mask j.layout.head) s = .ok s1) :
    s.repStep c r f = (s1.noteIssue c j.layout).modW c fun w => (w.noteWindow c.ref.sel c.f.pc j 0).repNext r f := by
  simp only [State.repStep, hj, hg, hb, hok]

/-- REP_ITERATION where the fragment issues (R109). -/
theorem exec_repIteration {s : State} {c : Ctx} {p : RepState} {f : RepFields} (hc : s.ctx? c.ref = some c)
    (hrep : c.w.rep = some p) (ho : p.owner = c.ref.sel) (ha : p.addr = c.f.pc) (hf : p.f = some f) (hi : s.issues c = true)
    (hredo : c.f.redo = []) (hheld : c.f.held = none) :
    exec (.repIteration ⟨c.ref.block, c.ref.warp⟩) s = .next ((s.moveOn c).1.repStep (s.moveOn c).2 p f) := by
  obtain ⟨-, -, hw, -, -⟩ := State.ctx?_eq hc
  have hin : c.inRep = some (p, f) := by simp [Ctx.inRep, hrep, ho, ha, hf]
  have hctx : s.ctx? ⟨c.ref.block, c.ref.warp, p.owner⟩ = some c := by rw [ho]; exact hc
  show execRepIteration ⟨c.ref.block, c.ref.warp⟩ s = _
  simp only [execRepIteration, hw, hrep, hctx, hin, hi, hredo, hheld, List.isEmpty_nil, Option.isNone_none, Bool.and_self, if_true]

/-- The registers, the flags and the repetition of a warp are another's. -/
structure SameIteration (w w' : Warp) : Prop where
  v : w'.v = w.v
  s : w'.s = w.s
  cc0 : w'.cc0 = w.cc0
  cc1 : w'.cc1 = w.cc1
  repc : w'.repc = w.repc
  rep : w'.rep = w.rep

/-- An iteration of a lane operation leaves the warp as the operation and the end of the iteration make it, but for its fragments
and its marks. -/
theorem repIteration_of_lane {s : State} {c : Ctx} {p : RepState} {f : RepFields} {j : Instr} {g : LaneMask → Warp → Warp}
    (hc : s.ctx? c.ref = some c) (hp : isPath c.ref.sel = false) (hrep : c.w.rep = some p) (ho : p.owner = c.ref.sel)
    (ha : p.addr = c.f.pc) (hf : p.f = some f) (hi : s.issues c = true) (hredo : c.f.redo = []) (hheld : c.f.held = none)
    (hj : stepped f p.len p.word (c.w.repc.toNat % 64) = some j) (hg : gate s c j.layout true = none)
    (hb : bodyOf j = some (lane g)) :
    ∃ t x q, exec (.repIteration ⟨c.ref.block, c.ref.warp⟩) s = .next t ∧
      t.warp? c.ref.block c.ref.warp = some (x.repNext p f) ∧ SameIteration (g (c.lanes j) c.w) x ∧
      x.frag? c.ref.sel = some q ∧ q.mask = c.f.mask := by
  obtain ⟨sp, hw, hq⟩ := moveOn_warp hc hp
  have hexec := exec_repIteration hc hrep ho ha hf hi hredo hheld
  have hmask := moveOn_mask s c
  have hgate := gate_moveOn hg
  have href := moveOn_ref s c
  have hcw := moveOn_w s c
  generalize (s.moveOn c).1 = s' at *
  generalize (s.moveOn c).2 = c' at *
  rw [← href] at hw
  obtain ⟨st, od, hn⟩ := noteIssue_noted (s'.modW c' (g (c.lanes j))) c' j.layout
  have hfin := ((Noted.modW s' c' (g (c.lanes j))).trans hn).trans
    (Noted.modW _ c' fun w => (w.noteWindow c'.ref.sel c'.f.pc j 0).repNext p f)
  have hstep := repStep_of_ok (r := p) (f := f) (s1 := s'.modW c' (g (c.lanes j))) (by rw [Ctx.repInstr, hcw]; exact hj) hgate hb
    (by rw [hcw, hmask]; rfl)
  rw [← hstep] at hfin
  have ht := hfin.warp_eq hw
  rw [overSplit_of_bodyOf hb, href] at ht
  obtain ⟨k, hk⟩ := isPath_entry hp
  rw [hk] at ht hq ⊢
  exact ⟨_, _, _, hexec, ht, ⟨rfl, rfl, rfl, rfl, rfl, rfl⟩, hq, hmask⟩

end Sys2Proof.Machine
end

section
/-! The statement about REP (R106-R110): its two lengths activate REPC alike, and an iteration that is not the last keeps it active. -/

namespace Sys2Proof.Machine

/-! ### The end of an iteration -/

theorem fieldOf_repc (x : BitVec 7) : fieldOf x 0 6 = x.toNat % 64 := by
  simp [fieldOf, BitVec.extractLsb'_toNat]

theorem repNext_regs {p : RepState} {k : Fin 32} (ho : p.owner = .entry k) (w : Warp) (f : RepFields) :
    (w.repNext p f).v = w.v ∧ (w.repNext p f).cc0 = w.cc0 ∧ (w.repNext p f).cc1 = w.cc1 ∧ (w.repNext p f).s = w.s := by
  unfold Warp.repNext
  rw [ho]
  extract_lets i
  split <;> exact ⟨rfl, rfl, rfl, rfl⟩

/-- Before the last iteration REPC advances (R109). -/
theorem repNext_of_lt {w : Warp} {f : RepFields} (h : w.repc.toNat % 64 + 1 < f.count) (p : RepState) :
    w.repNext p f = { w with repc := BitVec.ofNat 7 (0x40 + w.repc.toNat % 64 + 1) } := by
  rw [← fieldOf_repc] at h ⊢
  exact if_pos h

/-- After the last iteration the fragment stands past the REP and the stepped instruction (R110). -/
theorem repNext_of_le {w : Warp} {p : RepState} {f : RepFields} {k : Fin 32} {q : Frag} (h : f.count ≤ w.repc.toNat % 64 + 1)
    (ho : p.owner = .entry k) (hq : w.frag? (.entry k) = some q) :
    (w.repNext p f).repc = 0 ∧ (w.repNext p f).rep = none ∧
      (w.repNext p f).frag? (.entry k) = some { q.retire 0 with pc := p.addr + BitVec.ofNat 64 (p.preLen + p.len) } := by
  rw [← fieldOf_repc] at h
  have hn : w.repNext p f = ({ w with repc := 0, rep := none } : Warp).modFrag
      (fun g => { g.retire 0 with pc := p.addr + BitVec.ofNat 64 (p.preLen + p.len) }) (.entry k) := by
    rw [← ho]
    exact if_neg h.not_gt
  rw [hn]
  exact ⟨rfl, rfl, (Warp.frag?_modFrag _ _ k).trans (by
    rw [show ({ w with repc := 0, rep := none } : Warp).frag? (.entry k) = some q from hq]; rfl)⟩

/-! ### The activation of REPC -/

/-- A REP whose checks pass activates REPC (R106, R107). -/
theorem repEff_activates {s u : State} {c : Ctx} {f : RepFields} {preLen : Nat} {m : LaneMask} {hs : List Half} {j : Instr}
    (hp : isPath c.ref.sel = false) (hrep : c.w.rep = none)
    (hf : s.fetch c.l c.b.core (c.f.pc + BitVec.ofNat 64 preLen) = (u, .halves hs)) (hd : decodeHalves hs = .ok j)
    (hst : staticCheck c.l.desc j.layout (j.layout.opnds 1) = none)
    (hmis : repMisuse c.l.desc f j j.len (halvesWord hs) = none) :
    repEff true f preLen c m s = .went (u.modW c fun w => { w with
      repc := 0x40, rep := some ⟨c.ref.sel, c.f.pc, some f, halvesWord hs, j.len, preLen⟩, specs := w.specs }) := by
  simp only [repEff, hrep, hf, hd, hst, hmis, hp]
  rfl

/-- What an active REPC leaves as it was. -/
theorem rep_completes {i : Instr} {s : State} {c : Ctx} {f : RepFields} {preLen : Nat} {hs : List Half} {j : Instr}
    (h : Issues i s c) (hexec : exec i s = issue i (repEff true f preLen) s) (hrep : c.w.rep = none)
    (hf : (s.fetch c.l c.b.core (c.f.pc + BitVec.ofNat 64 preLen)).2 = .halves hs) (hd : decodeHalves hs = .ok j)
    (hst : staticCheck c.l.desc j.layout (j.layout.opnds 1) = none)
    (hmis : repMisuse c.l.desc f j j.len (halvesWord hs) = none) :
    ∃ t w, exec i s = .next t ∧ t.warp? c.ref.block c.ref.warp = some w ∧
      w.repc = 0x40 ∧ w.rep = some ⟨c.ref.sel, c.f.pc, some f, halvesWord hs, j.len, preLen⟩ ∧
      w.v = c.w.v ∧ w.s = c.w.s ∧ w.h = c.w.h ∧ w.cc0 = c.w.cc0 ∧ w.cc1 = c.w.cc1 ∧
      ∃ g, w.frag? c.ref.sel = some g ∧ g.pc = c.f.pc ∧ g.mask = c.f.mask := by
  have hfetch : s.fetch c.l c.b.core (c.f.pc + BitVec.ofNat 64 preLen) =
      ((s.fetch c.l c.b.core (c.f.pc + BitVec.ofNat 64 preLen)).1, .halves hs) := Prod.ext rfl hf
  have hfields := State.fetchedTo_fetch hfetch
  have hwarp : (s.fetch c.l c.b.core (c.f.pc + BitVec.ofNat 64 preLen)).1.warp? c.ref.block c.ref.warp = some c.w := by
    rw [hfields]
    exact h.warp
  obtain ⟨t, a, o, he, ht, -⟩ := went_completes h (repEff_activates h.here hrep hfetch hd hst hmis)
    ((Noted.modW _ c _).warp_eq hwarp)
  exact ⟨t, _, hexec.trans he, ht, rfl, rfl, rfl, rfl, rfl, rfl, rfl, c.f, h.frag, rfl, rfl⟩

/-- Settles O17: `repEff_activates` for the REP, `repIteration_of_lane` and the two ends of `repNext` for an iteration. -/
theorem theRepeatPrefixRepeats : Obligations.TheRepeatPrefixRepeats := by
  unfold Obligations.TheRepeatPrefixRepeats
  refine ⟨?_, ?_⟩
  · rintro i f preLen j hs (⟨o, rfl, rfl, rfl⟩ | ⟨rfl, rfl⟩) s c h ⟨hrep, hf, hd, hst, hmis⟩
    · have hal : o.h.guard = .al := h.guard rfl o.h rfl
      exact rep_completes h (by rw [← beq_iff_eq] at hal; rw [← hal]; rfl) hrep hf hd hst hmis
    · exact rep_completes h rfl hrep hf hd hst hmis
  · intro s c p f j g hc hp hrep ho ha hf hi hredo hheld hj hg hb hkeeps
    obtain ⟨t, x, q, hexec, ht, hx, hq, hmask⟩ := repIteration_of_lane hc hp hrep ho ha hf hi hredo hheld hj hg hb
    obtain ⟨k, hk⟩ := isPath_entry hp
    obtain ⟨-, hgrep, hgrepc⟩ := hkeeps (c.lanes j) c.w
    have hrepc : x.repc = c.w.repc := hx.repc.trans hgrepc
    obtain ⟨hv, hcc0, hcc1, hsr⟩ := repNext_regs (ho.trans hk) x f
    refine ⟨t, _, hexec, ht, hv.trans hx.v, hcc0.trans hx.cc0, hcc1.trans hx.cc1, hsr.trans hx.s, fun hlt => ?_, fun hle => ?_⟩
    · rw [← hrepc] at hlt ⊢
      rw [repNext_of_lt hlt]
      exact ⟨rfl, hx.rep.trans (hgrep.trans hrep)⟩
    · rw [← hrepc] at hle
      rw [hk] at hq ⊢
      obtain ⟨h0, hnone, hfrag⟩ := repNext_of_le hle (ho.trans hk) hq
      exact ⟨h0, hnone, _, hfrag, rfl, hmask⟩

end Sys2Proof.Machine
end
